-- ==== Sys2Proof/Word.lean ====
section
/-!
DEFINITION. The plain data types of the IG-4128 model: bytes, words, and the list form of host blocks.
-/

namespace Sys2Proof

/-- One byte (R8). -/
abbrev Byte := BitVec 8

/-- A block of host memory as the device reads it, lowest address first (R8). -/
abbrev Block := List Byte

/-- What a read of host memory by the device returns: `none` is a read that fails (HOST_READ_ERROR, R394). -/
abbrev HostRead := Option Block

/-- A 128-bit device time (R53): TAI seconds in the upper half, a binary fraction in the lower. -/
abbrev DevTime := BitVec 128

end Sys2Proof
end

