-- ==== Sys2Proof/Syntax.lean ====
section
/-!
DEFINITION. The commands that the block takes: the inductive `Instr`, one constructor per row of the opcode table,
with the operands of each row, and the operand types.
-/

namespace Sys2Proof

/-- The descriptor forms: one for each opcode and selector (R404, R405). -/
inductive DescOp where
  | noop | fence | timeWait | modeSet | contextCreate | contextDestroy | ringCreate | ringDestroy
  | planCreate | planStart | planStop | planDestroy
  | windowTable | windowDrop | windowReconfigure | maskLoad | maskDrop
  | triggerArm | triggerDisarm | captureReadSegments | captureReadWords | captureRelease
  | spuLoad | spuLaunch | spuSignal | spuStop
  | streamOpenRing | streamOpenDisk | streamClose | diskBind | diskUnbind
  | displayOutput | displayLayer | displayLutLoad | panelCmd | layerOff | outputOff | displayFlip
  | tdcEnable | tdcRelease | tdcGateInterval | tdcGateFrequency
  | calSetMode | calManualLoad | calFence | calRampLength | runForeground | tableReset
  | setTimePps | setTimeImmediate
  | powerHintCap | powerHintNextEvent | powerHintUncap
  | flightRead | replayLoadHost | replayLoadFlight | replayUnload | attestBind
  | selftest | clearRetirement | laneTestEnter | laneTestExit | dramTest
  /-- An undefined opcode, or a defined opcode with an undefined or zero selector. -/
  | bad (opcode : BitVec 8)
  deriving DecidableEq, Repr

/-- The 64 bytes of a descriptor as its context posts it (R403), but for the opcode byte. -/
structure Sub where
  /-- the posting context -/
  ctx : BitVec 10
  /-- reserved bytes 0x01-0x07 -/
  resv : BitVec 56
  /-- user_tag -/
  tag : BitVec 64
  /-- bytes 0x10-0x3F -/
  body : BitVec 384
  deriving DecidableEq, Repr


/-- What a lane's partner does during Phase 2 (R475): the preset it gives the device's transmitter (15 for a coefficient set),
whether it rejects req_preset, and whether it rejects fallback_preset too. -/
structure LaneTraining where
  txPreset : BitVec 4
  reject : Bool
  rejectFallback : Bool
  deriving DecidableEq, Repr

/-- What patrol scrub finds in a codeword (R447, R449): all symbols right, one wrong, or more. -/
inductive ScrubResult where
  | clean
  | symbol (n : Nat)
  | uncorrectable
  deriving DecidableEq, Repr

/-- JTAG instructions (R576). -/
inductive JtagInstr where
  | bypass | idcode | extest
  deriving DecidableEq, Repr

/-- What the fuses hold for one pair (R126, R128, R139): the factory coefficient set, and the temperature-table seeds as
full-scale step, bin, odd-to-even gain ratio, skew trim and FIR. -/
structure FuseSkim where
  factory : List Int
  seeds : List (Nat × Nat × Int × Int × List Int)
  deriving DecidableEq, Repr

/-- Stage 1: what the fuses and the ROM give (R77, R112, R488-R490): the fused counter, bits on which the three copies of a fuse
word disagree, the DeviceID digest, the digest of the boot ROM, the nominal interpolator gain, and the pairs' values. -/
structure Fuses where
  svn : BitVec 7
  votes : BitVec 16
  devId : BitVec 384
  rom : BitVec 384
  gain : Nat
  skim : List FuseSkim
  deriving DecidableEq, Repr

/-- A firmware slot whose signature verifies (R488): security_version, version, commit_svn, digest of image and security_version, and
the least patch_version that it declares (R361). -/
structure Firmware where
  svn : BitVec 7
  version : BitVec 32
  commit : Bool
  digest : BitVec 384
  minPatch : BitVec 32
  deriving DecidableEq, Repr

/-- The geometry that the board table states for the channels (R442, R443, R461). -/
structure BoardDram where
  ranks : Nat
  /-- 2, 3 or 4: 16, 24 or 32 Gb per die -/
  dieGb : Nat
  trfcNs : Nat
  rowPerm : List Nat
  rowXor : Nat
  bankHash : List Nat
  rfm : Bool
  deriving DecidableEq, Repr

/-- A verified copy of the board table (R492): its sequence number, the digest of its content and number (R495), REF_FREQ, the pair
rate of SCLK_IN if it selects that clock, PPS_DELAY and PPS_EDGE, the default mode or 0, the default full-scale steps, the AMC table if it
gives one, the 96 equalisation entries, the DRAM items if it gives them, and FR_MB or 0. -/
structure BoardTable where
  seq : BitVec 32
  digest : BitVec 384
  refFreq : BitVec 2
  sclk : Option (Nat × Nat)
  ppsDelay : BitVec 16
  ppsFalling : Bool
  mode : Nat
  steps : List (BitVec 4)
  amc : Option (List (BitVec 5 × BitVec 13) × BitVec 6)
  eq : List (BitVec 64)
  dram : Option BoardDram
  frMb : Nat
  deriving DecidableEq, Repr

/-- What a Primer stage finds (R530). A copy or slot that is `none` cannot be read or does not verify. -/
inductive PrimerWork where
  /-- stage 1 -/
  | fuses (f : Fuses)
  /-- stage 2: firmware slots A and B, and the three copies of the Hedge Policy Block as stored -/
  | firmware (slots : List (Option Firmware)) (policy : List (Option Block))
  /-- stage 3: the stored patch image, and the units whose ROM fails its scan -/
  | microcode (image : Option Block) (romFails : BitVec 17)
  /-- stage 4: the three copies of the board table, the alias and DeviceID certificates, and whether REFCLK is there -/
  | board (copies : List (Option BoardTable)) (certs : List Byte) (refclk : Bool)
  /-- stage 5: channels that fail training, and channels whose die disagrees with the board table; and the offset of the first
  sample after the first qualification of the sample clock, in 2^-16 ns -/
  | memory (failed mismatch : BitVec 12) (offset : BitVec 32)
  /-- stage 6: what FOREGROUND measured on each pair: the sets of the sixteen steps, and the termination trims; and the milliseconds
  since the fault of a restart that R540 counts -/
  | calibration (sets : List (List (List Int))) (trims : List Int) (lostMs : Nat)
  deriving DecidableEq, Repr

/-- A microword that fails parity as a unit fetches it (R351, R352): from patch RAM; its ROM address, and its patch address; the word as
read; whether a visible write of the current instruction had been executed (R350), and how many lines of its chunk an RCOPY had copied. -/
structure WordFailure where
  patch : Bool
  rom : BitVec 14
  addr : BitVec 10
  word : BitVec 176
  visible : Bool
  lines : BitVec 8
  deriving DecidableEq, Repr

/-- The commands of the block, one constructor per row of the opcode table. -/
inductive Instr where
  /-- NOOP (R404): Descriptor that does nothing and completes when it begins. -/
  | noop (d : Sub)
  /-- BAD_OPCODE (R405): A descriptor with an undefined opcode completes with BAD_OPCODE and has no effect. -/
  | badOpcode (d : Sub) (opcode : BitVec 8)
  /-- FENCE (R408): Holds later descriptors of the context until all earlier ones and, with RECORDS, their records are done. -/
  | fence (d : Sub)
  /-- TIME_WAIT (R409): Holds later descriptors of the context until device time reaches wait_time. -/
  | timeWait (d : Sub)
  /-- TIME_WAIT_RELEASE (R409): Device time reaches a pending wait_time, and the TIME_WAIT completes. -/
  | timeWaitRelease
  /-- MODE_SET (R37): Context 0 requests a device mode and the change is accepted or refused. -/
  | modeSet (d : Sub)
  /-- MODE_CHANGE_DRAIN (R45): At the drain point, running plans stop taking words, units disarm and the capture writer stops. -/
  | modeChangeDrain
  /-- MODE_CHANGE_FLUSH (R47): Records due from the drain have been written to their rings. -/
  | modeChangeFlush
  /-- MODE_CHANGE_REPARTITION (R45): Regions are resized and zeroed, OFF is powered down or up, and MGT_MODE_PARTITION is updated. -/
  | modeChangeRepartition
  /-- MODE_CHANGE_RECHECK (R46): Running plans are re-checked in PLAN_START order against the new mode and restarted or stopped. -/
  | modeChangeRecheck
  /-- MODE_CHANGED (R45): MODE_SET completes: MODE updates, MODE_GEN increments, the event is sent and held descriptors are released. -/
  | modeChanged
  /-- CONTEXT_CREATE (R376): Creates a further context on the sender's function, decided by the attach checks. -/
  | contextCreate (d : Sub)
  /-- CONTEXT_DESTROY (R377): Starts teardown of the named context. -/
  | contextDestroy (d : Sub)
  /-- CONTEXT_TEARDOWN_COMPLETE (R378): Teardown ends: objects are released, the doorbell page goes inert and CONTEXT_REMOVED is sent. -/
  | contextTeardownComplete (ctx : BitVec 10)
  /-- RING_CREATE (R385): Creates a data ring, optionally joining a stream on the other port, and returns its stream_id. -/
  | ringCreate (d : Sub)
  /-- RING_DESTROY (R386): Frees a data ring after writing its final seal record. -/
  | ringDestroy (d : Sub)
  /-- PLAN_CREATE (R41): Reads a plan object and checks that it fits the current mode on an idle device. -/
  | planCreate (d : Sub) (r : List HostRead)
  /-- PLAN_START (R42): Reserves everything the plan needs and waits for its start word. -/
  | planStart (d : Sub) (r : List HostRead)
  /-- PLAN_FIRST_WORD (R415): The first word at or after start_time arrives; the plan takes it and PLAN_START completes. -/
  | planFirstWord (plan : BitVec 32)
  /-- PLAN_STOP (R415): Stops a running plan and starts its partial dumps, traces and density sweeps. -/
  | planStop (d : Sub)
  /-- PLAN_STOP_COMPLETE (R216): The stopped plan's drains end and PLAN_STOP completes. -/
  | planStopComplete (plan : BitVec 32)
  /-- PLAN_DESTROY (R415): Stops the plan if it is running, without records, and destroys it. -/
  | planDestroy (d : Sub)
  /-- WINDOW_LOAD_TABLE (R182): Loads a user window table into a handle, keeps its backing copy and stages it into T. -/
  | windowLoadTable (d : Sub) (r : List HostRead)
  /-- WINDOW_LOAD_DROP (R182): Frees a user window table handle. -/
  | windowLoadDrop (d : Sub)
  /-- WINDOW_LOAD_RECONFIGURE (R195): Requests a new window, size, overlap or taps on a running transform stream. -/
  | windowLoadReconfigure (d : Sub)
  /-- TRANSFORM_SWITCH (R196): The stream reaches its switch point and begins new-configuration frames. -/
  | transformSwitch (plan : BitVec 32) (stream : BitVec 8)
  /-- MASK_LOAD (R230): Op LOAD stages a Topiary mask image into a handle. -/
  | maskLoad (d : Sub) (r : List HostRead)
  /-- MASK_DROP (R230): Op DROP frees a Topiary mask handle. -/
  | maskDrop (d : Sub)
  /-- TRIGGER_ARM (R235): Arms the selected trigger units of a plan and clears FROZEN. -/
  | triggerArm (d : Sub)
  /-- TRIGGER_DISARM (R235): Disarms the selected trigger units of a plan. -/
  | triggerDisarm (d : Sub)
  /-- CAPTURE_READ_SEGMENTS (R247): Writes the headers, data and optionally tags of a capture's segments to a data ring. -/
  | captureReadSegments (d : Sub)
  /-- CAPTURE_READ_WORDS (R247): Copies a word range of a capture ring to a data ring and checks each block for reuse. -/
  | captureReadWords (d : Sub)
  /-- CAPTURE_RELEASE (R247): Closes a capture if it is still open and frees its blocks. -/
  | captureRelease (d : Sub)
  /-- SPU_LOAD (R308): Copies a kernel image into a handle and checks its header. -/
  | spuLoad (d : Sub) (r : List HostRead)
  /-- SPU_LAUNCH (R309): Reserves SPUs and resources, then initialises and starts every instance of a kernel. -/
  | spuLaunch (d : Sub) (r : List HostRead)
  /-- SPU_SIGNAL (R310): Op SIGNAL pushes a value into the signal queues of the selected instances. -/
  | spuSignal (d : Sub)
  /-- SPU_STOP (R310): Op STOP asks the selected instances to end at their next interrupt point or safe point. -/
  | spuStop (d : Sub)
  /-- SPU_STOP_TAKES_EFFECT (R311): A stopping instance reaches an interrupt point or safe point and ends. -/
  | spuStopTakesEffect (n : BitVec 4)
  /-- STREAM_OPEN_RING (R424): Opens a sample export of plan sources to a data ring stream. -/
  | streamOpenRing (d : Sub)
  /-- STREAM_OPEN_DISK (R424): Opens a sample export of plan sources to a disk set with its own stream. -/
  | streamOpenDisk (d : Sub)
  /-- STREAM_CLOSE (R426): Closes an export, writes its final SEAL and flushes disk members. -/
  | streamClose (d : Sub)
  /-- DISK_BIND (R432): Makes an NVMe namespace range a member of a disk set and opens its window. -/
  | diskBind (d : Sub) (r : List HostRead)
  /-- DISK_UNBIND (R437): Stops submitting to a disk member and closes its window once its commands end. -/
  | diskUnbind (d : Sub)
  /-- DISK_ACTIVATE (R434): The host writes activate in a binding's control page and the device checks and activates it. -/
  | diskActivate (slot : BitVec 5) (qids : List (BitVec 32)) (maxKb : BitVec 32) (reserved : Bool)
  /-- DISPLAY_OUTPUT (R269): Configures and enables a display output with its display area. -/
  | displayOutput (d : Sub) (r : List HostRead)
  /-- DISPLAY_LAYER (R270): Configures one layer of an output with a DRAM, RENDER or DLIVE source. -/
  | displayLayer (d : Sub)
  /-- DISPLAY_LUT_LOAD (R271): Replaces a surface's colour table. -/
  | displayLutLoad (d : Sub) (r : List HostRead)
  /-- PANEL_CMD (R274): Sends a DCS write or read to the panel. -/
  | panelCmd (d : Sub) (r : List HostRead)
  /-- LAYER_OFF (R270): Disables a layer of an output. -/
  | layerOff (d : Sub)
  /-- OUTPUT_OFF (R269): Disables a display output. -/
  | outputOff (d : Sub)
  /-- DISPLAY_FLIP (R276): Requests new base offsets for DRAM layers, taken at a latch point. -/
  | displayFlip (d : Sub)
  /-- TDC_ENABLE (R72): Op ENABLE takes a TDC channel and starts its stamp stream, with an optional Staging extension. -/
  | tdcEnable (d : Sub)
  /-- TDC_RELEASE (R69): Op RELEASE gives up a TDC channel and its extension. -/
  | tdcRelease (d : Sub)
  /-- TDC_GATE_INTERVAL (R80): Arms an INTERVAL measurement on a gate pin after calibrating its channels. -/
  | tdcGateInterval (d : Sub) (r : List HostRead)
  /-- TDC_GATE_FREQUENCY (R82): Arms a FREQUENCY measurement on a gate pin after calibrating its channel. -/
  | tdcGateFrequency (d : Sub) (r : List HostRead)
  /-- CAL_SET_MODE (R144): Sets the Skim mode of the selected pairs. -/
  | calSetMode (d : Sub)
  /-- CAL_MANUAL_LOAD (R144): Puts pairs in MANUAL and offers a coefficient set for ramp commit. -/
  | calManualLoad (d : Sub) (r : List HostRead)
  /-- CAL_FENCE (R136): Places a software commit fence on the selected pairs. -/
  | calFence (d : Sub)
  /-- CAL_RAMP_LENGTH (R133): Sets the ramp length used by the next ramp commits. -/
  | calRampLength (d : Sub)
  /-- RUN_FOREGROUND (R140): Starts FOREGROUND calibration on the selected pairs in MAINTENANCE. -/
  | runForeground (d : Sub)
  /-- TABLE_RESET (R139): Reseeds the temperature tables of the selected pairs from fuses. -/
  | tableReset (d : Sub)
  /-- SET_TIME_NEXT_PPS (R57): Requests that device time be set at the next PPS edge. -/
  | setTimeNextPps (d : Sub)
  /-- SET_TIME_IMMEDIATE (R57): Sets device time on the first tick after acceptance. -/
  | setTimeImmediate (d : Sub)
  /-- SET_TIME_PPS_TIMEOUT (R58): No PPS edge arrives within 1.5 s and the pending SET_TIME completes with PPS_ABSENT. -/
  | setTimePpsTimeout
  /-- POWER_HINT_CAP (R526): Context 0 sets the device power-state cap. -/
  | powerHintCap (d : Sub)
  /-- POWER_HINT_NEXT_EVENT (R526): Records the sender's next-event time. -/
  | powerHintNextEvent (d : Sub)
  /-- POWER_HINT_UNCAP (R526): Removes the device power-state cap. -/
  | powerHintUncap (d : Sub)
  /-- FLIGHT_READ (R545): Freezes and consolidates the flight recorder and writes a bundle to a data ring. -/
  | flightRead (d : Sub)
  /-- REPLAY_LOAD_HOST (R548): Loads and verifies a replay bundle from host memory. -/
  | replayLoadHost (d : Sub) (r : List HostRead)
  /-- REPLAY_LOAD_FLIGHT (R548): Builds and verifies a replay bundle from the frozen flight recorder. -/
  | replayLoadFlight (d : Sub)
  /-- REPLAY_UNLOAD (R548): Frees the loaded replay bundle. -/
  | replayUnload (d : Sub)
  /-- ATTEST_BIND (R499): Binds a ring's stream to an SPDM session for keyed provenance. -/
  | attestBind (d : Sub)
  /-- SELFTEST (R578): Runs self-test in the free part of the TEST region. -/
  | selftest (d : Sub)
  /-- CLEAR_RETIREMENT (R358): Clears the SPU retirement record with effect from the next cold start. -/
  | clearRetirement (d : Sub)
  /-- LANE_TEST_ENTER (R482): Takes a port's link down and places it in TEST at a chosen rate. -/
  | laneTestEnter (d : Sub)
  /-- LANE_TEST_EXIT (R482): Leaves TEST, and the port retrains from Detect. -/
  | laneTestExit (d : Sub)
  /-- DRAM_TEST (R418): Runs the TEST_CONTROL DRAM test op. -/
  | dramTest (d : Sub)
  /-- HST_DB_CMD (R382): A command-tail doorbell write makes descriptors fetchable. -/
  | hstDbCmd (fn : BitVec 7) (page : BitVec 10) (v : BitVec 32)
  /-- HST_DB_CPL (R383): A completion-head doorbell write frees entries and re-arms the ring. -/
  | hstDbCpl (fn : BitVec 7) (page : BitVec 10) (v : BitVec 32)
  /-- HST_DB_EVT (R384): An event-head doorbell write frees entries and re-arms the ring. -/
  | hstDbEvt (fn : BitVec 7) (page : BitVec 10) (v : BitVec 32)
  /-- HST_DB_DATA (R387): A data-ring head doorbell write frees blocks so waiting records can be placed. -/
  | hstDbData (fn : BitVec 7) (page : BitVec 10) (r : BitVec 3) (v : BitVec 32)
  /-- ATTACH (R375): A write of ATTACH requests a new context, which is admitted or refused. -/
  | attach (fn : BitVec 7) (v : BitVec 32)
  /-- DETACH (R377): A write of DETACH tears down a context of the function. -/
  | detach (fn : BitVec 7) (v : BitVec 32)
  /-- ATTEN (R511): Hedge request to engage input attenuation. -/
  | atten (fn : BitVec 7) (arg : BitVec 4)
  /-- FAULT_CLEAR (R511): Hedge request to clear the supply latch. -/
  | faultClear (fn : BitVec 7) (arg : BitVec 4)
  /-- MP_RESET (R511): Hedge request to reset the MP island. -/
  | mpReset (fn : BitVec 7) (arg : BitVec 4)
  /-- HEDGE_REQ_WARM_RESTART (R511): Hedge request for a warm restart. -/
  | hedgeReqWarmRestart (fn : BitVec 7) (arg : BitVec 4)
  /-- CSU_RESTART (R109): Discards the CSU's partial window and realigns windows. -/
  | csuRestart (fn : BitVec 7) (v : BitVec 32)
  /-- CSU_CFG_WRITE (R109): A write of WINDOW_LOG2, RUN or FREEZE changes CSU windowing or publication. -/
  | csuCfgWrite (fn : BitVec 7) (v : BitVec 32)
  /-- AMC_CLR (R119): Clears the selected AMC accumulators. -/
  | amcClr (fn : BitVec 7) (v : BitVec 32)
  /-- AMC_CFG_WRITE (R115): A write of RUN, LAST_SLOT or TRIM_SEL changes the AMC sequence. -/
  | amcCfgWrite (fn : BitVec 7) (v : BitVec 32)
  /-- UCS_INJECT (R365): Arms an injected microcode parity failure in MAINTENANCE. -/
  | ucsInject (fn : BitVec 7) (v : BitVec 32)
  /-- ES_START (R480): Starts an eye scan of one lane point. -/
  | esStart (fn : BitVec 7) (v : BitVec 32)
  /-- ES_ABORT (R480): Ends a running eye scan. -/
  | esAbort (fn : BitVec 7) (v : BitVec 32)
  /-- INJ_GO (R484): Fires a single or burst error injection on a test pattern. -/
  | injGo (fn : BitVec 7) (lane : BitVec 5) (v : BitVec 32)
  /-- PRBS_CLEAR (R485): Clears the lane's pattern checker counters. -/
  | prbsClear (fn : BitVec 7) (lane : BitVec 5) (v : BitVec 32)
  /-- RC_READ (R370): A read of a register with RC fields returns and clears them together. -/
  | rcRead (fn : BitVec 7) (bar : BitVec 2) (off : BitVec 23) (width : BitVec 5)
  /-- SPLIT_READ_LOW (R108): A read of a 128-bit register's low half latches its high half for the function. -/
  | splitReadLow (fn : BitVec 7) (off : BitVec 23)
  /-- SPLIT_WRITE_LOW (R370): A 4-byte low-half write of a spanning field is staged until the high half is written. -/
  | splitWriteLow (fn : BitVec 7) (off : BitVec 23) (v : BitVec 32)
  /-- REGISTER_WRITE (R14): A write to a register that has no row of its own sets its fields by their access codes. -/
  | registerWrite (fn : BitVec 7) (bar : BitVec 2) (off : BitVec 23) (width : BitVec 5) (v : BitVec 128)
  /-- BAR_ACCESS_INVALID (R370): A misaligned, wrongly sized or VF-forbidden BAR access is ignored and counted. -/
  | barAccessInvalid (fn : BitVec 7) (bar : BitVec 2) (off : BitVec 23) (width : BitVec 5) (write : Bool)
  /-- BAR4_ACCESS (R371): A host or peer read or write reaches BAR4 through an open window or is refused. -/
  | bar4Access (port : BitVec 1) (a : BitVec 36) (n : BitVec 13) (data : Option (List Byte)) (poisoned : Bool)
  /-- MSIX_UNMASK (R391): Unmasking a vector sends any message its PBA bit holds. -/
  | msixUnmask (fn : BitVec 7) (vec : BitVec 11)
  /-- PPS_IN_EDGE (R59): A PPS_IN edge is stamped on TC0 and judged against the window. -/
  | ppsInEdge (tick : BitVec 64) (sub : Nat) (rising : Bool) (taken : Nat)
  /-- PPS_LOST (R59): Three seconds pass without an accepted edge: PPS_PRESENT clears and the quality becomes FREE. -/
  | ppsLost
  /-- PPS_OUT_RISE (R62): PPS_OUT rises on the first coarse tick at or after a whole second plus OFFSET. -/
  | ppsOutRise
  /-- PPS_OUT_FALL (R62): PPS_OUT falls after WIDTH_MS. -/
  | ppsOutFall
  /-- TIME_ANCHOR (R64): At each whole second, an anchor record is emitted to rings and the journal. -/
  | timeAnchor (meas : Option (Nat × Nat))
  /-- TDC_WRAP (R75): The 40-bit coarse count wraps and every enabled stream gets a wrap marker. -/
  | tdcWrap
  /-- TDC_EDGE (R71): An edge at a TDC channel is stamped or lost to dead time and queued. -/
  | tdcEdge (ch : BitVec 3) (tick : BitVec 64) (sub : Nat) (rising : Bool) (taken : Nat)
  /-- TDC_STAMPS_CLOSE (R74): A TDC_STAMPS record closes 10 µs after its first entry. -/
  | tdcStampsClose (ch : BitVec 3) (taken : Nat)
  /-- TDC_CALIBRATION (R77): An interpolator calibration falls due and switches in at switch_coarse. -/
  | tdcCalibration (ch : BitVec 3) (tick : BitVec 64) (rawOne rawTwo : BitVec 32) (temp : BitVec 16)
  /-- GATE_EDGE (R79): An edge on GATE0 or GATE1 arrives while a measurement is armed or open. -/
  | gateEdge (gate : BitVec 1) (level : Bool) (tick : BitVec 64)
  /-- GATE_OPEN (R79): The gate opens on the second coarse tick after the asserting edge. -/
  | gateOpen (gate : BitVec 1)
  /-- GATE_CLOSE (R79): The gate closes after deassertion and its results and summary are written. -/
  | gateClose (gate : BitVec 1)
  /-- GATE_MAX_DURATION (R85): The gate reaches max_duration and closes with MAX_DURATION. -/
  | gateMaxDuration (gate : BitVec 1)
  /-- REFCLK_LOST (R508): REFCLK is absent or off-frequency, and the time base goes into holdover. -/
  | refclkLost
  /-- REFCLK_RESTORED (R68): REFCLK returns and the PLLs relock without any step. -/
  | refclkRestored (ok : Bool)
  /-- SCLK_LOST (R508): The sample clock is lost and no words are formed. -/
  | sclkLost
  /-- SCLK_RESTORED (R508): The sample clock returns and the device behaves as after a retune. -/
  | sclkRestored (offset : BitVec 32)
  /-- SPLL_RELOCK (R51): The SPLL relocks after a retune: GAP word, RATE_CHANGE anchor and step commits. -/
  | spllRelock (offset : BitVec 32)
  /-- HEARTBEAT_WRITE (R392): Every 800,000 ticks, each context's heartbeat location is written. -/
  | heartbeatWrite
  /-- SAMPLE_WORD (R93): A converter pair forms a tagged, corrected sample word. -/
  | sampleWord (pair : BitVec 2) (vals : List Int) (eor : BitVec 8) (fifoFull absorbFull : Bool)
  /-- CSU_WINDOW_END (R107): A CSU window ends and is published unless frozen. -/
  | csuWindowEnd
  /-- AMC_SLOT_COMPLETE (R113): An AMC slot finishes averaging and deposits into its accumulator. -/
  | amcSlotComplete (sum : Int)
  /-- AMC_URGENT_REQUEST (R114): Hedge or Skim posts an urgent AMC request that aborts the running slot. -/
  | amcUrgentRequest (hedge : Bool) (channel trim : BitVec 5)
  /-- SKIM_BLOCK (R124): A Skim block of 2^21 words completes and is accepted or rejected. -/
  | skimBlock (pair : BitVec 2) (temp rms : BitVec 16)
  /-- SKIM_SOLVE (R125): The MP finishes a candidate solve for a pair and offers it for commit. -/
  | skimSolve (pair : BitVec 2) (cand : List Int) (offered : Bool)
  /-- SKIM_FENCE_END (R134): The fence end passes and a held set is committed. -/
  | skimFenceEnd (pair : BitVec 2)
  /-- SKIM_FENCE_EXPIRED (R135): A set held for W10 words is committed with FENCE_EXPIRED. -/
  | skimFenceExpired (pair : BitVec 2)
  /-- FOREGROUND_END (R140): FOREGROUND finishes and step-commits or keeps the set with FG_FAULT. -/
  | foregroundEnd (pair : BitVec 2) (sets : List (List Int)) (trims : List Int)
  /-- ZOOM_HOP (R159): A hop-table dwell ends and the next entry retunes the NCO. -/
  | zoomHop (sub : Bool) (u : BitVec 5)
  /-- ZOOM_RETUNE (R158): A pending SPU retune request applies at its index. -/
  | zoomRetune (sub : Bool) (u : BitVec 5)
  /-- ZOOM_WORD (R163): A zoom channel forms an output word with its positions and tags. -/
  | zoomWord (slot : BitVec 5)
  /-- SPECTRUM_FORMED (R176): A frame completes and its spectrum passes through detectors to consumers. -/
  | spectrumFormed (plan : BitVec 32) (stream : BitVec 8)
  /-- INT_DRAIN_END (R215): The paced drain of dump records ends. -/
  | intDrainEnd (plan : BitVec 32)
  /-- TRIGGER_EVENT_RELEASE (R234): A held trigger event passes its hold and is processed in placement order. -/
  | triggerEventRelease (u : BitVec 3)
  /-- AUTO_FORCE (R235): The AUTO forcing point passes with no fire and a forced fire is delivered. -/
  | autoForce (u : BitVec 3)
  /-- CAPTURE_SEGMENT_CLOSE (R244): A segment's last post word is written and the segment closes. -/
  | captureSegmentClose (plan : BitVec 32) (slot : BitVec 3)
  /-- CAPTURE_REARM (R244): The rearm point passes and a new capture may begin. -/
  | captureRearm (plan : BitVec 32) (slot : BitVec 3)
  /-- MISSED_TRIGGER_DELIVERY (R237): A queued missed fire is delivered as a TRIGGER record when credit allows. -/
  | missedTriggerDelivery (u : BitVec 3)
  /-- TRIGOUT_RISE (R239): TRIGOUT rises on its scheduled coarse tick. -/
  | trigoutRise
  /-- TRIGOUT_FALL (R239): TRIGOUT falls trigout_width ticks after its latest rise. -/
  | trigoutFall
  /-- LATCH_POINT (R275): An output's latch point takes pending flips and ready render buffers. -/
  | latchPoint (o : BitVec 1)
  /-- TE_EDGE (R275): A TE edge arrives on a command-mode output. -/
  | teEdge (o : BitVec 1) (tick : BitVec 64) (lowNs pulseNs : Nat)
  /-- DISPLAY_TE_TIMEOUT (R278): No qualified TE edge arrives within te_timeout_ms. -/
  | displayTeTimeout (o : BitVec 1)
  /-- SELF_TIMED_TRANSFER (R278): In TE fallback, a self-timed frame transfer starts at the refresh period. -/
  | selfTimedTransfer (o : BitVec 1)
  /-- BUFFER_RELEASED (R277): A replaced buffer is no longer read and its release event is posted. -/
  | bufferReleased (o : BitVec 1)
  /-- PANEL_TIMEOUT (R274): A panel read response does not arrive within 10 ms. -/
  | panelTimeout (o : BitVec 1)
  /-- INTERRUPT_MOD_TIMER (R391): The oldest counted entry has waited mod_us and the ring signals its vector. -/
  | interruptModTimer (ctx : BitVec 10) (ring : BitVec 4)
  /-- DESCRIPTOR_FETCH_ERROR (R377): A descriptor fetch or command ring read completes with an error and the context is torn down. -/
  | descriptorFetchError (ctx : BitVec 10)
  /-- FUNCTION_LEVEL_RESET (R377): An FLR on a function tears down its contexts. -/
  | functionLevelReset (fn : BitVec 7)
  /-- BUS_MASTER_ENABLE_CLEAR (R377): Clearing Bus Master Enable tears down the function's contexts. -/
  | busMasterEnableClear (fn : BitVec 7)
  /-- VF_ENABLE_CLEAR (R377): Clearing VF Enable tears down every context of the port. -/
  | vfEnableClear (port : BitVec 1)
  /-- LINK_DOWN (R377): A port's link goes down and its contexts and SPDM sessions end. -/
  | linkDown (port : BitVec 1)
  /-- HOT_RESET (R377): A hot reset of a port tears down its contexts. -/
  | hotReset (port : BitVec 1)
  /-- PERST (R531): Assertion or release of PA_PERST_N or PB_PERST_N. -/
  | perst (port : BitVec 1) (asserted : Bool)
  /-- PCIE_REFCLK_LOSS (R472): A port reference absent for 10 µs outside L1.2 takes the link down. -/
  | pcieRefclkLoss (port : BitVec 1)
  /-- LINK_TRAINING (R475): A port trains and equalises using its table entries. -/
  | linkTraining (port : BitVec 1) (rate : BitVec 3) (width : BitVec 5) (recoveries : Nat) (lanes : List LaneTraining)
  /-- L0S_ENTRY (R477): The transmitter enters L0s after L0S_IDLE of idle. -/
  | l0sEntry (port : BitVec 1)
  /-- L1_ENTRY (R477): The device initiates ASPM L1 after L1_IDLE of idle. -/
  | l1Entry (port : BitVec 1) (sub : BitVec 2)
  /-- MARGINING_COMMAND (R479): A partner's lane margining command is served. -/
  | marginingCommand (lane : BitVec 5) (start : Bool)
  /-- EYE_SCAN_DONE (R480): The scanned point reaches 2^DWELL_LOG2 compared bits. -/
  | eyeScanDone (errors : BitVec 48)
  /-- EYE_SCAN_TIMEOUT (R480): An eye scan not finished after 60 s ends with TIMEOUT. -/
  | eyeScanTimeout (compared errors : BitVec 48)
  /-- IDE_INTEGRITY_FAIL (R496): A TLP fails its IDE check and its stream becomes insecure. -/
  | ideIntegrityFail (port : BitVec 1) (stream : BitVec 8)
  /-- GET_VERSION (R494): SPDM GET_VERSION request. -/
  | getVersion (port : BitVec 1)
  /-- GET_CAPABILITIES (R494): SPDM GET_CAPABILITIES request. -/
  | getCapabilities (port : BitVec 1)
  /-- NEGOTIATE_ALGORITHMS (R494): SPDM NEGOTIATE_ALGORITHMS request. -/
  | negotiateAlgorithms (port : BitVec 1) (offered : Bool)
  /-- GET_DIGESTS (R494): SPDM GET_DIGESTS request. -/
  | getDigests (port : BitVec 1)
  /-- GET_CERTIFICATE (R494): SPDM GET_CERTIFICATE request for slot 0. -/
  | getCertificate (port : BitVec 1) (slot : BitVec 4) (off len : BitVec 16)
  /-- CHALLENGE (R494): SPDM CHALLENGE request signed with the alias key. -/
  | challenge (port : BitVec 1) (slot : BitVec 4) (request : List Byte)
  /-- GET_MEASUREMENTS (R495): SPDM GET_MEASUREMENTS request returning measurement blocks 1–7. -/
  | getMeasurements (port : BitVec 1) (op : BitVec 8) (signed : Bool) (request : List Byte)
  /-- KEY_EXCHANGE (R494): SPDM KEY_EXCHANGE request opening a session. -/
  | keyExchange (port : BitVec 1) (session : BitVec 32) (request : List Byte)
  /-- FINISH (R494): SPDM FINISH request completing a session. -/
  | finish (port : BitVec 1) (session : BitVec 32) (valid : Bool)
  /-- HEARTBEAT (R494): SPDM HEARTBEAT request on a session. -/
  | heartbeat (port : BitVec 1) (session : BitVec 32)
  /-- KEY_UPDATE (R494): SPDM KEY_UPDATE request. -/
  | keyUpdate (port : BitVec 1) (session : BitVec 32) (op : BitVec 8)
  /-- END_SESSION (R494): SPDM END_SESSION request. -/
  | endSession (port : BitVec 1) (session : BitVec 32)
  /-- IDE_KM (R496): IDE key management vendor-defined request setting IDE keys. -/
  | ideKm (port : BitVec 1) (session : BitVec 32) (stream op : BitVec 8)
  /-- DEBUG_UNLOCK_TOKEN (R491): A debug token arrives; if it verifies, keys are zeroised and a warm restart is ordered. -/
  | debugUnlockToken (port : Option (BitVec 1)) (devId : BitVec 384) (nonce : BitVec 128) (sig : List Byte)
  /-- INTERRUPT_TAKEN (R296): An enabled pending source is taken at an interrupt point and the SPU switches to B1. -/
  | interruptTaken (n : BitVec 4)
  /-- LONG_CHUNK_END (R335): A long instruction finishes a chunk and writes partial results and PRG at the safe point. -/
  | longChunkEnd (n : BitVec 4)
  /-- SPU_DMA_COMPLETE (R303): An SPU DMA descriptor completes, or faults and halts the instance. -/
  | spuDmaComplete (n : BitVec 4) (q : BitVec 2)
  /-- TAP_ITEM (R301): A tap item is delivered into its ring or dropped. -/
  | tapItem (n : BitVec 4)
  /-- SPU_TIMER (R312): CYCLE reaches TIMER_CMP and TIMER becomes pending. -/
  | spuTimer (n : BitVec 4)
  /-- EMIT_READOUT (R306): An emitted SPU_RECORD is read out of local memory and written or dropped. -/
  | emitReadout (n : BitVec 4)
  /-- MACHINE_CHECK (R352): A microword fails parity and the unit freezes. -/
  | machineCheck (n : BitVec 4) (f : WordFailure)
  /-- PATCH_RELOAD_DONE (R354): The unit's patch RAM is reloaded and checked, and the unit is released by retry or resume. -/
  | patchReloadDone (n : BitVec 4) (ns : BitVec 32) (ok : Bool)
  /-- SPARE_TAKEOVER (R355): After a ROM failure the spare takes the logical number and is released. -/
  | spareTakeover (n : BitVec 4) (ns : BitVec 32)
  /-- PATCH_SCRUB (R358): Every 10 ms each unit's patch RAM is scrubbed and bad words are repaired. -/
  | patchScrub (found : List (BitVec 5 × BitVec 10 × BitVec 176))
  /-- ROM_SCAN (R358): Every 24 hours the ROM of each free unit is scanned, and a failure retires it. -/
  | romScan (unit : BitVec 5) (fails : Option (BitVec 14 × BitVec 176))
  /-- NOP (R320): SPU no-operation. -/
  | nop (n : BitVec 4) (w : BitVec 56)
  /-- HALT (R320): Ends the instance once its DMA and emit queues are empty. -/
  | halt (n : BitVec 4) (w : BitVec 56)
  /-- RETI (R287): Returns from B1 to B0. -/
  | reti (n : BitVec 4) (w : BitVec 56)
  /-- WAITI (R320): Waits until an enabled interrupt source is pending. -/
  | waiti (n : BitVec 4) (w : BitVec 56)
  /-- REP (R293): Repeats the following body a count of times. -/
  | rep (n : BitVec 4) (w : BitVec 56)
  /-- REPA (R320): REP with the count taken from an address register. -/
  | repa (n : BitVec 4) (w : BitVec 56)
  /-- LOOPR (R322): Rotating-register loop, legal only in MAINTENANCE. -/
  | loopr (n : BitVec 4) (w : BitVec 56)
  /-- BR (R320): Unconditional branch. -/
  | br (n : BitVec 4) (w : BitVec 56)
  /-- BC (R320): Branch on an address-register condition. -/
  | bc (n : BitVec 4) (w : BitVec 56)
  /-- BP (R320): Branch on a predicate register. -/
  | bp (n : BitVec 4) (w : BitVec 56)
  /-- CALL (R320): Branch with the return address written to a15. -/
  | call (n : BitVec 4) (w : BitVec 56)
  /-- JR (R320): Jump to an address held in a register. -/
  | jr (n : BitVec 4) (w : BitVec 56)
  /-- VLD (R323): Vector load with address update. -/
  | vld (n : BitVec 4) (w : BitVec 56)
  /-- VST (R323): Vector store with address update. -/
  | vst (n : BitVec 4) (w : BitVec 56)
  /-- LDW (R323): 32-bit load into an address register. -/
  | ldw (n : BitVec 4) (w : BitVec 56)
  /-- STW (R323): 32-bit store from an address register. -/
  | stw (n : BitVec 4) (w : BitVec 56)
  /-- AUPD (R323): Address register update only. -/
  | aupd (n : BitVec 4) (w : BitVec 56)
  /-- AMOVI (R325): Loads an immediate into an address register. -/
  | amovi (n : BitVec 4) (w : BitVec 56)
  /-- AADDI (R325): Adds an immediate to an address register. -/
  | aaddi (n : BitVec 4) (w : BitVec 56)
  /-- AADD (R325): Adds two address registers. -/
  | aadd (n : BitVec 4) (w : BitVec 56)
  /-- ASUB (R325): Subtracts two address registers. -/
  | asub (n : BitVec 4) (w : BitVec 56)
  /-- AAND (R325): Bitwise AND of two address registers. -/
  | aand (n : BitVec 4) (w : BitVec 56)
  /-- AOR (R325): Bitwise OR of two address registers. -/
  | aor (n : BitVec 4) (w : BitVec 56)
  /-- AXOR (R325): Bitwise XOR of two address registers. -/
  | axor (n : BitVec 4) (w : BitVec 56)
  /-- ASHL (R325): Left shift of an address register. -/
  | ashl (n : BitVec 4) (w : BitVec 56)
  /-- ASHR (R325): Logical right shift of an address register. -/
  | ashr (n : BitVec 4) (w : BitVec 56)
  /-- ASRA (R325): Arithmetic right shift of an address register. -/
  | asra (n : BitVec 4) (w : BitVec 56)
  /-- AMUL (R325): Signed multiply of address registers. -/
  | amul (n : BitVec 4) (w : BitVec 56)
  /-- MTM (R325): Moves an address register to an m register. -/
  | mtm (n : BitVec 4) (w : BitVec 56)
  /-- MFM (R325): Moves an m register to an address register. -/
  | mfm (n : BitVec 4) (w : BitVec 56)
  /-- PSET (R325): Loads a predicate register from an immediate. -/
  | pset (n : BitVec 4) (w : BitVec 56)
  /-- PAND (R325): AND of predicate registers. -/
  | pand (n : BitVec 4) (w : BitVec 56)
  /-- POR (R325): OR of predicate registers. -/
  | por (n : BitVec 4) (w : BitVec 56)
  /-- PXOR (R325): XOR of predicate registers. -/
  | pxor (n : BitVec 4) (w : BitVec 56)
  /-- PNOT (R325): Complement of a predicate register. -/
  | pnot (n : BitVec 4) (w : BitVec 56)
  /-- PFROMA (R325): Predicate register from an address register. -/
  | pfroma (n : BitVec 4) (w : BitVec 56)
  /-- PTOA (R325): Address register from a predicate register. -/
  | ptoa (n : BitVec 4) (w : BitVec 56)
  /-- VADD (R326): Vector add. -/
  | vadd (n : BitVec 4) (w : BitVec 56)
  /-- VSUB (R326): Vector subtract. -/
  | vsub (n : BitVec 4) (w : BitVec 56)
  /-- VNEG (R326): Vector negate. -/
  | vneg (n : BitVec 4) (w : BitVec 56)
  /-- VABS (R326): Vector absolute value. -/
  | vabs (n : BitVec 4) (w : BitVec 56)
  /-- VMIN (R327): Vector minimum. -/
  | vmin (n : BitVec 4) (w : BitVec 56)
  /-- VMAX (R327): Vector maximum. -/
  | vmax (n : BitVec 4) (w : BitVec 56)
  /-- VAND (R326): Vector bitwise AND. -/
  | vand (n : BitVec 4) (w : BitVec 56)
  /-- VOR (R326): Vector bitwise OR. -/
  | vor (n : BitVec 4) (w : BitVec 56)
  /-- VXOR (R326): Vector bitwise XOR. -/
  | vxor (n : BitVec 4) (w : BitVec 56)
  /-- VNOT (R326): Vector bitwise complement. -/
  | vnot (n : BitVec 4) (w : BitVec 56)
  /-- VSHL (R326): Vector left shift. -/
  | vshl (n : BitVec 4) (w : BitVec 56)
  /-- VSHR (R326): Vector rounding right shift. -/
  | vshr (n : BitVec 4) (w : BitVec 56)
  /-- VASR (R326): Vector arithmetic right shift. -/
  | vasr (n : BitVec 4) (w : BitVec 56)
  /-- VLSR (R326): Vector logical right shift. -/
  | vlsr (n : BitVec 4) (w : BitVec 56)
  /-- VCMP (R326): Vector compare into a predicate register. -/
  | vcmp (n : BitVec 4) (w : BitVec 56)
  /-- VMOV (R326): Vector move or select. -/
  | vmov (n : BitVec 4) (w : BitVec 56)
  /-- VSPLAT (R326): Broadcasts an address register to every lane. -/
  | vsplat (n : BitVec 4) (w : BitVec 56)
  /-- VEXT (R326): Extracts a lane to an address register. -/
  | vext (n : BitVec 4) (w : BitVec 56)
  /-- VINS (R326): Inserts an address register into a lane. -/
  | vins (n : BitVec 4) (w : BitVec 56)
  /-- VPERM (R326): Byte permute. -/
  | vperm (n : BitVec 4) (w : BitVec 56)
  /-- VCONJ (R326): Complex conjugate. -/
  | vconj (n : BitVec 4) (w : BitVec 56)
  /-- VNARROW (R326): Narrows i32 lanes to 16 bits with rounding. -/
  | vnarrow (n : BitVec 4) (w : BitVec 56)
  /-- VWIDEN (R326): Widens i16 lanes to i32. -/
  | vwiden (n : BitVec 4) (w : BitVec 56)
  /-- VCVT (R328): Converts between i32 and f32 lanes. -/
  | vcvt (n : BitVec 4) (w : BitVec 56)
  /-- VMUL (R329): Vector multiply. -/
  | vmul (n : BitVec 4) (w : BitVec 56)
  /-- VMULQ (R329): Fractional vector multiply. -/
  | vmulq (n : BitVec 4) (w : BitVec 56)
  /-- VCMULQ (R329): Fractional complex multiply. -/
  | vcmulq (n : BitVec 4) (w : BitVec 56)
  /-- VFMA (R329): Binary32 fused multiply-add. -/
  | vfma (n : BitVec 4) (w : BitVec 56)
  /-- VMAC (R330): Multiply-accumulate into an accumulator. -/
  | vmac (n : BitVec 4) (w : BitVec 56)
  /-- VMSU (R330): Multiply-subtract from an accumulator. -/
  | vmsu (n : BitVec 4) (w : BitVec 56)
  /-- VMPY (R330): Multiply into an accumulator. -/
  | vmpy (n : BitVec 4) (w : BitVec 56)
  /-- VCMACJ (R330): Complex multiply-accumulate with conjugate. -/
  | vcmacj (n : BitVec 4) (w : BitVec 56)
  /-- ACCX (R330): Extracts an accumulator into a vector. -/
  | accx (n : BitVec 4) (w : BitVec 56)
  /-- ACCLR (R329): Clears accumulator lanes. -/
  | acclr (n : BitVec 4) (w : BitVec 56)
  /-- MFC (R331): Reads a control register of the issuing bank. -/
  | mfc (n : BitVec 4) (w : BitVec 56)
  /-- MTC (R331): Writes a control register of the issuing bank. -/
  | mtc (n : BitVec 4) (w : BitVec 56)
  /-- MFS (R332): Reads a special register. -/
  | mfs (n : BitVec 4) (w : BitVec 56)
  /-- MTS (R332): Writes a special register. -/
  | mts (n : BitVec 4) (w : BitVec 56)
  /-- MFB (R333): Cross-bank read from B0 in a handler. -/
  | mfb (n : BitVec 4) (w : BitVec 56)
  /-- MTB (R333): Cross-bank write into B0 from a handler. -/
  | mtb (n : BitVec 4) (w : BitVec 56)
  /-- DMAQ (R334): Posts a DMA descriptor to a queue. -/
  | dmaq (n : BitVec 4) (w : BitVec 56)
  /-- TRIGP (R334): Posts a trigger to a unit of the bound plan. -/
  | trigp (n : BitVec 4) (w : BitVec 56)
  /-- TUNE (R334): Posts a zoom NCO retune request. -/
  | tune (n : BitVec 4) (w : BitVec 56)
  /-- EMIT (R334): Queues an SPU_RECORD emit. -/
  | emit (n : BitVec 4) (w : BitVec 56)
  /-- VPEAKS (R337): Long instruction finding the k largest peaks. -/
  | vpeaks (n : BitVec 4) (w : BitVec 56)
  /-- VMAXIDX (R338): Long instruction finding the maximum and its index. -/
  | vmaxidx (n : BitVec 4) (w : BitVec 56)
  /-- VMINIDX (R338): Long instruction finding the minimum and its index. -/
  | vminidx (n : BitVec 4) (w : BitVec 56)
  /-- VSORTK (R339): Long stable merge sort of key-value entries. -/
  | vsortk (n : BitVec 4) (w : BitVec 56)
  /-- VLOG2 (R340): Long instruction computing log2 or LOGPWR codes. -/
  | vlog2 (n : BitVec 4) (w : BitVec 56)
  /-- CRC32C (R341): Long CRC-32C over a byte range. -/
  | crc32c (n : BitVec 4) (w : BitVec 56)
  /-- VSK (R342): Long spectral kurtosis estimator over bins. -/
  | vsk (n : BitVec 4) (w : BitVec 56)
  /-- HISTO (R343): Long histogram of values. -/
  | histo (n : BitVec 4) (w : BitVec 56)
  /-- RCOPY (R344): Long local memory copy. -/
  | rcopy (n : BitVec 4) (w : BitVec 56)
  /-- RFILL (R344): Long local memory fill. -/
  | rfill (n : BitVec 4) (w : BitVec 56)
  /-- EXTENT_TIMEOUT (R435): An extent closes 100 µs after its first record and is written to a drive. -/
  | extentTimeout (slot : BitVec 5)
  /-- NVME_COMPLETION (R437): A drive completion arrives and is handled by its status. -/
  | nvmeCompletion (slot : BitVec 5) (cid : Nat) (status : BitVec 15) (dnr : Bool)
  /-- NVME_TIMEOUT (R437): No completion within 500 ms and the member fails. -/
  | nvmeTimeout (slot : BitVec 5)
  /-- REFRESH_DUE (R456): A rank's due tick increments its debt and a refresh is issued, postponed or burst. -/
  | refreshDue (ch : BitVec 4) (rank : BitVec 1) (writer : Bool) (mr4 : BitVec 8)
  /-- REFRESH_IDLE_PULLIN (R457): A channel idle for 1 µs issues refreshes or pull-ins. -/
  | refreshIdlePullin (ch : BitVec 4) (count : Nat)
  /-- MR4_POLL (R457): MR4 is read every 16 ms on every rank. -/
  | mr4Poll
  /-- MR4_RESULT (R458): An MR4 read returns and a new refresh multiplier is applied. -/
  | mr4Result (ch : BitVec 4) (rank : BitVec 1) (mr4 : BitVec 8)
  /-- PATROL_SCRUB (R449): Patrol scrub reads and corrects codewords at the lowest priority. -/
  | patrolScrub (codeword : Nat) (found : ScrubResult)
  /-- WCK_TRACKING (R463): Every 4 ms a channel tracks WCK2DQ drift and retrains if needed. -/
  | wckTracking (ch : BitVec 4) (atRefresh : Bool) (errors : BitVec 16) (drift fails : Bool)
  /-- COMMAND_PARITY_ERROR (R454): A command fails parity and is reissued, or the channel goes offline. -/
  | commandParityError (ch : BitVec 4) (again : Bool)
  /-- NEIGHBOUR_REFRESH (R461): A queued neighbour refresh activates the physical rows beside an activated row. -/
  | neighbourRefresh (ch : BitVec 4) (rank : BitVec 1) (bank : BitVec 4) (draw : Option (BitVec 17))
  /-- RF_TRIP (R505): An input reaches its trip voltage and attenuation engages. -/
  | rfTrip (input : BitVec 2) (tripped : Bool)
  /-- RF_HOLD_EXPIRY (R505): The 1 ms hold timer expires and the attenuator releases. -/
  | rfHoldExpiry (input : BitVec 2)
  /-- THERMAL_THROTTLE (R506): A sensor reaches throttle_c and THROTTLE is set. -/
  | thermalThrottle (sensor : BitVec 4) (temp : BitVec 16)
  /-- THROTTLE_CLEAR (R506): All sensors fall below throttle_c − 3 °C and THROTTLE clears. -/
  | throttleClear (sensor : BitVec 4) (temp : BitVec 16)
  /-- THERMAL_TRIP (R506): A sensor reaches trip_c and the Main domain is held in reset. -/
  | thermalTrip (sensor : BitVec 4) (temp : BitVec 16)
  /-- SUPPLY_FAULT (R507): A monitored rail is outside its window for 5 µs and an orderly reset follows. -/
  | supplyFault (rail : BitVec 3) (reading : BitVec 16)
  /-- SUPPLY_RECOVERED (R507): Every rail has been in window for 10 ms and a warm restart follows. -/
  | supplyRecovered
  /-- WATCHDOG_MISS (R509): The MP misses its kick and the MP island resets. -/
  | watchdogMiss
  /-- POWER_STATE_ENTRY_DONE (R525): A power-state entry completes and the MP chooses again. -/
  | powerStateEntryDone
  /-- POWER_STATE_EXIT_START (R525): The scheduled exit begins before the next known event. -/
  | powerStateExitStart
  /-- POWER_STATE_EXIT_DONE (R518): An exit completes with islands ready and pairs forming valid words. -/
  | powerStateExitDone
  /-- DUTY_WINDOW_END (R527): A duty-cycled plan pauses at the end of its on-window. -/
  | dutyWindowEnd (plan : BitVec 32)
  /-- DUTY_WINDOW_START (R527): A duty-cycled plan resumes at its next on-window. -/
  | dutyWindowStart (plan : BitVec 32)
  /-- THERMAL_STEP (R538): While THROTTLE holds, the MP takes a further ladder step. -/
  | thermalStep
  /-- THERMAL_STEP_UNDO (R538): After THROTTLE clears, the MP undoes one step every 10 s. -/
  | thermalStepUndo
  /-- AVAILABILITY_SAVE (R541): MGT_AVAIL is written to the NOR every hour. -/
  | availabilitySave
  /-- AGEING_MEASURE (R568): The MP measures the ageing sites every hour. -/
  | ageingMeasure (shifts : List (BitVec 16)) (hours : Nat)
  /-- COLD_START (R530): Always-on power is applied and Primer starts from stage 1. -/
  | coldStart (released rails : Bool)
  /-- RESET_N_RELEASE (R530): RESET_N is released with rails in window, setting T0. -/
  | resetNRelease (rails : Bool)
  /-- RESET_N_ASSERT (R533): RESET_N is asserted and an orderly reset of the Main domain begins. -/
  | resetNAssert
  /-- PRIMER_STAGE_END (R530): A Primer stage completes its work and the next begins. -/
  | primerStageEnd (w : PrimerWork)
  /-- WARM_RESTART (R533): The Main domain is reset and Primer runs stages 2 to 6. -/
  | warmRestart
  /-- ALWAYS_ON_RAIL_LOSS (R557): An always-on rail leaves its window and every partition resets. -/
  | alwaysOnRailLoss
  /-- SPU_ISLAND_RESET (R533): The MP resets the SPU island after an interconnect fault. -/
  | spuIslandReset
  /-- DISPLAY_ISLAND_RESET (R533): The MP resets the Display island after a DSI PHY fault. -/
  | displayIslandReset
  /-- HOST_ISLAND_RESET (R533): The MP resets the Host island and every context is torn down. -/
  | hostIslandReset
  /-- REPLAY_WORD (R549): The replay feed forms the next bundle word with REPLAY set. -/
  | replayWord
  /-- REPLAY_END (R549): The feed reaches end_index, running plans stop and REPLAY_DONE is sent. -/
  | replayEnd
  /-- CONFIGURATION_REQUEST (R531): A PCIe configuration request reaches a port and is answered with Configuration Request Retry Status until stage 4 ends, and in full after that. -/
  | configurationRequest (port : BitVec 1)
  /-- PANEL_READ_RESPONSE (R274): The panel's response to a DCS read arrives after bus turnaround, and PANEL_CMD completes with up to 16 response bytes. -/
  | panelReadResponse (o : BitVec 1) (data : Block)
  /-- ELECTRICAL_IDLE_EXIT (R476): A lane leaves electrical idle (exit from L0s, L1 or its substates): the CDR relocks, CDR_RELOCKS counts it, offset correction unfreezes and a paused eye scan resumes. -/
  | electricalIdleExit (lane : BitVec 5)
  /-- RX_L0S_ENTRY (R477): The partner's transmitter enters L0s, so the device's receiver follows into electrical idle with RX_L0S set and comparator offsets frozen. -/
  | rxL0sEntry (port : BitVec 1)
  /-- PRBS_CHECKER_LOCK (R483): In TEST, a lane's pattern checker sees 64 consecutive error-free bits, locks and starts counting BITS and ERRORS. -/
  | prbsCheckerLock (lane : BitVec 5)
  /-- PRBS_CHECKER_LOCK_LOST (R483): A locked checker sees 16 errors within 64 bits, drops lock, relocks and counts one RELOCK. -/
  | prbsCheckerLockLost (lane : BitVec 5) (errors : BitVec 32)
  /-- PCIE_REFCLK_RESTORED (R472): A port reference that had been absent returns, and REF_OK in LNK_PT_STATUSp becomes 1 again. -/
  | pcieRefclkRestored (port : BitVec 1)
  /-- MAIN_RAILS_IN_WINDOW (R557): The last Main rail enters its window after RESET_N was already released, which sets T0 and lets Primer begin. -/
  | mainRailsInWindow
  /-- REF_OK_CHANGE (R55): REFCLK moves outside or back inside ±100 ppm of REF_FREQ without reaching the REFCLK_LOST limits, so REF_OK clears or sets and the time quality is unchanged. -/
  | refOkChange (ok : Bool)
  /-- MP_RESTART_COMPLETE (R509): The MP island finishes restarting from its verified image within 2 ms of a watchdog or MP_RESET reset, ALIVE_N is driven low again and descriptors that waited for the MP proceed. -/
  | mpRestartComplete
  /-- JTAG_INSTRUCTION (R576): A JTAG instruction (EXTEST, BYPASS or IDCODE) is loaded and acts, with EXTEST offered only while RESET_N is low. -/
  | jtagInstruction (j : JtagInstr)
  deriving DecidableEq, Repr

end Sys2Proof
end

