-- ==== Sys2Proof/Config.lean ====
section
/-!
DEFINITION. What an implementation fixes and the free values: constants without a body, so that nothing can be
proved that rests on a value the spec leaves open or on the inside of a cryptographic function it names.
-/

namespace Sys2Proof.Config

/-- A value the spec leaves open, drawn with the counter `State.fresh`. -/
opaque freeValue (width : Nat) (n : Nat) : BitVec width

/-- SHA-384 (R498, R500; FIPS 180-4 is not in the spec). -/
opaque sha384 (msg : List Byte) : BitVec 384

/-- AES-256-GMAC of SP 800-38D (R498): key, IV, additional data. -/
opaque gmac (key : BitVec 256) (iv : List Byte) (aad : List Byte) : BitVec 128

/-- HKDF-SHA-384 of RFC 5869 with a zero salt of 48 bytes and 32 output bytes (R498): input key material, info. -/
opaque hkdf (ikm : BitVec 384) (info : List Byte) : BitVec 256

/-- The ECDSA P-384 signature by the alias key of this Primer over a digest (R490, R502): r then s. -/
opaque aliasSign (primer : Nat) (digest : BitVec 384) : BitVec 768

/-- The ECDSA P-384 verification of a digest under a public key, given as DER or raw bytes. -/
opaque ecdsaVerify (key : List Byte) (digest : BitVec 384) (sig : List Byte) : Bool

/-- Values of the DOE mailbox's SPDM responses that the SPDM standard and not the spec gives (R494): a digest of
the request, the session counter and the field wanted. -/
opaque spdmValue (field : Nat) (input : List Byte) : BitVec 768

/-- The refresh multiplier that an MR4 value asks for (R458; JESD209-5 is not in the spec): 0-4 for 0.25, 0.5, 1, 2 and 4, and more for
a code beyond that. -/
opaque mr4Rate (mr4 : BitVec 8) : BitVec 3

/-- A measurement block as GET_MEASUREMENTS returns it (R495): the SPDM standard gives the form; index and digest. -/
opaque measForm (index : Nat) (digest : BitVec 384) : List Byte

/-- Output of a zoom chain (R153-R155): the half-band and resampler coefficients are in a ROM that the spec does
not list. Bit 16 says that the component saturated. Arguments: the chain's start, design and retunes, the output sample's
number and component, and the corrected values of the input words of its word's windows. -/
opaque zoomSample (design : List Nat) (m component : Nat) (history : List Int) : BitVec 17

/-- Which of the codes -1, 0, +1 away from the exact one the LOGPWR detector gives for a power (R189): binary64 word. -/
opaque logTable (p : BitVec 64) : BitVec 2

/-- Sign and payload of the quiet NaN that a binary32 operation of an SPU gives (R327 does not say which): payload in bits 21-0,
sign in bit 22; from the operands. -/
opaque nanBits (a b c : BitVec 32) : BitVec 23

/-- The code that VLOG2 with TYPE 1 gives for a NaN or a value below 0 (R340: R189 defines none). -/
opaque logOpen (x : BitVec 32) : BitVec 16

/-- Megabytes of the TEST region that a self-test asks for (R578): target, param0, param1. -/
opaque selftestMb (target param0 param1 : Nat) : BitVec 16

/-- A signature by the key of a certificate whose chain ends at the Plynpex root verifies (R492, R548): certificates, digest,
signature. -/
opaque chainVerify (certs : List Byte) (digest : BitVec 384) (sig : List Byte) : Bool

/-- A patch image's signature verifies against the Plynpex microcode key (R361): digest, signature. -/
opaque patchVerify (digest : BitVec 384) (sig : List Byte) : Bool

/-- AES-256-GCM decryption under the patch key (R360): IV, additional data, ciphertext, tag; none where the tag fails. -/
opaque patchOpen (iv aad text tag : List Byte) : Option (List Byte)

/-- ROM content identifier of stepping B0 (UCS_ROM.ROM_ID, R363). -/
opaque romId : BitVec 32

/-- A debug token's signature verifies against the Plynpex debug key (R491): DeviceID digest, nonce, signature. -/
opaque debugVerify (devId : BitVec 384) (nonce : BitVec 128) (sig : List Byte) : Bool

/-- The certificate chain of slot 0 as GET_CERTIFICATE returns it (R490, R494; the SPDM standard gives the form). -/
opaque certChain (certs : List Byte) : List Byte

end Sys2Proof.Config
end

