-- ==== Sys2Proof/Machine/Bits.lean ====
section
/-!
DEFINITION. Bit fields, byte order, sign handling, saturating counters and list access: the small
operations that every other file of the model computes with.
-/

namespace Sys2Proof.Machine

/-- The bit field [lo + len - 1 : lo] of a number (R7). -/
def bits (w lo len : Nat) : Nat := (w >>> lo) % 2 ^ len

/-- Bit `i` of a number (R7). -/
def bit (w i : Nat) : Bool := w.testBit i

/-- A flag as the bit it is stored in. -/
def b2n (b : Bool) : Nat := if b then 1 else 0

/-- A register or structure packed from (low bit, width, value) fields; a value is cut to its width. -/
def packBits : List (Nat × Nat × Nat) → Nat
  | [] => 0
  | (lo, len, v) :: r => (v % 2 ^ len) <<< lo ||| packBits r

/-- A number replaced on the bit field [lo + len - 1 : lo]. -/
def setBits (w lo len v : Nat) : Nat :=
  (w - (bits w lo len) <<< lo) + (v % 2 ^ len) <<< lo

/-- The two's-complement reading of the low `n` bits. -/
def sext (n w : Nat) : Int :=
  let v := w % 2 ^ n
  if n = 0 then 0 else if v < 2 ^ (n - 1) then (v : Int) else (v : Int) - 2 ^ n

/-- The low `n` bits of an integer in two's complement (R17: a conversion keeps the low bits). -/
def wrapInt (n : Nat) (x : Int) : Nat := (x % (2 ^ n : Int)).toNat

/-- An integer held to the range lo..hi. -/
def clampInt (lo hi x : Int) : Int := if x < lo then lo else if hi < x then hi else x

/-- A saturating counter's next value (the RC counters of the register tables). -/
def satInc {w : Nat} (c : BitVec w) : BitVec w := if c = BitVec.allOnes w then c else c + 1

/-- A saturating counter after `n` counts. -/
def satAdd {w : Nat} (c : BitVec w) (n : Nat) : BitVec w :=
  if c.toNat + n < 2 ^ w then BitVec.ofNat w (c.toNat + n) else BitVec.allOnes w

/-- The little-endian number of a list of bytes (R8). -/
def leNat : List Byte → Nat
  | [] => 0
  | b :: r => b.toNat + 256 * leNat r

/-- The `n` little-endian bytes of a number (R8). -/
def leBytes : Nat → Nat → List Byte
  | 0, _ => []
  | n + 1, v => BitVec.ofNat 8 v :: leBytes n (v / 256)

/-- The byte of a block at an offset; a block has no bytes past its end, which read as 0 in a field. -/
def blkByte (b : Block) (off : Nat) : Nat := ((b.drop off).headD 0).toNat

/-- The little-endian field of `len` bytes at an offset of a host block (R8). -/
def blkFld (b : Block) (off len : Nat) : Nat := leNat ((b.drop off).take len)

/-- The little-endian field of `len` bytes at descriptor offset `off` (R403: the body begins at 0x10). -/
def bodyFld (b : BitVec 384) (off len : Nat) : Nat := bits b.toNat (8 * (off - 0x10)) (8 * len)

/-- List element with a default. -/
def nth {α : Type} (l : List α) (i : Nat) (d : α) : α := l.getD i d

/-- The list with element `i` replaced by its image; unchanged where there is none. -/
def modNth {α : Type} (l : List α) (i : Nat) (f : α → α) : List α := l.modify i f

/-- Every element that satisfies `p` replaced by its image. -/
def mapIf {α : Type} (p : α → Bool) (f : α → α) (l : List α) : List α :=
  l.map fun x => if p x then f x else x

/-- The numbers lo, lo + 1, ..., lo + n - 1. -/
def rangeFrom (lo n : Nat) : List Nat := (List.range n).map (lo + ·)

/-- The indices below `n` whose bit is set in a mask. -/
def maskIdx (mask n : Nat) : List Nat := (List.range n).filter (mask.testBit ·)

/-- Ceiling division. -/
def cdiv (a b : Nat) : Nat := (a + b - 1) / b

/-- A size rounded up to a multiple of `g`. -/
def roundUp (a g : Nat) : Nat := cdiv a g * g

/-- Convergent rounding of n / d (d > 0) to the nearest integer, ties to even. -/
def roundDivEven (n : Int) (d : Nat) : Int :=
  let q := n / (d : Int)
  let r := n % (d : Int)
  if 2 * r < d then q else if (d : Int) < 2 * r then q + 1 else if q % 2 = 0 then q else q + 1

/-- Integer square root by bisection on the bits, `n` of them (structural, so the kernel evaluates it). -/
def isqrtAux (v : Nat) : Nat → Nat → Nat
  | 0, acc => acc
  | n + 1, acc =>
    let t := acc + 2 ^ n
    isqrtAux v n (if t * t ≤ v then t else acc)

/-- Floor of the square root of a number below 2^256. -/
def isqrt (v : Nat) : Nat := isqrtAux v 128 0

/-- Number of significant bits (0 for 0). -/
def bitLen (v : Nat) : Nat := if v = 0 then 0 else v.log2 + 1

/-- A sum over a list. -/
def sumBy {α : Type} (f : α → Nat) (l : List α) : Nat := (l.map f).foldl (· + ·) 0

end Sys2Proof.Machine
end

