-- ==== Sys2Proof/Machine/St/Disk.lean ====
section
/-!
DEFINITION. State of sample exports and of disk bindings (streaming and direct-to-disk export).
-/

namespace Sys2Proof.Machine

/-- A word as an export, a ring or a history holds it: tag index, side tag, tag fraction (zoom only), values. -/
structure HWord where
  index : Nat
  frac : Nat
  tag : BitVec 16
  vals : List Int
  deriving DecidableEq, Repr

/-- A source of an export with the words of its open record (R420). -/
structure ExpSource where
  /-- 0-3 a pair, 16-47 a zoom channel (R422) -/
  source : Nat
  words : List HWord
  /-- number of output samples of the source so far: zoom records end on multiples of it (R420) -/
  pos : Nat
  recordNumber : Nat
  deriving DecidableEq, Repr

/-- A close under way (R425, R426): the STREAM_CLOSE that asked for it (context, sid), seq of the SEAL, whether the Flush
commands have been sent, how many are outstanding, and whether a member failed. -/
structure Closing where
  asker : Option (Nat × Nat)
  sealSeq : Nat
  flushing : Bool
  left : Nat
  failed : Bool
  deriving DecidableEq, Repr

/-- An export (R424, R438). -/
structure Export where
  slot : Nat
  id : Nat
  plan : Nat
  ctx : Nat
  disk : Bool
  target : Nat
  form : Nat
  sourceMask : Nat
  zoomMask : Nat
  recordWords : Nat
  streamId : Nat
  running : Bool
  sources : List ExpSource
  drops : BitVec 32
  gaps : BitVec 16
  /-- a GAP with reason INTERVAL is due when the plan runs again: start of the pause (R425) -/
  pausedAt : Option Nat
  closing : Option Closing
  deriving DecidableEq, Repr

/-- STATE of HST_DISK_STATUSb (R439), but for free. -/
inductive DiskState where
  | awaiting | active | failed | unbinding
  deriving DecidableEq, Repr

/-- A record stored in an extent: its stream, seq, LBA and LBAs. -/
structure StoredRec where
  stream : Nat
  seq : Nat
  lba : Nat
  lbas : Nat
  bytes : Nat
  spanStart : Nat
  spanEnd : Nat
  deriving DecidableEq, Repr

/-- An NVMe command submitted and not completed (R435, R437). -/
structure DiskCmd where
  cid : Nat
  lba : Nat
  lbas : Nat
  bytes : Nat
  recs : List StoredRec
  retried : Bool
  flush : Bool
  deriving DecidableEq, Repr

/-- A binding: one member of a disk set (R432, R434, R435, R439). -/
structure Binding where
  slot : Nat
  id : Nat
  ctx : Nat
  set : Nat
  queuePairs : Nat
  queueLog2 : Nat
  lbaLog2 : Nat
  nsid : Nat
  controller : Nat
  firstLba : Nat
  lbaCount : Nat
  port : Nat
  window : Nat
  windowBytes : Nat
  state : DiskState
  maxTransferKb : Nat
  actStatus : Nat
  qids : List Nat
  nextLba : Nat
  /-- records of the open extent, oldest first, and the LBA where it starts -/
  extent : List StoredRec
  outstanding : List DiskCmd
  nextCid : Nat
  /-- consecutive failed commands (R437) -/
  failures : Nat
  cmdErrors : BitVec 16
  retries : BitVec 16
  timeouts : BitVec 16
  recordsLost : BitVec 32
  /-- DISK_UNBIND under way: (context, sid) -/
  unbinder : Option (Nat × Nat)
  deriving DecidableEq, Repr

/-- All exports and bindings. -/
structure Disk where
  exports : List Export
  nextExport : Nat
  bindings : List Binding
  nextBinding : Nat
  /-- rotation of each disk set: (context, set, binding id that took the last extent) (R435) -/
  rotation : List (Nat × Nat × Nat)
  deriving DecidableEq, Repr

/-- No export and no binding. -/
def Disk.reset : Disk := ⟨[], 1, [], 1, []⟩

end Sys2Proof.Machine
end

