-- ==== Sys2Proof/Machine/St/Adc.lean ====
section
/-!
DEFINITION. State of the converter pairs, the Converter Statistics Unit and the Auxiliary Measurement Converter.
-/

namespace Sys2Proof.Machine

/-- A converter pair (R87-R105). -/
structure Pair where
  /-- 0-3 RFIN_A to RFIN_D, 4 CAL, 5 TERM (R103) -/
  route : BitVec 3
  fsStep : BitVec 4
  /-- full-scale step that the board table gives the input of the same number (R90) -/
  defStep : BitVec 4
  running : Bool
  /-- VALID = 0 words still to come after power-up (R92) -/
  invalidLeft : Nat
  /-- words of settling interval still to come (R100, R101) -/
  settleLeft : Nat
  foreground : Bool
  routeGen : BitVec 16
  xovf : BitVec 32
  evenOvr : BitVec 32
  oddOvr : BitVec 32
  /-- the next word delivered carries GAP (R19, R51) -/
  gap : Bool
  /-- sample index of the next word (R63, R93) -/
  next : Nat
  /-- latest word delivered -/
  last : Option HWord
  /-- SETTLE of the latest word formed: SETTLING of R103 -/
  settling : Bool
  deriving DecidableEq, Repr

/-- Statistics of one core over a window (R106). -/
structure CoreStat where
  sum : Int
  sq : Nat
  cnt : Nat
  min : Int
  max : Int
  ovr : BitVec 32
  deriving DecidableEq, Repr

/-- No included sample (R111). -/
def CoreStat.empty : CoreStat := ⟨0, 0, 0, 0x7FFF, -0x8000, 0⟩

/-- The Converter Statistics Unit (R106-R111). -/
structure Csu where
  windowLog2 : Nat
  run : Bool
  freeze : Bool
  /-- start index of the window under way or next to begin -/
  start : Nat
  /-- running statistics of the eight cores in that window and in the one after it -/
  cur : List CoreStat
  nxt : List CoreStat
  pubSeq : BitVec 32
  doneSeq : BitVec 32
  pubIndex : BitVec 64
  snap : List CoreStat
  deriving DecidableEq, Repr

/-- An urgent AMC request (R114). -/
structure AmcReq where
  hedge : Bool
  channel : Nat
  trim : Nat
  deriving DecidableEq, Repr

/-- An AMC accumulator (R116, R121). -/
structure AmcAcc where
  sum : Int
  count : BitVec 32
  min : Int
  max : Int
  deriving DecidableEq, Repr

/-- A cleared accumulator (R119). -/
def AmcAcc.empty : AmcAcc := ⟨0, 0, 0x7FFF, -0x8000⟩

/-- The Auxiliary Measurement Converter (R112-R121). -/
structure Amc where
  run : Bool
  lastSlot : BitVec 6
  trimSel : BitVec 5
  slot : BitVec 6
  /-- the running table slot's channel and N as read when it started; none: no table slot runs -/
  cur : Option (Nat × Nat)
  urgent : Option AmcReq
  queue : List AmcReq
  /-- times in a row that the table slot has been aborted -/
  abortRow : Nat
  passes : BitVec 24
  aborts : BitVec 16
  urgents : BitVec 16
  /-- AMC_SEQk: channel and N -/
  seq : List (BitVec 5 × BitVec 13)
  acc : List AmcAcc
  /-- latest calibrated result of each channel, signed 16 bits -/
  latest : List Int
  deriving DecidableEq, Repr

/-- The converters. -/
structure Adc where
  pairs : List Pair
  csu : Csu
  amc : Amc
  deriving DecidableEq, Repr

/-- Pair n at reset: routed to input n, step 15 of the ROM defaults (R90, R103). -/
def Pair.reset (n : Nat) : Pair :=
  { route := BitVec.ofNat 3 n, fsStep := 15, defStep := 15, running := false, invalidLeft := 4096, settleLeft := 0
    foreground := false, routeGen := 0, xovf := 0, evenOvr := 0, oddOvr := 0, gap := false, next := 0, last := none
    settling := false }

/-- The converters at reset (R103-R121; the AMC table as Primer loads it by default, R120). -/
def Adc.reset : Adc :=
  { pairs := (List.range 4).map Pair.reset
    csu := { windowLog2 := 20, run := true, freeze := false, start := 0, cur := List.replicate 8 CoreStat.empty
             nxt := List.replicate 8 CoreStat.empty, pubSeq := 0, doneSeq := 0, pubIndex := 0
             snap := List.replicate 8 CoreStat.empty }
    amc := { run := true, lastSlot := 31, trimSel := 0, slot := 0, cur := none, urgent := none, queue := []
             abortRow := 0, passes := 0, aborts := 0, urgents := 0
             seq := (List.range 64).map fun k => if k < 32 then (BitVec.ofNat 5 k, 64) else (0, 0)
             acc := List.replicate 32 AmcAcc.empty, latest := List.replicate 32 0 } }

end Sys2Proof.Machine
end

