-- ==== Sys2Proof/Machine/St/Disp.lean ====
section
/-!
DEFINITION. State of density surfaces and panel outputs (R253-R282).
-/

namespace Sys2Proof.Machine

/-- A render buffer's state (R268). -/
inductive BufState where
  | free | rendering | ready | shown
  deriving DecidableEq, Repr

/-- A render buffer: state and the frame it holds; its image is in DRAM. -/
structure RenderBuf where
  state : BufState
  frame : Nat
  deriving DecidableEq, Repr

/-- A column of a surface: its cells, the flags of the spectra applied since its last sweep, rows whose count would
have passed the limit since then, and the device time of the first of those spectra. -/
structure DenCol where
  cells : List Nat
  flags : Nat
  sat : List Nat
  start : Option Nat
  deriving DecidableEq, Repr

/-- A density surface (R253-R263). -/
structure Surf where
  plan : Nat
  /-- the plan's DENSITY block that it serves -/
  blk : Nat
  stream : Nat
  cols : List DenCol
  /-- frame whose sweep is under way or next, and the next column to sweep for it -/
  frame : Nat
  swept : Nat
  /-- columns swept into the raw record under way, and whether PARTIAL holds for it -/
  raw : List DenCol
  /-- pixel columns of the image under way -/
  pix : List (List Nat)
  lut : List Nat
  /-- a table loaded by LUT_LOAD that waits for column 0's boundary -/
  newLut : Option (List Nat)
  /-- table that DLIVE layers use, changed at latch points -/
  liveLut : List Nat
  bufs : List RenderBuf
  base : Nat
  stride : Nat
  /-- a frame has been completed since the plan (re)started -/
  complete : Bool
  /-- device time just after the latest spectrum applied -/
  fin : Nat
  deriving DecidableEq, Repr

/-- Counters of a surface number (R279). -/
structure DenRegs where
  frames : BitVec 64
  outOfRange : BitVec 16
  satCells : BitVec 16
  renderSkips : BitVec 16
  rawDrops : BitVec 16
  skipped : BitVec 32
  deriving DecidableEq, Repr

/-- An installed buffer of a DRAM layer: offset in the display area and flip_id (R276, R277). -/
structure Install where
  base : Nat
  flip : Nat
  deriving DecidableEq, Repr

/-- A layer of an output (R270, R282). -/
structure Layer where
  enabled : Bool
  source : Nat
  format : Nat
  argb : Bool
  alpha : Nat
  x : Nat
  y : Nat
  width : Nat
  height : Nat
  cur : Install
  /-- pending flip's base and id -/
  pend : Option Install
  plan : Nat
  surface : Nat
  /-- render buffer shown by the layer -/
  shown : Option Nat
  deriving DecidableEq, Repr

/-- A flip waiting for a latch point (R276): (context, sid), layer mask. -/
structure Flip where
  asker : Nat × Nat
  mask : Nat
  deriving DecidableEq, Repr

/-- A replaced buffer whose release is still to be posted (R277): layer, flip_id. -/
structure Release where
  layer : Nat
  flip : Nat
  deriving DecidableEq, Repr

/-- A panel command under way: a read that waits for its response (R274). -/
structure PanelCmd where
  asker : Nat × Nat
  fn : Nat
  addr : Nat
  start : Nat
  deriving DecidableEq, Repr

/-- A display output (R269-R281). -/
structure DOut where
  enabled : Bool
  lockstep : Bool
  cmdMode : Bool
  /-- out_format 1 RGB888, 2 RGB101010, 3 DSC -/
  format : Nat
  owner : Nat
  timing : List Nat
  refresh : Nat
  laneMbps : Nat
  dsc : List Nat
  teTimeout : Nat
  teFallback : Bool
  inFallback : Bool
  teRaised : Bool
  /-- coarse ticks of the last latch point and of the end of the frame transfer it started (command mode) -/
  latchTick : Nat
  busyUntil : Nat
  frame : BitVec 64
  teTimeouts : BitVec 16
  teSkips : BitVec 16
  ptcFails : BitVec 16
  underruns : BitVec 16
  fallback : BitVec 30
  background : BitVec 30
  latch : DevTime
  areaBase : Nat
  areaMb : Nat
  layers : List Layer
  flips : List Flip
  releases : List Release
  panel : Option PanelCmd
  deriving DecidableEq, Repr

/-- Density and display. -/
structure Disp where
  surfs : List (Option Surf)
  den : List DenRegs
  outs : List DOut
  deriving DecidableEq, Repr

/-- A layer at reset (R282). -/
def Layer.reset : Layer :=
  { enabled := false, source := 0, format := 0, argb := false, alpha := 0, x := 0, y := 0, width := 0, height := 0
    cur := ⟨0, 0⟩, pend := none, plan := 0, surface := 0, shown := none }

/-- An output at reset (R281). -/
def DOut.reset : DOut :=
  { enabled := false, lockstep := false, cmdMode := false, format := 0, owner := 0, timing := [], refresh := 0
    laneMbps := 0, dsc := [], teTimeout := 0, teFallback := false, inFallback := false, teRaised := false
    latchTick := 0, busyUntil := 0, frame := 0, teTimeouts := 0, teSkips := 0, ptcFails := 0
    underruns := 0, fallback := 0x3FF003FF#30, background := 0, latch := 0, areaBase := 0, areaMb := 0
    layers := List.replicate 4 Layer.reset, flips := [], releases := [], panel := none }

/-- Density and display at reset. -/
def Disp.reset : Disp :=
  { surfs := List.replicate 8 none, den := List.replicate 8 ⟨0, 0, 0, 0, 0, 0⟩, outs := List.replicate 2 DOut.reset }

end Sys2Proof.Machine
end

