-- ==== Sys2Proof/Machine/St/Dram.lean ====
section
/-!
DEFINITION. State of capture memory: the byte-addressed data space, its allocations, channels, refresh and log
(R26, R442-R470).
-/

namespace Sys2Proof.Machine

/-- What a range of the general region is allocated to (R26). -/
inductive AllocKind where
  | recorder | skimShadow
  | display (output : Nat) | render (surface : Nat)
  | mask (ctx handle : Nat) | maskNew (ctx handle : Nat)
  | window (ctx handle : Nat) | windowNew (ctx handle : Nat)
  | kernel (ctx handle : Nat)
  | tagLog (ring : Nat) | segTable (plan slot : Nat) | spill (plan slot : Nat)
  | bundle | bundleNew
  | buffer (kernel index : Nat) | scratch (kernel inst : Nat)
  deriving DecidableEq, Repr

/-- An allocation of the general region, in whole granules of 64 KB (R26). -/
structure Alloc where
  kind : AllocKind
  base : Nat
  bytes : Nat
  deriving DecidableEq, Repr

/-- A rank: refresh debt, multiplier code (0-4 for 0.25-4), last MR4, owed ticks oldest first and the time of the
last due tick, both in units of 0.3125 ns (R456-R458). -/
structure Rank where
  debt : Int
  mult : BitVec 3
  mr4 : BitVec 8
  owed : List Int
  lastDue : Int
  deriving DecidableEq, Repr

/-- A channel (R442, R454-R463, R468). -/
structure Chan where
  online : Bool
  selfRefresh : Bool
  urgent : Bool
  retrain : Bool
  ranks : List Rank
  /-- a tracking pause waits for the channel's next refresh (R463) -/
  trackDue : Bool
  /-- parity errors in a row on the command under way (R454) -/
  parity : Nat
  /-- the channel has failed, with the cause of DRAM_CHANNEL_OFFLINE, and leaves service at the rebuild's repartition step (R455) -/
  failed : Option Nat
  /-- device time bits of the last corrected entry logged, in ms (R447) -/
  lastLogged : Option Nat
  corrected : BitVec 16
  uncorrected : BitVec 16
  linkCorr : BitVec 16
  cmdParity : BitVec 16
  postponed : BitVec 16
  bursts : BitVec 16
  late : BitVec 16
  retrains : BitVec 16
  neighbour : BitVec 32
  /-- queued neighbour refreshes: rank, bank, row (R461) -/
  queue : List (Nat × Nat × Nat)
  deriving DecidableEq, Repr

/-- An entry of the controller's log (R453). -/
structure DramLog where
  seq : Nat
  kind : Nat
  consumer : Nat
  channel : Nat
  bankRank : Nat
  address : Nat
  time : Nat
  row : Nat
  slot : Nat
  symbol : Nat
  count : Nat
  deriving DecidableEq, Repr

/-- The board table's geometry of a channel (R443). -/
structure DramGeom where
  ranks : Nat
  dieGb : Nat
  trfcNs : Nat
  rowPerm : List Nat
  rowXor : Nat
  bankHash : List Nat
  deriving DecidableEq, Repr

/-- Capture memory. -/
structure Dram where
  /-- the data space's bytes, in canonical form (an unlisted byte reads 0) -/
  mem : List Host.Cell
  /-- poisoned codewords, ascending (R452) -/
  poison : List Nat
  allocs : List Alloc
  chans : List Chan
  geom : DramGeom
  dieGb : BitVec 3
  rfm : Bool
  log : List DramLog
  logSeq : BitVec 32
  suppressed : BitVec 16
  peakKb : BitVec 16
  lostWords : BitVec 32
  /-- words lost in the overflow episode under way, if one is (R459) -/
  episode : Option Nat
  keep : BitVec 8
  retained : BitVec 8
  log2p : BitVec 5
  nbrEn : Bool
  deriving DecidableEq, Repr

/-- A rank at reset (R468). -/
def Rank.reset : Rank := ⟨0, 2, 0, [], 0⟩

/-- A channel at reset (R468). -/
def Chan.reset : Chan :=
  { online := true, selfRefresh := false, urgent := false, retrain := false, ranks := [Rank.reset], trackDue := false
    parity := 0, failed := none, lastLogged := none, corrected := 0, uncorrected := 0, linkCorr := 0, cmdParity := 0, postponed := 0
    bursts := 0, late := 0, retrains := 0, neighbour := 0, queue := [] }

/-- Capture memory at reset: no channel is in service until Primer stage 5 has read the board table (R443, R493, R530). -/
def Dram.reset : Dram :=
  { mem := [], poison := [], allocs := [], chans := List.replicate 12 { Chan.reset with online := false }
    geom := ⟨1, 4, 380, List.range 17, 0, [0, 0, 0, 0]⟩, dieGb := 4, rfm := false, log := [], logSeq := 0, suppressed := 0
    peakKb := 0, lostWords := 0, episode := none, keep := 0, retained := 0, log2p := 10, nbrEn := true }

end Sys2Proof.Machine
end

