-- ==== Sys2Proof/Machine/St/Host.lean ====
section
/-!
DEFINITION. State of the Host island: rings, contexts, functions, provenance streams, and what the device sends.
-/

namespace Sys2Proof.Machine

/-- One field of a record, register image or message: byte offset, length in bytes, value. -/
structure Fld where
  off : Nat
  len : Nat
  val : Nat
  deriving DecidableEq, Repr

/-- A record of a data ring or a disk set (R398), but for its placement. -/
structure Rec where
  recType : Nat
  streamId : Nat
  ctx : Nat
  seq : Nat
  prevTagLo : BitVec 64
  tag : BitVec 128
  bytes : Nat
  payload : List Fld
  deriving DecidableEq, Repr

/-- A completion entry (R393) but for its phase bit. -/
structure Cpl where
  userTag : BitVec 64
  cmdIndex : Nat
  status : Nat
  cmdHead : Nat
  opcode : Nat
  result0 : Nat
  result1 : Nat
  deriving DecidableEq, Repr

/-- An event entry (R396) but for its phase bit. -/
structure Evt where
  time : BitVec 64
  code : Nat
  subject : Nat
  detail : Nat
  detail2 : Nat
  detail3 : Nat
  deriving DecidableEq, Repr

/-- Pins whose edges the device drives. -/
inductive Pin where
  | ppsOut | trigOut
  deriving DecidableEq, Repr

/-- Everything the device sends out of itself. -/
inductive Output where
  /-- A completion written to a context's completion ring at an index with a PHASE (R380, R393). -/
  | completion (ctx index : Nat) (phase : Bool) (c : Cpl)
  /-- An event written to a context's event ring (R396). -/
  | event (ctx index : Nat) (phase : Bool) (e : Evt)
  /-- A record written to a data ring at a block with a PHASE (R398). -/
  | record (ctx ring block blocks : Nat) (phase : Bool) (r : Rec)
  /-- A PAD record covering the blocks to the end of a ring (R387, R401). -/
  | pad (ctx ring block blocks : Nat) (phase : Bool)
  /-- An MSI-X message of a function (R391). -/
  | msix (fn vec : Nat)
  /-- A heartbeat write (R392): beat count and body fields. -/
  | heartbeat (ctx : Nat) (beat : Nat) (body : List Fld)
  /-- The value that a register read returns to a function (R370). -/
  | readData (fn : Nat) (bytes : Nat) (value : Nat)
  /-- A BAR4 read completed with data, as Unsupported Request (`none`) or poisoned (R371). -/
  | bar4Data (port : Nat) (data : Option (List Byte)) (poisoned : Bool)
  /-- An edge driven on a pin at a coarse tick. -/
  | pin (p : Pin) (level : Bool) (tick : Nat)
  /-- An SPDM response on a port's DOE mailbox (R494): response code, or an ERROR, with its fields. -/
  | spdm (port : Nat) (code : Nat) (body : List Fld)
  /-- Commands submitted to a drive (R435): binding slot, first LBA, LBAs, flush. -/
  | nvme (slot : Nat) (lba lbas : Nat) (flush : Bool)
  /-- A doorbell of a drive's completion queue (R437). -/
  | nvmeDoorbell (slot : Nat)
  /-- Bytes sent to the panel (R274). -/
  | panel (output : Nat) (read : Bool) (data : List Byte)
  /-- Bytes written to a host address of a context's function (R274 read responses). -/
  | hostWrite (fn : Nat) (addr : Nat) (data : List Byte)
  /-- A PCIe configuration request's answer (R531): Configuration Request Retry Status, or in full. -/
  | config (port : Nat) (retry : Bool)
  /-- A lane margining response (R479). -/
  | margining (port lane : Nat) (body : List Fld)
  /-- A frame of an output leaves on its DSI port (R275): output, frame number, fields per layer. -/
  | frame (output : Nat) (number : Nat) (body : List Fld)
  /-- A MESSAGE that names a device action outside the state: the MP writes the NOR (R541, R358). -/
  | nor (what : String) (body : List Fld)
  /-- A refresh command issued to a rank (R456): channel, rank, commands, postponed debt paid. -/
  | refresh (channel rank count : Nat)
  /-- A read of MR4 issued to a rank (R457). -/
  | mr4Read (channel rank : Nat)
  /-- Neighbour activates issued in a bank (R461). -/
  | neighbour (channel : Nat) (rows : List Nat)
  /-- The code that JTAG's IDCODE instruction presents (R576). -/
  | idcode (value : Nat)
  deriving DecidableEq, Repr

/-- A completion or event ring of a context (R379, R391). -/
structure DevRing where
  base : Nat
  log2 : Nat
  head : Nat
  tail : Nat
  phase : Bool
  vec : Nat
  vecEn : Bool
  modCount : Nat
  modUs : Nat
  count : Nat
  armed : Bool
  deriving DecidableEq, Repr

/-- A data ring of a context (R385, R387, R389). -/
structure DataRing where
  id : Nat
  base : Nat
  log2 : Nat
  blockLog2 : Nat
  vec : Nat
  vecEn : Bool
  modCount : Nat
  modUs : Nat
  w : Nat
  head : Nat
  phase : Bool
  drops : BitVec 32
  count : Nat
  armed : Bool
  streamId : Nat
  deriving DecidableEq, Repr

/-- A descriptor of a command ring with the host blocks it names, each as its read returns it. -/
structure Desc where
  op : DescOp
  sub : Sub
  reads : List HostRead
  deriving DecidableEq, Repr

/-- A descriptor accepted and not completed (R382): its ring index, whether it has begun (R407), and for a
FENCE with RECORDS the (stream, seq) positions it waits for (R408). -/
structure Acc where
  sid : Nat
  index : Nat
  desc : Desc
  begun : Bool
  marks : List (Nat × Nat)
  /-- its work is done but for records that wait for credit: result0, result1 -/
  onWritten : Option (Nat × Nat)
  deriving DecidableEq, Repr

/-- A user window table held in a handle (R182). -/
structure WindowTab where
  handle : Nat
  log2 : Nat
  coef : List Nat
  deriving DecidableEq, Repr

/-- An SPU kernel image held in a handle (R308). -/
structure KernelImage where
  handle : Nat
  bytes : Block
  deriving DecidableEq, Repr

/-- STATE of HST_CTX_STATE (R389). -/
inductive CtxState where
  | live | tearingDown
  deriving DecidableEq, Repr

/-- A context (R373, R379, R389, R392). -/
structure Ctx where
  num : Nat
  fn : Nat
  page : Nat
  state : CtxState
  /-- cause code of the teardown under way (R377); 0 while live -/
  cause : Nat
  cmdBase : Nat
  cmdLog2 : Nat
  cmdHead : Nat
  cmdTail : Nat
  /-- descriptors in host memory at and beyond CMD_HEAD, as far as commands have posted them -/
  posted : List Desc
  acc : List Acc
  nextSid : Nat
  cpl : DevRing
  /-- completions held because the completion ring is full (R383) -/
  held : List Cpl
  evt : DevRing
  /-- HST_CTX_STATE.EVENTS_LOST (R384) -/
  eventsLost : BitVec 16
  /-- events dropped and not yet reported by an EVENTS_LOST event (R384) -/
  lostUnsent : Nat
  dbErrors : BitVec 16
  /-- a DOORBELL_INVALID has been raised since DB_ERRORS was read (R390) -/
  dbRaised : Bool
  hbBase : Nat
  beats : Nat
  rings : List DataRing
  windows : List WindowTab
  kernels : List KernelImage
  /-- NEXT_EVENT hint (R526) -/
  nextEvent : Option Nat
  /-- completion of the CONTEXT_DESTROY that named this context: sender, its descriptor (R378) -/
  destroyer : Option (Nat × Nat)
  deriving DecidableEq, Repr

/-- The attach block and error counters of one function (R372, R374, R512). -/
structure FnRegs where
  dbErrors : BitVec 16
  barViolations : BitVec 16
  quota : BitVec 11
  cmdBase : BitVec 64
  cplBase : BitVec 64
  evtBase : BitVec 64
  hbBase : BitVec 64
  cfg : BitVec 64
  irq : BitVec 64
  mod : BitVec 64
  ctlContext : BitVec 10
  attState : BitVec 2
  attContext : BitVec 10
  attReason : BitVec 8
  attSeq : BitVec 32
  /-- an attach whose decision waits for a mode change (R375) -/
  attHeld : Bool
  /-- HST_HEDGE_REQ (R512) -/
  hedgeState : BitVec 2
  hedgeReason : BitVec 4
  hedgeSeq : BitVec 16
  /-- vectors whose MSI-X table entry is not masked, ascending -/
  unmasked : List Nat
  /-- vectors whose PBA bit is set, ascending -/
  pba : List Nat
  /-- 32-bit words of the MSI-X table other than vector control that are not 0: word number and value -/
  msix : List (Nat × Nat)
  deriving DecidableEq, Repr

/-- A latched or staged half of a register, per function (R108, R370): function, register offset, value. -/
structure HalfLatch where
  fn : Nat
  bar : Nat
  off : Nat
  val : Nat
  deriving DecidableEq, Repr

/-- Drops of a stream not yet named by a GAP (R388, R429). -/
structure DropRange where
  first : Nat
  last : Nat
  count : Nat
  bytes : Nat
  spanStart : Nat
  spanEnd : Nat
  deriving DecidableEq, Repr

/-- A record that waits for credit (R388): its class data, before it takes its tag. -/
structure WaitRec where
  seq : Nat
  recType : Nat
  bytes : Nat
  payload : List Fld
  spanStart : Nat
  spanEnd : Nat
  /-- descriptor whose output it is: (context, sid) of a CAPTURE_READ, FLIGHT_READ, STREAM_CLOSE or RING_DESTROY -/
  owner : Option (Nat × Nat)
  deriving DecidableEq, Repr

/-- The digest of a written record whose outcome is not yet known or not yet taken into h (R500). -/
structure PendDigest where
  seq : Nat
  digest : BitVec 384
  /-- none: outcome unknown; some true: stored; some false: lost -/
  outcome : Option Bool
  deriving DecidableEq, Repr

/-- A provenance stream (R388, R402, R430, R498-R501). -/
structure Stream where
  id : Nat
  ctx : Nat
  /-- data rings of the group, (context, ring id); empty for a disk stream -/
  rings : List (Nat × Nat)
  /-- index in `rings` of the ring whose turn it is (R431) -/
  turn : Nat
  /-- disk set of a disk stream; 0 otherwise -/
  diskSet : Nat
  seq : Nat
  /-- tag of the last record written -/
  lastTag : BitVec 128
  drops : Option DropRange
  waiting : List WaitRec
  /-- covered bytes of the parts written of the bundle under way (R546) -/
  parts : List Byte
  /-- session secret bound by ATTEST_BIND (R498); none: the zero key -/
  bound : Option (Nat × BitVec 384)
  h : BitVec 384
  pend : List PendDigest
  /-- records formed since the previous SEAL or the beginning (R501) -/
  sinceSeal : Nat
  prevSeal : Nat
  sealed : Bool
  /-- first seq taken into h since the previous SEAL, records taken since, last seq taken (R502) -/
  coveredFirst : Nat
  contributed : Nat
  coveredThrough : Nat
  deriving DecidableEq, Repr

/-- Host-island state of the device as a whole (R372). -/
structure HostSt where
  /-- PART of HST_ID: 0x4128 or 0x4108, the grade of R1 -/
  part : BitVec 16
  fwVersion : BitVec 32
  adminReady : Bool
  calReady : Bool
  stage : BitVec 3
  refusals : BitVec 16
  /-- most recently given context number (R373) -/
  lastCtx : Nat
  fns : List FnRegs
  latches : List HalfLatch
  staged : List HalfLatch
  ctxs : List Ctx
  streams : List Stream
  nextStream : Nat
  /-- open BAR4 windows: base, bytes, owner tag (R371) -/
  windows : List (Nat × Nat)
  deriving DecidableEq, Repr

/-- The registers of function f at reset (R372, R374, R512). -/
def FnRegs.reset (f : Nat) : FnRegs :=
  { dbErrors := 0, barViolations := 0, quota := if f % 64 = 0 then 1024 else 16, cmdBase := 0, cplBase := 0, evtBase := 0, hbBase := 0
    cfg := 0, irq := 0, mod := 0, ctlContext := 0, attState := 0, attContext := 0, attReason := 0, attSeq := 0, attHeld := false
    hedgeState := 0, hedgeReason := 0, hedgeSeq := 0, unmasked := [], pba := [], msix := [] }

/-- The Host island at reset (R372), of the part IG-4128. -/
def HostSt.reset : HostSt :=
  { part := 0x4128, fwVersion := 0, adminReady := false, calReady := false, stage := 0, refusals := 0, lastCtx := 0
    fns := (List.range 128).map FnRegs.reset, latches := [], staged := [], ctxs := [], streams := [], nextStream := 1, windows := [] }

end Sys2Proof.Machine
end

