-- ==== Sys2Proof/Machine/St/Dsp.lean ====
section
/-!
DEFINITION. State of the transform streams, detectors, integrations, kurtosis and cross-spectra (R174-R224).
-/

namespace Sys2Proof.Machine

/-- Parameters of a transform stream that RECONFIGURE can change (R179, R195), with the user table in force. -/
structure XCfg where
  window : Nat
  lg : Nat
  overlap : Nat
  taps : Nat
  table : Option (List Nat)
  deriving DecidableEq, Repr

/-- A pending switch (R182, R196): new parameters, switch point, descriptor, and whether a TABLE load asked for it. -/
structure XSwitch where
  cfg : XCfg
  point : Nat
  asker : Nat × Nat
  load : Bool
  deriving DecidableEq, Repr

/-- A trace reducer's open trace (R191-R193): points are (value or sum, bin offset in cell, spectrum offset). -/
structure Trace where
  number : Nat
  used : Nat
  firstSpec : Nat
  firstIndex : Nat
  firstFrac : Nat
  flags : Nat
  pts : List (Nat × Nat × Nat)
  deriving DecidableEq, Repr

/-- A trace reducer with no trace open. -/
def Trace.empty : Trace := ⟨0, 0, 0, 0, 0, 0, []⟩

/-- A block of accumulators with its exponent (R207): a cross pair lists real parts, then imaginary ones. -/
structure AccBlock where
  acc : List Int
  exp : Nat
  due : Bool
  sat : Bool
  /-- an add event has been made in the interval -/
  added : Bool
  deriving DecidableEq, Repr

/-- A block as an interval finds it. -/
def AccBlock.fresh : AccBlock := ⟨[], 0, false, false, false⟩

/-- The integration of a stream (R203-R215): the open interval. -/
structure Integ where
  /-- spectrum_number at which the interval and sub-integration grids start -/
  base : Nat
  /-- number of the open interval -/
  j : Nat
  /-- SINGLE has dumped its interval -/
  idle : Bool
  /-- the interval holds a formed spectrum -/
  begun : Bool
  blk : AccBlock
  cnt : List Nat
  lastSk : List Nat
  s1 : List Nat
  s2 : List Nat
  integrated : Nat
  skipped : Nat
  lost : Nat
  drained : Nat
  short : Nat
  subDrained : Nat
  flags : Nat
  /-- flags of the open sub-integration, and whether a spectrum of it was skipped or lost -/
  subFlags : Nat
  subBad : Bool
  /-- start_index of the open sub-integration's first spectrum -/
  subIndex : Nat
  firstIndex : Nat
  /-- spectra of the interval that fall in the drain window of the one before (R215) -/
  drain : Nat
  deriving DecidableEq, Repr

/-- A transform stream of a running plan (R174-R197). -/
structure XStream where
  plan : Nat
  idx : Nat
  engine : Nat
  /-- XEZ slot of the channel -/
  slot : Nat
  cfg : XCfg
  /-- overlap that the plan, or its latest RECONFIGURE, asks for: the thermal ladder may lower it (R538) -/
  own : Nat
  /-- first sample number of the next frame: sample index on XEn, output sample m on XEZ -/
  next : Nat
  /-- spectrum_number of the next frame -/
  number : Nat
  /-- input words that frames still need, newest first, with the sample number of each word's first sample -/
  hist : List (Nat × HWord)
  /-- samples before this number read as 0 (R184) -/
  since : Nat
  gap : Bool
  change : Bool
  switch : Option XSwitch
  /-- a RECONFIGURE that completes when the first new spectrum is formed: (context, sid), switch point -/
  answer : Option (Nat × Nat × Nat)
  traces : List Trace
  integ : Option Integ
  deriving DecidableEq, Repr

/-- Counters of a transform engine and its integrations (R201, R223). -/
structure XEng where
  frames : BitVec 64
  overflows : BitVec 16
  lost : BitVec 16
  switches : BitVec 16
  lastExp : BitVec 8
  maxExp : BitVec 8
  dumps : BitVec 64
  saturated : BitVec 16
  short : BitVec 16
  drained : BitVec 16
  drops : BitVec 16
  deriving DecidableEq, Repr

/-- One cross pair's open interval (R217-R219). -/
structure CrossPair where
  /-- 0-5, AB to CD -/
  pair : Nat
  base : Nat
  j : Nat
  idle : Bool
  begun : Bool
  blk : AccBlock
  integrated : Nat
  skipped : Nat
  lost : Nat
  drained : Nat
  flags : Nat
  firstIndex : Nat
  drain : Nat
  deriving DecidableEq, Repr

/-- A spectrum that waits for its partners (R219): engine, spectrum_number, start index, and unless it was lost its
flags, frame_exp and bins. -/
structure CrossIn where
  engine : Nat
  number : Nat
  index : Nat
  formed : Option (Nat × Nat × List (Int × Int))
  deriving DecidableEq, Repr

/-- The cross-spectra of a plan. -/
structure CrossSt where
  plan : Nat
  pairs : List CrossPair
  waiting : List CrossIn
  deriving DecidableEq, Repr

/-- A dump record that the drain reads out (R215): plan, source order, engine (5 for a pair), ring and record. -/
structure DumpRec where
  plan : Nat
  order : Nat
  engine : Nat
  ring : Nat
  recType : Nat
  bytes : Nat
  payload : List Fld
  spanStart : Nat
  spanEnd : Nat
  deriving DecidableEq, Repr

/-- The transform engines, integrations and cross-spectra. -/
structure Dsp where
  streams : List XStream
  engines : List XEng
  cross : List CrossSt
  drain : List DumpRec
  /-- XFM_WINDOWS.SWAPS (R202) -/
  swaps : BitVec 16
  unpaired : BitVec 16
  crossSat : BitVec 16
  crossDrops : BitVec 16
  deriving DecidableEq, Repr

/-- An engine at reset (R201, R223). -/
def XEng.reset : XEng := ⟨0, 0, 0, 0, 0, 0, 0, 0, 0, 0, 0⟩

/-- The transform engines at reset. -/
def Dsp.reset : Dsp := ⟨[], List.replicate 5 XEng.reset, [], [], 0, 0, 0, 0⟩

end Sys2Proof.Machine
end

