-- ==== Sys2Proof/Machine/St/Hedge.lean ====
section
/-!
DEFINITION. State of Hedge, of start-up and resets, and of the ageing monitors (R504-R514, R530-R534, R555-R557, R568, R576).
-/

namespace Sys2Proof.Machine

/-- Hedge, start-up and resets. -/
structure Hedge where
  /-- inputs whose attenuator is engaged, and the coarse tick at which each hold timer expires (R505) -/
  protect : BitVec 4
  holds : List Nat
  protects : List (BitVec 8)
  throttle : Bool
  /-- a thermal trip, latched until the next cold start (R506) -/
  tripped : Bool
  sclkLost : Bool
  supplyLatch : Bool
  /-- AMC channels 16-23 of rails out of window -/
  railsOut : List Nat
  safe : Bool
  /-- readings of TS0-TS15, signed 1/64 degree, and the highest one since always-on power-up -/
  temps : List Int
  tjPeak : Int
  /-- RF_TRIP, RF_HYST, THROTTLE_C, TRIP_C, MBOX_ALLOW, POLICY_SEQ (R504) -/
  rfTrip : BitVec 32
  rfHyst : BitVec 8
  throttleC : BitVec 8
  tripC : BitVec 8
  mboxAllow : BitVec 8
  policySeq : BitVec 32
  wdogResets : BitVec 8
  supplyResets : BitVec 8
  thermalTrips : BitVec 8
  /-- coarse ticks of the latest watchdog resets (R509) -/
  wdogTicks : List Nat
  /-- events for context 0 that wait until it exists: code, subject, detail, detail2 -/
  waiting : List (Nat × Nat × Nat × Nat)
  /-- RESET_N is low; the always-on rails and the Main rails are within their windows -/
  resetN : Bool
  aoOk : Bool
  mainOk : Bool
  /-- the Main domain is held in reset -/
  held : Bool
  /-- Primer runs or has run since the last reset: a cold start; stopped at stage 2 for want of firmware (R488) -/
  cold : Bool
  stopped : Bool
  /-- the reset was orderly, so that DRAM kept what R534 names -/
  retained : Bool
  /-- episodes that R540 counts, under way: kind, and coarse tick at which it began -/
  lostFrom : List (Nat × Nat)
  /-- a warm restart whose time counts is under way (R540) -/
  countRestart : Bool
  /-- a record of the Primer under way fell back (R493) -/
  fellBack : Bool
  /-- coarse tick at T0 of the Primer in force, from which UPTIME_S counts (R372) -/
  t0 : Int
  jtag : JtagInstr
  /-- SHIFT_PPM of the sixteen ageing sites and EQ_HOURS (R568) -/
  shifts : List (BitVec 16)
  eqHours : BitVec 32
  /-- what the NOR holds of them (R568) -/
  norShifts : List (BitVec 16)
  norHours : BitVec 32
  deriving DecidableEq, Repr

/-- Hedge at reset: ROM defaults (R493) and counters as on a new part at always-on power-up (R514, R568). -/
def Hedge.reset : Hedge :=
  { protect := 0, holds := [0, 0, 0, 0], protects := [0, 0, 0, 0], throttle := false, tripped := false, sclkLost := false
    supplyLatch := false, railsOut := [], safe := false, temps := List.replicate 16 0, tjPeak := 0, rfTrip := 0, rfHyst := 8
    throttleC := 95, tripC := 110, mboxAllow := 0x55, policySeq := 0, wdogResets := 0, supplyResets := 0, thermalTrips := 0
    wdogTicks := [], waiting := [], resetN := false, aoOk := true, mainOk := false, held := false, cold := true, stopped := false
    retained := false, lostFrom := [], countRestart := false, fellBack := false, t0 := 0, jtag := .idcode, shifts := List.replicate 16 0, eqHours := 0, norShifts := List.replicate 16 0, norHours := 0 }

end Sys2Proof.Machine
end

