-- ==== Sys2Proof/Machine/St/Lane.lean ====
section
/-!
DEFINITION. State of the PCIe lanes, the link state of the two ports, the pattern test and the eye scan (R471-R486).
-/

namespace Sys2Proof.Machine

/-- A lane (R475, R476, R483-R485). -/
structure Lane where
  active : Bool
  cdrLock : Bool
  elecIdle : Bool
  /-- comparator offset correction frozen (R476) -/
  frozen : Bool
  rate : BitVec 3
  txPreset : BitVec 4
  reqPreset : BitVec 4
  rejected : Bool
  fallback : Bool
  relocks : BitVec 16
  /-- table entry in force; 0 below 8.0 GT/s -/
  entry : BitVec 64
  /-- the partner margins the lane (R479) -/
  margined : Bool
  pattern : BitVec 3
  genEn : Bool
  chkEn : Bool
  injMode : BitVec 2
  injLen : BitVec 6
  injLog2 : BitVec 6
  pat : BitVec 64
  bits : BitVec 48
  errors : BitVec 32
  prbsRelocks : BitVec 16
  injected : BitVec 15
  locked : Bool
  /-- coarse tick at which the checker locked, at which rate injection began, and until which an injection is in progress -/
  lockTick : Nat
  injTick : Nat
  injUntil : Nat
  deriving DecidableEq, Repr

/-- A port's link (R472-R478, R486). -/
structure Port where
  linkUp : Bool
  test : Bool
  rate : BitVec 3
  width : BitVec 5
  /-- 0 Detect, 1 Polling, 2 Configuration, 3 L0, 4 Recovery, 5 L0s, 6 L1, 7 L2, 8 Disabled, 9 Loopback, 10 Hot Reset, 11 TEST -/
  state : BitVec 4
  txL0s : Bool
  rxL0s : Bool
  l1Sub : BitVec 2
  refOk : Bool
  maxRate : BitVec 3
  recoveries : BitVec 16
  l1Entries : BitVec 16
  l0sIdle : BitVec 8
  l1Idle : BitVec 16
  /-- PERST asserted (R531) -/
  perst : Bool
  deriving DecidableEq, Repr

/-- The eye scan engine (R480, R481). -/
structure EyeScan where
  lane : BitVec 5
  toff : BitVec 7
  voff : BitVec 7
  dwell : BitVec 6
  state : BitVec 2
  fin : BitVec 3
  bits : BitVec 48
  errors : BitVec 48
  startTick : Nat
  /-- lane and dwell of the scan under way -/
  runLane : BitVec 5
  runDwell : BitVec 6
  deriving DecidableEq, Repr

/-- Lanes and ports. -/
structure Link where
  lanes : List Lane
  ports : List Port
  scan : EyeScan
  /-- the board table's entries (R473): lane l at 8.0, 16.0 and 32.0 GT/s are entries 3 l, 3 l + 1 and 3 l + 2 -/
  table : List (BitVec 64)
  deriving DecidableEq, Repr

/-- A lane at reset (R485). -/
def Lane.reset : Lane :=
  { active := false, cdrLock := false, elecIdle := false, frozen := false, rate := 0, txPreset := 0, reqPreset := 0, rejected := false
    fallback := false, relocks := 0, entry := 0, margined := false, pattern := 0, genEn := false, chkEn := false
    injMode := 0, injLen := 0, injLog2 := 20, pat := 0, bits := 0, errors := 0, prbsRelocks := 0, injected := 0, locked := false
    lockTick := 0, injTick := 0, injUntil := 0 }

/-- A port at reset (R486; MAX_RATE on the ROM defaults of R493 until Primer loads the table). -/
def Port.reset : Port :=
  { linkUp := false, test := false, rate := 0, width := 0, state := 0, txL0s := false, rxL0s := false, l1Sub := 0, refOk := false
    maxRate := 2, recoveries := 0, l1Entries := 0, l0sIdle := 8, l1Idle := 64, perst := false }

/-- Lanes and ports at reset (R481, R485, R486). The ROM default board table allows no rate above 5.0 GT/s (R493): every entry asks
for preset 15, which is invalid (R474). -/
def Link.reset : Link :=
  { lanes := List.replicate 32 Lane.reset, ports := [Port.reset, Port.reset]
    scan := { lane := 0, toff := 0, voff := 0, dwell := 30, state := 0, fin := 0, bits := 0, errors := 0, startTick := 0, runLane := 0
              runDwell := 30 }
    table := List.replicate 96 (BitVec.ofNat 64 (15 * 2 ^ 37)) }

end Sys2Proof.Machine
end

