-- ==== Sys2Proof/Machine/St/Mode.lean ====
section
/-!
DEFINITION. State of the operating mode: the mode, its partition, and a mode change under way (R31-R47).
-/

namespace Sys2Proof.Machine

/-- Steps of a mode change (R45), or of the rebuild of R455 that follows the same steps. -/
inductive ChangePhase where
  | accepted | drained | flushed | repartitioned | rechecked
  deriving DecidableEq, Repr

/-- A mode change under way: its phase, the descriptor that asked for it (none for a channel loss, R455),
and the plans that ran at the drain point in PLAN_START order (R46). -/
structure ModeChange where
  phase : ChangePhase
  asker : Option (Nat × Nat)
  plans : List Nat
  deriving DecidableEq, Repr

/-- MGT_MODE_STATUS and MGT_MODE_PARTITION (R39, R40). -/
structure ModeSt where
  mode : BitVec 4
  target : BitVec 4
  replayed : BitVec 4
  defaulted : Bool
  gen : BitVec 16
  /-- T, I, D, M, S, OFF, TEST in MB -/
  part : List Nat
  change : Option ModeChange
  deriving DecidableEq, Repr

/-- The mode before Primer stage 4 ends (R38-R40): no mode, and no region of Analysis Memory in use. -/
def ModeSt.reset : ModeSt :=
  { mode := 0, target := 0, replayed := 0, defaulted := false, gen := 0, part := [0, 0, 0, 0, 0, 160, 0], change := none }

end Sys2Proof.Machine
end

