-- ==== Sys2Proof/Machine/St/Plan.lean ====
section
/-!
DEFINITION. State of plans (R41-R47, R412-R415, R527): the plan object as read, and where the plan stands.
-/

namespace Sys2Proof.Machine

/-- A sub-block of a plan object (R413): kind, index, its offset in the object and its bytes. -/
structure SubBlk where
  kind : Nat
  idx : Nat
  off : Nat
  blk : Block
  deriving DecidableEq, Repr

/-- Where a plan stands: created, started and waiting for its first word, running, or stopping until its drains end. -/
inductive PlanPhase where
  | created | waiting | running | stopping
  deriving DecidableEq, Repr

/-- The duty cycle of a running plan (R527): t0, number of the window under way or next, paused, and whether a deep power state
has wound the plan down, so that its next window restarts it (R521). -/
structure Duty where
  t0 : Nat
  window : Nat
  paused : Bool
  fresh : Bool
  deriving DecidableEq, Repr

/-- A plan. -/
structure Plan where
  id : Nat
  ctx : Nat
  head : Block
  subs : List SubBlk
  phase : PlanPhase
  /-- place in PLAN_START order among all starts since Primer (R42, R46) -/
  order : Nat
  /-- start_time of the PLAN_START in force and the index it converts to (R415) -/
  startTime : Nat
  startIndex : Nat
  firstTag : Nat
  /-- tag of the last word taken, if any -/
  lastTag : Option Nat
  /-- PLAN_START waiting for the first word, PLAN_STOP waiting for the drains: (context, sid) -/
  starter : Option (Nat × Nat)
  stopper : Option (Nat × Nat)
  /-- a PLAN_DESTROY follows the drains -/
  destroyed : Bool
  /-- colour tables read by PLAN_START, by DENSITY block index (R254) -/
  luts : List (Nat × Block)
  duty : Option Duty
  /-- over a mode change (R197): configurations in force or pending of the streams (index, window, log2_size, overlap,
  taps), and the RECONFIGUREs that the restart completes (index, context, sid) -/
  keep : List (Nat × List Nat)
  answers : List (Nat × Nat × Nat)
  /-- reservations of the plan are held -/
  reserved : Bool
  deriving DecidableEq, Repr

end Sys2Proof.Machine
end

