-- ==== Sys2Proof/Machine/St/Pwr.lean ====
section
/-!
DEFINITION. State of the power manager, the thermal ladder, the management processor's load and the availability account
(R516-R541).
-/

namespace Sys2Proof.Machine

/-- A power-state exit under way (R525): the device time of the known event that it serves, if it is a scheduled one. -/
structure PwrExit where
  serves : Option Nat
  deriving DecidableEq, Repr

/-- Power management (R516-R541). -/
structure Pwr where
  /-- 1 ACTIVE, 2 TRIM, 3 DOZE, 4 NAP, 5 SLUMBER, 6 DORMANT -/
  state : BitVec 3
  /-- state being entered; equal to `state` otherwise -/
  target : BitVec 3
  exiting : Option PwrExit
  cap : BitVec 3
  calPeriod : BitVec 12
  /-- coarse ticks spent in states 1 to 6 up to `since`, the tick of the last change -/
  spent : List Nat
  since : Nat
  entries : BitVec 32
  early : BitVec 16
  late : BitVec 16
  /-- tick of the latest Skim block accepted, or of the start, and blocks that a calibration being served still needs (R524) -/
  lastCal : Nat
  calNeed : Nat
  /-- the management processor runs (R509, R533) -/
  mpUp : Bool
  shed : BitVec 3
  deferred : BitVec 16
  logDrops : BitVec 16
  /-- step of the thermal ladder, and tick of the latest step in either direction (R538) -/
  step : BitVec 3
  stepTick : Nat
  stepsDown : BitVec 16
  stepsUp : BitVec 16
  lostMs : BitVec 32
  episodes : BitVec 16
  /-- MGT_AVAIL as the NOR holds it -/
  norAvail : BitVec 64
  deriving DecidableEq, Repr

/-- Power management at reset (R529, R537, R539; R541 on a new part). -/
def Pwr.reset : Pwr :=
  { state := 1, target := 1, exiting := none, cap := 6, calPeriod := 60, spent := [0, 0, 0, 0, 0, 0], since := 0, entries := 0
    early := 0, late := 0, lastCal := 0, calNeed := 0, mpUp := false, shed := 0, deferred := 0, logDrops := 0
    step := 0, stepTick := 0, stepsDown := 0, stepsUp := 0, lostMs := 0, episodes := 0, norAvail := 0 }

end Sys2Proof.Machine
end

