-- ==== Sys2Proof/Machine/St/Rec.lean ====
section
/-!
DEFINITION. State of the flight recorder and of replay (R542-R549).
-/

namespace Sys2Proof.Machine

/-- A journal entry (R543): device time bits [95:32], kind, body fields and body bytes. -/
structure JEntry where
  time : Nat
  kind : Nat
  body : List Fld
  bytes : Nat
  deriving DecidableEq, Repr

/-- A replay bundle (R546, R548). -/
structure Bundle where
  id : Nat
  /-- built from the flight recorder (REPLAY_LOAD op FLIGHT) -/
  flight : Bool
  mode : Nat
  pairs : Nat
  rateNum : Nat
  rateDen : Nat
  routes : Nat
  first : List Nat
  fin : List Nat
  /-- words of each pair in ascending index; a pair without words has none -/
  words : List (List HWord)
  journal : List JEntry
  bytes : Nat
  deriving DecidableEq, Repr

/-- The flight recorder and the replay feed (R542-R549). -/
structure Recorder where
  frozen : Bool
  consolidated : Bool
  cause : BitVec 8
  /-- FR_MB -/
  windowMb : BitVec 16
  lateFaults : BitVec 16
  freezeTime : DevTime
  /-- the mode whose partition was in force at the freeze, and each pair's next index then -/
  freezeMode : BitVec 4
  ends : List Nat
  /-- rate and pair routes at the freeze (R546) -/
  frzNum : Nat
  frzDen : Nat
  frzRoutes : Nat
  /-- words of the shares that lay in poisoned codewords: pair, index (R452) -/
  marked : List (Nat × Nat)
  /-- journal entries, newest first, and their bytes with heads -/
  journal : List JEntry
  journalBytes : Nat
  /-- words of each pair's share, newest first (R542) -/
  shares : List (List HWord)
  loaded : Option Bundle
  staged : Option Bundle
  feeding : Bool
  ended : Bool
  /-- tag of the next word the feed forms, per pair -/
  pos : List Nat
  /-- index up to which the bundle's journal has been fed (R551) -/
  fed : Nat
  deriving DecidableEq, Repr

/-- The recorder at reset (R547). -/
def Recorder.reset : Recorder :=
  { frozen := false, consolidated := false, cause := 0, windowMb := 512, lateFaults := 0, freezeTime := 0, freezeMode := 0, ends := [0, 0, 0, 0], frzNum := 0, frzDen := 1, frzRoutes := 0, marked := []
    journal := [], journalBytes := 0, shares := [[], [], [], []], loaded := none, staged := none
    feeding := false, ended := false, pos := [0, 0, 0, 0], fed := 0 }

end Sys2Proof.Machine
end

