-- ==== Sys2Proof/Machine/St/Skim.lean ====
section
/-!
DEFINITION. State of Skim, the background calibration of the converter pairs (R122-R149).
-/

namespace Sys2Proof.Machine

/-- A coefficient set in the order of the CAL_SNAPSHOT bytes 0x60-0xE1 (R126, R149): even offset, gain and ten stage
gains, the same for the odd core, seven FIR taps, skew trim, the two reference trims: 34 values. -/
abbrev CoefSet := List Int

/-- The nominal set (R126). -/
def CoefSet.nominal : CoefSet :=
  [0] ++ List.replicate 11 (2 ^ 30) ++ [0] ++ List.replicate 11 (2 ^ 30) ++ [0, 0, 0, 2 ^ 30, 0, 0, 0] ++ [0, 0, 0]

/-- A commit decided for the next word formed (R129, R133). -/
structure Decided where
  step : Bool
  set : CoefSet
  reason : Nat
  held : Bool
  expired : Bool
  /-- built with excited blocks, so that it teaches the temperature table (R139) -/
  excited : Bool
  deriving DecidableEq, Repr

/-- A held set (R134). -/
structure Held where
  set : CoefSet
  reason : Nat
  since : Nat
  excited : Bool
  deriving DecidableEq, Repr

/-- A bin of the temperature table (R139): step, bin, odd-to-even gain ratio in Q2.30, skew trim, FIR. -/
structure TempBin where
  step : Nat
  bin : Nat
  ratio : Int
  skew : Int
  fir : List Int
  deriving DecidableEq, Repr

/-- Skim of one pair. -/
structure Skim where
  /-- 1 AUTO, 2 HOLD, 3 MANUAL, 4 FOREGROUND (R143) -/
  mode : BitVec 3
  epoch : BitVec 32
  lg : Nat
  start : CoefSet
  target : CoefSet
  cur : CoefSet
  ramp : Bool
  k : Nat
  /-- length of the running ramp is 2^rampLg -/
  rampLg : Nat
  decided : Option Decided
  /-- fence ends: (key, sample index); key 0 is software, 1 + n capture number n of the device (R134, R136) -/
  fences : List (Nat × Nat)
  held : Option Held
  est : CoefSet
  /-- last set committed at each full-scale step, and the FOREGROUND-derived sets (R141) -/
  stepSets : List (Option CoefSet)
  fgSets : List CoefSet
  /-- payload of the latest CAL_SNAPSHOT, offsets from 0x40 on (R148, R149) -/
  snap : List Fld
  /-- block under way: bad word seen, words, OVR words, sum of squares -/
  blkBad : Bool
  blkWords : Nat
  blkOvr : Nat
  blkSq : Nat
  /-- accepted blocks towards the next solve, and how many were excited (R125) -/
  accepted : Nat
  excited : Nat
  /-- a solve under way: blocks ended since its sixteenth, and whether it may update excited quantities -/
  solve : Option (Nat × Bool)
  /-- runs of R138 -/
  dullRun : Nat
  excitedRun : Nat
  lacking : Bool
  fallback : Bool
  fgFault : Bool
  retargets : BitVec 8
  stale : BitVec 8
  temp : BitVec 16
  tempAtCommit : BitVec 16
  excitation : BitVec 16
  /-- learned bins, and the fuse seeds -/
  learned : List TempBin
  /-- the factory set from fuses (R128) -/
  factory : CoefSet
  seeds : List TempBin
  /-- frozen views (R147): target, current, estimate -/
  frozen : Option (List (List Fld))
  /-- route and step to return to after FOREGROUND (R140) -/
  fgReturn : Option (BitVec 3 × BitVec 4)
  deriving DecidableEq, Repr

/-- Skim of a pair at reset, the factory set taken as nominal until Primer loads it (R128, R143, R145). -/
def Skim.reset : Skim :=
  { mode := 1, epoch := 0, lg := 16, start := CoefSet.nominal, target := CoefSet.nominal, cur := CoefSet.nominal
    ramp := false, k := 0, rampLg := 16, decided := none, fences := [], held := none, est := []
    stepSets := List.replicate 16 none, fgSets := List.replicate 16 CoefSet.nominal, snap := []
    blkBad := false, blkWords := 0, blkOvr := 0, blkSq := 0, accepted := 0, excited := 0, solve := none
    dullRun := 0, excitedRun := 0, lacking := false, fallback := false, fgFault := false, retargets := 0
    stale := 0, temp := 0, tempAtCommit := 0, excitation := 0, learned := [], factory := CoefSet.nominal, seeds := [], frozen := none
    fgReturn := none }

/-- Skim of the device: the four pairs, and the termination trims of the four inputs (R127, R140). -/
structure SkimAll where
  pairs : List Skim
  termTrim : List Int
  /-- RUN_FOREGROUND under way: (context, sid), pairs not yet ended -/
  fgRun : Option (Nat × Nat × List Nat)
  deriving DecidableEq, Repr

/-- All of Skim at reset. -/
def SkimAll.reset : SkimAll := { pairs := List.replicate 4 Skim.reset, termTrim := [0, 0, 0, 0], fgRun := none }

end Sys2Proof.Machine
end

