-- ==== Sys2Proof/Machine/St/Spu.lean ====
section
/-!
DEFINITION. State of the SPU cluster and its control store (R283-R365).
-/

namespace Sys2Proof.Machine

/-- A register bank (R285). -/
structure SpuBank where
  v : List (BitVec 128)
  a : List (BitVec 32)
  m : List (BitVec 32)
  /-- lane L of accumulator n is element 8 n + L -/
  acc : List (BitVec 40)
  p : List (BitVec 16)
  /-- sticky flags SAT, FINV, FOVF, FUNF, FINX at bits 1-5, LONG_PEND at bit 6 (R288) -/
  sr : BitVec 32
  ctl : BitVec 32
  lc : BitVec 16
  prg : BitVec 64
  epc : BitVec 32
  deriving DecidableEq, Repr

/-- A bank of zeros (R309). -/
def SpuBank.zero : SpuBank :=
  { v := List.replicate 32 0, a := List.replicate 16 0, m := List.replicate 8 0, acc := List.replicate 32 0
    p := List.replicate 8 0, sr := 0, ctl := 0, lc := 0, prg := 0, epc := 0 }

/-- How a result changes an accumulator lane when it retires (R330). -/
inductive AccOp where
  | add | sub | set
  deriving DecidableEq, Repr

/-- A result in flight (R286): where it retires. -/
inductive SpuDest where
  /-- vector register: byte mask and value -/
  | v (n : Nat) (mask : BitVec 16) (val : BitVec 128)
  | a (n : Nat) (val : BitVec 32)
  | m (n : Nat) (val : BitVec 32)
  /-- predicate register: bit mask and value -/
  | p (n : Nat) (mask : BitVec 16) (val : BitVec 16)
  /-- accumulator lanes: operation, whether they saturate, products of the enabled lanes -/
  | acc (n : Nat) (op : AccOp) (sat : Bool) (prod : List (Option Int))
  /-- 32-bit part of an accumulator or its guard bits (R333) -/
  | accPart (n part : Nat) (val : BitVec 128)
  /-- control register, as MTC or MTB writes it -/
  | ctl (n : Nat) (val : BitVec 32)
  /-- sticky flags set in SR -/
  | sr (flags : BitVec 32)
  deriving DecidableEq, Repr

/-- A result in flight: retirement cycle of the issue clock, bank (true is B1) and destination. -/
structure Retire where
  cycle : Nat
  bank : Bool
  dest : SpuDest
  deriving DecidableEq, Repr

/-- A REP or LOOPR body under way: first address, instructions, repetitions left (the current one included). -/
structure SpuLoop where
  start : Nat
  len : Nat
  left : Nat
  deriving DecidableEq, Repr

/-- A long instruction under way at a safe point (R335): bank, opcode, word and progress. -/
structure LongRun where
  bank : Bool
  opc : Nat
  word : BitVec 56
  prog : Nat
  /-- operand registers as read at issue: A, B, C, D and the fourth register -/
  regs : List Nat
  /-- what it holds from chunk to chunk beside its progress: VPEAKS' list, or the extreme value and its index -/
  keep : List (Nat × Nat)
  deriving DecidableEq, Repr

/-- A DMA descriptor posted to a queue (R303). -/
abbrev DmaDesc := BitVec 256

/-- An emit entry (R306). -/
structure EmitEntry where
  addr : Nat
  len : Nat
  ring : Nat
  tag : BitVec 64
  deriving DecidableEq, Repr

/-- A tap subscription of an instance (R299-R301). -/
structure Tap where
  kind : Nat
  plan : Nat
  source : Nat
  detail : Nat
  first : Nat
  count : Nat
  every : Nat
  ringAddr : Nat
  ringBytes : Nat
  head : BitVec 32
  tail : BitVec 32
  isOpen : Bool
  /-- source items since launch, items offered since launch, items dropped since the last delivered one -/
  seen : Nat
  seq : Nat
  dropped : Nat
  fresh : Bool
  deriving DecidableEq, Repr

/-- An item offered to a tap and not yet delivered: the tap, its tap_seq, and the record's bytes from 0x40 on. -/
structure TapOffer where
  tap : Nat
  seq : Nat
  opened : Bool
  bytes : Nat
  payload : List Fld
  deriving DecidableEq, Repr

/-- A window of a kernel (R304): kind, target, and the DRAM range of kinds 2 to 4. -/
structure SpuWindow where
  kind : Nat
  target : Nat
  base : Nat
  bytes : Nat
  deriving DecidableEq, Repr

/-- A running kernel (R309-R311). -/
structure Kernel where
  id : Nat
  ctx : Nat
  handle : Nat
  instances : Nat
  plan : Nat
  windows : List SpuWindow
  scratchKb : Nat
  /-- scratch lies in S or TEST, not in DRAM -/
  scratchInS : Bool
  emitRing : Nat
  emitMb : Nat
  dmaMb : Nat
  maintOnly : Bool
  irqEntry : Nat
  /-- SPU_SIGNAL STOP commands under way: (context, sid), instances still to end -/
  stops : List (Nat × Nat × List Nat)
  deriving DecidableEq, Repr

/-- A machine check under way on a unit (R352-R357). -/
structure Recovery where
  /-- mc_seq of its open log entries -/
  seqs : List Nat
  /-- context of the kernel that it froze -/
  owner : Nat
  rom : Bool
  visible : Bool
  injected : Bool
  /-- the chunk that is repeated is one of an RCOPY onto its own source (R353) -/
  inexact : Bool
  deriving DecidableEq, Repr

/-- A logical SPU with its instance (R285-R313). -/
structure Lsu where
  /-- 0 free, 1 running, 2 stopping, 3 recovering, 4 not allocated -/
  state : Nat
  /-- state that the number takes when its instance ends: 0, or 4 once it is no longer allocated (R283) -/
  back : Nat
  phys : Nat
  kernel : Nat
  inst : Nat
  b0 : SpuBank
  b1 : SpuBank
  inB1 : Bool
  pc : Nat
  lastPc : Nat
  clk : Nat
  cycle : BitVec 64
  cycleHi : BitVec 32
  timerCmp : BitVec 64
  timerLo : BitVec 32
  timerArmed : Bool
  flight : List Retire
  rep : Option SpuLoop
  /-- the boundary just after a REP body, and the instruction after RETI: no interrupt point (R296) -/
  afterRep : Bool
  afterReti : Bool
  /-- a LOOPR loop of B0 and one of B1 -/
  loop : Option SpuLoop
  loopB1 : Option SpuLoop
  /-- how far the names v16-v31 of B0 have moved (R322) -/
  rot : Nat
  waiting : Bool
  halting : Option Nat
  long : Option LongRun
  mem : List Host.Cell
  scratch : List Host.Cell
  pend : BitVec 6
  sigq : List (BitVec 32)
  taps : List Tap
  offers : List TapOffer
  dma : List (List (Nat × DmaDesc))
  /-- posting order over all four queues -/
  dmaPosted : Nat
  dmaDone : List (BitVec 32)
  emits : List EmitEntry
  /-- the emit queue has been full since OUTQ last became pending -/
  outqFull : Bool
  tapDrops : BitVec 16
  emitDrops : BitVec 16
  rejected : BitVec 16
  recovery : Option Recovery
  /-- an end asked for, taken at the next interrupt point or safe point: reason code -/
  ending : Option Nat
  deriving DecidableEq, Repr

/-- An entry of the machine-check log (R359). -/
structure McLog where
  seq : Nat
  time : Nat
  phys : Nat
  logical : Nat
  source : Nat
  outcome : Nat
  romAddr : Nat
  patchAddr : Nat
  word : Nat
  parity : Nat
  flags : Nat
  pc : Nat
  recoveryNs : Nat
  deriving DecidableEq, Repr

/-- The SPU cluster and control store. -/
structure Spu where
  lsus : List Lsu
  kernels : List Kernel
  nextKernel : Nat
  spareUsed : Bool
  retired : BitVec 17
  spare : BitVec 5
  /-- the NOR's retirement record, applied by Primer (R358) -/
  record : BitVec 17
  patchState : BitVec 2
  patchVersion : BitVec 32
  patchWords : BitVec 11
  /-- the verified copy of the patch words in Control SRAM, which every unit's patch RAM holds (R361) -/
  patch : List Nat
  reject : BitVec 3
  digest : BitVec 64
  /-- the common match table: ROM address, patch address, enable -/
  table : List (Nat × Nat × Bool)
  mcCount : BitVec 16
  scrubFixes : BitVec 16
  mcSeq : Nat
  mcLog : List McLog
  injAddr : BitVec 14
  injPatch : Bool
  injUnit : BitVec 5
  injArm : Bool
  deriving DecidableEq, Repr

/-- A free logical SPU on physical unit n. -/
def Lsu.reset (n : Nat) : Lsu :=
  { state := 0, back := 0, phys := n, kernel := 0, inst := 0, b0 := SpuBank.zero, b1 := SpuBank.zero, inB1 := false
    pc := 0, lastPc := 0, clk := 0, cycle := 0, cycleHi := 0, timerCmp := 0, timerLo := 0, timerArmed := false
    flight := [], rep := none, afterRep := false, afterReti := false, loop := none, loopB1 := none, rot := 0, waiting := false
    halting := none, long := none, mem := [], scratch := [], pend := 0, sigq := [], taps := [], offers := []
    dma := [[], [], [], []], dmaPosted := 0, dmaDone := [0, 0, 0, 0], emits := [], outqFull := false, tapDrops := 0
    emitDrops := 0, rejected := 0, recovery := none, ending := none }

/-- The cluster at reset (R313, R314, R363-R365; the Primer fields as before any retirement). -/
def Spu.reset : Spu :=
  { lsus := (List.range 16).map Lsu.reset, kernels := [], nextKernel := 1, spareUsed := false, retired := 0, spare := 16
    record := 0, patchState := 0, patchVersion := 0, patchWords := 0, patch := [], reject := 0, digest := 0
    table := List.replicate 64 (0, 0, false), mcCount := 0, scrubFixes := 0, mcSeq := 0, mcLog := [], injAddr := 0
    injPatch := false, injUnit := 0, injArm := false }

end Sys2Proof.Machine
end

