-- ==== Sys2Proof/Machine/St/Time.lean ====
section
/-!
DEFINITION. State of the Timing island: device time, PPS, anchors, TDC channels and gated measurements.
-/

namespace Sys2Proof.Machine

/-- A TIME_ANCHOR (R65): device time, first sample at or after it, its offset in 2^-16 ns. -/
structure Anchor where
  time : Nat
  index : Nat
  offset : Nat
  ppsOffset : Int
  rateNum : Nat
  rateDen : Nat
  flags : Nat
  quality : Nat
  deriving DecidableEq, Repr

/-- A pending SET_TIME with apply 1 (R57, R58): its descriptor, the target second, the tick of acceptance. -/
structure SetPending where
  ctx : Nat
  sid : Nat
  seconds : Nat
  accepted : Nat
  deriving DecidableEq, Repr

/-- A stamp: absolute coarse tick, position within the tick in 2^-16 ns (0-81,919), edge, loss marks (R70, R73). -/
structure Stamp where
  tick : Nat
  sub : Nat
  rising : Bool
  deadBefore : Bool
  queueBefore : Bool
  deriving DecidableEq, Repr

/-- A TDC channel (R69-R77, R86). -/
structure TdcCh where
  owner : Option Nat
  edges : Nat
  dividerLog2 : Nat
  ring : Nat
  stagingKb : Nat
  /-- latest edge, in units of 2^-16 ns since Timing-island start (R71) -/
  lastEdge : Option Nat
  deadMark : Bool
  queueMark : Bool
  queue : List Stamp
  /-- entries of the open TDC_STAMPS record, oldest first (R74) -/
  openRec : List Stamp
  deadLost : BitVec 16
  queueLost : BitVec 16
  /-- last accepted cal_seq, and calibrations made (R78, R86) -/
  calSeq : Nat
  calNum : Nat
  stampsSinceCal : Nat
  lastCal : Nat
  deriving DecidableEq, Repr

/-- Where a gated measurement stands (R79). -/
inductive GatePhase where
  | armed | asserting (edge : Nat) | opened | closing (edge : Nat)
  deriving DecidableEq, Repr

/-- An edge counted in an INTERVAL gate: time from the open tick in 2^-16 ns, and whether a dead-time loss
precedes it. -/
structure GateEdge where
  t : Nat
  lost : Bool
  deriving DecidableEq, Repr

/-- A gated measurement (R79-R85). -/
structure Gate where
  interval : Bool
  startCh : Nat
  stopCh : Nat
  /-- asserted high -/
  high : Bool
  ring : Nat
  mid : Nat
  maxUs : Nat
  ctx : Nat
  phase : GatePhase
  openTick : Nat
  openTime : Nat
  stepped : Bool
  starts : List GateEdge
  stops : List GateEdge
  startCount : Nat
  stopCount : Nat
  lostEdges : Nat
  /-- an edge of the start or stop channel was lost to dead time since its last edge -/
  startLost : Bool
  stopLost : Bool
  /-- FREQUENCY sums over the edges numbered k (R82); t in 2^-16 ns -/
  n : Nat
  sk : Nat
  skk : Nat
  st : Nat
  skt : Nat
  stt : Nat
  limited : Bool
  calSeq : Nat
  deriving DecidableEq, Repr

/-- The Timing island (R48-R86). -/
structure Tim where
  /-- the island runs (R54) -/
  running : Bool
  /-- 800,000,000 * device time + acc, modulo 800,000,000 * 2^128 (R53) -/
  x : Nat
  /-- the 64-bit tick count (R54, R75) -/
  ticks : BitVec 64
  refFreq : BitVec 2
  sclkIn : Bool
  refOk : Bool
  tpllLock : Bool
  sclkLock : Bool
  refclkLost : Bool
  ppsPresent : Bool
  setApplied : Bool
  stepGen : BitVec 16
  setPending : Option SetPending
  ppsDelay : BitVec 16
  ppsFalling : Bool
  ppsWindow : BitVec 8
  ppsOffset : Int
  outliers : BitVec 16
  missed : BitVec 16
  /-- PPS_LOST has been raised and no edge accepted since (R59) -/
  ppsLostRaised : Bool
  /-- tick of the last accepted edge, or of the SET_TIME before any -/
  ppsRef : Nat
  /-- offset of the accepted edge of the second under way, and whether an outlier was seen in it -/
  secOffset : Option Int
  secOutlier : Bool
  ppsOutEnable : Bool
  ppsOutWidth : BitVec 9
  ppsOutOffset : BitVec 16
  ppsOutHigh : Bool
  ppsOutFall : Nat
  /-- latest anchor emitted, and the latest one whose offset was measured or stepped -/
  anchor : Option Anchor
  base : Option Anchor
  rateNum : Nat
  rateDen : Nat
  /-- fused nominal interpolator gain, unsigned Q2.30 (R77) -/
  nominalGain : Nat
  /-- an SPLL relock is under way (R51) -/
  relocking : Bool
  chans : List TdcCh
  gates : List (Option Gate)
  deriving DecidableEq, Repr

/-- A TDC channel as it stands at reset. -/
def TdcCh.reset : TdcCh :=
  { owner := none, edges := 0, dividerLog2 := 0, ring := 0, stagingKb := 0, lastEdge := none, deadMark := false
    queueMark := false, queue := [], openRec := [], deadLost := 0, queueLost := 0, calSeq := 0, calNum := 0
    stampsSinceCal := 0, lastCal := 0 }

/-- The Timing island at reset (the Reset columns of R52, R56, R60-R62, R86; Primer fields: log entry 3). -/
def Tim.reset : Tim :=
  { running := false, x := 0, ticks := 0, refFreq := 0, sclkIn := false, refOk := false, tpllLock := false
    sclkLock := false, refclkLost := false, ppsPresent := false, setApplied := false, stepGen := 0
    setPending := none, ppsDelay := 0, ppsFalling := false, ppsWindow := 10, ppsOffset := 0, outliers := 0
    missed := 0, ppsLostRaised := false, ppsRef := 0, secOffset := none, secOutlier := false
    ppsOutEnable := false, ppsOutWidth := 100, ppsOutOffset := 0, ppsOutHigh := false, ppsOutFall := 0
    anchor := none, base := none, rateNum := 12800000000, rateDen := 1, nominalGain := 2 ^ 30, relocking := false
    chans := List.replicate 8 TdcCh.reset, gates := [none, none] }

end Sys2Proof.Machine
end

