-- ==== Sys2Proof/Machine/St/Trig.lean ====
section
/-!
DEFINITION. State of Topiary masks, trigger units, TRIGOUT, capture rings and captures (R225-R252).
-/

namespace Sys2Proof.Machine

/-- A mask image (R229): lower, upper and don't-care of each bin. -/
structure MaskImg where
  lower : List Int
  upper : List Int
  care : List Bool
  deriving DecidableEq, Repr

/-- A Topiary mask in a handle (R230); `newer` is staged beside it until the units that test the handle have
switched, with the descriptor that loads it (context, sid) and the sample index at which staging ended. -/
structure Mask where
  ctx : Nat
  handle : Nat
  img : MaskImg
  newer : Option (MaskImg × Nat × Nat × Nat)
  deriving DecidableEq, Repr

/-- Dynamic state of one stage of a unit: LEVEL's last tested value and readiness, and the run of FMASK or BANDPWR. -/
structure Stage where
  prev : Option (Nat × Int)
  rise : Bool
  fall : Bool
  run : Nat
  lastSpec : Option Nat
  /-- a TIME source has fired -/
  fired : Bool
  /-- an FMASK source tests the newer image of its handle -/
  onNew : Bool
  deriving DecidableEq, Repr

/-- A stage as arming leaves it. -/
def Stage.fresh : Stage := ⟨none, false, false, 0, none, false, false⟩

/-- A trigger event (R225, R234): stage, source code, placement in 2^-16 samples, the record's details, TIME_LATE. -/
structure TEvent where
  stageB : Bool
  source : Nat
  place : Nat
  detail : Nat
  detail2 : Nat
  late : Bool
  deriving DecidableEq, Repr

/-- A missed fire (R237). -/
structure Missed where
  number : Nat
  ev : TEvent
  reason : Nat
  flags : Nat
  deriving DecidableEq, Repr

/-- A trigger unit (R233-R237, R250). -/
structure TUnit where
  plan : Option Nat
  /-- the plan's TRIGGER block that the unit serves -/
  blk : Nat
  armed : Bool
  waitB : Bool
  frozen : Bool
  aSeen : Nat
  bSeen : Nat
  deadline : Nat
  holdEnd : Nat
  /-- index at which the unit armed, and the last fire's placement -/
  armAt : Nat
  lastFire : Option Nat
  stA : Stage
  stB : Stage
  held : List TEvent
  /-- fires decided whose placement lies ahead (R235): placement and completing event -/
  due : List (Nat × TEvent)
  missed : List Missed
  /-- fires since plan start -/
  fires : BitVec 64
  errMissed : BitVec 16
  errLost : BitVec 16
  errHeldOff : BitVec 16
  errBTimeouts : BitVec 16
  errPre : BitVec 16
  errNoSpace : BitVec 16
  errForced : BitVec 16
  errLate : BitVec 16
  lastIndex : BitVec 64
  lastFrac : BitVec 16
  deriving DecidableEq, Repr

/-- The TRIGOUT pin (R239, R240). -/
structure TrigOut where
  high : Bool
  /-- scheduled rises: tick and width -/
  due : List (Nat × Nat)
  fallAt : Nat
  rises : BitVec 16
  merged : BitVec 16
  deriving DecidableEq, Repr

/-- A block of a capture ring (R241, R243): its range, words newest first with the
numbers of their first samples, tag log (first index, words, tag) newest
first, whether the log overflowed, and the captures that hold it. -/
structure CapBlk where
  range : Nat
  /-- place of the block in the ring's DRAM range, in blocks of 256 KB -/
  pos : Nat
  words : List (Nat × HWord)
  log : List (Nat × Nat × Nat)
  logOver : Bool
  holders : List (Nat × Nat × Nat)
  deriving DecidableEq, Repr

/-- A capture ring (R241, R242, R252). -/
structure CapRing where
  r : Nat
  /-- cap_source -/
  source : Nat
  /-- plan of a zoom ring -/
  plan : Nat
  blocks : Nat
  writing : Bool
  /-- history start -/
  start : Nat
  /-- number of the next word's first sample: sample index, or output samples of a zoom channel since the ring began -/
  next : Nat
  blks : List CapBlk
  /-- DRAM address of the ring -/
  addr : Nat
  overwritten : BitVec 16
  logOvf : BitVec 16
  spillDrops : BitVec 16
  deriving DecidableEq, Repr

/-- A segment (R244): numbers in samples of the ring's source. -/
structure Seg where
  num : Nat
  trig : Nat
  ev : TEvent
  forced : Bool
  stop : Bool
  unit : Nat
  first : Nat
  /-- first post-trigger word, and the word after the last one -/
  post : Nat
  fin : Nat
  preShort : Bool
  postShort : Bool
  /-- first spilled sample number; equal to `fin` with none -/
  spillFrom : Nat
  spillGap : Bool
  spillBuf : List HWord
  /-- words spilled, and whether a fence expired in the span -/
  spilled : Nat
  expired : Bool
  closed : Bool
  route : Nat
  step : Nat
  time : Nat
  deriving DecidableEq, Repr

/-- A capture (R244-R247). -/
structure Capture where
  plan : Nat
  ctx : Nat
  slot : Nat
  num : Nat
  ring : Nat
  source : Nat
  segs : List Seg
  complete : Bool
  deriving DecidableEq, Repr

/-- A capture slot of a plan (R244): number of its next capture, the open capture's number, rearm point, frozen or
done. -/
structure CapSlot where
  plan : Nat
  slot : Nat
  next : Nat
  cur : Option Nat
  rearm : Nat
  /-- the last rearm point that has passed -/
  lastRearm : Nat
  frozen : Bool
  done : Bool
  deriving DecidableEq, Repr

/-- Triggers, masks and captures. -/
structure Trig where
  masks : List Mask
  /-- TOP_STATUS.SWAPS (R251) -/
  swaps : BitVec 16
  units : List TUnit
  out : TrigOut
  rings : List CapRing
  caps : List Capture
  slots : List CapSlot
  /-- words ahead that carry TRIG: plan, pair and sample index (R236) -/
  ahead : List (Nat × Nat × Nat)
  deriving DecidableEq, Repr

/-- A unit at reset (R250). -/
def TUnit.reset : TUnit :=
  { plan := none, blk := 0, armed := false, waitB := false, frozen := false, aSeen := 0, bSeen := 0, deadline := 0, holdEnd := 0
    armAt := 0, lastFire := none, stA := Stage.fresh, stB := Stage.fresh, held := [], due := [], missed := [], fires := 0
    errMissed := 0, errLost := 0, errHeldOff := 0, errBTimeouts := 0, errPre := 0, errNoSpace := 0, errForced := 0
    errLate := 0, lastIndex := 0, lastFrac := 0 }

/-- Triggers and captures at reset (R240, R250-R252). -/
def Trig.reset : Trig :=
  { masks := [], swaps := 0, units := List.replicate 8 TUnit.reset, out := ⟨false, [], 0, 0, 0⟩, rings := [], caps := []
    slots := [], ahead := [] }

end Sys2Proof.Machine
end

