-- ==== Sys2Proof/Machine/St/Trust.lean ====
section
/-!
DEFINITION. State of Glacor: measurements, certificates, SPDM sessions and IDE streams (R487-R496, R513).
-/

namespace Sys2Proof.Machine

/-- An SPDM session of a port (R494): identifier, export master secret, finished by FINISH, transcript values. -/
structure Session where
  port : Nat
  id : Nat
  secret : BitVec 384
  finished : Bool
  /-- KEY_UPDATEs applied so far -/
  keyGen : Nat
  deriving DecidableEq, Repr

/-- An IDE stream of a port (R496): 0 is the link stream, 1-4 the selective streams. -/
structure IdeStream where
  port : Nat
  id : Nat
  keySet : Bool
  secure : Bool
  deriving DecidableEq, Repr

/-- The trust state (R487-R496, R513). -/
structure Trust where
  svnFused : BitVec 7
  fwSvn : BitVec 7
  fwSlot : BitVec 1
  /-- commit_svn of the firmware that runs, and the least patch_version that it declares (R361, R488) -/
  fwCommit : Bool
  fwMinPatch : BitVec 32
  debug : Bool
  /-- a debug token has verified: the UDS stays blocked until the next cold start (R491) -/
  udsBlocked : Bool
  keysValid : Bool
  btSource : BitVec 2
  hpSource : BitVec 2
  fuseVotes : BitVec 16
  btSeq : BitVec 32
  hpSeq : BitVec 32
  ideFails : BitVec 16
  devId : BitVec 384
  dbgNonce : BitVec 128
  /-- number of Primers run, which names the alias key in force (R490) -/
  primers : Nat
  /-- alias certificate then DeviceID certificate, DER (R502) -/
  certs : List Byte
  /-- measurement blocks 1-5 and 7 in force, by index (R495); block 6 is computed -/
  meas : List (Nat × BitVec 384)
  /-- SPDM negotiation of each port: version agreed, capabilities, algorithms negotiated (R494) -/
  nego : List (Nat × Nat)
  sessions : List Session
  /-- copies in the NOR to be rewritten at the end of Primer: 1 board table or 2 policy, and the copy (R492) -/
  norFix : List (Nat × Nat)
  ide : List IdeStream
  deriving DecidableEq, Repr

/-- Glacor at reset (R513); the Primer fields read 0 until Primer loads them (log entry 3). -/
def Trust.reset : Trust :=
  { svnFused := 0, fwSvn := 0, fwSlot := 0, fwCommit := false, fwMinPatch := 0, debug := false, udsBlocked := false, keysValid := false
    btSource := 0, hpSource := 0, fuseVotes := 0, btSeq := 0, hpSeq := 0, ideFails := 0, devId := 0, dbgNonce := 0, primers := 0
    certs := [], meas := [1, 2, 3, 4, 5, 7].map fun i => (i, 0), nego := [], sessions := [], norFix := [], ide := [] }

end Sys2Proof.Machine
end

