-- ==== Sys2Proof/Machine/St/Zoom.lean ====
section
/-!
DEFINITION. State of the zoom channels: front units, slots and their NCOs (R150-R173).
-/

namespace Sys2Proof.Machine

/-- A numerically controlled oscillator (R156-R159). -/
structure Nco where
  ftw : Nat
  /-- FTW in force when the chain started -/
  ftw0 : Nat
  /-- phase at sample number `base` of its own rate -/
  phase : Nat
  base : Nat
  /-- hop table: FTW and dwell in front-input words; entry in force; index where its dwell ends -/
  hop : List (Nat × Nat)
  hopRepeat : Bool
  hopIdx : Nat
  hopNext : Option Nat
  /-- pending SPU request: FTW and index -/
  request : Option (Nat × Nat)
  /-- retunes applied since the chain started, newest first: index and FTW -/
  retunes : List (Nat × Nat)
  count : BitVec 16
  late : BitVec 16
  deriving DecidableEq, Repr

/-- An NCO at rest. -/
def Nco.reset : Nco := ⟨0, 0, 0, 0, [], false, 0, none, none, [], 0, 0⟩

/-- A front zoom unit (R150, R151, R171). Units 2n and 2n + 1 take CPn's words. -/
structure Front where
  plan : Option Nat
  pair : Nat
  dec : Nat
  design : List Nat
  subs : Nat
  i0 : Nat
  nco : Nco
  /-- input words since i0 that an output still needs, newest first -/
  hist : List HWord
  deriving DecidableEq, Repr

/-- A back-engine slot (R150, R151, R172). -/
structure Slot where
  plan : Option Nat
  channel : Nat
  front : Nat
  sub : Nat
  backDec : Nat
  backDesign : List Nat
  ratio : Nat
  gain : Nat
  invert : Bool
  nco : Nco
  /-- number of the next output sample (R164) -/
  m : Nat
  /-- the next word is the first after a flush caused by an input GAP (R163) -/
  gap : Bool
  /-- TRIG placements that fall in a word not yet formed: (index, fraction) -/
  trigs : List (Nat × Nat)
  sat : BitVec 16
  last : Option HWord
  deriving DecidableEq, Repr

/-- The zoom hardware. -/
structure Zoom where
  fronts : List Front
  slots : List Slot
  deriving DecidableEq, Repr

/-- A free front unit. -/
def Front.reset : Front := ⟨none, 0, 0, [], 0, 0, Nco.reset, []⟩

/-- A free slot. -/
def Slot.reset : Slot := ⟨none, 0, 0, 0, 0, [], 0, 0, false, Nco.reset, 0, false, [], 0, none⟩

/-- The zoom hardware at reset (R171, R172). -/
def Zoom.reset : Zoom := { fronts := List.replicate 8 Front.reset, slots := List.replicate 32 Slot.reset }

end Sys2Proof.Machine
end

