-- ==== Sys2Proof/Machine/State.lean ====
section
/-!
DEFINITION. The state of the block, its reset value, and the reasons a step can stop.
-/

namespace Sys2Proof.Machine

/-- The state of the block: every register, ring, buffer, counter and mode the spec gives it, the queue of commands
that wait, and the log of what it has sent. -/
structure State where
  pending : List Instr
  out : List Output
  fresh : Nat
  tim : Tim
  adc : Adc
  skm : SkimAll
  zdc : Zoom
  dsp : Dsp
  trg : Trig
  dpy : Disp
  dram : Dram
  spu : Spu
  pwr : Pwr
  link : Link
  hedge : Hedge
  mode : ModeSt
  host : HostSt
  disk : Disk
  trust : Trust
  fr : Recorder
  plans : List Plan
  nextPlan : Nat
  nextOrder : Nat
  deriving DecidableEq, Repr

/-- The block right after reset: always-on power has just been applied, and Primer has not begun. -/
def State.reset : State :=
  { pending := [], out := [], fresh := 0, tim := Tim.reset, adc := Adc.reset, skm := SkimAll.reset, zdc := Zoom.reset, dsp := Dsp.reset
    trg := Trig.reset, dpy := Disp.reset, dram := Dram.reset, spu := Spu.reset, pwr := Pwr.reset, link := Link.reset, hedge := Hedge.reset
    mode := ModeSt.reset, host := HostSt.reset, disk := Disk.reset, trust := Trust.reset, fr := Recorder.reset, plans := [], nextPlan := 1
    nextOrder := 1 }

/-- Reasons for which the block stops with a fault: the spec gives it none, every error of the spec is a status,
an event, a counter or a status bit. -/
inductive Fault where
  deriving DecidableEq, Repr

/-- Reasons for which a command is refused. -/
inductive Refusal where
  /-- A command without a meaning yet; raised by an arm of Dispatch.lean only; safe. -/
  | notModelled (mnemonic : String)
  deriving DecidableEq, Repr

end Sys2Proof.Machine
end

