-- ==== Sys2Proof/Machine/Ops.lean ====
section
/-!
DEFINITION. The named operations over the Host island: status codes, contexts, completions, events and interrupts.
-/

namespace Sys2Proof.Machine

/-- Status codes (R394, R441, R515, R553). -/
inductive Status where
  | success | zeroField | fieldRange | reservedNonzero | badOpcode | adminOnly | notReady | modeMismatch | modeBusy
  | resourceBusy | superseded | planUnknown | planNotRunning | planStopped | handleUnknown | ringUnknown
  | contextUnknown | captureUnknown | pairNotHeld | ppsAbsent | replayNotLoaded | displayOff | panelTimeout
  | hostReadError | aborted | exportUnknown | diskUnreachable | diskFailed | sessionUnknown | streamStarted
  | bundleInvalid | notFrozen
  deriving DecidableEq, Repr

/-- The code of a status (R394, R441, R515, R553). -/
def Status.code : Status → Nat
  | .success => 0 | .zeroField => 1 | .fieldRange => 2 | .reservedNonzero => 3 | .badOpcode => 4 | .adminOnly => 5
  | .notReady => 6 | .modeMismatch => 7 | .modeBusy => 8 | .resourceBusy => 9 | .superseded => 10
  | .planUnknown => 11 | .planNotRunning => 12 | .planStopped => 13 | .handleUnknown => 14 | .ringUnknown => 15
  | .contextUnknown => 16 | .captureUnknown => 17 | .pairNotHeld => 18 | .ppsAbsent => 19 | .replayNotLoaded => 20
  | .displayOff => 21 | .panelTimeout => 22 | .hostReadError => 23 | .aborted => 24 | .exportUnknown => 32
  | .diskUnreachable => 33 | .diskFailed => 34 | .sessionUnknown => 40 | .streamStarted => 41
  | .bundleInvalid => 48 | .notFrozen => 49

/-- Device time now (R53). -/
def now (s : State) : Nat := s.tim.x / 800000000

/-- The port on which something that the device sends leaves it, if it leaves on one. -/
def outPort (o : Output) (s : State) : Option Nat :=
  let ofCtx := fun (c : Nat) => (s.host.ctxs.find? fun x => decide (x.num = c)).map fun x => x.fn / 64
  match o with
  | .completion c _ _ _ | .event c _ _ _ | .record c _ _ _ _ _ | .pad c _ _ _ _ | .heartbeat c _ _ => ofCtx c
  | .msix f _ | .readData f _ _ | .hostWrite f _ _ => some (f / 64)
  | .bar4Data p _ _ | .spdm p _ _ | .config p _ => some p
  | .nvme n _ _ _ | .nvmeDoorbell n => (s.disk.bindings.find? fun b => decide (b.slot = n)).map (·.port)
  | .pin .. | .panel .. | .margining .. | .frame .. | .nor .. | .refresh .. | .mr4Read ..
  | .neighbour .. | .idcode _ => none

/-- A TLP to send brings a port's transmitter out of L0s, and the port out of L1 through Recovery (R477, R478). -/
def Port.wake (p : Port) : Port :=
  if p.state = 6 then { p with state := 3, l1Sub := 0, txL0s := false, recoveries := satInc p.recoveries }
  else if p.state = 5 then { p with txL0s := false, state := if p.rxL0s then 5 else 3 }
  else p

/-- The device sends something. -/
def emit (o : Output) (s : State) : State :=
  { s with
      out := o :: s.out
      link := match outPort o s with
        | some p => { s.link with ports := modNth s.link.ports p Port.wake }
        | none => s.link }

/-- A value the spec leaves open, with the counter advanced. -/
def freshValue (w : Nat) (s : State) : BitVec w × State :=
  (Config.freeValue w s.fresh, { s with fresh := s.fresh + 1 })

/-! ### The flight recorder's journal (R543, R544) -/

/-- Device time bits [95:32], as events, journal entries and TIME_WAIT completions carry it (R396, R404, R543). -/
def timeMid (t : Nat) : Nat := bits t 32 64

/-- Bytes of the journal ring (R542). -/
def journalSize : Nat := 32 * 2 ^ 20

/-- Drop the oldest entries of a newest-first journal until at most `room` bytes are left. -/
def trimJournal : Nat → List JEntry → List JEntry
  | _, [] => []
  | room, e :: r => if 16 + e.bytes ≤ room then e :: trimJournal (room - (16 + e.bytes)) r else []

/-- Append a journal entry (R543), its body from offset 0x10; while frozen the journal does not advance (R544). -/
def journal (kind : Nat) (body : List Fld) (bytes : Nat) (s : State) : State :=
  if s.fr.frozen then s
  else
    let e : JEntry := ⟨timeMid (now s), kind, body, bytes⟩
    let total := s.fr.journalBytes + 16 + bytes
    if total ≤ journalSize then
      { s with fr := { s.fr with journal := e :: s.fr.journal, journalBytes := total } }
    else
      let l := trimJournal journalSize (e :: s.fr.journal)
      { s with fr := { s.fr with journal := l, journalBytes := sumBy (fun e => 16 + e.bytes) l } }

/-! ### Functions and contexts -/

/-- Change the Host island's state. -/
def modHost (f : HostSt → HostSt) (s : State) : State := { s with host := f s.host }

/-- The registers of function f = 64 * PORT + FUNCTION (R372). -/
def getFn (f : Nat) (s : State) : Option FnRegs := s.host.fns[f]?

/-- Change the registers of a function. -/
def modFn (f : Nat) (g : FnRegs → FnRegs) (s : State) : State :=
  modHost (fun h => { h with fns := modNth h.fns f g }) s

/-- PORT of a function (R372). -/
def fnPort (f : Nat) : Nat := f / 64

/-- FUNCTION of a function: 0 is PF0 (R372). -/
def fnNumber (f : Nat) : Nat := f % 64

/-- Vectors in a function's MSI-X table (R367). -/
def fnVectors (f : Nat) : Nat := if fnNumber f = 0 then 2048 else 64

/-- The context of a number, if it exists. -/
def getCtx (c : Nat) (s : State) : Option Ctx := s.host.ctxs.find? (·.num = c)

/-- Change a context. -/
def modCtx (c : Nat) (f : Ctx → Ctx) (s : State) : State :=
  modHost (fun h => { h with ctxs := mapIf (·.num = c) f h.ctxs }) s

/-- A data ring of a context. -/
def Ctx.ring (c : Ctx) (r : Nat) : Option DataRing := c.rings.find? (·.id = r)

/-- Change a data ring of a context. -/
def modRing (c r : Nat) (f : DataRing → DataRing) (s : State) : State :=
  modCtx c (fun x => { x with rings := mapIf (·.id = r) f x.rings }) s

/-! ### Interrupts (R391) -/

/-- A list of vector numbers with one added, ascending and without repeats. -/
def insertVec (v : Nat) : List Nat → List Nat
  | [] => [v]
  | x :: r => if v < x then v :: x :: r else if v = x then x :: r else x :: insertVec v r

/-- A function signals a vector: the message is sent, or its PBA bit is set while the vector is masked (R391). -/
def signalVector (f v : Nat) (s : State) : State :=
  match getFn f s with
  | none => s
  | some r =>
    if r.unmasked.contains v then emit (.msix f v) s
    else modFn f (fun r => { r with pba := insertVec v r.pba }) s

/-- An armed ring signals when its count reaches mod_count (0 taken as 1), or at once when mod_us is 0 (R385, R391). -/
def signalsNow (armed en : Bool) (count modCount modUs : Nat) : Bool :=
  armed && en && decide (0 < count) && (decide (max modCount 1 ≤ count) || decide (modUs = 0))

/-- Which ring of a context an operation means. -/
inductive RingSel where
  | cpl | evt | data (r : Nat)
  deriving DecidableEq, Repr

/-- A device ring disarmed and its count reset, as signalling leaves it. -/
def DevRing.disarm (r : DevRing) : DevRing := { r with armed := false, count := 0 }

/-- A data ring disarmed and its count reset, as signalling leaves it. -/
def DataRing.disarm (r : DataRing) : DataRing := { r with armed := false, count := 0 }

/-- Signal a ring's vector and disarm it, when `due` says the moderation is met (R391). -/
def signalRing (due : Bool → Bool → Nat → Nat → Nat → Bool) (c : Nat) (sel : RingSel) (s : State) : State :=
  match getCtx c s with
  | none => s
  | some x =>
    match sel with
    | .cpl =>
      let r := x.cpl
      if due r.armed r.vecEn r.count r.modCount r.modUs then
        signalVector x.fn r.vec (modCtx c (fun x => { x with cpl := x.cpl.disarm }) s)
      else s
    | .evt =>
      let r := x.evt
      if due r.armed r.vecEn r.count r.modCount r.modUs then
        signalVector x.fn r.vec (modCtx c (fun x => { x with evt := x.evt.disarm }) s)
      else s
    | .data k =>
      match x.ring k with
      | none => s
      | some r =>
        if due r.armed r.vecEn r.count r.modCount r.modUs then
          signalVector x.fn r.vec (modRing c k DataRing.disarm s)
        else s

/-- Signal a ring if its moderation count is met. -/
def signalIfDue (c : Nat) (sel : RingSel) (s : State) : State := signalRing signalsNow c sel s

/-- The oldest counted entry has waited mod_us: an armed ring with an entry counted signals (R391). -/
def signalTimer (c : Nat) (sel : RingSel) (s : State) : State :=
  signalRing (fun armed en count _ _ => armed && en && decide (0 < count)) c sel s

/-! ### Completions and events (R383, R384, R393, R396) -/

/-- Entries of a device ring written and not consumed. -/
def DevRing.used (r : DevRing) : Nat := (r.tail + 2 ^ r.log2 - r.head) % 2 ^ r.log2

/-- A ring holds at most entries - 1 unconsumed entries (R379). -/
def DevRing.hasRoom (r : DevRing) : Bool := r.used < 2 ^ r.log2 - 1

/-- The ring after one entry is written at its tail: PHASE inverts on each later pass (R380). -/
def DevRing.advance (r : DevRing) : DevRing :=
  { r with tail := (r.tail + 1) % 2 ^ r.log2
           phase := if r.tail + 1 = 2 ^ r.log2 then !r.phase else r.phase
           count := r.count + 1 }

/-- The fields of a completion entry (R393) from offset `o`. -/
def cplFields (o : Nat) (e : Cpl) (phase : Bool) : List Fld :=
  [⟨o, 8, e.userTag.toNat⟩, ⟨o + 8, 2, e.cmdIndex⟩, ⟨o + 0xA, 2, e.status⟩, ⟨o + 0xC, 2, e.cmdHead⟩
   , ⟨o + 0xE, 1, e.opcode⟩, ⟨o + 0x10, 8, e.result0⟩, ⟨o + 0x18, 4, e.result1⟩, ⟨o + 0x1E, 2, b2n phase⟩]

/-- Write a completion at the completion ring's tail. -/
def writeCpl (c : Nat) (e : Cpl) (s : State) : State :=
  match getCtx c s with
  | none => s
  | some x =>
    signalIfDue c .cpl
      (modCtx c (fun x => { x with cpl := x.cpl.advance })
        (emit (.completion c x.cpl.tail x.cpl.phase e)
          (journal 2 (⟨0x10, 2, c⟩ :: cplFields 0x18 e x.cpl.phase) 40 s)))

/-- Post a completion: written, or held in order while the completion ring is full (R383). -/
def postCpl (c : Nat) (e : Cpl) (s : State) : State :=
  match getCtx c s with
  | none => s
  | some x =>
    if x.held.isEmpty && x.cpl.hasRoom then writeCpl c e s
    else modCtx c (fun x => { x with held := x.held ++ [e] }) s

/-- Write held completions while there is room (R383); `n` bounds their number. -/
def drainHeld (c : Nat) : Nat → State → State
  | 0, s => s
  | n + 1, s =>
    match getCtx c s with
    | none => s
    | some x =>
      match x.held with
      | [] => s
      | e :: r =>
        if x.cpl.hasRoom then drainHeld c n (writeCpl c e (modCtx c (fun x => { x with held := r }) s)) else s

/-- Write an event at the event ring's tail. -/
def writeEvt (c : Nat) (e : Evt) (s : State) : State :=
  match getCtx c s with
  | none => s
  | some x =>
    signalIfDue c .evt
      (modCtx c (fun x => { x with evt := x.evt.advance }) (emit (.event c x.evt.tail x.evt.phase e) s))

/-- Send an event to a context: written, or dropped and counted while its ring is full (R384). -/
def sendEvent (c code subject detail detail2 detail3 : Nat) (s : State) : State :=
  match getCtx c s with
  | none => s
  | some x =>
    if x.evt.hasRoom && x.lostUnsent = 0 then
      writeEvt c { time := BitVec.ofNat 64 (timeMid (now s)), code, subject := subject % 2 ^ 32
                   detail := detail % 2 ^ 64, detail2 := detail2 % 2 ^ 32, detail3 := detail3 % 2 ^ 16 } s
    else modCtx c (fun x => { x with eventsLost := satInc x.eventsLost, lostUnsent := x.lostUnsent + 1 }) s

/-- Space exists in an event ring again: one EVENTS_LOST event gives the number dropped (R384). -/
def reportLostEvents (c : Nat) (s : State) : State :=
  match getCtx c s with
  | none => s
  | some x =>
    if x.lostUnsent ≠ 0 && x.evt.hasRoom then
      writeEvt c { time := BitVec.ofNat 64 (timeMid (now s)), code := 0x0052, subject := 0
                   detail := x.lostUnsent, detail2 := 0, detail3 := 0 }
        (modCtx c (fun x => { x with lostUnsent := 0 }) s)
    else s

/-- Send an event to context 0, if it exists. -/
def sendAdmin (code subject detail detail2 detail3 : Nat) (s : State) : State :=
  sendEvent 0 code subject detail detail2 detail3 s

/-- Send an event to every context. -/
def sendAll (code subject detail detail2 detail3 : Nat) (s : State) : State :=
  (s.host.ctxs.map (·.num)).foldl (fun s c => sendEvent c code subject detail detail2 detail3 s) s

/-! ### Completing descriptors -/

/-- The opcode byte of a descriptor form (R404). -/
def opcodeOf : DescOp → Nat
  | .noop => 0x00 | .fence => 0x01 | .timeWait => 0x02 | .modeSet => 0x03 | .contextCreate => 0x04
  | .contextDestroy => 0x05 | .ringCreate => 0x06 | .ringDestroy => 0x07 | .planCreate => 0x10 | .planStart => 0x11
  | .planStop => 0x12 | .planDestroy => 0x13 | .windowTable | .windowDrop | .windowReconfigure => 0x14
  | .maskLoad | .maskDrop => 0x15 | .triggerArm => 0x16 | .triggerDisarm => 0x17
  | .captureReadSegments | .captureReadWords => 0x18 | .captureRelease => 0x19 | .spuLoad => 0x20
  | .spuLaunch => 0x21 | .spuSignal | .spuStop => 0x22 | .streamOpenRing | .streamOpenDisk => 0x28
  | .streamClose => 0x29 | .diskBind => 0x2A | .diskUnbind => 0x2B
  | .displayOutput | .displayLayer | .displayLutLoad | .panelCmd | .layerOff | .outputOff => 0x30
  | .displayFlip => 0x31 | .tdcEnable | .tdcRelease => 0x38 | .tdcGateInterval | .tdcGateFrequency => 0x39
  | .calSetMode | .calManualLoad | .calFence | .calRampLength | .runForeground | .tableReset => 0x3A
  | .setTimePps | .setTimeImmediate => 0x3B | .powerHintCap | .powerHintNextEvent | .powerHintUncap => 0x40
  | .flightRead => 0x41 | .replayLoadHost | .replayLoadFlight | .replayUnload => 0x42 | .attestBind => 0x43
  | .selftest | .clearRetirement | .laneTestEnter | .laneTestExit | .dramTest => 0x44
  | .bad o => o.toNat

/-- The accepted descriptor of a context with a serial number. -/
def findAcc (c sid : Nat) (s : State) : Option Acc := (getCtx c s).bind (·.acc.find? (·.sid = sid))

/-- Complete an accepted descriptor (R393): it leaves the accepted list and its completion is posted. -/
def completeDesc (c sid : Nat) (st : Status) (result0 result1 : Nat) (s : State) : State :=
  match getCtx c s, findAcc c sid s with
  | some x, some a =>
    postCpl c { userTag := a.desc.sub.tag, cmdIndex := a.index, status := st.code, cmdHead := x.cmdHead
                opcode := opcodeOf a.desc.op, result0 := result0 % 2 ^ 64, result1 := result1 % 2 ^ 32 }
      (modCtx c (fun x => { x with acc := x.acc.filter (·.sid ≠ sid) }) s)
  | _, _ => s

/-! ### The mode that requests meet (R45, R46) -/

/-- The mode whose partition is in force: the one being entered once a change has repartitioned. -/
def effMode (s : State) : Nat :=
  match s.mode.change with
  | some c => if c.phase = .repartitioned || c.phase = .rechecked then s.mode.target.toNat else s.mode.mode.toNat
  | none => s.mode.mode.toNat

/-- The datapath takes its words from the replay feed (R35). -/
def replaying (s : State) : Bool := decide (effMode s = 11)

/-- Complete an optional (context, serial number). -/
def completeBy (o : Option (Nat × Nat)) (st : Status) (result0 result1 : Nat) (s : State) : State :=
  match o with
  | none => s
  | some (c, sid) => completeDesc c sid st result0 result1 s

end Sys2Proof.Machine
end

