-- ==== Sys2Proof/Machine/Records.lean ====
section
/-!
DEFINITION. Data records: their image and tag, placement on data rings and disk sets, credit, GAP and SEAL records,
and the provenance chain (R387, R388, R398-R402, R428-R436, R497-R502).
-/

namespace Sys2Proof.Machine

/-- Bytes of a structure given by fields in rising order of offset, from `pos` up to `fin`; gaps read 0. -/
def image (pos fin : Nat) : List Fld → List Byte
  | [] => List.replicate (fin - pos) 0
  | f :: r => List.replicate (f.off - pos) 0 ++ leBytes f.len f.val ++ image (f.off + f.len) fin r

/-- Length of a record: header and payload, a multiple of 64 (R398). -/
def recBytes (n : Nat) : Nat := roundUp n 64

/-- The covered bytes of a record (R497), up to offset `fin`. -/
def coveredTo (fin : Nat) (r : Rec) : List Byte :=
  leBytes 4 r.bytes ++ leBytes 2 r.recType ++ [0] ++ leBytes 4 r.streamId ++ leBytes 2 r.ctx ++ [0, 0]
    ++ leBytes 8 r.seq ++ leBytes 8 r.prevTagLo.toNat ++ image 0x40 fin r.payload

/-- The covered bytes of a whole record (R497). -/
def covered (r : Rec) : List Byte := coveredTo r.bytes r

/-- The key of a stream (R498). -/
def streamKey (st : Stream) : BitVec 256 :=
  Config.hkdf ((st.bound.map (·.2)).getD 0)
    ("IG4128 stream key".toList.map (fun c => BitVec.ofNat 8 c.toNat) ++ leBytes 4 st.id)

/-- The tag of a record of a stream (R498): IV is stream_id then seq. -/
def recTag (st : Stream) (r : Rec) : BitVec 128 :=
  Config.gmac (streamKey st) (leBytes 4 st.id ++ leBytes 8 r.seq) (covered r)

/-- The digest by which a record contributes to the chain value (R500). -/
def recDigest (r : Rec) : BitVec 384 := Config.sha384 (covered r)

/-! ### Streams -/

/-- A stream by its id. -/
def getStream (i : Nat) (s : State) : Option Stream := s.host.streams.find? (·.id = i)

/-- Change a stream. -/
def modStream (i : Nat) (f : Stream → Stream) (s : State) : State :=
  modHost (fun h => { h with streams := mapIf (·.id = i) f h.streams }) s

/-- Take into h, strictly in seq order, every digest whose outcome is known (R500). -/
def absorbDigests : List PendDigest → Stream → Stream
  | [], st => { st with pend := [] }
  | p :: r, st =>
    match p.outcome with
    | none => { st with pend := p :: r }
    | some false => absorbDigests r st
    | some true =>
      absorbDigests r
        { st with h := Config.sha384 (leBytes 48 st.h.toNat ++ leBytes 48 p.digest.toNat)
                  coveredFirst := if st.contributed = 0 then p.seq else st.coveredFirst
                  coveredThrough := p.seq, contributed := st.contributed + 1 }

/-- The outcome of a written record becomes known (R500). -/
def setOutcome (seq : Nat) (ok : Bool) (st : Stream) : Stream :=
  absorbDigests (mapIf (·.seq = seq) (fun p => { p with outcome := some ok }) st.pend) st

/-- A plan object as PLAN_CREATE read it. -/
def Plan.object (p : Plan) : Block := p.head ++ (p.subs.map (·.blk)).flatten

/-- Measurement 6 (R495): the mode, then the plan objects of the running plans in plan_id order. -/
def planMeasurement (s : State) : BitVec 384 :=
  let l := (s.plans.filter fun p => decide (p.phase = .running)).mergeSort fun a b => decide (a.id ≤ b.id)
  Config.sha384 (leBytes 1 s.mode.mode.toNat ++ (l.map Plan.object).flatten)

/-- Measurement blocks 1 to 7 by index (R495). -/
def measurements (s : State) : List (Nat × BitVec 384) :=
  (s.trust.meas.filter fun m => decide (m.1 < 6)) ++ [(6, planMeasurement s)] ++ s.trust.meas.filter fun m => decide (6 < m.1)

/-- The measurement digest in force (R495): SHA-384 of blocks 1-7 in index order. -/
def measDigest (s : State) : BitVec 384 :=
  Config.sha384 (((measurements s).map fun m => Config.measForm m.1 m.2).flatten)

/-! ### Placement on a data ring (R387) -/

/-- Blocks that a record of `n` bytes occupies on a ring. -/
def DataRing.blocksOf (r : DataRing) (n : Nat) : Nat := cdiv n (2 ^ r.blockLog2)

/-- Free blocks of a ring: entries - 1 - ((w - head) mod entries) (R387). -/
def DataRing.free (r : DataRing) : Nat :=
  2 ^ r.log2 - 1 - (r.w + 2 ^ r.log2 - r.head) % 2 ^ r.log2

/-- A record of `k` blocks fits before the end of the ring, or after a PAD to the end (R387). -/
def DataRing.fits (r : DataRing) (k : Nat) : Bool :=
  if r.w + k ≤ 2 ^ r.log2 then decide (k ≤ r.free) else decide (2 ^ r.log2 - r.w + k ≤ r.free)

/-- The ring after `k` blocks are written at its write index; PHASE inverts when the index wraps (R380). -/
def DataRing.advance (r : DataRing) (k : Nat) : DataRing :=
  { r with w := (r.w + k) % 2 ^ r.log2
           phase := if r.w + k = 2 ^ r.log2 then !r.phase else r.phase }

/-- The data ring of a (context, ring id) pair. -/
def ringAt (p : Nat × Nat) (s : State) : Option DataRing := (getCtx p.1 s).bind (·.ring p.2)

/-- A ring has room for a record of `n` bytes. -/
def ringRoom (n : Nat) (s : State) (p : Nat × Nat) : Bool :=
  match ringAt p s with
  | none => false
  | some r => r.fits (r.blocksOf n)

/-- Write a record to a ring that has room for it, after a PAD when it would wrap (R387); PAD is not counted for
moderation (R391). -/
def writeToRing (p : Nat × Nat) (rec : Rec) (s : State) : State :=
  match ringAt p s with
  | none => s
  | some r0 =>
    let k := r0.blocksOf rec.bytes
    let s1 :=
      if r0.w + k ≤ 2 ^ r0.log2 then s
      else
        modRing p.1 p.2 (fun r => r.advance (2 ^ r.log2 - r.w))
          (emit (.pad p.1 p.2 r0.w (2 ^ r0.log2 - r0.w) r0.phase) s)
    match ringAt p s1 with
    | none => s1
    | some r =>
      signalIfDue p.1 (.data p.2)
        (modRing p.1 p.2 (fun r => { r.advance k with count := r.count + 1 })
          (emit (.record p.1 p.2 r.w k r.phase rec) s1))

/-! ### Placement on a disk set (R428, R435, R436) -/

/-- Change a binding by its slot. -/
def modBinding (slot : Nat) (f : Binding → Binding) (s : State) : State :=
  { s with disk := { s.disk with bindings := mapIf (·.slot = slot) f s.disk.bindings } }

/-- A binding by its slot. -/
def getBinding (slot : Nat) (s : State) : Option Binding := s.disk.bindings.find? (·.slot = slot)

/-- LBAs that `n` bytes occupy on a member. -/
def Binding.lbasOf (b : Binding) (n : Nat) : Nat := cdiv n (2 ^ b.lbaLog2)

/-- LBAs of the open extent. -/
def Binding.extentLbas (b : Binding) : Nat := sumBy (·.lbas) b.extent

/-- Largest command in LBAs (R434). -/
def Binding.maxLbas (b : Binding) : Nat := b.maxTransferKb * 1024 / 2 ^ b.lbaLog2

/-- Commands that an extent of `n` LBAs takes. -/
def Binding.cmdsFor (b : Binding) (n : Nat) : Nat := if b.maxLbas = 0 then n else cdiv n b.maxLbas

/-- Data-buffer bytes free: 2 MB a queue pair (R433) less what is submitted or gathered. -/
def Binding.bufFree (b : Binding) : Nat :=
  b.queuePairs * 2 ^ 21 - sumBy (·.bytes) b.outstanding - b.extentLbas * 2 ^ b.lbaLog2

/-- Submission entries free: each queue of 2^queue_log2 entries holds one fewer. -/
def Binding.entriesFree (b : Binding) : Nat :=
  b.queuePairs * (2 ^ b.queueLog2 - 1) - b.outstanding.length - b.cmdsFor b.extentLbas

/-- The member takes records: ACTIVE, with room for one of `n` bytes as a new extent (R428). -/
def Binding.hasRoom (b : Binding) (n : Nat) : Bool :=
  decide (b.state = .active) && decide (b.lbasOf n * 2 ^ b.lbaLog2 ≤ b.bufFree)
    && decide (b.cmdsFor (b.lbasOf n) ≤ b.entriesFree)

/-- The open extent can take one more record: same stream, next seq, within max_transfer_kb and the buffer (R435). -/
def Binding.extends (b : Binding) (stream seq n : Nat) : Bool :=
  match b.extent.getLast? with
  | none => false
  | some l =>
    decide (b.state = .active) && decide (l.stream = stream) && decide (l.seq + 1 = seq)
      && decide (b.extentLbas + b.lbasOf n ≤ b.maxLbas) && decide (b.lbasOf n * 2 ^ b.lbaLog2 ≤ b.bufFree)

/-- LBAs given to the records of an extent, from `lba` on. -/
def assignLbas (lba : Nat) : List StoredRec → List StoredRec
  | [] => []
  | r :: t => { r with lba := lba } :: assignLbas (lba + r.lbas) t

/-- NVMe Write commands over consecutive LBAs, each at most `m` LBAs, with the records that each touches (R435). -/
def cutCmds (cid lba lbas m lbaBytes : Nat) (recs : List StoredRec) : Nat → List DiskCmd
  | 0 => []
  | n + 1 =>
    if lbas = 0 then []
    else
      let k := if m = 0 then lbas else min lbas m
      { cid := cid, lba := lba, lbas := k, bytes := k * lbaBytes
        recs := recs.filter (fun r => decide (r.lba < lba + k) && decide (lba < r.lba + r.lbas))
        retried := false, flush := false } :: cutCmds (cid + 1) (lba + k) (lbas - k) m lbaBytes recs n

/-- Close a member's open extent (R435, R436): a PAD write fills the rest of the range first when it does not fit. -/
def closeExtent (slot : Nat) (s : State) : State :=
  match getBinding slot s with
  | none => s
  | some b =>
    if b.extent.isEmpty then s
    else
      let n := b.extentLbas
      let fin := b.firstLba + b.lbaCount
      let wraps := decide (fin < b.nextLba + n)
      let start := if wraps then b.firstLba else b.nextLba
      let padCmds := if wraps then cutCmds b.nextCid b.nextLba (fin - b.nextLba) b.maxLbas (2 ^ b.lbaLog2) []
                       (fin - b.nextLba) else []
      let recs := assignLbas start b.extent
      let cmds := padCmds ++ cutCmds (b.nextCid + padCmds.length) start n b.maxLbas (2 ^ b.lbaLog2) recs n
      cmds.foldl (fun s c => emit (.nvme slot c.lba c.lbas false) s)
        (modBinding slot (fun b =>
          { b with extent := [], outstanding := b.outstanding ++ cmds, nextCid := b.nextCid + cmds.length
                   nextLba := if start + n = fin then b.firstLba else start + n }) s)

/-- Members of a context's disk set in rotation order, after the one that took the last extent (R435). -/
def rotationOrder (c set : Nat) (s : State) : List Binding :=
  let ms := s.disk.bindings.filter fun b => decide (b.ctx = c) && decide (b.set = set)
  match s.disk.rotation.find? (fun r => decide (r.1 = c) && decide (r.2.1 = set)) with
  | none => ms
  | some r => ms.filter (r.2.2 < ·.id) ++ ms.filter (·.id ≤ r.2.2)

/-- Note which member of a set took the last extent. -/
def setRotation (c set id : Nat) (s : State) : State :=
  { s with disk := { s.disk with
      rotation := (c, set, id) :: s.disk.rotation.filter (fun r => !(decide (r.1 = c) && decide (r.2.1 = set))) } }

/-- A record as it is stored in an extent. -/
def storedOf (b : Binding) (r : Rec) (span : Nat × Nat) : StoredRec :=
  { stream := r.streamId, seq := r.seq, lba := 0, lbas := b.lbasOf r.bytes, bytes := r.bytes
    spanStart := span.1, spanEnd := span.2 }

/-- Add a record to a member's open extent; an extent that reaches max_transfer_kb closes (R435). -/
def addToExtent (b : Binding) (r : Rec) (span : Nat × Nat) (s : State) : State :=
  let s1 := modBinding b.slot (fun b => { b with extent := b.extent ++ [storedOf b r span] }) s
  if b.maxLbas ≤ b.extentLbas + b.lbasOf r.bytes then closeExtent b.slot s1 else s1

/-- A disk set has room for a record: in the open extent, or in a new extent of some member (R428). -/
def diskRoom (c set stream seq n : Nat) (s : State) : Bool :=
  (rotationOrder c set s).any fun b => b.extends stream seq n || b.hasRoom n

/-- Put a record on a disk set that has room for it. -/
def writeToDisk (c set : Nat) (r : Rec) (span : Nat × Nat) (s : State) : State :=
  match (rotationOrder c set s).find? (fun b => b.extends r.streamId r.seq r.bytes) with
  | some b => addToExtent b r span s
  | none =>
    let s1 := (rotationOrder c set s).foldl (fun s b => closeExtent b.slot s) s
    match (rotationOrder c set s1).find? (fun b => b.hasRoom r.bytes) with
    | some b => addToExtent b r span (setRotation c set b.id s1)
    | none => s1

/-! ### Writing records of a stream -/

/-- Where a stream's next record would go: a ring of its group, the turn's first (R431), or its disk set. -/
inductive Place where
  | ring (i : Nat) (p : Nat × Nat)
  | disk
  deriving DecidableEq, Repr

/-- The place with room for a record of `n` bytes, if there is one. -/
def findPlace (st : Stream) (seq n : Nat) (s : State) : Option Place :=
  if st.diskSet ≠ 0 then if diskRoom st.ctx st.diskSet st.id seq n s then some .disk else none
  else
    let order := if st.rings.length ≤ 1 then [0] else [st.turn % 2, (st.turn + 1) % 2]
    (order.find? fun i => ringRoom n s (nth st.rings i (1024, 0))).map fun i => .ring i (nth st.rings i (1024, 0))

/-- The signature field of a SEAL (R502): by the alias key over the covered bytes up to 0xDF, all zero while debug is
unlocked (R491). -/
def sealSignature (r : Rec) (s : State) : BitVec 768 :=
  if s.trust.debug then 0
  else Config.aliasSign s.trust.primers (Config.sha384 (coveredTo 0xE0 r))

/-- The code of a SEAL record (R399). -/
def sealType : Nat := 0x0003

/-- The code of a BUNDLE record (R399). -/
def bundleType : Nat := 0x0090

/-- The payload of a bundle's END part as it is written (R546): digest of the parts before it, signature, flags, certificates. -/
def endPart (st : Stream) (payload : List Fld) (s : State) : List Fld :=
  let dig := Config.sha384 st.parts
  let id := ((payload.find? fun f => decide (f.off = 0x40)).map (·.val)).getD 0
  let sig := if s.trust.debug then 0 else Config.aliasSign s.trust.primers (Config.sha384 (leBytes 48 dig.toNat ++ leBytes 8 id))
  payload ++ [⟨0x100, 48, dig.toNat⟩, ⟨0x130, 96, sig.toNat⟩, ⟨0x190, 1, if s.trust.debug then 16 else 0⟩
    , ⟨0x192, 2, s.trust.certs.length⟩, ⟨0x194, s.trust.certs.length, leNat s.trust.certs⟩]

/-- Kind of a BUNDLE record's part. -/
def partKind (l : List Fld) : Nat := ((l.find? fun f => decide (f.off = 0x48)).map (·.val)).getD 0

/-- The covered bytes gathered once a record is written: a bundle's parts, from its HEADER on. -/
def partsAfter (r : Rec) (old : List Byte) : List Byte :=
  if r.recType ≠ bundleType then old
  else
    match partKind r.payload with
    | 1 => covered r
    | 4 => []
    | _ => old ++ covered r

/-- A waiting record as it is written, chained to the stream's last written record (R398, R402). -/
def buildRec (st : Stream) (w : WaitRec) (s : State) : Rec :=
  let r0 : Rec := { recType := w.recType, streamId := st.id, ctx := st.ctx, seq := w.seq
                    prevTagLo := st.lastTag.truncate 64, tag := 0, bytes := w.bytes, payload := w.payload }
  let r1 : Rec :=
    if w.recType = sealType then
      { r0 with payload := w.payload.filter (·.off < 0xE0) ++ [⟨0xE0, 96, (sealSignature r0 s).toNat⟩]
                  ++ w.payload.filter (0x140 ≤ ·.off) }
    else if w.recType = bundleType && decide (partKind w.payload = 4) then { r0 with payload := endPart st w.payload s }
    else r0
  { r1 with tag := recTag st r1 }

/-- Write a record at a place that has room: tag, chain, turn and digest (R431, R498, R500). -/
def writeAt (pl : Place) (i : Nat) (w : WaitRec) (s : State) : State :=
  match getStream i s with
  | none => s
  | some st =>
    let r := buildRec st w s
    let known := match pl with | .ring _ _ => some true | .disk => none
    let s1 := match pl with
      | .ring _ p => writeToRing p r s
      | .disk => writeToDisk st.ctx st.diskSet r (w.spanStart, w.spanEnd) s
    let turn := match pl with | .ring k _ => if st.rings.length ≤ 1 then 0 else (k + 1) % 2 | .disk => 0
    modStream i (fun st => absorbDigests (st.pend ++ [⟨w.seq, recDigest r, known⟩])
      { st with lastTag := r.tag, turn := turn, parts := partsAfter r st.parts }) s1

/-- Write a record if there is room for it. -/
def tryWrite (i : Nat) (w : WaitRec) (s : State) : Option State :=
  match getStream i s with
  | none => none
  | some st => (findPlace st w.seq w.bytes s).map fun pl => writeAt pl i w s

/-- GAP payload (R429). -/
def gapPayload (first last dropped reason lostBytes spanStart spanEnd : Nat) : List Fld :=
  [⟨0x40, 8, first⟩, ⟨0x48, 8, last⟩, ⟨0x50, 4, dropped⟩, ⟨0x54, 1, reason⟩, ⟨0x58, 8, lostBytes⟩
   , ⟨0x60, 16, spanStart⟩, ⟨0x70, 16, spanEnd⟩]

/-- Count a GAP record in the exports of its stream (R438). -/
def countGap (i : Nat) (s : State) : State :=
  { s with disk := { s.disk with
      exports := mapIf (·.streamId = i) (fun e => { e with gaps := satInc e.gaps }) s.disk.exports } }

/-- Take the stream's next seq (R402) and count the record towards the periodic SEAL (R501). -/
def takeSeq (i : Nat) (s : State) : State :=
  modStream i (fun st => { st with seq := st.seq + 1, sinceSeal := st.sinceSeal + 1 }) s

/-- A record that waits for credit, written now if nothing waits before it and there is room, else queued (R388). -/
def putWaiting (i : Nat) (w : WaitRec) (s : State) : State :=
  match getStream i s with
  | none => s
  | some st =>
    if st.waiting.isEmpty then
      match tryWrite i w s with
      | some s1 => s1
      | none => modStream i (fun st => { st with waiting := st.waiting ++ [w] }) s
    else modStream i (fun st => { st with waiting := st.waiting ++ [w] }) s

/-- Form a GAP record over given seqs; it takes the next seq and waits for credit if it must (R429). -/
def formGap (i first last dropped reason lostBytes spanStart spanEnd : Nat) (s : State) : State :=
  match getStream i s with
  | none => s
  | some st =>
    countGap i (putWaiting i
      { seq := st.seq, recType := 0x0002, bytes := 128
        payload := gapPayload first last dropped reason lostBytes spanStart spanEnd
        spanStart := spanStart, spanEnd := spanEnd, owner := none } (takeSeq i s))

/-- Form the GAP that names every drop not yet named (R388, R429). -/
def nameDrops (i : Nat) (s : State) : State :=
  match (getStream i s).bind (·.drops) with
  | none => s
  | some d =>
    formGap i d.first d.last d.count 1 d.bytes d.spanStart d.spanEnd
      (modStream i (fun st => { st with drops := none }) s)

/-- SEAL payload (R502), but for the signature, which is made when it is written. -/
def sealPayload (st : Stream) (reason : Nat) (s : State) : List Fld :=
  let first := !st.sealed
  let flags := packBits [(0, 1, b2n first), (1, 1, b2n (reason = 4 || reason = 5)), (2, 1, b2n st.bound.isSome)
    , (3, 1, b2n (1 < st.rings.length)), (4, 1, b2n s.trust.debug)]
  [⟨0x40, 8, if st.contributed = 0 then st.seq else st.coveredFirst⟩, ⟨0x48, 8, st.coveredThrough⟩
   , ⟨0x50, 8, st.prevSeal⟩, ⟨0x58, 4, st.contributed⟩, ⟨0x5C, 1, reason⟩, ⟨0x5D, 1, flags⟩
   , ⟨0x5E, 2, s.trust.certs.length⟩, ⟨0x60, 48, st.h.toNat⟩, ⟨0x90, 48, (measDigest s).toNat⟩
   , ⟨0xC0, 16, now s⟩, ⟨0x140, s.trust.certs.length, leNat s.trust.certs⟩]

/-- Form a SEAL (R501): drops not yet named are named first (R388); it never waits for disk outcomes. -/
def formSeal (i reason : Nat) (owner : Option (Nat × Nat)) (s0 : State) : State :=
  let s := nameDrops i s0
  match getStream i s with
  | none => s
  | some st =>
    modStream i (fun x => { x with sealed := true, prevSeal := st.seq, sinceSeal := 0 })
      (putWaiting i
        { seq := st.seq, recType := sealType, bytes := recBytes (320 + s.trust.certs.length)
          payload := sealPayload st reason s, spanStart := now s, spanEnd := now s + 1, owner := owner }
        (modStream i (fun x => { x with contributed := 0 }) (takeSeq i s)))

/-- The periodic SEAL when 65,535 records have been formed since the last one (R501). -/
def sealIfDue (i : Nat) (s : State) : State :=
  match getStream i s with
  | none => s
  | some st => if 65535 ≤ st.sinceSeal then formSeal i 1 none s else s

/-- A new record of a stream: type, bytes, payload, and the device times of its earliest sample and just after its
latest (R429). -/
structure NewRec where
  recType : Nat
  bytes : Nat
  payload : List Fld
  spanStart : Nat
  spanEnd : Nat
  deriving DecidableEq, Repr

/-- The ring whose DROPS counts a drop of a stream: the one whose turn it is. -/
def countRingDrop (st : Stream) (s : State) : State :=
  match st.rings with
  | [] => s
  | p :: r =>
    let q := nth (p :: r) (if r.isEmpty then 0 else st.turn % 2) p
    modRing q.1 q.2 (fun x => { x with drops := satInc x.drops }) s

/-- Drop a real-time record whole: it consumes its seq and is noted for the next GAP (R388, R402); on a disk set the
drop closes the open extents and is counted on the member whose turn it is (R428, R435). -/
def dropRec (st : Stream) (n : NewRec) (s : State) : State :=
  let d : DropRange := match st.drops with
    | none => ⟨st.seq, st.seq, 1, n.bytes, n.spanStart, n.spanEnd⟩
    | some d => ⟨d.first, st.seq, d.count + 1, d.bytes + n.bytes, min d.spanStart n.spanStart, max d.spanEnd n.spanEnd⟩
  let s1 := modStream st.id (fun x => { x with drops := some d }) (countRingDrop st (takeSeq st.id s))
  if st.diskSet = 0 then s1
  else
    let ms := rotationOrder st.ctx st.diskSet s1
    let s2 := ms.foldl (fun s b => closeExtent b.slot s) s1
    match ms with
    | [] => s2
    | b :: _ => modBinding b.slot (fun b => { b with recordsLost := satInc b.recordsLost }) s2

/-- Form a real-time record of a stream (R388): written, or dropped whole when a record of the stream waits, or when
it does not fit together with the GAP that must precede it. The flag answers whether it was dropped. -/
def formRealtime (i : Nat) (n : NewRec) (s : State) : State × Bool :=
  match getStream i s with
  | none => (s, true)
  | some st =>
    if !st.waiting.isEmpty then (sealIfDue i (dropRec st n s), true)
    else
      let s1 := nameDrops i s
      match getStream i s1 with
      | none => (s, true)
      | some st1 =>
        let w : WaitRec := ⟨st1.seq, n.recType, n.bytes, n.payload, n.spanStart, n.spanEnd, none⟩
        if st1.waiting.isEmpty then
          match tryWrite i w s1 with
          | some s2 => (sealIfDue i (takeSeq i s2), false)
          | none => (sealIfDue i (dropRec st n s), true)
        else (sealIfDue i (dropRec st n s), true)

/-- Form a record that waits for credit (R388): a GAP naming earlier drops goes before it. -/
def formWaiting (i : Nat) (n : NewRec) (owner : Option (Nat × Nat)) (s0 : State) : State :=
  let s := nameDrops i s0
  match getStream i s with
  | none => s
  | some st =>
    sealIfDue i (putWaiting i ⟨st.seq, n.recType, n.bytes, n.payload, n.spanStart, n.spanEnd, owner⟩ (takeSeq i s))

/-- Write waiting records of a stream in seq order while they fit; `n` bounds their number. -/
def drainWaiting (i : Nat) : Nat → State → State
  | 0, s => s
  | n + 1, s =>
    match getStream i s with
    | none => s
    | some st =>
      match st.waiting with
      | [] => s
      | w :: r =>
        match tryWrite i w s with
        | none => s
        | some s1 => drainWaiting i n (modStream i (fun x => { x with waiting := r }) s1)

/-- Room may exist on a stream: waiting records are written, then the GAP for drops not yet named, if it fits (R388). -/
def creditStream (i : Nat) (s : State) : State :=
  match getStream i s with
  | none => s
  | some st =>
    let s1 := drainWaiting i st.waiting.length s
    match getStream i s1 with
    | none => s1
    | some x =>
      if x.waiting.isEmpty && x.drops.isSome && (findPlace x x.seq 128 s1).isSome then sealIfDue i (nameDrops i s1)
      else s1

/-- The stream of a context's data ring. -/
def ringStream (c r : Nat) (s : State) : Option Nat := (ringAt (c, r) s).map (·.streamId)

/-- Form a real-time record on a context's data ring; dropped when the ring does not exist. -/
def recordOn (c r : Nat) (n : NewRec) (s : State) : State × Bool :=
  match ringStream c r s with
  | none => (s, true)
  | some i => formRealtime i n s

end Sys2Proof.Machine
end

