-- ==== Sys2Proof/Machine/Time.lean ====
section
/-!
DEFINITION. The time base: ticks, device time, anchors and conversions, PPS and SET_TIME (R48-R68).
-/

namespace Sys2Proof.Machine

/-! ### Ticks (R53) -/

/-- Ticks of a second (R53). -/
def tickRate : Nat := 800000000

/-- The modulus of 800,000,000 * device time + acc: device time is a 128-bit count. -/
def xMod : Nat := tickRate * 2 ^ 128

/-- Change the Timing island. -/
def modTim (f : Tim → Tim) (s : State) : State := { s with tim := f s.tim }

/-- The Timing island after `n` coarse ticks. Each tick of R53 adds q * 800,000,000 + r = 2^64 to
800,000,000 * now + acc. -/
def Tim.advance (n : Nat) (t : Tim) : Tim :=
  { t with x := (t.x + n * 2 ^ 64) % xMod, ticks := t.ticks + BitVec.ofNat 64 n }

/-- One coarse tick (R53). -/
def tick (s : State) : State := if s.tim.running then modTim (Tim.advance 1) s else s

/-- The state once `n` ticks have passed; nothing passes while the island does not run. -/
def advance (n : Nat) (s : State) : State := if s.tim.running then modTim (Tim.advance n) s else s

/-- The absolute coarse tick now. -/
def nowTick (s : State) : Nat := s.tim.ticks.toNat

/-- Time moves on to coarse tick `t`, if that is still to come. -/
def advanceToTick (t : Nat) (s : State) : State := advance (t - nowTick s) s

/-- Ticks until 800,000,000 * now + acc is at or after a target; 0 when it is already. -/
def ticksUntilX (target : Nat) (s : State) : Nat := cdiv (target - s.tim.x) (2 ^ 64)

/-- Time moves on to the first tick at which device time is at or after `t` (2^-64 s). -/
def advanceToTime (t : Nat) (s : State) : State := advance (ticksUntilX (t * tickRate) s) s

/-- Device time set to a value with acc 0 (R57). -/
def Tim.setNow (v : Nat) (t : Tim) : Tim := { t with x := (v * tickRate) % xMod }

/-- Device time at an absolute coarse tick, in the scale in force now, rounded down to 2^-64 s. -/
def timeOfTick (k : Nat) (s : State) : Nat :=
  let x : Int := (s.tim.x : Int) + ((k : Int) - nowTick s) * 2 ^ 64
  ((x % (xMod : Int)) / (tickRate : Int)).toNat

/-! ### Conversions (R66) -/

/-- x * y / z rounded once to the nearest integer, ties away from zero (R66). -/
def mulDivRound (x : Int) (y z : Nat) : Int :=
  let m := (x.natAbs * y * 2 + z) / (2 * z)
  if x < 0 then -(m : Int) else (m : Int)

/-- 2^-16 ns to 2^-64 s (R66). -/
def ns16ToFrac (v : Nat) : Int := mulDivRound v (2 ^ 64) (65536 * 10 ^ 9)

/-- Device time of an anchor's sample. -/
def Anchor.t0 (a : Anchor) : Int := (a.time : Int) + ns16ToFrac a.offset

/-- Device time of a sample index (R66), modulo 2^128. -/
def timeOfIndex (a : Anchor) (i : Nat) : Nat :=
  ((a.t0 + mulDivRound ((i : Int) - a.index) (a.rateDen * 2 ^ 64) a.rateNum) % (2 ^ 128 : Int)).toNat

/-- Sample position of a device time (R66): index, which may lie before the first sample, and 16-bit fraction. -/
def indexOfTime (a : Anchor) (t : Nat) : Int × Nat :=
  let p := mulDivRound ((t : Int) - a.t0) (a.rateNum * 2 ^ 16) (a.rateDen * 2 ^ 64)
  ((a.index : Int) + p / 65536, (p % 65536).toNat)

/-- Field at an offset of a list of fields; 0 when none is given. -/
def fldAt (l : List Fld) (off : Nat) : Nat := ((l.find? fun f => decide (f.off = off)).map (·.val)).getD 0

/-- An anchor read back from the fields of its payload, from offset `o` (R65). -/
def anchorOf (o : Nat) (l : List Fld) : Anchor :=
  let v := fun d => fldAt l (o + d)
  ⟨v 0, v 0x10, v 0x18, sext 32 (v 0x1C), v 0x20, v 0x28, v 0x2C, v 0x2E⟩

/-- In REPLAY, the bundle's anchor in force at the feed's position (R549, R551). -/
def replayAnchor (s : State) : Option Anchor :=
  if replaying s then
    s.fr.loaded.bind fun b =>
      let l := (b.journal.filter fun e => decide (e.kind = 4)).map fun e => anchorOf 0x10 e.body
      let i := s.fr.pos.foldl max 0
      ((l.filter fun a => decide (a.index ≤ i)).getLast?).or l.head?
  else none

/-- The anchor in force, or the one that puts sample 0 at device time 0 while none has been emitted. -/
def anchorInForce (s : State) : Anchor :=
  (replayAnchor s).getD (s.tim.anchor.getD ⟨0, 0, 0, 0, s.tim.rateNum, s.tim.rateDen, 0, 0⟩)

/-- Device time of a sample index with the anchor in force (R67). -/
def timeOf (i : Nat) (s : State) : Nat := timeOfIndex (anchorInForce s) i

/-! ### Time quality and anchors (R55, R64, R65) -/

/-- TIME_QUALITY (R55). -/
def Tim.quality (t : Tim) : Nat :=
  if !t.setApplied then 0 else if t.refclkLost then 3 else if t.ppsPresent then 1 else 2

/-- TIME_ANCHOR payload bytes 0x40-0x6F (R65), from offset `o`. -/
def anchorFields (o : Nat) (a : Anchor) : List Fld :=
  [⟨o, 16, a.time⟩, ⟨o + 0x10, 8, a.index⟩, ⟨o + 0x18, 4, a.offset⟩, ⟨o + 0x1C, 4, wrapInt 32 a.ppsOffset⟩
   , ⟨o + 0x20, 8, a.rateNum⟩, ⟨o + 0x28, 4, a.rateDen⟩, ⟨o + 0x2C, 2, a.flags⟩, ⟨o + 0x2E, 1, a.quality⟩]

/-- The data rings that have asked for anchors: anchor_ring of each plan that runs (R412). -/
def anchorRings (s : State) : List (Nat × Nat) :=
  ((s.plans.filter fun p => decide (p.phase = .running)).map fun p => (p.ctx, blkFld p.head 0x15 1)).filter
    (fun r => decide (r.2 ≠ 0)) |>.eraseDups

/-- The disk streams, which receive every anchor (R424). -/
def diskStreams (s : State) : List Nat := (s.host.streams.filter fun st => decide (st.diskSet ≠ 0)).map (·.id)

/-- An anchor comes into force: to the journal, to the rings that asked, to every disk stream (R64, R424). -/
def emitAnchor (a : Anchor) (s : State) : State :=
  let n : NewRec := ⟨0x0010, recBytes 0x70, anchorFields 0x40 a, a.time, a.time + 1⟩
  let s1 := journal 4 (anchorFields 0x10 a) 48 (modTim (fun t => { t with anchor := some a }) s)
  let s2 := (anchorRings s).foldl (fun s r => (recordOn r.1 r.2 n s).1) s1
  (diskStreams s).foldl (fun s i => (formRealtime i n s).1) s2

/-- The sample at or after device time `t` and its distance in 2^-16 ns, exactly from an anchor's rate (R64); the
distance is rounded to the nearest, ties to even. -/
def sampleAfter (a : Anchor) (t : Nat) : Nat × Nat :=
  let d : Int := (t : Int) - a.t0
  let den : Nat := a.rateDen * 2 ^ 64
  let k : Int := -((-(d * a.rateNum)) / (den : Int))
  let rest : Int := k * den - d * a.rateNum
  (((a.index : Int) + k).toNat, (roundDivEven (rest * (65536 * 10 ^ 9)) (a.rateNum * 2 ^ 64)).toNat)

/-- An anchor at device time `t` (R65), its sample computed from `base` or as measured. -/
def makeAnchor (base : Anchor) (t : Nat) (meas : Option (Nat × Nat)) (flags : Nat) (pps : Int) (s : State) : Anchor :=
  let m := meas.getD (sampleAfter base t)
  { time := t, index := m.1, offset := m.2, ppsOffset := pps, rateNum := s.tim.rateNum, rateDen := s.tim.rateDen
    flags := flags ||| (if s.tim.refclkLost then 8 else 0), quality := s.tim.quality }

/-- The anchor that later ones are computed from: the latest measured or stepped. -/
def baseAnchor (s : State) : Anchor := s.tim.base.getD (anchorInForce s)

/-! ### PPS and SET_TIME (R57-R61) -/

/-- PPS_DELAY in 2^-16 ns: signed Q10.6 ns (R60). -/
def ppsDelay16 (t : Tim) : Int := t.ppsDelay.toInt * 1024

/-- A signed time in 2^-16 ns as an exact count of 2^-64 s times 65,536 * 10^9. -/
def nsScale : Nat := 65536 * 10 ^ 9

/-- Offset of an edge at (tick, position in 2^-16 ns), in 2^-10 ns rounded to the nearest, ties to even: its device
time less PPS_DELAY less the nearest whole second (R59). -/
def ppsEdgeOffset (edgeTick sub : Nat) (s : State) : Int :=
  -- device time of the edge, in units of 2^-64 / (tickRate * nsScale) s, exactly
  let x : Int := ((s.tim.x : Int) + ((edgeTick : Int) - nowTick s) * 2 ^ 64) * nsScale
    + ((sub : Int) - ppsDelay16 s.tim) * 2 ^ 64 * tickRate
  let sec : Int := 2 ^ 64 * tickRate * nsScale
  let d := x - (2 * x + sec) / (2 * sec) * sec
  roundDivEven (d * (1024 * 10 ^ 9)) (2 ^ 64 * tickRate * nsScale)

/-- A signed value saturated at +-(2^31 - 1) (R61). -/
def sat31 (x : Int) : Int := clampInt (-(2 ^ 31 - 1)) (2 ^ 31 - 1) x

/-- Is an edge offset inside the acceptance window (R59, R60)? PPS_WINDOW is in units of 10 ns; 0 accepts every edge. -/
def ppsAccepts (t : Tim) (off : Int) : Bool :=
  t.ppsWindow = 0 || decide (off.natAbs ≤ t.ppsWindow.toNat * 10 * 1024)

/-- The whole second nearest to a device time. -/
def nearSecond (t : Nat) : Nat := (t + 2 ^ 63) / 2 ^ 64

/-- The next whole second that has no anchor yet (R64): after the second of the latest anchor, or the first one still to come. -/
def nextAnchorSecond (s : State) : Nat :=
  match s.tim.anchor with
  | some a => a.time / 2 ^ 64 + 1
  | none => cdiv (now s) (2 ^ 64)

/-! ### Lost time (R540) -/

/-- An episode of lost data products begins: 2 a channel rebuild, 3 a loss of SPLL lock. -/
def lostBegins (kind : Nat) (s : State) : State :=
  if s.hedge.lostFrom.any fun e => decide (e.1 = kind) then s
  else { s with hedge := { s.hedge with lostFrom := s.hedge.lostFrom ++ [(kind, nowTick s)] } }

/-- An episode is counted in MGT_AVAIL with its milliseconds (R541). -/
def countLost (ms : Nat) (s : State) : State :=
  { s with pwr := { s.pwr with lostMs := satAdd s.pwr.lostMs ms, episodes := satInc s.pwr.episodes } }

/-- An episode under way ends, if one is. -/
def lostEnds (kind : Nat) (s : State) : State :=
  match s.hedge.lostFrom.find? fun e => decide (e.1 = kind) with
  | none => s
  | some e =>
    countLost ((nowTick s - e.2) / 800000)
      { s with hedge := { s.hedge with lostFrom := s.hedge.lostFrom.filter fun e => decide (e.1 ≠ kind) } }

/-- An edge is accepted (R59): its offset goes to TIM_PPS_STATUS and to its second's anchor, if that has still to be emitted; PPS_PRESENT
becomes 1, with PPS_RESTORED only after a PPS_LOST. -/
def acceptPps (edgeTick : Nat) (off : Int) (s : State) : State :=
  let restored := s.tim.ppsLostRaised
  let late := decide (nearSecond (timeOfTick edgeTick s) < nextAnchorSecond s)
  let s1 := modTim (fun t => { t with ppsOffset := sat31 off, ppsPresent := true, ppsLostRaised := false
                                      ppsRef := edgeTick, secOffset := if late then t.secOffset else some off }) s
  if restored then sendAll 0x0007 0 (wrapInt 64 off) 0 0 s1 else s1

/-- An edge is judged (R59): accepted, or counted as an outlier with PPS_OUTLIER. -/
def judgePps (edgeTick sub : Nat) (s : State) : State :=
  let off := ppsEdgeOffset edgeTick sub s
  if ppsAccepts s.tim off then acceptPps edgeTick off s
  else
    sendAll 0x0005 0 (wrapInt 64 off) 0 0
      (modTim (fun t => { t with outliers := satInc t.outliers, secOutlier := true }) s)

end Sys2Proof.Machine
end

