-- ==== Sys2Proof/Machine/Tdc.lean ====
section
/-!
DEFINITION. TDC channels, their streams, calibration and gated measurements (R69-R86).
-/

namespace Sys2Proof.Machine

/-- Units of 2^-16 ns in a coarse tick (1.25 ns). -/
def tickSub : Nat := 81920

/-- A channel. -/
def getTdc (c : Nat) (s : State) : TdcCh := nth s.tim.chans c TdcCh.reset

/-- Change a channel. -/
def modTdc (c : Nat) (f : TdcCh → TdcCh) (s : State) : State :=
  modTim (fun t => { t with chans := modNth t.chans c f }) s

/-- Number of the wrap period of a tick (R75). -/
def wrapOf (tick : Nat) : Nat := tick / 2 ^ 40

/-- A stamp entry (R73). -/
def stampEntry (ch : Nat) (p : Stamp) : Nat :=
  packBits [(0, 40, p.tick), (40, 11, p.sub / 64), (51, 3, ch), (54, 1, b2n p.rising), (55, 1, b2n p.deadBefore)
    , (56, 1, b2n p.queueBefore)]

/-- Fields of `len` bytes each, one per value, from an offset on. -/
def arrayFields (off len : Nat) : List Nat → List Fld
  | [] => []
  | v :: r => ⟨off, len, v⟩ :: arrayFields (off + len) len r

/-- A record of a channel's stream; answers whether it was dropped. -/
def tdcRecord (ch : Nat) (n : NewRec) (s : State) : State × Bool :=
  let c := getTdc ch s
  match c.owner with
  | none => (s, true)
  | some o => recordOn o c.ring n s

/-- TDC_STAMPS payload (R74). -/
def stampsPayload (ch calSeq : Nat) (l : List Stamp) : List Fld :=
  [⟨0x40, 1, ch⟩, ⟨0x42, 2, l.length⟩, ⟨0x44, 4, wrapOf (l.headD ⟨0, 0, false, false, false⟩).tick⟩, ⟨0x48, 4, calSeq⟩]
    ++ arrayFields 0x50 8 (l.map (stampEntry ch))

/-- The channel's open TDC_STAMPS record closes (R74). -/
def closeStamps (ch : Nat) (s : State) : State :=
  let c := getTdc ch s
  match c.openRec with
  | [] => s
  | p :: r =>
    let t0 := timeOfTick p.tick s
    (tdcRecord ch ⟨0x0011, recBytes (0x50 + 8 * (r.length + 1)), stampsPayload ch c.calSeq (p :: r), t0
      , timeOfTick ((p :: r).getLastD p).tick s + 1⟩ (modTdc ch (fun c => { c with openRec := [] }) s)).1

/-- One stamp goes into the open record, which closes at a change of wrap period and at 502 entries (R74); the journal
holds it too (R543). -/
def deliverStamp (ch : Nat) (p : Stamp) (s0 : State) : State :=
  let s := journal 7 [⟨0x10, 8, stampEntry ch p⟩, ⟨0x18, 4, wrapOf p.tick⟩] 12 s0
  let c := getTdc ch s
  let s1 := match c.openRec.head? with
    | none => s
    | some q => if wrapOf q.tick = wrapOf p.tick then s else closeStamps ch s
  let s2 := modTdc ch (fun c => { c with openRec := c.openRec ++ [p] }) s1
  if 502 ≤ (getTdc ch s2).openRec.length then closeStamps ch s2 else s2

/-- The readout takes up to `n` stamps from a channel's queue. -/
def takeStamps (ch : Nat) : Nat → State → State
  | 0, s => s
  | n + 1, s =>
    match (getTdc ch s).queue with
    | [] => s
    | p :: r => takeStamps ch n (deliverStamp ch p (modTdc ch (fun c => { c with queue := r }) s))

/-- Deliver everything a channel's queue holds and close its record; stamps that cannot be delivered are counted in
QUEUE_LOST (R72). -/
def flushStamps (ch : Nat) (s : State) : State :=
  let n := (getTdc ch s).queue.length
  let s1 := takeStamps ch n s
  let c := getTdc ch s1
  match c.openRec with
  | [] => s1
  | p :: r =>
    let res := tdcRecord ch ⟨0x0011, recBytes (0x50 + 8 * (r.length + 1)), stampsPayload ch c.calSeq (p :: r)
      , timeOfTick p.tick s1, timeOfTick ((p :: r).getLastD p).tick s1 + 1⟩
      (modTdc ch (fun c => { c with openRec := [] }) s1)
    if res.2 then modTdc ch (fun c => { c with queueLost := satAdd c.queueLost (r.length + 1) }) res.1 else res.1

/-- A TDC_WRAP marker of a channel's stream (R75, R76): 0 coarse wrap, 1 rebase, 2 stream start. -/
def tdcMarker (ch reason : Nat) (s : State) : State :=
  let base := nowTick s - nowTick s % 2 ^ 40
  let t := timeOfTick base s
  (tdcRecord ch ⟨0x0012, recBytes 0x60, [⟨0x40, 16, t⟩, ⟨0x50, 8, base⟩, ⟨0x58, 4, wrapOf base⟩, ⟨0x5C, 1, ch⟩
    , ⟨0x5D, 1, reason⟩], t, now s + 1⟩ s).1

/-- A marker on every enabled stream, after the stamps before it (R75, R76). -/
def tdcMarkAll (reason : Nat) (s : State) : State :=
  (List.range 8).foldl (fun s ch =>
    if (getTdc ch s).owner.isSome then
      tdcMarker ch reason (closeStamps ch (takeStamps ch (getTdc ch s).queue.length s))
    else s) s

/-! ### Stamping (R70-R72) -/

/-- Room in a channel's queue: 4,096 entries and staging_kb * 128 more (R72). -/
def TdcCh.queueRoom (c : TdcCh) : Nat := 4096 + c.stagingKb * 128

/-- Does the owner's selection export an edge (R71)? 1 rising, 2 falling, 3 both. -/
def TdcCh.exports (c : TdcCh) (rising : Bool) : Bool :=
  c.owner.isSome && (decide (c.edges = 3) || (rising && decide (c.edges = 1)) || (!rising && decide (c.edges = 2)))

/-- An edge counted by an open gate (R80, R82); `t` is its time from the open tick. -/
def Gate.count (g : Gate) (ch t : Nat) : Gate :=
  if g.interval then
    let g1 := if ch = g.startCh then
        { g with starts := g.starts ++ [⟨t, g.startLost⟩], startCount := g.startCount + 1, startLost := false }
      else g
    if ch = g.stopCh then
      { g1 with stops := g1.stops ++ [⟨t, g1.stopLost⟩], stopCount := g1.stopCount + 1, stopLost := false }
    else g1
  else if ch = g.startCh then
    if g.n < 2 ^ 24 then
      { g with n := g.n + 1, sk := g.sk + g.n, skk := g.skk + g.n * g.n, st := g.st + t, skt := g.skt + g.n * t
               stt := g.stt + t * t, startCount := g.startCount + 1, limited := decide (g.n + 1 = 2 ^ 24) }
    else { g with startCount := g.startCount + 1 }
  else g

/-- The gate counts stamps at a tick: it is open, and the tick lies before its closing tick (R79). -/
def Gate.takes (g : Gate) (tick : Nat) : Bool :=
  match g.phase with
  | .opened => decide (g.openTick ≤ tick)
  | .closing e => decide (g.openTick ≤ tick) && decide (tick < e + 2)
  | _ => false

/-- Change every gated measurement. -/
def modGates (f : Gate → Gate) (s : State) : State :=
  modTim (fun t => { t with gates := t.gates.map (·.map f) }) s

/-- An edge on a channel becomes a stamp, or is lost to dead time (R71); an exported stamp joins the queue, or is lost
to a full queue (R72). The flag answers whether it was stamped. -/
def stampEdge (ch tick sub : Nat) (rising : Bool) (s : State) : State × Bool :=
  let t := tick * tickSub + sub
  let c := getTdc ch s
  let dead := match c.lastEdge with | none => false | some l => decide (t < l + tickSub)
  let s1 := modTdc ch (fun c => { c with lastEdge := some t }) s
  if dead then
    (modGates (fun g =>
      if g.takes tick && (decide (g.startCh = ch) || (g.interval && decide (g.stopCh = ch))) then
        { g with lostEdges := g.lostEdges + 1, startLost := g.startLost || decide (g.startCh = ch)
                 stopLost := g.stopLost || decide (g.stopCh = ch) }
      else g) (modTdc ch (fun c => { c with deadLost := satInc c.deadLost, deadMark := true }) s1), false)
  else
    let s2 := modGates (fun g => if g.takes tick then g.count ch (t - g.openTick * tickSub) else g)
      (modTdc ch (fun c => { c with stampsSinceCal := c.stampsSinceCal + 1 }) s1)
    if c.exports rising then
      if c.queue.length < c.queueRoom then
        (modTdc ch (fun c => { c with queue := c.queue ++ [⟨tick, sub, rising, c.deadMark, c.queueMark⟩]
                                      deadMark := false, queueMark := false }) s2, true)
      else (modTdc ch (fun c => { c with queueLost := satInc c.queueLost, queueMark := true }) s2, true)
    else (s2, true)

/-! ### Calibration (R77, R78) -/

/-- Gain of a calibration: 1,280 fine units over the raw codes of one period, unsigned Q2.30, nearest. -/
def calGain (rawOne rawTwo : Nat) : Nat :=
  if rawTwo ≤ rawOne then 0 else (roundDivEven ((1280 * 2 ^ 46 : Nat) : Int) (rawTwo - rawOne)).toNat

/-- The gain differs by more than 12.5 % from the fused nominal. -/
def gainBad (gain nominal : Nat) : Bool :=
  decide (nominal < 8 * (if gain ≤ nominal then nominal - gain else gain - nominal)) || decide (2 ^ 32 ≤ gain)

/-- A calibration of a channel switches in at a tick (R77): the record, and TDC_CAL_FAULT when it is rejected. The
record goes to the channel's stream, or to the ring `alt` of a measurement's context while it has none. -/
def calibrate (ch reason switchTick rawOne rawTwo temp : Nat) (alt : Option (Nat × Nat)) (s0 : State) : State :=
  let s := closeStamps ch (if reason = 2 then s0 else takeStamps ch (getTdc ch s0).queue.length s0)
  let c := getTdc ch s
  let seq := c.calNum + 1
  let gain := calGain rawOne rawTwo
  let bad := gainBad gain s.tim.nominalGain
  let zero : Int := 2 * (rawOne : Int) - rawTwo
  let n : NewRec := ⟨0x0013, recBytes 0x70, [⟨0x40, 1, ch⟩, ⟨0x41, 1, reason⟩, ⟨0x42, 2, b2n bad⟩, ⟨0x44, 4, seq⟩
    , ⟨0x48, 4, wrapOf switchTick⟩, ⟨0x50, 8, switchTick % 2 ^ 40⟩, ⟨0x58, 4, rawOne⟩, ⟨0x5C, 4, rawTwo⟩
    , ⟨0x60, 4, gain⟩, ⟨0x64, 4, wrapInt 32 zero⟩, ⟨0x68, 2, temp⟩], timeOfTick switchTick s, timeOfTick switchTick s + 1⟩
  let s1 := modTdc ch (fun c => { c with calNum := seq, calSeq := if bad then c.calSeq else seq, stampsSinceCal := 0
                                         lastCal := switchTick }) s
  let s2 := match c.owner, alt with
    | some o, _ => (recordOn o c.ring n s1).1
    | none, some a => (recordOn a.1 a.2 n s1).1
    | none, none => s1
  match bad, c.owner, alt with
  | true, some o, _ => sendEvent o 0x0009 ch seq 0 0 s2
  | true, none, some a => sendEvent a.1 0x0009 ch seq 0 0 s2
  | _, _, _ => s2

/-! ### Gate results (R80-R84) -/

/-- Pairs of an INTERVAL measurement: nth start with nth stop, or consecutive edges of one channel (R80). -/
def gatePairs (g : Gate) : List (GateEdge × GateEdge) :=
  if g.startCh = g.stopCh then g.starts.zip (g.starts.drop 1) else g.starts.zip g.stops

/-- An interval entry's flags (R81): ORDER, COINCIDENT, LOST_EDGE; 2^-10 ns is 64 units. -/
def pairFlags (d : Int) (lost : Bool) : Nat :=
  packBits [(0, 1, b2n (decide (d ≤ -64))), (1, 1, b2n (decide (d.natAbs < 64))), (2, 1, b2n lost)]

/-- Fields of TDC_INTERVALS entries (R84). -/
def pairFields (off num : Nat) : List (GateEdge × GateEdge) → List Fld
  | [] => []
  | p :: r =>
    let d : Int := (p.2.t : Int) - p.1.t
    ⟨off, 8, wrapInt 64 d⟩ :: ⟨off + 8, 4, num⟩ :: ⟨off + 12, 2, pairFlags d (p.1.lost || p.2.lost)⟩
      :: pairFields (off + 16) (num + 1) r

/-- Write an INTERVAL measurement's pairs, 251 to a record; answers the entries dropped. -/
def writePairs (g : Gate) (span : Nat × Nat) : Nat → Nat → List (GateEdge × GateEdge) → State → State × Nat
  | 0, _, _, s => (s, 0)
  | _ + 1, _, [], s => (s, 0)
  | n + 1, num, l, s =>
    let part := l.take 251
    let res := recordOn g.ctx g.ring ⟨0x0015, recBytes (0x48 + 16 * part.length), [⟨0x40, 4, g.mid⟩, ⟨0x44, 2, part.length⟩]
      ++ pairFields 0x48 num part, span.1, span.2⟩ s
    let rest := writePairs g span n (num + part.length) (l.drop 251) res.1
    (rest.1, rest.2 + if res.2 then part.length else 0)

/-- Least-squares period in 2^-32 ns (R82), nearest with ties to even; 0 with fewer than three edges. -/
def fitPeriod (g : Gate) : Nat :=
  if g.n < 3 then 0
  else (roundDivEven ((((g.n * g.skt : Nat) : Int) - (g.sk * g.st : Nat)) * 65536) (g.n * g.skk - g.sk * g.sk)).toNat

/-- 1 / period in uHz (R82), nearest with ties away from zero. -/
def fitFreq (period : Nat) : Nat := if period = 0 then 0 else (10 ^ 15 * 2 ^ 32 * 2 + period) / (2 * period)

/-- rms residual of the fit in 2^-16 ns (R82), nearest. -/
def fitResidual (g : Gate) : Nat :=
  if g.n < 3 then 0
  else
    let a := g.n * g.stt - g.st * g.st
    let c : Int := ((g.n * g.skt : Nat) : Int) - (g.sk * g.st : Nat)
    let d := g.n * g.skk - g.sk * g.sk
    (isqrt (4 * (a * d - c.natAbs * c.natAbs) / (d * g.n * g.n)) + 1) / 2

/-- The gate closes at a tick (R79, R83): INTERVAL entries, then the summary; the pin is free. Answers the summary
payload too, which the journal holds (R543). -/
def closeGate (pin closeTick : Nat) (maxed : Bool) (s : State) : State :=
  match nth s.tim.gates pin none with
  | none => s
  | some g =>
    let pairs := if g.interval then gatePairs g else []
    let span := (timeOfTick g.openTick s, timeOfTick closeTick s)
    let s0 := modTim (fun t => { t with gates := t.gates.set pin none }) s
    let w := writePairs g span (pairs.length / 251 + 1) 0 pairs s0
    let unpaired := g.interval && decide (g.startCh ≠ g.stopCh) && decide (g.startCount ≠ g.stopCount)
    let flags := packBits [(0, 1, b2n maxed), (1, 1, b2n g.stepped), (2, 1, b2n (decide (g.lostEdges ≠ 0)))
      , (3, 1, b2n g.limited), (4, 1, b2n (!g.interval && decide (g.n < 3))), (5, 1, b2n unpaired)
      , (6, 1, b2n (decide (w.2 ≠ 0)))]
    let period := if g.interval then 0 else fitPeriod g
    let fields : List Fld := [⟨0x40, 16, g.openTime⟩, ⟨0x50, 8, (closeTick - g.openTick) * tickSub⟩, ⟨0x58, 1, pin⟩
      , ⟨0x59, 1, if g.interval then 1 else 2⟩, ⟨0x5A, 2, flags⟩, ⟨0x5C, 4, g.mid⟩, ⟨0x60, 4, g.startCount⟩
      , ⟨0x64, 4, if g.interval then g.stopCount else 0⟩, ⟨0x68, 4, pairs.length⟩, ⟨0x6C, 4, g.lostEdges + w.2⟩
      , ⟨0x70, 8, period⟩, ⟨0x78, 8, fitFreq period⟩, ⟨0x80, 8, if g.interval then 0 else fitResidual g⟩
      , ⟨0x88, 4, if g.interval then 0 else if g.n < 3 then 0 else g.n⟩, ⟨0x8C, 4, g.calSeq⟩]
    let s1 := (recordOn g.ctx g.ring ⟨0x0014, recBytes 0x90, fields, span.1, span.2⟩ w.1).1
    journal 7 (fields.map fun f => { f with off := f.off - 0x40 + 0x10 }) 80 s1

/-! ### Applying SET_TIME (R57) -/

/-- Device time is set: STEP_GEN, quality, the TIME_STEP anchor, TIME_STEP to every context, and rebase markers
(R57, R76, R85). The sample of the new anchor is that of the same instant in the old scale. With `edge` the set is
applied at a PPS edge, which is accepted with offset 0. -/
def applySet (v : Nat) (seconds : Nat) (edge : Bool) (s : State) : State :=
  let oldNow := now s
  let oldBase := baseAnchor s
  let stamps := (List.range 8).foldl (fun s ch => closeStamps ch (takeStamps ch (getTdc ch s).queue.length s)) s
  let s1 := modTim (fun t => { t.setNow v with setApplied := true, stepGen := t.stepGen + 1, setPending := none
                                               ppsRef := t.ticks.toNat, secOutlier := false
                                               secOffset := if edge then some 0 else none
                                               ppsOffset := if edge then 0 else t.ppsOffset
                                               ppsPresent := edge || t.ppsPresent }) stamps
  let a := makeAnchor oldBase oldNow none (4 ||| (if s1.tim.secOffset.isNone then 1 else 0)) 0 s1
  let a1 := { a with time := v }
  let s2 := emitAnchor a1 (modTim (fun t => { t with base := some a1 }) s1)
  let s3 := sendAll 0x0004 s2.tim.stepGen.toNat seconds 0 0 s2
  (List.range 8).foldl (fun s ch => if (getTdc ch s).owner.isSome then tdcMarker ch 1 s else s)
    (modGates (fun g => { g with stepped := g.stepped || match g.phase with
      | .opened => true | .closing _ => true | _ => false }) s3)

/-- Device time at the coarse tick of an edge so that the edge's measurement equals target seconds + PPS_DELAY,
rounded once to 2^-64 s, ties to even (R57). -/
def setTarget (seconds sub : Nat) (t : Tim) : Nat :=
  let d : Int := ppsDelay16 t - sub
  ((((seconds : Int) * 2 ^ 64 + roundDivEven (d * 2 ^ 64) nsScale) % (2 ^ 128 : Int))).toNat

end Sys2Proof.Machine
end

