-- ==== Sys2Proof/Machine/Desc.lean ====
section
/-!
DEFINITION. Descriptors: field layouts, the checks taken at acceptance, and the layout checks of host blocks
(R403-R406, R411-R419).
-/

namespace Sys2Proof.Machine

/-- A named field of a layout with its value and what its table asks of it: whether 0 is refused, whether the value is
in range (an unused field must be 0), and the bits marked reserved inside it. -/
structure Fd where
  off : Nat
  len : Nat
  val : Nat
  zeroBad : Bool
  ok : Bool
  rbits : Nat
  deriving DecidableEq, Repr

/-- The first byte of a field that holds a set reserved bit. -/
def Fd.resOff (f : Fd) : Option Nat :=
  ((List.range f.len).find? fun k => decide (bits (f.val &&& f.rbits) (8 * k) 8 ≠ 0)).map (f.off + ·)

/-- The smaller of two optional offsets. -/
def minOff : Option Nat → Option Nat → Option Nat
  | none, b => b
  | a, none => a
  | some a, some b => some (min a b)

/-- Offset of the first reserved byte that is not 0, or of the byte that holds a set reserved bit (R10, R405 step 2),
over offsets lo to hi - 1 of a structure. -/
def firstReserved (byteAt : Nat → Nat) (lo hi : Nat) (l : List Fd) : Option Nat :=
  minOff
    ((rangeFrom lo (hi - lo)).find? fun o =>
      decide (byteAt o ≠ 0) && !(l.any fun f => decide (f.off ≤ o) && decide (o < f.off + f.len)))
    (l.foldl (fun m f => minOff m f.resOff) none)

/-- The first field that is 0 where its table refuses 0 (step 5). -/
def firstZero (l : List Fd) : Option Nat := (l.find? fun f => f.zeroBad && decide (f.val = 0)).map (·.off)

/-- The first field out of range (step 6). -/
def firstRange (l : List Fd) : Option Nat := (l.find? fun f => !f.ok).map (·.off)

/-- result1 of a layout failure (R406): the offset, and bit 31 for a host block. -/
def layoutResult (host : Bool) (off : Nat) : Nat := off % 2 ^ 24 + if host then 2 ^ 31 else 0

/-- Steps 2, 5 and 6 over one layout, in that order (R405): status and result1 of the first failure. -/
def layoutCheck (host : Bool) (reserved : Option Nat) (l : List Fd) : Option (Status × Nat) :=
  match reserved, firstZero l, firstRange l with
  | some o, _, _ => some (.reservedNonzero, layoutResult host o)
  | none, some o, _ => some (.zeroField, layoutResult host o)
  | none, none, some o => some (.fieldRange, layoutResult host o)
  | none, none, none => none

/-! ### The layouts of R411-R418 -/

/-- A field of a descriptor body: offset, bytes, 0 refused, range test. -/
def fd (b : BitVec 384) (off len : Nat) (zeroBad : Bool) (ok : Nat → Bool) : Fd :=
  ⟨off, len, bodyFld b off len, zeroBad, ok (bodyFld b off len), 0⟩

/-- A field that takes any value. -/
def fdAny (b : BitVec 384) (off len : Nat) : Fd := fd b off len false fun _ => true

/-- A field that refuses 0 and takes any other value. -/
def fdNz (b : BitVec 384) (off len : Nat) : Fd := fd b off len true fun _ => true

/-- A field in lo..hi; with lo above 0 its 0 is refused. -/
def fdIn (b : BitVec 384) (off len lo hi : Nat) : Fd :=
  fd b off len (decide (0 < lo)) fun v => decide (lo ≤ v) && decide (v ≤ hi)

/-- A field that the form does not use: it must be 0 (step 6). -/
def fdUnused (b : BitVec 384) (off len : Nat) : Fd := fd b off len false fun v => decide (v = 0)

/-- A field with bits [hi:0] named and the rest reserved. -/
def fdBits (b : BitVec 384) (off len named : Nat) (zeroBad : Bool) : Fd :=
  ⟨off, len, bodyFld b off len, zeroBad, true, 2 ^ (8 * len) - 2 ^ named⟩

/-- A host address, 0 refused, aligned to 16 bytes. -/
def fdAddr (b : BitVec 384) (off : Nat) : Fd := fd b off 8 true fun v => decide (v % 16 = 0)

/-- The WINDOW_LOAD fields (R416): which form uses which. -/
def windowFds (b : BitVec 384) (tab drop re : Bool) : List Fd :=
  [fdAny b 0x10 1, if tab || drop then fdIn b 0x11 1 1 8 else fdUnused b 0x11 1
   , if tab then fdIn b 0x12 1 8 20 else fdUnused b 0x12 1, if re then fdNz b 0x14 4 else fdUnused b 0x14 4
   , if tab then fdAddr b 0x18 else fdUnused b 0x18 8]
  ++ (if re then [fdIn b 0x20 1 0 35, fd b 0x21 1 false (fun v => decide (v ≤ 23) || (decide (33 ≤ v) && decide (v ≤ 40)))
       , fdIn b 0x22 1 8 20, fdIn b 0x23 1 0 2
       , fd b 0x24 1 false (fun v => decide (v = 0) || decide (v = 2) || decide (v = 4) || decide (v = 8) || decide (v = 16))]
      else [fdUnused b 0x20 1, fdUnused b 0x21 1, fdUnused b 0x22 1, fdUnused b 0x23 1, fdUnused b 0x24 1])

/-- The MASK_LOAD fields (R416). -/
def maskFds (b : BitVec 384) (load : Bool) : List Fd :=
  [fdAny b 0x10 1, fdIn b 0x11 1 1 64
   , if load then fd b 0x14 4 true (fun v => decide (64 ≤ v)) else fdUnused b 0x14 4
   , if load then fdAddr b 0x18 else fdUnused b 0x18 8]

/-- The CAPTURE_READ fields (R416). -/
def captureFds (b : BitVec 384) (seg : Bool) : List Fd :=
  [fdNz b 0x10 4, fdIn b 0x14 1 0 7, fdAny b 0x15 1, fdIn b 0x16 1 1 8, fdIn b 0x17 1 0 1
   , if seg then fdAny b 0x18 8 else fdUnused b 0x18 8, if seg then fdAny b 0x20 4 else fdUnused b 0x20 4
   , if seg then fdNz b 0x24 4 else fdUnused b 0x24 4, if seg then fdUnused b 0x28 8 else fdAny b 0x28 8
   , if seg then fdUnused b 0x30 4 else fdAny b 0x30 4, if seg then fdUnused b 0x34 1 else fdIn b 0x34 1 0 7]

/-- The STREAM_OPEN fields (R418). -/
def streamFds (b : BitVec 384) (disk : Bool) : List Fd :=
  [fdNz b 0x10 4, fdAny b 0x14 1, fdIn b 0x15 1 1 (if disk then 4 else 8), fdIn b 0x16 1 1 2
   , fd b 0x17 1 false (fun v => decide (v < 16))
   , fd b 0x18 4 (decide (bodyFld b 0x17 1 = 0)) (fun _ => true)
   , fd b 0x1C 4 true (fun v => decide (1024 ≤ v) && decide (v ≤ 16384) && decide (v % 1024 = 0))]

/-- The DISPLAY_CONFIG fields (R418): op is 1 OUTPUT, 2 LAYER, 3 LUT_LOAD, 4 PANEL_CMD, 5 LAYER_OFF, 6 OUTPUT_OFF. -/
def displayFds (b : BitVec 384) (op : Nat) : List Fd :=
  let src := bodyFld b 0x13 1
  let fmt := bodyFld b 0x14 1
  let layer := decide (op = 2)
  let dram := layer && decide (src = 1)
  let den := layer && (decide (src = 2) || decide (src = 3))
  let lut := decide (op = 3)
  let cmd := decide (op = 4)
  let read := bit (bodyFld b 0x32 1) 0
  let dim : Nat → Bool := fun v => decide (fmt = 1) || decide (v % 16 = 0)
  [fdAny b 0x10 1, if lut then fdUnused b 0x11 1 else fdIn b 0x11 1 0 1
   , if layer || decide (op = 5) then fdIn b 0x12 1 0 3 else fdUnused b 0x12 1
   , if layer then fdIn b 0x13 1 1 3 else fdUnused b 0x13 1
   , if dram then fdIn b 0x14 1 1 3 else fdUnused b 0x14 1, if dram then fdIn b 0x15 1 1 2 else fdUnused b 0x15 1
   , if layer then fdAny b 0x16 1 else fdUnused b 0x16 1
   , if den || lut then fdIn b 0x17 1 0 7 else fdUnused b 0x17 1
   , if layer then fdAny b 0x18 2 else fdUnused b 0x18 2, if layer then fdAny b 0x1A 2 else fdUnused b 0x1A 2
   , if dram then fd b 0x1C 2 true dim else fdUnused b 0x1C 2, if dram then fd b 0x1E 2 true dim else fdUnused b 0x1E 2
   , if dram then fdAny b 0x20 8 else fdUnused b 0x20 8
   , if decide (op = 1) || lut || cmd then fdNz b 0x28 8 else fdUnused b 0x28 8
   , if op = 1 then fdIn b 0x30 2 64 64 else if lut then fdIn b 0x30 2 1024 1024
     else if cmd then (if read then fdIn b 0x30 2 16 16 else fdIn b 0x30 2 1 256) else fdUnused b 0x30 2
   , if cmd then fdBits b 0x32 1 1 false else fdUnused b 0x32 1
   , if den || lut then fdNz b 0x34 4 else fdUnused b 0x34 4]

/-- The TDC_CONFIGURE fields (R418). staging_kb outside TIMING is a mode matter (R72). -/
def tdcFds (b : BitVec 384) (enable : Bool) : List Fd :=
  let ch := bodyFld b 0x10 1
  [fdIn b 0x10 1 0 7, fdAny b 0x11 1, if enable then fdIn b 0x12 1 1 3 else fdUnused b 0x12 1
   , if enable && decide (ch = 5) then fdIn b 0x13 1 4 24 else if enable && decide (ch = 6) then fdIn b 0x13 1 5 24
     else fdUnused b 0x13 1
   , if enable then fdIn b 0x14 1 1 8 else fdUnused b 0x14 1
   , if enable then fd b 0x18 4 false (fun v => decide (v = 0)
       || (decide (64 ≤ v) && decide (v ≤ 16384) && decide (v % 64 = 0))) else fdUnused b 0x18 4]

/-- The TDC_GATE fields (R418). -/
def gateFds (b : BitVec 384) (interval : Bool) : List Fd :=
  [fdIn b 0x10 1 0 1, fdAny b 0x11 1, fdIn b 0x12 1 1 2, fdIn b 0x13 1 0 7
   , if interval then fdIn b 0x14 1 0 7 else fdUnused b 0x14 1, fdIn b 0x15 1 1 8, fdAny b 0x18 4
   , fdIn b 0x20 8 1 (10 ^ 9)]

/-- The CAL_CONTROL fields (R144, R418): op is 1-6. -/
def calFds (b : BitVec 384) (op : Nat) : List Fd :=
  [fdAny b 0x10 1, fd b 0x11 1 true (fun v => decide (v < 16))
   , if op = 1 then fdIn b 0x12 1 1 2 else fdUnused b 0x12 1, if op = 4 then fdIn b 0x13 1 10 22 else fdUnused b 0x13 1
   , if op = 3 then fdIn b 0x14 4 1 10000 else fdUnused b 0x14 4, if op = 2 then fdNz b 0x18 8 else fdUnused b 0x18 8]

/-- The TEST_CONTROL fields (R418, R482): LANE_TEST takes target 1-2 and param0 1 with a rate 1-5, or param0 2; the
meaning of the others' parameters is not stated. -/
def testFds (b : BitVec 384) (op : DescOp) : List Fd :=
  match op with
  | .laneTestEnter => [fdAny b 0x10 1, fdIn b 0x11 1 1 2, fdIn b 0x18 8 1 1, fdIn b 0x20 8 1 5]
  | .laneTestExit => [fdAny b 0x10 1, fdIn b 0x11 1 1 2, fdIn b 0x18 8 2 2, fdUnused b 0x20 8]
  | .clearRetirement => [fdAny b 0x10 1, fdUnused b 0x11 1, fdUnused b 0x18 8, fdUnused b 0x20 8]
  | _ => [fdAny b 0x10 1, fdAny b 0x11 1, fdAny b 0x18 8, fdAny b 0x20 8]

/-- The named fields of a descriptor form's body, in order of offset (R411-R418). `nv` is the size of the sender's
vector table, `t` device time now; CONTEXT_CREATE is checked by R375 instead. -/
def bodyFds (op : DescOp) (b : BitVec 384) (nv t : Nat) : List Fd :=
  match op with
  | .noop | .contextCreate | .bad _ => []
  | .fence => [fdBits b 0x10 1 1 false]
  | .timeWait => [fd b 0x20 16 false fun v => decide (v ≤ t + 2 ^ 96)]
  | .modeSet => [fdIn b 0x10 1 1 12, fdIn b 0x11 1 0 1]
  | .contextDestroy => [fdIn b 0x10 2 0 1023]
  | .ringCreate =>
    [fd b 0x10 8 true (fun v => decide (v % 4096 = 0)), fdIn b 0x18 1 1 8, fdIn b 0x19 1 4 16
     , fd b 0x1A 1 true (fun v => decide (6 ≤ v) && decide (v ≤ 20) && decide (20 ≤ v + bodyFld b 0x19 1))
     , fdIn b 0x1B 1 0 1, fd b 0x1C 2 false (fun v => decide (bodyFld b 0x1B 1 ≠ 1) || decide (v < nv))
     , fdIn b 0x1E 2 0 4095, fdAny b 0x20 2, fdAny b 0x24 4]
  | .ringDestroy => [fdIn b 0x10 1 1 8]
  | .planCreate => [fdAddr b 0x10, fd b 0x18 4 true fun v => decide (64 ≤ v) && decide (v ≤ 65536) && decide (v % 16 = 0)]
  | .planStart => [fdNz b 0x10 4, fd b 0x20 16 false fun v => decide (v ≤ t + 2 ^ 96)]
  | .planStop | .planDestroy => [fdNz b 0x10 4]
  | .windowTable => windowFds b true false false
  | .windowDrop => windowFds b false true false
  | .windowReconfigure => windowFds b false false true
  | .maskLoad => maskFds b true
  | .maskDrop => maskFds b false
  | .triggerArm | .triggerDisarm => [fdNz b 0x10 4, fdNz b 0x14 1]
  | .captureReadSegments => captureFds b true
  | .captureReadWords => captureFds b false
  | .captureRelease => [fdNz b 0x10 4, fdIn b 0x14 1 0 7, fdAny b 0x18 8]
  | .spuLoad => [fdIn b 0x10 1 1 16, fd b 0x14 4 true (fun v => decide (64 ≤ v)), fdAddr b 0x18]
  | .spuLaunch => [fdAddr b 0x10, fdIn b 0x18 4 464 464]
  | .spuSignal => [fdAny b 0x10 1, fdNz b 0x12 2, fdNz b 0x14 4, fdAny b 0x18 4]
  | .spuStop => [fdAny b 0x10 1, fdNz b 0x12 2, fdNz b 0x14 4, fdUnused b 0x18 4]
  | .streamOpenRing => streamFds b false
  | .streamOpenDisk => streamFds b true
  | .streamClose => [fdNz b 0x10 4, fdNz b 0x14 4]
  | .diskBind =>
    [fdIn b 0x10 1 1 4, fdIn b 0x11 1 1 32, fdIn b 0x12 1 4 12
     , fd b 0x13 1 true (fun v => decide (v = 9) || decide (v = 12)), fdNz b 0x14 4, fdNz b 0x18 8, fdAny b 0x20 8
     , fdNz b 0x28 8]
  | .diskUnbind => [fdNz b 0x10 4]
  | .displayOutput => displayFds b 1
  | .displayLayer => displayFds b 2
  | .displayLutLoad => displayFds b 3
  | .panelCmd => displayFds b 4
  | .layerOff => displayFds b 5
  | .outputOff => displayFds b 6
  | .displayFlip =>
    [fdIn b 0x10 1 0 1, fd b 0x11 1 true (fun v => decide (v < 16)), fdAny b 0x14 4]
      ++ (List.range 4).map fun l => if bit (bodyFld b 0x11 1) l then fdAny b (0x18 + 8 * l) 8
                                     else fdUnused b (0x18 + 8 * l) 8
  | .tdcEnable => tdcFds b true
  | .tdcRelease => tdcFds b false
  | .tdcGateInterval => gateFds b true
  | .tdcGateFrequency => gateFds b false
  | .calSetMode => calFds b 1
  | .calManualLoad => calFds b 2
  | .calFence => calFds b 3
  | .calRampLength => calFds b 4
  | .runForeground => calFds b 5
  | .tableReset => calFds b 6
  | .setTimePps => [fdAny b 0x10 1, fdUnused b 0x20 8, fdAny b 0x28 8]
  | .setTimeImmediate => [fdAny b 0x10 1, fdAny b 0x20 8, fdAny b 0x28 8]
  | .powerHintCap => [fdAny b 0x10 1, fdIn b 0x11 1 1 6, fdUnused b 0x20 16]
  | .powerHintNextEvent => [fdAny b 0x10 1, fdUnused b 0x11 1, fdAny b 0x20 16]
  | .powerHintUncap => [fdAny b 0x10 1, fdUnused b 0x11 1, fdUnused b 0x20 16]
  | .flightRead => [fdIn b 0x10 1 1 8, fdBits b 0x11 1 1 false, fdAny b 0x20 16, fdNz b 0x30 4]
  | .replayLoadHost => [fdAny b 0x10 1, fdNz b 0x18 8, fd b 0x20 8 true fun v => decide (v ≤ 2 ^ 30)]
  | .replayLoadFlight | .replayUnload => [fdAny b 0x10 1, fdUnused b 0x18 8, fdUnused b 0x20 8]
  | .attestBind => [fdIn b 0x10 1 1 8, fdNz b 0x14 4]
  | .selftest | .clearRetirement | .laneTestEnter | .laneTestExit | .dramTest => testFds b op

/-- Offset of the first reserved byte of a descriptor that is not 0: bytes 0x01-0x07, then the body (R403). -/
def descReserved (d : Sub) (l : List Fd) : Option Nat :=
  match (List.range 7).find? fun k => decide (bits d.resv.toNat (8 * k) 8 ≠ 0) with
  | some k => some (k + 1)
  | none => firstReserved (fun o => bodyFld d.body o 1) 0x10 0x40 l

/-- Only context 0 may send the form (R404, R144). -/
def adminOnly : DescOp → Bool
  | .modeSet | .setTimePps | .setTimeImmediate | .powerHintCap | .flightRead | .replayLoadHost | .replayLoadFlight
  | .replayUnload | .selftest | .clearRetirement | .laneTestEnter | .laneTestExit | .dramTest
  | .calSetMode | .calManualLoad | .calRampLength | .runForeground | .tableReset => true
  | _ => false

/-- The selector byte's offset of a defined opcode that has selectors (R405 step 3), and its largest defined value. -/
def selectorOf (opcode : Nat) : Option (Nat × Nat) :=
  match opcode with
  | 0x14 => some (0x10, 3) | 0x15 => some (0x10, 2) | 0x18 => some (0x15, 2) | 0x22 => some (0x10, 2)
  | 0x28 => some (0x14, 2) | 0x30 => some (0x10, 6) | 0x38 => some (0x11, 2) | 0x39 => some (0x11, 2)
  | 0x3A => some (0x10, 6) | 0x3B => some (0x10, 2) | 0x40 => some (0x10, 3) | 0x42 => some (0x10, 3)
  | 0x44 => some (0x10, 4) | _ => none

/-- The named fields of an opcode whatever the selector, which step 2 is taken over when the selector is bad. -/
def opcodeFds (opcode : Nat) (b : BitVec 384) : List Fd :=
  match opcode with
  | 0x14 => windowFds b false false false | 0x15 => maskFds b false | 0x18 => captureFds b false
  | 0x22 => bodyFds .spuStop b 0 0 | 0x28 => streamFds b false | 0x30 => displayFds b 6 | 0x38 => tdcFds b false
  | 0x39 => gateFds b false | 0x3A => calFds b 5 | 0x3B => bodyFds .setTimePps b 0 0
  | 0x40 => bodyFds .powerHintUncap b 0 0 | 0x42 => bodyFds .replayUnload b 0 0 | 0x44 => testFds b .selftest | _ => []

/-- Checks 1-3 of a descriptor whose opcode is undefined or whose selector is 0 or undefined (R405). -/
def badCheck (opcode : Nat) (d : Sub) : Option (Status × Nat) :=
  match selectorOf opcode with
  | none => some (.badOpcode, 0)
  | some (off, top) =>
    match descReserved d (opcodeFds opcode d.body) with
    | some o => some (.reservedNonzero, layoutResult false o)
    | none =>
      let v := bodyFld d.body off 1
      if v = 0 then some (.zeroField, off) else if top < v then some (.fieldRange, off) else none

/-- Checks 1-6 of R405, taken when a descriptor is accepted: the status and result1 of the first that fails. -/
def acceptCheck (d : Desc) (c : Ctx) (s : State) : Option (Status × Nat) :=
  match d.op with
  | .bad o => (badCheck o.toNat d.sub).or (some (.badOpcode, 0))
  | .contextCreate => none
  | op =>
    let l := bodyFds op d.sub.body (fnVectors c.fn) (now s)
    match descReserved d.sub l with
    | some o => some (.reservedNonzero, layoutResult false o)
    | none => if adminOnly op && decide (c.num ≠ 0) then some (.adminOnly, 0) else layoutCheck false none l

/-- Step 7 of R405: forms that run before calibrated data is available. -/
def runsUncalibrated : DescOp → Bool
  | .noop | .fence | .timeWait | .contextCreate | .contextDestroy | .ringCreate | .ringDestroy | .powerHintCap
  | .powerHintNextEvent | .powerHintUncap | .attestBind | .selftest | .clearRetirement | .laneTestEnter | .laneTestExit
  | .dramTest => true
  | _ => false

end Sys2Proof.Machine
end

