-- ==== Sys2Proof/Machine/Mem.lean ====
section
/-!
DEFINITION. Byte memories held as sparse canonical lists: addresses strictly rising, no entry equal to 0, which an
unlisted address reads as.
-/

namespace Sys2Proof.Machine

/-- A byte memory. -/
abbrev Memory := List Host.Cell

/-- The canonical form from an address bound up: addresses at or above `lo`, strictly rising, no zero byte listed. -/
def Memory.wfFrom : Nat → Memory → Bool
  | _, [] => true
  | lo, (a, b) :: r => decide (lo ≤ a) && decide (b ≠ 0) && Memory.wfFrom (a + 1) r

/-- The canonical form. -/
def Memory.wf (m : Memory) : Bool := Memory.wfFrom 0 m

/-- The byte at an address. -/
def Memory.read (a : Nat) : Memory → Byte
  | [] => 0
  | (x, b) :: r => if x = a then b else Memory.read a r

/-- The memory with an address's entry removed. -/
def Memory.erase (a : Nat) : Memory → Memory
  | [] => []
  | (x, b) :: r => if x = a then r else if a < x then (x, b) :: r else (x, b) :: Memory.erase a r

/-- The memory with an entry for a byte that is not 0. -/
def Memory.insert (a : Nat) (v : Byte) : Memory → Memory
  | [] => [(a, v)]
  | (x, b) :: r => if a < x then (a, v) :: (x, b) :: r else if x = a then (a, v) :: r else (x, b) :: Memory.insert a v r

/-- The memory after a byte is written. -/
def Memory.write (a : Nat) (v : Byte) (m : Memory) : Memory := if v = 0 then m.erase a else m.insert a v

/-- The memory after bytes are written from an address up. -/
def Memory.writeList (a : Nat) : List Byte → Memory → Memory
  | [], m => m
  | b :: r, m => Memory.writeList (a + 1) r (m.write a b)

/-- `n` bytes from an address up. -/
def Memory.readList (a n : Nat) (m : Memory) : List Byte := (List.range n).map fun i => m.read (a + i)

/-- The memory with a range of addresses zeroed. -/
def Memory.clear (a n : Nat) (m : Memory) : Memory := m.filter fun c => !(decide (a ≤ c.1) && decide (c.1 < a + n))

/-- The little-endian number of `n` bytes from an address up. -/
def Memory.readNat (a n : Nat) (m : Memory) : Nat := leNat (m.readList a n)

/-- The memory after the `n` little-endian bytes of a number are written. -/
def Memory.writeNat (a n v : Nat) (m : Memory) : Memory := m.writeList a (leBytes n v)

end Sys2Proof.Machine
end

