-- ==== Sys2Proof/Machine/Float.lean ====
section
/-!
DEFINITION. IEEE 754 binary32 and binary64 arithmetic as exact rational arithmetic with one rounding to nearest even
(the detectors, integration, kurtosis and the SPU).
-/

namespace Sys2Proof.Machine

/-- A binary format: precision in bits and exponent bits. -/
structure Fmt where
  p : Nat
  eb : Nat
  deriving DecidableEq, Repr

/-- binary32. -/
def f32 : Fmt := ⟨24, 8⟩

/-- binary64. -/
def f64 : Fmt := ⟨53, 11⟩

/-- The bits of +infinity. -/
def Fmt.inf (f : Fmt) : Nat := (2 ^ f.eb - 1) * 2 ^ (f.p - 1)

/-- The quiet NaN that operations give. -/
def Fmt.nan (f : Fmt) : Nat := f.inf + 2 ^ (f.p - 2)

/-- The sign bit's weight. -/
def Fmt.signBit (f : Fmt) : Nat := 2 ^ (f.p - 1 + f.eb)

/-- Exponent of the least significant bit of a subnormal value. -/
def Fmt.eLsb (f : Fmt) : Int := 3 - (2 ^ (f.eb - 1) : Nat) - (f.p : Int)

/-- A floating-point datum: NaN (and whether it signals), infinity, or (-1)^s * m * 2^e. -/
inductive FV where
  | nan (signalling : Bool)
  | inf (s : Bool)
  | fin (s : Bool) (m : Nat) (e : Int)
  deriving DecidableEq, Repr

/-- The datum that a word stands for. -/
def FV.decode (f : Fmt) (w0 : Nat) : FV :=
  let w := w0 % (2 * f.signBit)
  let s := decide (f.signBit ≤ w)
  let v := w % f.signBit
  let ex := v / 2 ^ (f.p - 1)
  let m := v % 2 ^ (f.p - 1)
  if f.inf < v then .nan (decide (m < 2 ^ (f.p - 2)))
  else if v = f.inf then .inf s
  else if ex = 0 then .fin s m f.eLsb
  else .fin s (m + 2 ^ (f.p - 1)) (f.eLsb + (ex - 1 : Nat))

/-- The exception flags of an operation (IEEE 754). -/
structure FFlags where
  invalid : Bool
  divZero : Bool
  overflow : Bool
  underflow : Bool
  inexact : Bool
  deriving DecidableEq, Repr

/-- No exception. -/
def FFlags.none : FFlags := ⟨false, false, false, false, false⟩

/-- The union of two operations' flags. -/
def FFlags.or (a b : FFlags) : FFlags :=
  ⟨a.invalid || b.invalid, a.divZero || b.divZero, a.overflow || b.overflow, a.underflow || b.underflow
   , a.inexact || b.inexact⟩

/-- Flags of an invalid operation. -/
def FFlags.inv : FFlags := { FFlags.none with invalid := true }

/-- 2^e as numerator and denominator. -/
def pow2Rat (e : Int) : Nat × Nat := if 0 ≤ e then (2 ^ e.toNat, 1) else (1, 2 ^ (-e).toNat)

/-- Floor of log2 of a positive rational. -/
def ratLog2 (num den : Nat) : Int :=
  let q : Int := (num.log2 : Int) - den.log2
  let p := pow2Rat q
  if num * p.2 < p.1 * den then q - 1 else q

/-- A positive rational rounded to an integer multiple of 2^e, to nearest, ties to even; and whether exactly. -/
def roundAt (num den : Nat) (e : Int) : Nat × Bool :=
  let p := pow2Rat e
  let d := den * p.1
  let n := num * p.2
  ((roundDivEven (n : Int) d).toNat, decide (n % d = 0))

/-- (-1)^s * num / den rounded to the format, to nearest, ties to even; subnormal values are kept, and tininess is
detected after rounding. -/
def roundRat (f : Fmt) (s : Bool) (num den : Nat) : Nat × FFlags :=
  let sb := if s then f.signBit else 0
  if num = 0 || den = 0 then (sb, FFlags.none)
  else
    let q := ratLog2 num den
    let e := max (q - (f.p - 1 : Nat)) f.eLsb
    let r := roundAt num den e
    let w := (e - f.eLsb).toNat * 2 ^ (f.p - 1) + r.1
    if f.inf ≤ w then (sb + f.inf, ⟨false, false, true, false, true⟩)
    else
      -- tiny when the value rounded as if the exponent range were unbounded lies below the smallest normal number
      let u := (roundAt num den (q - (f.p - 1 : Nat))).1
      let least := f.eLsb + (f.p - 1 : Nat)
      let tiny := decide (q < least) && !(decide (u = 2 ^ f.p) && decide (q + 1 = least))
      (sb + w, ⟨false, false, false, tiny && !r.2, !r.2⟩)

/-- A dyadic rational x * 2^e rounded; `z` is the sign of a zero. -/
def roundDyad (f : Fmt) (x e : Int) (z : Bool) : Nat × FFlags :=
  if x = 0 then (if z then f.signBit else 0, FFlags.none)
  else
    let p := pow2Rat e
    roundRat f (decide (x < 0)) (x.natAbs * p.1) p.2

/-- Signed mantissa of a finite datum. -/
def signed (s : Bool) (m : Nat) : Int := if s then -(m : Int) else m

/-- A NaN result of operands of which some are NaN: invalid when one signals. -/
def nanResult (f : Fmt) (l : List FV) : Nat × FFlags :=
  (f.nan, if l.any (· = .nan true) then FFlags.inv else FFlags.none)

/-- Is a datum a NaN? -/
def FV.isNan : FV → Bool
  | .nan _ => true
  | _ => false

/-- The sum of two exact dyadic values, rounded. A zero sum of opposite signs is +0. -/
def addFin (f : Fmt) (sa : Bool) (ma : Nat) (ea : Int) (sb : Bool) (mb : Nat) (eb : Int) : Nat × FFlags :=
  let e := min ea eb
  roundDyad f (signed sa ma * 2 ^ (ea - e).toNat + signed sb mb * 2 ^ (eb - e).toNat) e
    (sa && sb)

/-- Addition. -/
def addF (f : Fmt) (a b : FV) : Nat × FFlags :=
  match a, b with
  | .fin sa ma ea, .fin sb mb eb => addFin f sa ma ea sb mb eb
  | .inf sa, .inf sb => if sa = sb then (f.inf + if sa then f.signBit else 0, FFlags.none) else (f.nan, FFlags.inv)
  | .inf s, .fin _ _ _ | .fin _ _ _, .inf s => (f.inf + (if s then f.signBit else 0), FFlags.none)
  | x, y => nanResult f [x, y]

/-- The negative of a datum; a NaN stays. -/
def FV.neg : FV → FV
  | .nan q => .nan q
  | .inf s => .inf (!s)
  | .fin s m e => .fin (!s) m e

/-- Multiplication. -/
def mulF (f : Fmt) (a b : FV) : Nat × FFlags :=
  match a, b with
  | .fin sa ma ea, .fin sb mb eb => roundDyad f (signed (sa != sb) (ma * mb)) (ea + eb) (sa != sb)
  | .inf sa, .inf sb => (f.inf + (if sa != sb then f.signBit else 0), FFlags.none)
  | .inf sa, .fin sb m _ | .fin sb m _, .inf sa =>
    if m = 0 then (f.nan, FFlags.inv) else (f.inf + (if sa != sb then f.signBit else 0), FFlags.none)
  | x, y => nanResult f [x, y]

/-- Fused multiply-add a * b + c with one rounding. -/
def fmaF (f : Fmt) (a b c : FV) : Nat × FFlags :=
  if a.isNan || b.isNan || c.isNan then
    match a, b with
    | .inf _, .fin _ 0 _ | .fin _ 0 _, .inf _ => (f.nan, FFlags.inv)
    | _, _ => nanResult f [a, b, c]
  else
    match a, b, c with
    | .fin sa ma ea, .fin sb mb eb, .fin sc mc ec => addFin f (sa != sb) (ma * mb) (ea + eb) sc mc ec
    | .fin _ _ _, .fin _ _ _, c => addF f (.fin false 0 0) c
    | _, _, _ =>
      let p := mulF f a b
      let s := addF f (FV.decode f p.1) c
      (s.1, p.2.or s.2)

/-- Division of finite data or by infinities. -/
def divF (f : Fmt) (a b : FV) : Nat × FFlags :=
  match a, b with
  | .fin sa ma ea, .fin sb mb eb =>
    let s := sa != sb
    if mb = 0 then
      if ma = 0 then (f.nan, FFlags.inv)
      else (f.inf + (if s then f.signBit else 0), { FFlags.none with divZero := true })
    else
      let p := pow2Rat (ea - eb)
      roundRat f s (ma * p.1) (mb * p.2)
  | .inf sa, .fin sb _ _ => (f.inf + (if sa != sb then f.signBit else 0), FFlags.none)
  | .fin sa _ _, .inf sb => (if sa != sb then f.signBit else 0, FFlags.none)
  | .inf _, .inf _ => (f.nan, FFlags.inv)
  | x, y => nanResult f [x, y]

/-- The square root of a non-negative dyadic value, rounded to nearest even. -/
def sqrtF (f : Fmt) (m : Nat) (e : Int) : Nat :=
  if m = 0 then 0
  else
    -- scale so that the root has more than p + 2 bits, and keep a sticky bit
    let k : Nat := 2 * (f.p + 2)
    let odd := e % 2 ≠ 0
    let v := (if odd then 2 * m else m) * 2 ^ (2 * k)
    let e2 : Int := (if odd then e - 1 else e) / 2 - k
    let r := isqrtAux v 160 0
    let sticky := decide (r * r ≠ v)
    (roundDyad f (((2 * r + b2n sticky : Nat) : Int)) (e2 - 1) false).1

/-- A binary64 word from a binary32 word (exact). -/
def widen (w : Nat) : Nat :=
  match FV.decode f32 w with
  | .fin s m e => (roundDyad f64 (signed s m) e s).1
  | .inf s => f64.inf + if s then f64.signBit else 0
  | .nan _ => f64.nan

/-- A binary64 word rounded to binary32. -/
def narrow (w : Nat) : Nat :=
  match FV.decode f64 w with
  | .fin s m e => (roundDyad f32 (signed s m) e s).1
  | .inf s => f32.inf + if s then f32.signBit else 0
  | .nan _ => f32.nan

/-- A binary64 sum of words. -/
def add64 (a b : Nat) : Nat := (addF f64 (FV.decode f64 a) (FV.decode f64 b)).1

/-- A binary64 difference of words. -/
def sub64 (a b : Nat) : Nat := (addF f64 (FV.decode f64 a) (FV.decode f64 b).neg).1

/-- A binary64 product of words. -/
def mul64 (a b : Nat) : Nat := (mulF f64 (FV.decode f64 a) (FV.decode f64 b)).1

/-- A binary64 quotient of words. -/
def div64 (a b : Nat) : Nat := (divF f64 (FV.decode f64 a) (FV.decode f64 b)).1

/-- The binary64 square root of a word that is not negative. -/
def sqrt64 (a : Nat) : Nat :=
  match FV.decode f64 a with
  | .fin _ m e => sqrtF f64 m e
  | .inf s => if s then f64.nan else f64.inf
  | .nan _ => f64.nan

/-- The binary64 word of a natural number. -/
def nat64 (n : Nat) : Nat := (roundDyad f64 n 0 false).1

/-- A finite non-negative word as an exact fraction; infinities and NaN as 0. -/
def FV.frac (f : Fmt) (w : Nat) : Nat × Nat :=
  match FV.decode f w with
  | .fin _ m e => let p := pow2Rat e; (m * p.1, p.2)
  | _ => (0, 1)

/-- Order of two data that are not NaN, with -0 equal to +0: a < b. -/
def FV.lt (a b : FV) : Bool :=
  match a, b with
  | .nan _, _ | _, .nan _ => false
  | .inf true, .inf true => false
  | .inf true, _ => true
  | _, .inf true => false
  | .inf false, _ => false
  | .fin _ _ _, .inf false => true
  | .fin sa ma ea, .fin sb mb eb =>
    let e := min ea eb
    decide (signed sa ma * 2 ^ (ea - e).toNat < signed sb mb * 2 ^ (eb - e).toNat)

/-- Equal value; a NaN equals nothing. -/
def FV.eqv (a b : FV) : Bool := !a.isNan && !b.isNan && !a.lt b && !b.lt a

/-- Words compared as binary64 values. -/
def lt64 (a b : Nat) : Bool := (FV.decode f64 a).lt (FV.decode f64 b)

end Sys2Proof.Machine
end

