-- ==== Sys2Proof/Machine/Trig.lean ====
section
/-!
DEFINITION. Fixed-point evaluation of the closed forms of the spec (windows, twiddle factors, logarithms) with 192
fraction bits, from which each result is rounded once.
-/

namespace Sys2Proof.Machine

/-- 1.0 with 192 fraction bits. -/
def fx : Nat := 2 ^ 192

/-- pi with 192 fraction bits. -/
def fxPi : Nat := 0x3243f6a8885a308d313198a2e03707344a4093822299f31d0

/-- Terms x^(2i) / (2i)! (or x^(2i+1) / (2i+1)!) of an alternating series from term number k, summed `n` deep. -/
def trigSeries (x2 term k : Nat) : Nat → Int
  | 0 => 0
  | n + 1 => (term : Int) - trigSeries x2 (term * x2 / fx / ((k + 1) * (k + 2))) (k + 2) n

/-- cos x for 0 <= x <= pi / 2. -/
def cosFx (x : Nat) : Int := trigSeries (x * x / fx) fx 0 40

/-- sin x for 0 <= x <= pi / 2. -/
def sinFx (x : Nat) : Int := trigSeries (x * x / fx) x 1 40

/-- cos (2 pi k / n). -/
def cosTurn (k n : Nat) : Int :=
  let q := 4 * (k % n) / n
  let r := 4 * (k % n) % n
  let a := fxPi * r / (2 * n)
  match q with
  | 0 => if r = 0 then fx else cosFx a
  | 1 => if r = 0 then 0 else -sinFx a
  | 2 => if r = 0 then -(fx : Int) else -cosFx a
  | _ => if r = 0 then 0 else sinFx a

/-- sin (2 pi k / n). -/
def sinTurn (k n : Nat) : Int :=
  let q := 4 * (k % n) / n
  let r := 4 * (k % n) % n
  let a := fxPi * r / (2 * n)
  match q with
  | 0 => if r = 0 then 0 else sinFx a
  | 1 => if r = 0 then fx else cosFx a
  | 2 => if r = 0 then 0 else -sinFx a
  | _ => if r = 0 then -(fx : Int) else -cosFx a

/-- Sum of y^i / i! from term i = k on. -/
def expSeries (y term k : Nat) : Nat → Nat
  | 0 => 0
  | n + 1 => term + expSeries y (term * y / fx / (k + 1)) (k + 1) n

/-- exp (-y) for a fixed-point y below 8. -/
def expNeg (y : Nat) : Nat := fx * fx / expSeries y fx 0 120

/-- Sum of w^i / (i!)^2 from term i = k on. -/
def besselSeries (w term k : Nat) : Nat → Nat
  | 0 => 0
  | n + 1 => term + besselSeries w (term * w / fx / ((k + 1) * (k + 1))) (k + 1) n

/-- I0 (z) from w = z^2 / 4. -/
def besselI0 (w : Nat) : Nat := besselSeries w fx 0 100

/-- Binary digits of log2 of a mantissa m (1 <= m < 2, 192 fraction bits), `n` of them, by repeated squaring. -/
def log2Bits (m acc : Nat) : Nat → Nat
  | 0 => acc
  | n + 1 =>
    let q := m * m / fx
    if 2 * fx ≤ q then log2Bits (q / 2) (2 * acc + 1) n else log2Bits q (2 * acc) n

end Sys2Proof.Machine
end

