-- ==== Sys2Proof/Machine/Fft.lean ====
section
/-!
DEFINITION. The transform engines' arithmetic: windows, filterbank, the radix-2 transform and its scaling, and the
detectors (R180, R183, R185-R190, R579, R580).
-/

namespace Sys2Proof.Machine

/-! ### Windows (R180, R579) -/

/-- Coefficients c0, c1, ... of a cosine-sum window, times a common factor (R579). -/
def cosineSum (id : Nat) : List Nat :=
  match id with
  | 1 => [5, 5]
  | 2 => [54, 46]
  | 3 => [42, 50, 8]
  | 4 => [7938, 9240, 1430]
  | 5 => [42323, 49755, 7922]
  | 6 => [35875, 48829, 14128, 1168]
  | 7 => [3635819, 4891775, 1365995, 106411]
  | 8 => [100000, 190796, 107349, 18199]
  | 9 => [10000000, 19383379, 13045202, 4028270, 350665]
  | 10 => [10000000, 19575375, 14780705, 6367431, 1228389, 66288]
  | 11 => [100000000, 196760033, 157983607, 81123644, 22583558, 2773848, 90360]
  | 12 => [100000000, 197441843, 165409889, 95788187, 33673420, 6364622, 521942, 10599]
  | 13 => [1000000000, 1979280420, 1710288951, 1081629853, 448734314, 112376628, 15122992, 871252, 11896]
  | 14 => [1000000000000, 1985844164102, 1791176438506, 1282075284005, 667777530266, 240160796576, 56656381764
           , 8134974479, 624544650, 19808998, 132974]
  | _ => [1]

/-- Sum of (-1)^i * c_i * cos (i z) for z = 2 pi n / m, from index i on. -/
def cosineValue (n m : Nat) : Nat → List Nat → Int
  | _, [] => 0
  | i, c :: r =>
    (if i % 2 = 0 then (c : Int) else -(c : Int)) * cosTurn (i * n) m + cosineValue n m (i + 1) r

/-- A closed form at x = n / m and at x = 1 / 2, on a common scale (R579). -/
def windowForm (id n m : Nat) : Int × Nat :=
  -- u = |2x - 1| as a fraction of m
  let u := if 2 * n ≤ m then m - 2 * n else 2 * n - m
  let s := fx * (m * m - u * u) / (m * m)
  match id with
  | 0 => (1, 1)
  | 15 | 16 | 17 | 18 =>
    -- w = (beta^2 / 4) (1 - u^2), beta = (id - 11) pi / 2
    let b := (id - 11) * (id - 11) * (fxPi * fxPi / fx) / 16
    ((besselI0 (b * s / fx) : Int), besselI0 b)
  | 19 | 20 | 21 =>
    -- alpha = (id - 14) / 2
    let y := fx * ((id - 14) * (id - 14) * (u * u)) / (8 * (m * m))
    ((expNeg y : Int), fx)
  | 22 => (((m - u : Nat) : Int), m)
  | 23 =>
    if 4 * n < m then ((fx : Int) - cosTurn (2 * n) m, 2 * fx)
    else if 4 * n ≤ 3 * m then (1, 1)
    else ((fx : Int) - cosTurn (2 * (m - n)) m, 2 * fx)
  | _ => (cosineValue n m 0 (cosineSum id), (cosineSum id).foldl (· + ·) 0 * fx)

/-- Rounding half up of num / den. -/
def halfUp (num : Int) (den : Nat) : Int := (2 * num + den) / (2 * (den : Int))

/-- ROM window coefficient n of a window of length m, in Q2.16 (R180). -/
def romCoef (id m n : Nat) : Int :=
  let f := windowForm id n m
  halfUp (f.1 * 65536) f.2

/-- Prototype coefficient n of m = taps * size, in Q2.16 (R183): the window times sinc ((n - m/2) / size). -/
def protoCoef (id taps size n : Nat) : Int :=
  let m := taps * size
  let d := if 2 * n ≤ m then m / 2 - n else n - m / 2
  if d = 0 then romCoef id m n
  else
    let f := windowForm id n m
    -- sinc = sin (pi d / size) / (pi d / size)
    halfUp (f.1 * sinTurn d (2 * size) * (size : Int) * 65536) (f.2 * (fxPi * d))

/-- The coefficients in force: a user table as it stands (R182), a ROM window, or the prototype of a filterbank. -/
def coefficients (id taps size : Nat) (table : Option (List Nat)) : List Int :=
  match table with
  | some t => t.map fun c => sext 18 c
  | none =>
    if taps = 0 then (List.range size).map (romCoef id size)
    else (List.range (taps * size)).map (protoCoef id taps size)

/-! ### Rounding (R185, R187) -/

/-- x / 2^sh rounded by the stream's mode: half up, or convergent. -/
def rnd (up : Bool) (sh : Nat) (x : Int) : Int :=
  if sh = 0 then x else if up then (x + 2 ^ (sh - 1)) / (2 : Int) ^ sh else roundDivEven x (2 ^ sh)

/-- Windowed samples folded into `size` points: the sum of the samples that lie `size` apart, rounded once (R183,
R185). `l` are the products x * w in order. -/
def foldPoints (up : Bool) (size : Nat) (prods : List Int) : List Int :=
  (List.range size).map fun k =>
    rnd up 10 (((List.range (cdiv prods.length size)).map fun p => nth prods (p * size + k) 0).foldl (· + ·) (0 : Int))

/-! ### The transform (R186, R580) -/

/-- A complex integer. -/
abbrev Cplx := Int × Int

/-- A twiddle factor W_n^k in units of 2^-22, to the nearest with ties away from zero. -/
def twiddle (k n : Nat) : Cplx :=
  let r := fun (v : Int) => let m : Nat := (v.natAbs * 2 ^ 23 + fx) / (2 * fx); if v < 0 then -(m : Int) else (m : Int)
  (r (cosTurn k n), -(r (sinTurn k n)))

/-- The product of two complex integers. -/
def cmul (a b : Cplx) : Cplx := (a.1 * b.1 - a.2 * b.2, a.1 * b.2 + a.2 * b.1)

/-- Bit reversal of the low `n` bits. -/
def bitrev : Nat → Nat → Nat
  | 0, _ => 0
  | n + 1, k => (k % 2) * 2 ^ n + bitrev n (k / 2)

/-- A list cut into pieces of `n`, at most `k` of them. -/
def chunks {α : Type} (n : Nat) : Nat → List α → List (List α)
  | 0, _ => []
  | k + 1, l => if l.isEmpty then [] else l.take n :: chunks n k (l.drop n)

/-- Points under way: the frame, the right shift so far, and whether a component saturated. -/
structure Frame where
  pts : List Cplx
  exp : Nat
  ovf : Bool
  deriving DecidableEq, Repr

/-- The largest magnitude of a component. -/
def maxComponent (l : List Cplx) : Nat := l.foldl (fun m c => max m (max c.1.natAbs c.2.natAbs)) 0

/-- How a frame is scaled and rounded: schedule or automatic, its mask, half up. -/
structure ArithCfg where
  schedule : Bool
  mask : Nat
  up : Bool
  deriving DecidableEq, Repr

/-- The shift before a stage (R186). -/
def stageShift (c : ArithCfg) (stage : Nat) (l : List Cplx) : Nat :=
  if c.schedule then b2n (bit c.mask stage)
  else
    let m := maxComponent l
    if m < 2 ^ 21 then 0 else if m < 2 ^ 22 then 1 else 2

/-- The stage input scaled. -/
def scaleStage (c : ArithCfg) (stage : Nat) (f : Frame) : Frame :=
  let sh := stageShift c stage f.pts
  { f with pts := f.pts.map fun p => (rnd c.up sh p.1, rnd c.up sh p.2), exp := f.exp + sh }

/-- A component held to 24 bits (R186). -/
def sat24 (x : Int) : Int := clampInt (-(2 ^ 23)) (2 ^ 23 - 1) x

/-- The stage output held to 24 bits; a saturated component marks the frame. -/
def satStage (f : Frame) : Frame :=
  { f with pts := f.pts.map fun p => (sat24 p.1, sat24 p.2)
           ovf := f.ovf || f.pts.any fun p => decide (sat24 p.1 ≠ p.1) || decide (sat24 p.2 ≠ p.2) }

/-- One group of a stage: elements p and p + h combined with their twiddles. -/
def butterflies (up : Bool) (h : Nat) (tw : List Cplx) (g : List Cplx) : List Cplx :=
  let ab := ((g.take h).zip (g.drop h)).zip tw
  let t := ab.map fun x => (x.1.1, cmul x.2 x.1.2)
  (t.map fun x => (rnd up 22 (x.1.1 * 2 ^ 22 + x.2.1), rnd up 22 (x.1.2 * 2 ^ 22 + x.2.2)))
    ++ t.map fun x => (rnd up 22 (x.1.1 * 2 ^ 22 - x.2.1), rnd up 22 (x.1.2 * 2 ^ 22 - x.2.2))

/-- Stages s, s + 1, ... of a transform, `n` of them. -/
def stages (c : ArithCfg) (s : Nat) : Nat → Frame → Frame
  | 0, f => f
  | n + 1, f =>
    let f1 := scaleStage c s f
    let h := 2 ^ s
    let tw := (List.range h).map fun p => twiddle p (2 * h)
    let out := ((chunks (2 * h) f1.pts.length f1.pts).map (butterflies c.up h tw)).flatten
    stages c (s + 1) n (satStage { f1 with pts := out })

/-- The complex transform of 2^lg points. -/
def complexFft (c : ArithCfg) (lg : Nat) (pts : List Cplx) : Frame :=
  stages c 0 lg ⟨(List.range (2 ^ lg)).map fun p => nth pts (bitrev lg p) (0, 0), 0, false⟩

/-- Neighbours paired as re + j im. -/
def pairUp : List Int → List Cplx
  | a :: b :: r => (a, b) :: pairUp r
  | _ => []

/-- The split stage of a real transform (R580). -/
def splitStage (c : ArithCfg) (lg : Nat) (f : Frame) : Frame :=
  let f1 := scaleStage c (lg - 1) f
  let l := f1.pts.length
  satStage { f1 with pts := (List.range l).map fun k =>
    let z := nth f1.pts k (0, 0)
    let y := nth f1.pts ((l - k) % l) (0, 0)
    let a : Cplx := (z.1 + y.1, z.2 - y.2)
    let b : Cplx := (z.1 - y.1, z.2 + y.2)
    let wb := cmul (twiddle k (2 ^ lg)) b
    -- minus j times (x + j y) is y - j x
    (rnd c.up 23 (a.1 * 2 ^ 22 + wb.2), rnd c.up 23 (a.2 * 2 ^ 22 - wb.1)) }

/-- A real transform of 2^lg points: bins 0 to 2^(lg-1) - 1. -/
def realFft (c : ArithCfg) (lg : Nat) (v : List Int) : Frame := splitStage c lg (complexFft c (lg - 1) (pairUp v))

/-- A zoom transform in centred order (R190, R580). -/
def zoomFft (c : ArithCfg) (lg : Nat) (v : List Cplx) : Frame :=
  let f := complexFft c lg v
  { f with pts := f.pts.drop (2 ^ (lg - 1)) ++ f.pts.take (2 ^ (lg - 1)) }

/-! ### Detectors (R188, R189) -/

/-- Reference level: the square of the coefficient sum in units of 2^-16, times 2^(8 + 2g) (R188); g is gain_log2 of
a zoom channel and 0 on XEn. -/
def refLevel (s1 : Int) (g : Nat) : Nat := s1.natAbs * s1.natAbs * 2 ^ (8 + 2 * g)

/-- POWER of a bin, binary32 (R189). -/
def powerOf (x : Cplx) (exp ref : Nat) : Nat :=
  (roundRat f32 false ((x.1.natAbs * x.1.natAbs + x.2.natAbs * x.2.natAbs) * 2 ^ (2 * exp)) ref).1

/-- 10^(c/2560 - 1/5120) <= num / den, exactly: is the code at least c? -/
def logAtLeast (num den : Nat) (c : Int) : Bool :=
  if 0 ≤ 2 * c - 1 then decide (10 ^ (2 * c - 1).toNat * den ^ 5120 ≤ num ^ 5120)
  else decide (den ^ 5120 ≤ num ^ 5120 * 10 ^ (1 - 2 * c).toNat)

/-- The largest code in lo .. lo + 2^n - 1 that `logAtLeast` allows, given that it allows lo. -/
def logSearch (num den : Nat) (lo : Int) : Nat → Int
  | 0 => lo
  | n + 1 => logSearch num den (if logAtLeast num den (lo + 2 ^ n) then lo + 2 ^ n else lo) n

/-- round (2560 * log10 P) of a positive fraction, held to the 16-bit range. -/
def logExact (num den : Nat) : Int := logSearch num den (-32768) 16

/-- The difference of the device's code from the exact one: -1, 0 or 1 (R189). -/
def logDelta (v : BitVec 2) : Int := if v = 1 then 1 else if v = 2 then -1 else 0

/-- LOGPWR of a positive fraction (R189): the exact code, off by at most one. -/
def logFraction (num den : Nat) : Int :=
  let c := logExact num den
  if c ≤ -32768 then -32768 else if 32767 < c then 32767
  else clampInt (-32768) 32767 (c + logDelta (Config.logTable (BitVec.ofNat 64 (roundRat f64 false num den).1)))

/-- LOGPWR of a POWER value, binary32 (R189). -/
def logpwr (p : Nat) : Int :=
  let f := FV.frac f32 p
  if f.1 = 0 then -32768 else logFraction f.1 f.2

end Sys2Proof.Machine
end

