-- ==== Sys2Proof/Machine/Tap.lean ====
section
/-!
DEFINITION. Offering items to SPU taps (R299-R301).
-/

namespace Sys2Proof.Machine

/-- Change the SPU cluster. -/
def modSpu (f : Spu → Spu) (s : State) : State := { s with spu := f s.spu }

/-- A logical SPU. -/
def getLsu (n : Nat) (s : State) : Lsu := nth s.spu.lsus n (Lsu.reset n)

/-- Change a logical SPU. -/
def modLsu (n : Nat) (f : Lsu → Lsu) (s : State) : State := modSpu (fun x => { x with lsus := modNth x.lsus n f }) s

/-- An interrupt source becomes pending (R295). -/
def Lsu.setPend (b : Nat) (l : Lsu) : Lsu := { l with pend := l.pend ||| BitVec.ofNat 6 (2 ^ b) }

/-- An item comes by on a source: an open tap that subscribes to it offers one in every tap_every (R299). `mk` gives
the record bytes from 0x40 on and the record's fields, for a bin subset. -/
def Lsu.offer (plan kind source detail : Nat) (mk : Nat → Nat → Nat × List Fld) (l : Lsu) : Lsu :=
  l.taps.zipIdx.foldl (fun l x =>
    let t := x.1
    if t.isOpen && decide (t.plan = plan) && decide (t.kind = kind) && decide (t.source = source)
        && (decide (t.detail = detail) || decide (2 < kind)) then
      if t.seen % t.every = 0 then
        let item := mk t.first t.count
        { l with taps := modNth l.taps x.2 fun t => { t with seen := t.seen + 1, seq := t.seq + 1, fresh := false }
                 offers := l.offers ++ [⟨x.2, t.seq, t.fresh, item.1, item.2⟩] }
      else { l with taps := modNth l.taps x.2 fun t => { t with seen := t.seen + 1 } }
    else l) l

/-- An item is offered to every instance that runs. -/
def offerTap (plan kind source detail : Nat) (mk : Nat → Nat → Nat × List Fld) (s : State) : State :=
  modSpu (fun x => { x with lsus := x.lsus.map fun l =>
    if (decide (l.state = 1)) || decide (l.state = 2) || decide (l.state = 3) then Lsu.offer plan kind source detail mk l else l }) s

/-- The taps of a plan open or close (R301): TAPST changes and TAP_STATE becomes pending. -/
def Lsu.tapState (plan : Nat) (up : Bool) (l : Lsu) : Lsu :=
  if l.taps.any (fun t => decide (t.plan = plan) && decide (t.isOpen ≠ up)) then
    ({ l with taps := mapIf (fun t => decide (t.plan = plan) && decide (t.isOpen ≠ up))
                (fun t => { t with isOpen := up, fresh := up }) l.taps }).setPend 2
  else l

/-- The taps of a plan open or close on every running instance. -/
def tapsOf (plan : Nat) (up : Bool) (s : State) : State :=
  modSpu (fun x => { x with lsus := x.lsus.map fun l => if l.kernel = 0 then l else l.tapState plan up }) s

end Sys2Proof.Machine
end

