-- ==== Sys2Proof/Machine/Adc.lean ====
section
/-!
DEFINITION. Converter pairs, side tags and settling, the Converter Statistics Unit and the Auxiliary Measurement
Converter (R87-R121).
-/

namespace Sys2Proof.Machine

/-- Change the converters. -/
def modAdc (f : Adc → Adc) (s : State) : State := { s with adc := f s.adc }

/-- A converter pair. -/
def getPair (n : Nat) (s : State) : Pair := nth s.adc.pairs n (Pair.reset n)

/-- Index of the next word that plans take from a pair: in REPLAY that of the feed (R549). -/
def pairNext (n : Nat) (s : State) : Nat := if replaying s then nth s.fr.pos n 0 else (getPair n s).next

/-- Change a converter pair. -/
def modPair (n : Nat) (f : Pair → Pair) (s : State) : State :=
  modAdc (fun a => { a with pairs := modNth a.pairs n f }) s

/-! ### Routes, full-scale steps and settling (R90, R100, R101) -/

/-- A settling interval of `n` words begins at the next word; intervals overlap to their union (R101). -/
def Pair.settle (n : Nat) (p : Pair) : Pair := { p with settleLeft := max p.settleLeft n }

/-- Route and full-scale step take a value: only a difference changes, settles and counts (R90, R100, R103). -/
def Pair.setRoute (route : BitVec 3) (step : BitVec 4) (p : Pair) : Pair :=
  let p1 := if p.route = route then p else { p.settle 256 with route := route }
  let p2 := if p.fsStep = step then p1 else { p1.settle 80 with fsStep := step }
  if p.route = route && p.fsStep = step then p else { p2 with routeGen := p2.routeGen + 1 }

/-- A pair powers up: 4,096 words with VALID = 0, then 256 with SETTLE (R92, R100). -/
def Pair.powerUp (p : Pair) : Pair := { p with running := true, invalidLeft := 4096 }

/-! ### Side tags (R99) -/

/-- Tag bit positions (R99). -/
def tagValid : Nat := 0
@[inherit_doc tagValid] def tagSettle : Nat := 1
@[inherit_doc tagValid] def tagOvr : Nat := 2
@[inherit_doc tagValid] def tagRamp : Nat := 7
@[inherit_doc tagValid] def tagTrig : Nat := 8
@[inherit_doc tagValid] def tagRetune : Nat := 9
@[inherit_doc tagValid] def tagReplay : Nat := 10
@[inherit_doc tagValid] def tagGap : Nat := 11

/-- The side tag as its fields (R99). -/
def packTag (valid settle ovr : Bool) (calepoch : Nat) (ramp trig retune replay gap : Bool) : BitVec 16 :=
  BitVec.ofNat 16 (packBits [(0, 1, b2n valid), (1, 1, b2n settle), (2, 1, b2n ovr), (3, 4, calepoch)
    , (7, 1, b2n ramp), (8, 1, b2n trig), (9, 1, b2n retune), (10, 1, b2n replay), (11, 1, b2n gap)])

/-- A tag bit of a word. -/
def HWord.has (w : HWord) (b : Nat) : Bool := w.tag.getLsbD b

/-- CALEPOCH of a word (R99). -/
def HWord.calepoch (w : HWord) : Nat := bits w.tag.toNat 3 4

/-- A word with one tag bit set. -/
def HWord.setTag (b : Nat) (w : HWord) : HWord := { w with tag := w.tag ||| BitVec.ofNat 16 (2 ^ b) }

/-- A word of VALID = 1 and SETTLE = 0. -/
def HWord.clean (w : HWord) : Bool := w.has tagValid && !w.has tagSettle

/-- A corrected value clamped to Q12.4 (R96). -/
def clampSample (v : Int) : Int := clampInt (-32768) 32767 v

/-- Is sample j overranged: an end-of-range code, or a corrected value that was clamped (R98)? -/
def sampleOvr (eor : BitVec 8) (j : Nat) (v : Int) : Bool := eor.getLsbD j || decide (clampSample v ≠ v)

/-- The overrange flags of the samples of a word, from sample `j` on. -/
def wordOvr (eor : BitVec 8) (j : Nat) : List Int → List Bool
  | [] => []
  | v :: r => sampleOvr eor j v :: wordOvr eor (j + 1) r

/-- The flags of the samples with even (`par` 0) or odd (`par` 1) position. -/
def parity {α : Type} (par : Nat) (l : List α) : List α :=
  (l.zipIdx.filter fun x => decide (x.2 % 2 = par)).map (·.1)

/-- Number of true flags. -/
def countTrue (l : List Bool) : Nat := (l.filter id).length

/-! ### Converter Statistics Unit (R106-R111) -/

/-- Samples of a pair in one window: 2^(W + 1). -/
def Csu.size (c : Csu) : Nat := 2 ^ (c.windowLog2 + 1)

/-- A core's statistics after one included sample (R106). -/
def CoreStat.add (v : Int) (ovr : Bool) (c : CoreStat) : CoreStat :=
  { sum := c.sum + v, sq := c.sq + v.natAbs * v.natAbs, cnt := c.cnt + 1, min := if v < c.min then v else c.min
    max := if c.max < v then v else c.max, ovr := if ovr then satInc c.ovr else c.ovr }

/-- Statistics of the eight cores after a word of pair n: samples alternate between the even and the odd core (R93). -/
def addWord (n : Nat) (vals : List (Int × Bool)) (l : List CoreStat) : List CoreStat :=
  vals.zipIdx.foldl (fun l x => modNth l (2 * n + x.2 % 2) (CoreStat.add x.1.1 x.1.2)) l

/-- The CSU sees a word of pair n: words with VALID = 1 and SETTLE = 0 count in the window that holds their index. -/
def Csu.word (n index : Nat) (clean : Bool) (vals : List (Int × Bool)) (c : Csu) : Csu :=
  if !c.run || !clean || decide (index < c.start) then c
  else if index < c.start + c.size then { c with cur := addWord n vals c.cur }
  else if index < c.start + 2 * c.size then { c with nxt := addWord n vals c.nxt }
  else c

/-- The partial window is discarded; the next begins at the next multiple of 2^(W + 1) (R109). -/
def Csu.discard (index : Nat) (c : Csu) : Csu :=
  { c with start := roundUp index c.size, cur := List.replicate 8 CoreStat.empty, nxt := List.replicate 8 CoreStat.empty }

/-- A window ends (R107): DONE_SEQ counts it and, unless frozen, it is published. -/
def Csu.windowEnd (c : Csu) : Csu :=
  let done := c.doneSeq + 1
  let c1 := if c.freeze then c else { c with snap := c.cur, pubSeq := done, pubIndex := BitVec.ofNat 64 c.start }
  { c1 with doneSeq := done, start := c.start + c.size, cur := c.nxt, nxt := List.replicate 8 CoreStat.empty }

/-- A write of CSU_CFG (R109). -/
def Csu.write (v index : Nat) (c : Csu) : Csu :=
  let w := bits v 0 6
  let c1 := if decide (10 ≤ w) && decide (w ≤ 40) && decide (w ≠ c.windowLog2) then
    Csu.discard index { c with windowLog2 := w } else c
  let run := bit v 6
  let c2 := if run = c1.run then c1 else Csu.discard index { c1 with run := run }
  let c3 := { c2 with freeze := bit v 7 }
  if bit v 8 then c3.discard index else c3

/-- Change the CSU. -/
def modCsu (f : Csu → Csu) (s : State) : State := modAdc (fun a => { a with csu := f a.csu }) s

/-- Index of the next word of any pair, from which the next CSU window is found. -/
def nextIndex (s : State) : Nat := s.adc.pairs.foldl (fun m p => max m p.next) 0

/-! ### Auxiliary Measurement Converter (R113-R121) -/

/-- Change the AMC. -/
def modAmc (f : Amc → Amc) (s : State) : State := modAdc (fun a => { a with amc := f a.amc }) s

/-- N and channel of a slot. -/
def Amc.entry (k : Nat) (a : Amc) : Nat × Nat :=
  let e := nth a.seq k (0, 0)
  (e.1.toNat, e.2.toNat)

/-- The first slot with N ≠ 0 at or after `k`, within LAST_SLOT; `n` bounds the search. -/
def Amc.findSlot (a : Amc) : Nat → Nat → Option Nat
  | 0, _ => none
  | n + 1, k => if a.lastSlot.toNat < k then none else if (a.entry k).2 ≠ 0 then some k else a.findSlot n (k + 1)

/-- Start the table slot at or after `k`, or from slot 0 after a completed pass; idle when no slot has N ≠ 0 (R113). -/
def Amc.startSlot (k : Nat) (a : Amc) : Amc :=
  if !a.run then { a with cur := none }
  else
    match a.findSlot 65 k with
    | some j => { a with slot := BitVec.ofNat 6 j, cur := some (a.entry j) }
    | none =>
      match a.findSlot 65 0 with
      | some j => { a with slot := BitVec.ofNat 6 j, cur := some (a.entry j), passes := a.passes + 1 }
      | none => { a with slot := 0, cur := none }

/-- Deposit an average in a channel's accumulator (R116). -/
def AmcAcc.deposit (v : Int) (a : AmcAcc) : AmcAcc :=
  { sum := if a.count = BitVec.allOnes 32 then a.sum else a.sum + v, count := satInc a.count
    min := if v < a.min then v else a.min, max := if a.max < v then v else a.max }

/-- Average of N conversions, to the nearest integer with ties away from zero (R113). -/
def amcAverage (sum : Int) (n : Nat) : Int :=
  let m := (2 * sum.natAbs + n) / (2 * n)
  if sum < 0 then -(m : Int) else m

/-- Requests served next: Hedge before Skim, each in order of arrival (R115). -/
def amcPick (q : List AmcReq) (skim : Bool) : Option AmcReq :=
  match q.find? (·.hedge) with
  | some r => some r
  | none => if skim then q.head? else none

/-- Serve a waiting urgent request if one may run: a running slot is aborted and counted (R114), except that Skim waits
for a slot aborted 8 times in a row (R115). -/
def Amc.serve (a : Amc) : Amc :=
  if a.urgent.isSome then a
  else
    match amcPick a.queue (decide (a.abortRow < 8) || a.cur.isNone) with
    | none => a
    | some r =>
      let a1 := { a with urgent := some r, queue := a.queue.erase r, urgents := satInc a.urgents }
      if a.cur.isSome then { a1 with aborts := satInc a1.aborts, abortRow := a1.abortRow + 1 } else a1

/-- An urgent request arrives (R114, R115): merged with an equal one waiting, refused to Skim on a full queue, displacing
the newest Skim request for Hedge. -/
def Amc.request (r : AmcReq) (a : Amc) : Amc :=
  if a.queue.any (fun q => decide (q.hedge = r.hedge) && decide (q.channel = r.channel) && decide (q.trim = r.trim)) then a
  else if a.queue.length < 8 then Amc.serve { a with queue := a.queue ++ [r] }
  else if r.hedge then
    match a.queue.reverse.find? (!·.hedge) with
    | none => a
    | some q => Amc.serve { a with queue := (a.queue.reverse.erase q).reverse ++ [r] }
  else a

/-- The running slot finishes averaging conversions of sum `sum` (R113, R114): its average is deposited, then a waiting
urgent request, the aborted slot, or the next slot runs. -/
def Amc.complete (sum : Int) (a : Amc) : Amc :=
  match a.urgent with
  | some r =>
    let v := amcAverage sum 16
    let a1 := if r.channel = 30 && r.trim ≠ a.trimSel.toNat then a
      else { a with acc := modNth a.acc r.channel (AmcAcc.deposit v) }
    let a2 := { a1 with urgent := none, latest := if r.channel = 30 then a1.latest else a1.latest.set r.channel v }
    let a3 := a2.serve
    match a3.urgent, a3.cur with
    | none, none => a3.startSlot a3.slot.toNat
    | _, _ => a3
  | none =>
    match a.cur with
    | none => a
    | some (ch, n) =>
      let v := amcAverage sum n
      let a1 := { a with acc := modNth a.acc ch (AmcAcc.deposit v), latest := a.latest.set ch v, abortRow := 0 }
      let a2 := Amc.startSlot (a1.slot.toNat + 1) { a1 with cur := none }
      -- a request that waits runs before the next slot, which is not an abort
      match amcPick a2.queue true with
      | none => a2
      | some r => { a2 with urgent := some r, queue := a2.queue.erase r, urgents := satInc a2.urgents }

/-- A write of AMC_CFG (R117, R115). -/
def Amc.write (v : Nat) (a : Amc) : Amc :=
  let a1 := { a with lastSlot := BitVec.ofNat 6 (bits v 1 6)
                     trimSel := if bits v 8 5 < 16 then BitVec.ofNat 5 (bits v 8 5) else a.trimSel }
  if bit v 0 then
    if a.run then (if a1.cur.isNone && a1.urgent.isNone then a1.startSlot a1.slot.toNat else a1)
    else Amc.startSlot a1.slot.toNat { a1 with run := true }
  else { a1 with run := false, cur := none }

/-- A write of AMC_CLR: bit k clears accumulator k (R119). -/
def Amc.clear (mask : Nat) (a : Amc) : Amc :=
  { a with acc := a.acc.zipIdx.map fun x => if bit mask x.2 then AmcAcc.empty else x.1 }

/-- A write of AMC_SEQk (R120): N above 4,096 leaves N unchanged; an idle table may start. -/
def Amc.writeSeq (k v : Nat) (a : Amc) : Amc :=
  let a1 := { a with seq := modNth a.seq k fun e =>
    (BitVec.ofNat 5 (bits v 0 5), if bits v 8 13 ≤ 4096 then BitVec.ofNat 13 (bits v 8 13) else e.2) }
  if a1.run && a1.cur.isNone && a1.urgent.isNone then a1.startSlot a1.slot.toNat else a1

end Sys2Proof.Machine
end

