-- ==== Sys2Proof/Machine/Skim.lean ====
section
/-!
DEFINITION. Skim: commits, ramps, fences, blocks, the temperature table and CAL_SNAPSHOT (R122-R149).
-/

namespace Sys2Proof.Machine

/-- Skim of a pair. -/
def getSkim (n : Nat) (s : State) : Skim := nth s.skm.pairs n Skim.reset

/-- Change Skim of a pair. -/
def modSkim (n : Nat) (f : Skim → Skim) (s : State) : State :=
  { s with skm := { s.skm with pairs := modNth s.skm.pairs n f } }

/-! ### Coefficient sets -/

/-- Fields of a set from offset `o`, which stands for record offset 0x60 (R149). -/
def setFields (o : Nat) (c : CoefSet) : List Fld :=
  arrayFields o 4 ((c.take 31).map (wrapInt 32)) ++ arrayFields (o + 124) 2 ((c.drop 31).zipIdx.map fun x =>
    wrapInt (if x.2 = 0 then 12 else 10) x.1)

/-- A set read from a 160-byte block laid out as CAL_SNAPSHOT bytes 0x60-0xFF (R144, R149). -/
def readSet (b : Block) : CoefSet :=
  ((List.range 31).map fun i =>
    if i = 0 || i = 12 || 24 ≤ i then sext 32 (blkFld b (4 * i) 4) else (blkFld b (4 * i) 4 : Int))
  ++ [sext 12 (blkFld b 124 2), sext 10 (blkFld b 126 2), sext 10 (blkFld b 128 2)]

/-- A Q2.30 value in 0.75-1.25. -/
def gainOk (v : Int) : Bool := decide (3 * 2 ^ 28 ≤ v) && decide (v ≤ 5 * 2 ^ 28)

/-- Is coefficient i of a set in R126's range? -/
def coefOk (i : Nat) (v : Int) : Bool :=
  if i = 0 || i = 12 then decide (-(2048 * 2 ^ 20) ≤ v) && decide (v ≤ 2048 * 2 ^ 20)
  else if i < 24 then gainOk v
  else if i = 27 then gainOk v
  else if i < 31 then decide (-(2 ^ 28) ≤ v) && decide (v ≤ 2 ^ 28)
  else true

/-- Every coefficient of a set is in range (R126). -/
def setOk (c : CoefSet) : Bool := c.zipIdx.all fun x => coefOk x.2 x.1

/-- The quantities that need excitation (R123): gains, FIR and skew trim. -/
def needsExcitation (i : Nat) : Bool := i = 1 || i = 13 || (decide (24 ≤ i) && decide (i ≤ 31))

/-- A candidate that keeps the target's values of quantities that need excitation (R125). -/
def keepExcited (target cand : CoefSet) : CoefSet :=
  cand.zipIdx.map fun x => if needsExcitation x.2 then nth target x.2 0 else x.1

/-- The interpolation of R130, which rounds half up. -/
def interp (start target : Int) (k lg : Nat) : Int :=
  start + ((target - start) * k + 2 ^ (lg - 1)) / 2 ^ lg

/-- The set at ramp word k (R130). -/
def rampSet (start target : CoefSet) (k lg : Nat) : CoefSet :=
  (start.zip target).map fun x => interp x.1 x.2 k lg

/-! ### Fences and held sets (R134-R137) -/

/-- The pair's fence end: the latest of all fences placed on it (R134). -/
def Skim.fenceEnd (p : Skim) : Nat := p.fences.foldl (fun m f => max m f.2) 0

/-- Place or replace a fence by its key; software fences do not lower the fence end. -/
def Skim.placeFence (key fin : Nat) (p : Skim) : Skim :=
  { p with fences := (key, if key = 0 then max fin ((p.fences.find? (·.1 = 0)).elim 0 (·.2)) else fin)
                       :: p.fences.filter (·.1 ≠ key) }

/-- The words of 10 ms at the rate in force, rounded up (R135). -/
def w10 (s : State) : Nat := cdiv s.tim.rateNum (s.tim.rateDen * 800)

/-- A ramp commit is decided for the next word: only the latest set counts, and a step commit decided for the word
discards it (R133). -/
def Skim.decideRamp (d : Decided) (p : Skim) : Skim :=
  match p.decided with
  | some e => if e.step then p else { p with decided := some d }
  | none => { p with decided := some d }

/-- A step commit is decided for the next word: it discards a held set and a ramp set of that word (R133, R137). -/
def Skim.decideStep (set : CoefSet) (reason : Nat) (p : Skim) : Skim :=
  { p with decided := some ⟨true, set, reason, false, false, false⟩, held := none }

/-- A set is offered for ramp commit: held while a fence end lies ahead, else decided (R134). -/
def Skim.offer (next : Nat) (set : CoefSet) (reason : Nat) (excited : Bool) (p : Skim) : Skim :=
  if next < p.fenceEnd then { p with held := some ⟨set, reason, (p.held.map (·.since)).getD next, excited⟩ }
  else { p.decideRamp ⟨false, set, reason, false, false, excited⟩ with held := none }

/-- The fence end has passed: a held set is decided for the first word at or after it (R134). -/
def Skim.release (next : Nat) (p : Skim) : Skim :=
  match p.held with
  | none => p
  | some h =>
    if p.fenceEnd ≤ next then
      { p.decideRamp ⟨false, h.set, h.reason, true, false, h.excited⟩ with held := none }
    else p

/-- A set held for W10 words is decided whatever fences stand (R135); answers whether that happened. -/
def Skim.expire (next ten : Nat) (p : Skim) : Skim × Bool :=
  match p.held with
  | none => (p, false)
  | some h =>
    if h.since + 8 * ten ≤ next then
      ({ p.decideRamp ⟨false, h.set, h.reason, true, true, h.excited⟩ with held := none }, true)
    else (p, false)

/-! ### CAL_SNAPSHOT (R148, R149) -/

/-- The sensor of a pair: TS0, TS4, TS8, TS12 (R138), as Skim read it last. -/
def Skim.dieTemp (p : Skim) : Nat := p.temp.toNat

/-- term_trim of the routed input (R149): 0 for CAL and TERM. -/
def routedTerm (n : Nat) (s : State) : Nat :=
  let r := (getPair n s).route.toNat
  if r < 4 then wrapInt 6 (nth s.skm.termTrim r 0) else 0

/-- CAL_SNAPSHOT payload from offset `o`, which stands for record offset 0x40 (R149). -/
def snapFields (o n : Nat) (epoch reason flags index rampWords retargetK : Nat) (set : CoefSet) (s : State) : List Fld :=
  let p := getSkim n s
  [⟨o, 4, epoch⟩, ⟨o + 4, 1, n⟩, ⟨o + 5, 1, reason⟩, ⟨o + 6, 2, flags⟩, ⟨o + 8, 8, index⟩, ⟨o + 0x10, 4, rampWords⟩
   , ⟨o + 0x14, 4, retargetK⟩, ⟨o + 0x18, 2, p.dieTemp⟩, ⟨o + 0x1A, 2, p.excitation.toNat⟩
   , ⟨o + 0x1C, 1, (getPair n s).route.toNat⟩, ⟨o + 0x1D, 1, (getPair n s).fsStep.toNat⟩, ⟨o + 0x1E, 1, p.mode.toNat⟩
   , ⟨o + 0x1F, 1, routedTerm n s⟩] ++ setFields (o + 0x20) set

/-- Plans that run and hold a pair. -/
def holders (n : Nat) (s : State) : List Plan :=
  s.plans.filter fun p => decide (p.phase = .running) && bit (blkFld p.head 0x14 1) n

/-- The pair is held by a plan that has reserved it (HELD of R103). -/
def pairHeld (n : Nat) (s : State) : Bool := s.plans.any fun p => p.reserved && bit (blkFld p.head 0x14 1) n

/-- Contexts of the running plans that hold a pair, with context 0, without repeats. -/
def pairContexts (n : Nat) (s : State) : List Nat := (0 :: (holders n s).map (·.ctx)).eraseDups

/-- Send an event about a pair to context 0 and to every context whose running plan holds it (R135, R138). -/
def sendPair (n code detail : Nat) (s : State) : State :=
  (pairContexts n s).foldl (fun s c => sendEvent c code n detail 0 0 s) s

/-- Rings that asked for a pair's CAL_SNAPSHOT records: cal_ring of the running plans that hold it (R412). -/
def calRings (n : Nat) (s : State) : List (Nat × Nat) :=
  (((holders n s).map fun p => (p.ctx, blkFld p.head 0x16 1)).filter fun r => decide (r.2 ≠ 0)).eraseDups

/-- Disk streams whose exports take a pair's words (R424). -/
def diskStreamsOf (n : Nat) (s : State) : List Nat :=
  ((s.disk.exports.filter fun e => e.disk && bit e.sourceMask n).map (·.streamId)).eraseDups

/-- A CAL_SNAPSHOT goes to the journal, the rings that asked and the disk streams of the pair (R149, R424). -/
def emitSnapshot (n index : Nat) (fields : List Fld) (s : State) : State :=
  let r : NewRec := ⟨0x0020, 256, fields.map (fun f => { f with off := f.off + 0x40 }), timeOf index s, timeOf (index + 8) s⟩
  let s1 := journal 3 (fields.map fun f => { f with off := f.off + 0x10 }) 192 s
  let s2 := (calRings n s).foldl (fun s q => (recordOn q.1 q.2 r s).1) s1
  (diskStreamsOf n s).foldl (fun s i => (formRealtime i r s).1) s2

/-! ### The temperature table (R139) -/

/-- Bin of a sensor value in 1/64 °C: 4 °C wide from -40 °C. -/
def tempBin (t : Int) : Nat := (clampInt 0 39 ((t + 40 * 64) / 256)).toNat

/-- Centre of a bin in 1/64 °C. -/
def binCentre (b : Nat) : Int := -40 * 64 + 256 * b + 128

/-- A bin's stored values: learned, or the fuse seed, or nominal where Primer has loaded none. -/
def Skim.binAt (step b : Nat) (p : Skim) : TempBin :=
  match (p.learned ++ p.seeds).find? (fun x => decide (x.step = step) && decide (x.bin = b)) with
  | some x => x
  | none => ⟨step, b, 2 ^ 30, 0, [0, 0, 0, 2 ^ 30, 0, 0, 0]⟩

/-- An eighth of the way from a stored value to a committed one, to the nearest integer. -/
def eighth (a b : Int) : Int := a + roundDivEven (b - a) 8

/-- Odd-to-even gain ratio of a set in Q2.30. -/
def gainRatio (c : CoefSet) : Int := roundDivEven (nth c 13 0 * 2 ^ 30) (nth c 1 1).toNat

/-- An AUTO commit built with excited blocks updates the bin of the current temperature (R139). -/
def Skim.learn (step : Nat) (set : CoefSet) (p : Skim) : Skim :=
  let b := tempBin p.temp.toInt
  let o := p.binAt step b
  let x : TempBin := ⟨step, b, eighth o.ratio (gainRatio set), eighth o.skew (nth set 31 0)
    , (o.fir.zip ((set.drop 24).take 7)).map fun y => eighth y.1 y.2⟩
  { p with learned := x :: p.learned.filter fun y => !(decide (y.step = step) && decide (y.bin = b)) }

/-- Linear interpolation at temperature t through two bins' values, to the nearest integer. -/
def lineAt (t c0 c1 v0 v1 : Int) : Int :=
  if c0 = c1 then v0 else v0 + roundDivEven ((v1 - v0) * (t - c0)) (c1 - c0).toNat

/-- The two learned bins of a step that a lookup at `t` uses, lower centre first (R139): those on either side, or the
two outermost on the side of `t`. -/
def Skim.lookupBins (step : Nat) (t : Int) (p : Skim) : Option (TempBin × TempBin) :=
  let l := (List.range 40).filterMap fun b => p.learned.find? fun x => decide (x.step = step) && decide (x.bin = b)
  let below := l.filter fun x => decide (binCentre x.bin ≤ t)
  let above := l.filter fun x => decide (t < binCentre x.bin)
  if l.length < 2 then none
  else
    match below.getLast?, above.head? with
    | some a, some b => some (a, b)
    | some a, none => (below.dropLast.getLast?).map (·, a)
    | none, some b => ((above.drop 1).head?).map (b, ·)
    | none, none => none

/-- The table's values at a temperature: ratio, skew trim and FIR (R139). -/
def Skim.lookup (step : Nat) (t : Int) (p : Skim) : Int × Int × List Int :=
  match p.lookupBins step t with
  | none => let x := p.binAt step (tempBin t); (x.ratio, x.skew, x.fir)
  | some (a, b) =>
    let f := lineAt t (binCentre a.bin) (binCentre b.bin)
    (f a.ratio b.ratio, f a.skew b.skew, (a.fir.zip b.fir).map fun x => f x.1 x.2)

/-- The fallback set (R138): quantities that need excitation from the table, the others as last estimated. -/
def Skim.fallbackSet (step : Nat) (p : Skim) : CoefSet :=
  let v := p.lookup step p.temp.toInt
  let base := if p.est.isEmpty then p.target else keepExcited p.target p.est
  let even := nth base 1 0
  let odd := roundDivEven (even * v.1) (2 ^ 30)
  ((base.set 13 odd).set 31 v.2.1).take 24 ++ v.2.2 ++ ((base.set 31 v.2.1).drop 31)

/-! ### Commits (R129-R133, R141) -/

/-- A coefficient set put in force by a commit on the word of index `index` (R129, R130). -/
def Skim.commit (d : Decided) (p : Skim) : Skim :=
  let base := { p with epoch := p.epoch + 1, decided := none, target := d.set, start := p.cur
                       tempAtCommit := p.temp }
  if d.step then { base with cur := d.set, ramp := false, k := 0 }
  else { base with ramp := true, k := 0, rampLg := p.lg
                   retargets := if p.ramp then satInc p.retargets else p.retargets
                   fallback := if d.reason = 1 then false else p.fallback }

/-- The commit decided for the word of index `index`, with its CAL_SNAPSHOT (R129, R149). -/
def skimCommit (n index : Nat) (s : State) : State :=
  let p := getSkim n s
  match p.decided with
  | none => s
  | some d =>
    let step := (getPair n s).fsStep.toNat
    let retarget := p.ramp && !d.step
    let flags := packBits [(0, 1, b2n retarget), (1, 1, b2n d.held), (2, 1, b2n d.expired), (3, 1, b2n d.step)
      , (4, 1, b2n p.lacking)]
    let p1 := p.commit d
    let p2 := { p1 with stepSets := p1.stepSets.set step (some d.set) }
    let p3 := if d.reason = 1 && d.excited then p2.learn step d.set else p2
    let s1 := modSkim n (fun _ => p3) s
    let fields := snapFields 0 n p3.epoch.toNat d.reason flags index (if d.step then 0 else 2 ^ p.lg)
      (if retarget then p.k else 0) d.set s1
    emitSnapshot n index fields (modSkim n (fun x => { x with snap := fields }) s1)

/-- on_word of R130: the ramp advances on the word; answers the word's RAMP tag. -/
def Skim.onWord (p : Skim) : Skim × Bool :=
  if p.ramp then
    let k := p.k + 1
    ({ p with k := k, cur := rampSet p.start p.target k p.rampLg, ramp := decide (k ≠ 2 ^ p.rampLg) }, true)
  else (p, false)

/-- A change of full-scale step is a step commit: the set last committed at the step, or the FOREGROUND-derived one
(R141). A block partly formed when the step or the route changes is discarded (R124). -/
def Skim.stepChange (step : Nat) (p : Skim) : Skim :=
  p.decideStep ((nth p.stepSets step none).getD (nth p.fgSets step CoefSet.nominal)) 5

/-- The block partly formed is discarded (R124). -/
def Skim.dropBlock (p : Skim) : Skim := { p with blkBad := true }

/-- A pair takes a route and a step (R90): settling, ROUTE_GEN, the FS_CHANGE commit, the discarded block. -/
def routePair (n : Nat) (route : BitVec 3) (step : BitVec 4) (s : State) : State :=
  let p := getPair n s
  let s1 := modPair n (Pair.setRoute route step) s
  let s2 := if p.fsStep = step then s1 else modSkim n (Skim.stepChange step.toNat) s1
  if p.route = route && p.fsStep = step then s2 else modSkim n Skim.dropBlock s2

/-! ### Blocks and solves (R124, R125, R138) -/

/-- A word enters the block under way. -/
def Skim.blockWord (clean ovr : Bool) (sq : Nat) (p : Skim) : Skim :=
  { p with blkBad := p.blkBad || !clean, blkWords := p.blkWords + 1, blkOvr := p.blkOvr + b2n ovr, blkSq := p.blkSq + sq }

/-- rms of the block is at least -40 dBFS (R124): a full-scale sine has mean square 2048^2 / 2 LSB^2. -/
def blockExcited (words sq : Nat) : Bool := decide (words * 8 * (2048 * 2048 * 256) ≤ sq * 20000) && decide (0 < words)

/-- A block ends (R124, R125, R138): acceptance, the run of unexcited blocks, the fallback commit and the stale solve.
Answers the events: excitation lacking, excitation restored. -/
def Skim.blockEnd (step next : Nat) (temp : BitVec 16) (rmsDb : BitVec 16) (p0 : Skim) : Skim × Bool × Bool :=
  let ok := !p0.blkBad && decide (p0.blkWords = 2 ^ 21) && decide (p0.blkOvr ≤ 2048) && decide (p0.mode ≠ 4)
  let exc := ok && blockExcited p0.blkWords p0.blkSq
  let p1 := { p0 with blkBad := false, blkWords := 0, blkOvr := 0, blkSq := 0, temp := temp
                      excitation := if ok then rmsDb else p0.excitation }
  let p2 := match p1.solve with
    | none => p1
    | some (age, e) =>
      if age + 1 < 8 then { p1 with solve := some (age + 1, e) } else { p1 with solve := none, stale := satInc p1.stale }
  let p3 := if !ok then p2
    else if p2.accepted + 1 < 16 then { p2 with accepted := p2.accepted + 1, excited := p2.excited + b2n exc }
    else { p2 with accepted := 0, excited := 0, solve := some (0, decide (4 ≤ p2.excited + b2n exc)) }
  let p4 := if !ok then p3
    else if exc then { p3 with dullRun := 0, excitedRun := p3.excitedRun + 1 }
    else { p3 with dullRun := p3.dullRun + 1, excitedRun := 0 }
  let enters := !p4.lacking && decide (64 ≤ p4.dullRun)
  let leaves := p4.lacking && decide (4 ≤ p4.excitedRun)
  let p5 := if enters then { p4 with lacking := true, fallback := true } else if leaves then { p4 with lacking := false } else p4
  let moved := decide (32 ≤ (p5.temp.toInt - p5.tempAtCommit.toInt).natAbs)
  let p6 := if p5.lacking && moved && p5.mode = 1 then p5.offer next (p5.fallbackSet step) 2 false else p5
  (p6, enters, leaves)

/-- The MP finishes a solve (R125, R143): the candidate shows in ESTIMATE, and in AUTO it is offered when `offered` says
that the residual exceeds -110 dBFS. -/
def Skim.solved (next : Nat) (cand : CoefSet) (offered : Bool) (p : Skim) : Skim :=
  match p.solve with
  | none => p
  | some (_, exc) =>
    let c := if exc then cand else keepExcited p.target cand
    let p1 := { p with solve := none, est := c }
    if offered && p.mode = 1 then p1.offer next c 1 exc else p1

/-! ### Views (R146-R148) -/

/-- The three views of a pair as they stand, each from offset 0 (R148). -/
def skimViews (n : Nat) (s : State) : List (List Fld) :=
  let p := getSkim n s
  let last := match (getPair n s).last with | none => 0 | some w => w.index
  [if p.snap.isEmpty then snapFields 0 n p.epoch.toNat 0 0 0 0 0 p.target s else p.snap
   , snapFields 0 n p.epoch.toNat 0 0 last 0 0 p.cur s
   , if p.est.isEmpty then [] else snapFields 0 n 0 1 0 0 0 0 p.est s]

/-- The views that registers show: frozen copies while FREEZE holds them (R147). -/
def shownViews (n : Nat) (s : State) : List (List Fld) := ((getSkim n s).frozen).getD (skimViews n s)

/-- A write of SKM_VIEW_CTL (R147). -/
def writeViewCtl (v : Nat) (s : State) : State :=
  (List.range 4).foldl (fun s n =>
    modSkim n (fun p => { p with frozen := if bit v n then some (p.frozen.getD (skimViews n s)) else none }) s) s

end Sys2Proof.Machine
end

