-- ==== Sys2Proof/Machine/Zoom.lean ====
section
/-!
DEFINITION. Zoom channels: positions, windows, fill, tags, NCOs and retunes (R150-R173). The values of the output
samples come from `Config.zoomSample`, because the half-band and resampler coefficients are in a ROM that the spec
does not list.
-/

namespace Sys2Proof.Machine

/-- A front unit. -/
def getFront (u : Nat) (s : State) : Front := nth s.zdc.fronts u Front.reset

/-- A slot. -/
def getSlot (n : Nat) (s : State) : Slot := nth s.zdc.slots n Slot.reset

/-- Change a front unit. -/
def modFront (u : Nat) (f : Front → Front) (s : State) : State :=
  { s with zdc := { s.zdc with fronts := modNth s.zdc.fronts u f } }

/-- Change a slot. -/
def modSlot (n : Nat) (f : Slot → Slot) (s : State) : State :=
  { s with zdc := { s.zdc with slots := modNth s.zdc.slots n f } }

/-! ### Designs, positions and windows (R153, R164-R167) -/

/-- Taps of a half-band design code (R153). -/
def designTaps (code : Nat) : Nat := match code % 4 with | 0 => 11 | 1 => 23 | 2 => 47 | _ => 95

/-- Design codes of stages 1 to S of a slot's chain. -/
def chainDesigns (f : Front) (sl : Slot) : List Nat := f.design.take f.dec ++ sl.backDesign.take sl.backDec

/-- Sum of a stage quantity over 2^(s - 1), stage by stage from stage s + 1. -/
def stageSum (q : Nat → Nat) (s : Nat) : List Nat → Nat
  | [] => 0
  | d :: r => q d * 2 ^ s + stageSum q (s + 1) r

/-- Group delay G of a chain (R153): g = (T - 1) / 2 per stage. -/
def chainDelay (ds : List Nat) : Nat := stageSum (fun d => (designTaps d - 1) / 2) 0 ds

/-- Response span E of a chain (R153). -/
def chainSpan (ds : List Nat) : Nat := stageSum (fun d => designTaps d - 1) 0 ds

/-- step = round(2^80 / ratio) in 2^-40, 2^40 when bypassed (R164, R172). -/
def zoomStep (ratio : Nat) : Nat := if ratio = 0 then 2 ^ 40 else (2 ^ 81 + ratio) / (2 * ratio)

/-- u of output m in units of 2^-40 half-band outputs (R164). -/
def zoomU (ratio m : Nat) : Int :=
  if ratio = 0 then ((m * 2 ^ 40 : Nat) : Int) else ((m * zoomStep ratio : Nat) : Int) - 8 * 2 ^ 40

/-- Position of an output sample (R165): one rounding to 2^-16, ties up. -/
def zoomPos (i0 : Nat) (u : Int) (S G : Nat) : Nat × Nat :=
  let p : Int := (u * 2 ^ S + ((2 ^ S : Nat) - 1 - (G : Int)) * 2 ^ 40 + (i0 : Int) * 2 ^ 40 + 2 ^ 23) / 2 ^ 24
  (((p / 65536) % (2 ^ 64 : Int)).toNat, (p % 65536).toNat)

/-- Window of an output sample (R166): first and last chain-input index; the first may lie before i0. -/
def zoomWindow (i0 ratio m S E : Nat) : Int × Int :=
  let top := fun (j : Int) => (i0 : Int) + 2 ^ S * j + 2 ^ S - 1
  if ratio = 0 then (top m - E, top m)
  else
    let j := zoomU ratio m / 2 ^ 40
    (top (j - 7) - E, top (j + 8))

/-- Is output m a fill sample: its window begins before i0 (R167)? -/
def zoomFill (ratio m S E : Nat) : Bool :=
  let v := cdiv (E + 1) (2 ^ S) - 1
  if ratio = 0 then decide (m < v) else decide (m * zoomStep ratio / 2 ^ 40 < v + 15)

/-! ### NCOs (R156-R159) -/

/-- Phase of an NCO at sample number i of its own rate. -/
def Nco.phaseAt (i : Nat) (n : Nco) : Nat := (n.phase + n.ftw * (i - n.base)) % 2 ^ 48

/-- An NCO as a chain start leaves it (R157): sample number `i`, hop entry 0 in force until its dwell ends (R159). -/
def Nco.start (i i0 : Nat) (n : Nco) : Nco :=
  let ftw := match n.hop with | [] => n.ftw | e :: _ => e.1
  { n with ftw := ftw, ftw0 := ftw, phase := ftw * i % 2 ^ 48, base := i, hopIdx := 0, retunes := []
           hopNext := match n.hop with | [] => none | e :: _ => some (i0 + 8 * e.2) }

/-- A retune at front-input index r, which is sample number `i` of the NCO's rate: phase-continuous (R158). An equal
FTW changes nothing (R159). -/
def Nco.retune (r i ftw : Nat) (n : Nco) : Nco :=
  if ftw = n.ftw then n
  else { n with phase := n.phaseAt i, base := i, ftw := ftw, retunes := (r, ftw) :: n.retunes, count := satInc n.count }

/-- The hop entry that follows the one in force, if the table goes on (R159). -/
def Nco.nextHop (n : Nco) : Option Nat :=
  if n.hopIdx + 1 < n.hop.length then some (n.hopIdx + 1) else if n.hopRepeat && !n.hop.isEmpty then some 0 else none

/-- A dwell ends at index r: the next entry retunes the NCO; an SPU request at the same index is applied instead and
the entry counts as taken (R159). `i` is the NCO's sample number at r. -/
def Nco.hopAt (r i : Nat) (n : Nco) : Nco :=
  match n.nextHop with
  | none => { n with hopNext := none }
  | some e =>
    let entry := nth n.hop e (0, 0)
    let n1 := { n with hopIdx := e, hopNext := some (r + 8 * entry.2) }
    match n.request with
    | some (ftw, q) => if q = r then { n1.retune r i ftw with request := none } else n1.retune r i entry.1
    | none => n1.retune r i entry.1

/-- A pending SPU request applies at its index (R158). -/
def Nco.applyRequest (i : Nat) (n : Nco) : Nco :=
  match n.request with
  | none => n
  | some (ftw, r) => { n.retune r i ftw with request := none }

/-- An SPU request is posted: r goes to the next multiple of 8; one already passed applies at the next front-input word
and counts in LATE; a second one replaces the first (R159). -/
def Nco.post (next ftw r : Nat) (n : Nco) : Nco :=
  let r8 := roundUp r 8
  if r8 < next then { n with request := some (ftw, next), late := satInc n.late } else { n with request := some (ftw, r8) }

/-- Sample number of a front unit's sub-channel rate whose position is first at or after index r (R157, R158). -/
def subSample (f : Front) (r : Nat) : Nat :=
  f.i0 / 2 ^ f.dec + cdiv (r + chainDelay (f.design.take f.dec) + 1 - f.i0 - 2 ^ f.dec) (2 ^ f.dec)

/-! ### Chains (R168) -/

/-- Slots fed by a front unit that a plan holds. -/
def slotsOf (u : Nat) (s : State) : List Nat :=
  (List.range 32).filter fun n => decide ((getSlot n s).plan.isSome) && decide ((getSlot n s).front = u)

/-- The chain of a front unit starts empty at index i0 (R157, R167, R168). -/
def startChain (u i0 : Nat) (gap : Bool) (s : State) : State :=
  let s1 := modFront u (fun f => { f with i0 := i0, hist := [], nco := f.nco.start i0 i0 }) s
  let f := getFront u s1
  (slotsOf u s1).foldl (fun s n =>
    modSlot n (fun sl => { sl with m := 0, gap := gap, nco := sl.nco.start (i0 / 2 ^ f.dec) i0, trigs := [] }) s) s1

/-- First chain-input index that the next output of a slot still needs. -/
def slotNeeds (f : Front) (sl : Slot) : Int :=
  (zoomWindow f.i0 sl.ratio sl.m (f.dec + sl.backDec) (chainSpan (chainDesigns f sl))).1

/-- A front unit takes an input word; a word carrying GAP flushes the chain and restarts it there (R168). -/
def frontWord (u : Nat) (w : HWord) (s : State) : State :=
  let s0 := if w.has tagGap then startChain u w.index true s else s
  let f := getFront u s0
  let lo := ((slotsOf u s0).map fun n => slotNeeds f (getSlot n s0)).foldl (fun m x => if x < m then x else m) (w.index : Int)
  modFront u (fun f => { f with hist := w :: f.hist.takeWhile fun x => decide (lo < (x.index : Int) + 8) }) s0

/-- Front units that take a pair's words. -/
def frontsOfPair (n : Nat) (s : State) : List Nat :=
  (List.range 8).filter fun u => decide ((getFront u s).plan.isSome) && decide ((getFront u s).pair = n)

/-- The thermal ladder has stopped a slot (R538): slots 16-31 at step 5, slots 8-31 at step 6. -/
def slotStopped (n : Nat) (s : State) : Bool :=
  (decide (s.pwr.step = 5) && decide (16 ≤ n)) || (decide (s.pwr.step = 6) && decide (8 ≤ n))

/-- A dwell that has ended by the chain-input index `next` retunes the NCO, unless a request with an earlier index is due first; `num`
gives the NCO's sample number at an index (R159). -/
def Nco.hopDue (next : Nat) (num : Nat → Nat) (n : Nco) : Nco :=
  match n.hopNext with
  | none => n
  | some r => if next < r || n.request.any (fun q => decide (q.2 < r)) then n else n.hopAt r (num r)

/-- A request whose index has come by `next` applies, unless a dwell ends first; at the end of a dwell it takes the entry's place
(R158, R159). -/
def Nco.requestDue (next : Nat) (num : Nat → Nat) (n : Nco) : Nco :=
  match n.request with
  | none => n
  | some (_, r) =>
    if next < r then n
    else
      match n.hopNext with
      | none => n.applyRequest (num r)
      | some h => if h < r then n else if h = r then n.hopAt r (num r) else n.applyRequest (num r)

/-- A hop or a request of an NCO at or before an index has still to be applied. -/
def Nco.behind (i : Int) (n : Nco) : Bool :=
  n.hopNext.any (fun r => decide ((r : Int) ≤ i)) || n.request.any fun q => decide ((q.2 : Int) ≤ i)

/-- Change the NCO of a front unit (`sub` false) or of a slot, given the next chain-input index and the sample numbers of its rate. -/
def modNco (sub : Bool) (u : Nat) (f : Nat → (Nat → Nat) → Nco → Nco) (s : State) : State :=
  if sub then
    let fr := getFront (getSlot u s).front s
    modSlot u (fun sl => if sl.plan.isSome then { sl with nco := f (pairNext fr.pair s) (subSample fr) sl.nco } else sl) s
  else
    modFront u (fun fr => if fr.plan.isSome then { fr with nco := f (pairNext fr.pair s) id fr.nco } else fr) s

/-! ### Output words (R162, R163) -/

/-- One component of an output sample: Q12.4, and whether it saturated (R162). -/
def zoomComponent (v : BitVec 17) : Int × Bool :=
  if v.getLsbD 16 then (if v.getLsbD 15 then -32768 else 32767, true) else (sext 16 v.toNat, false)

/-- Words of a history that touch the index range lo..hi. -/
def windowWords (l : List HWord) (lo hi : Int) : List HWord :=
  l.filter fun w => decide (lo ≤ (w.index : Int) + 7) && decide ((w.index : Int) ≤ hi)

/-- A retune of an NCO falls inside a window: indices both before r and at or after r (R158). -/
def windowRetunes (n : Nco) (lo hi : Int) : Bool :=
  n.retunes.any fun r => decide (lo < (r.1 : Int)) && decide ((r.1 : Int) ≤ hi)

/-- The next output word of a slot (R162, R163), or none while an input word that it needs has not been formed. -/
def zoomWord (n : Nat) (s : State) : Option (HWord × Bool) :=
  let sl := getSlot n s
  let f := getFront sl.front s
  let ds := chainDesigns f sl
  let S := f.dec + sl.backDec
  let E := chainSpan ds
  let G := chainDelay ds
  let wins := (List.range 4).map fun j => zoomWindow f.i0 sl.ratio (sl.m + j) S E
  let lo := wins.foldl (fun m x => if x.1 < m then x.1 else m) (nth wins 0 (0, 0)).1
  let hi := wins.foldl (fun m x => if m < x.2 then x.2 else m) (nth wins 0 (0, 0)).2
  match f.hist.head? with
  | none => none
  | some newest =>
    if (newest.index : Int) + 7 < hi || f.nco.behind hi || sl.nco.behind hi || slotStopped n s then none
    else
      let ws := windowWords f.hist lo hi
      let pos := zoomPos f.i0 (zoomU sl.ratio sl.m) S G
      let valid := ws.all (·.has tagValid)
      let design := [f.i0, S, sl.ratio, sl.gain, b2n sl.invert, f.nco.ftw, sl.nco.ftw] ++ ds
        ++ (f.nco.retunes.map fun r => r.1 + 2 ^ 64 * r.2) ++ (sl.nco.retunes.map fun r => r.1 + 2 ^ 64 * r.2)
      let input := (ws.reverse.map (·.vals)).flatten
      let comps := (List.range 8).map fun c => zoomComponent (Config.zoomSample design (sl.m + c / 2) (c % 2) input)
      let sat := valid && comps.any (·.2)
      let at0 := ws.find? fun w => decide (w.index ≤ pos.1) && decide (pos.1 < w.index + 8)
      let fill := (List.range 4).any fun j => zoomFill sl.ratio (sl.m + j) S E
      let retune := wins.any fun x => windowRetunes f.nco x.1 x.2 || windowRetunes sl.nco x.1 x.2
      let nextPos := zoomPos f.i0 (zoomU sl.ratio (sl.m + 4)) S G
      let here := sl.trigs.filter fun t => decide (t.1 * 65536 + t.2 < nextPos.1 * 65536 + nextPos.2)
      let tag := packTag valid (fill || ws.any (·.has tagSettle)) (sat || ws.any (·.has tagOvr))
        ((at0.map (·.calepoch)).getD ((ws.getLast?.map (·.calepoch)).getD 0)) (ws.any (·.has tagRamp)) (!here.isEmpty)
        retune (ws.any (·.has tagReplay)) sl.gap
      some (⟨pos.1, pos.2, tag, if valid then comps.map (·.1) else List.replicate 8 0⟩, sat)

/-- A slot delivers its next word and moves past it, with the TRIG placements that fell in it. -/
def slotAdvance (n : Nat) (w : HWord) (sat : Bool) (s : State) : State :=
  let f := getFront (getSlot n s).front s
  modSlot n (fun sl =>
    let ds := chainDesigns f sl
    let np := zoomPos f.i0 (zoomU sl.ratio (sl.m + 4)) (f.dec + sl.backDec) (chainDelay ds)
    { sl with m := sl.m + 4, gap := false, last := some w, sat := if sat then satInc sl.sat else sl.sat
              trigs := sl.trigs.filter fun t => decide (np.1 * 65536 + np.2 ≤ t.1 * 65536 + t.2) }) s

end Sys2Proof.Machine
end

