-- ==== Sys2Proof/Machine/PlanInfo.lean ====
section
/-!
DEFINITION. Reading plans: the header and sub-blocks of a plan object (R412-R414), rates, and the sources that other
blocks name.
-/

namespace Sys2Proof.Machine

/-- A plan by its id. -/
def getPlan (i : Nat) (s : State) : Option Plan := s.plans.find? (·.id = i)

/-- Change a plan. -/
def modPlan (i : Nat) (f : Plan → Plan) (s : State) : State := { s with plans := mapIf (·.id = i) f s.plans }

/-- A field of a plan's header (R412). -/
def Plan.h (p : Plan) (off len : Nat) : Nat := blkFld p.head off len

/-- A field of a sub-block (R414). -/
def SubBlk.f (b : SubBlk) (off len : Nat) : Nat := blkFld b.blk off len

/-- A sub-block with no bytes, whose fields read 0. -/
def SubBlk.none : SubBlk := ⟨0, 0, 0, []⟩

/-- The sub-blocks of a kind (R413). -/
def Plan.kindSubs (p : Plan) (kind : Nat) : List SubBlk := p.subs.filter fun b => decide (b.kind = kind)

/-- A sub-block by kind and sub_index. -/
def Plan.sub? (p : Plan) (kind idx : Nat) : Option SubBlk := (p.kindSubs kind).find? fun b => decide (b.idx = idx)

/-- A sub-block by kind and sub_index, its fields 0 when there is none. -/
def Plan.sub (p : Plan) (kind idx : Nat) : SubBlk := (p.sub? kind idx).getD SubBlk.none

/-- A sub-block of a plan of the state. -/
def planSub (plan kind idx : Nat) (s : State) : SubBlk := ((getPlan plan s).map (·.sub kind idx)).getD SubBlk.none

/-- The context that owns a plan. -/
def planCtx (plan : Nat) (s : State) : Nat := ((getPlan plan s).map (·.ctx)).getD 0

/-- The plan runs. -/
def planRuns (plan : Nat) (s : State) : Bool := ((getPlan plan s).map fun p => decide (p.phase = .running)).getD false

/-- Fs of a plan as a fraction (R412). -/
def Plan.fs (p : Plan) : Nat × Nat := (p.h 0x08 8, p.h 0x10 4)

/-- A pair of the mask is held (R412). -/
def Plan.holdsPair (p : Plan) (n : Nat) : Bool := bit (p.h 0x14 1) n

/-! ### Zoom channels of a plan (R169, R414) -/

/-- Two ZOOM blocks are channels of one front unit: equal pair, front_ftw, front_dec_log2 and front_design. -/
def sameFront (a b : SubBlk) : Bool :=
  decide (a.f 0x20 1 = b.f 0x20 1) && decide (a.f 0x08 8 = b.f 0x08 8) && decide (a.f 0x21 1 = b.f 0x21 1)
    && decide (a.f 0x26 6 = b.f 0x26 6)

/-- The first channels of the front units of a plan, in order of sub_index. -/
def Plan.frontFirsts (p : Plan) : List SubBlk :=
  let zs := (p.kindSubs 1).mergeSort fun a b => decide (a.idx ≤ b.idx)
  zs.filter fun z => !(zs.any fun y => decide (y.idx < z.idx) && sameFront y z)

/-- The slot that carries a plan's zoom channel. -/
def slotOf (plan channel : Nat) (s : State) : Option Nat :=
  (List.range 32).find? fun n => decide ((getSlot n s).plan = some plan) && decide ((getSlot n s).channel = channel)

/-- Output rate of a zoom block as a fraction of Fs: 2^40 / (2^S * step) (R164). -/
def zoomRate (z : SubBlk) : Nat × Nat := (2 ^ 40, 2 ^ (z.f 0x21 1 + z.f 0x22 1) * zoomStep (z.f 0x18 8))

/-- Input rate of a transform block as a fraction: Fs on XE0-XE3, the channel's output rate on XEZ (R175). -/
def Plan.streamRate (p : Plan) (x : SubBlk) : Nat × Nat :=
  if x.f 0x08 1 = 4 then
    let r := zoomRate (p.sub 1 (x.f 0x09 1))
    (p.fs.1 * r.1, p.fs.2 * r.2)
  else p.fs

/-- Hop of a size and overlap code (R176). -/
def hopOf (lg overlap : Nat) : Nat := 2 ^ (lg - overlap)

/-- Bins of a transform of a size (R179). -/
def binsOf (engine lg : Nat) : Nat := if engine = 4 then 2 ^ lg else 2 ^ (lg - 1)

/-- Position (index, fraction) of output sample m of a slot (R165). -/
def slotPos (n m : Nat) (s : State) : Nat × Nat :=
  let sl := getSlot n s
  let f := getFront sl.front s
  zoomPos f.i0 (zoomU sl.ratio m) (f.dec + sl.backDec) (chainDelay (chainDesigns f sl))

end Sys2Proof.Machine
end

