-- ==== Sys2Proof/Machine/Xfm.lean ====
section
/-!
DEFINITION. Forming a spectrum from a transform stream's words (R176-R190, R194), its records and tap items (R199), and
the trace reducers (R191-R193, R200).
-/

namespace Sys2Proof.Machine

/-! ### Streams -/

/-- The TRANSFORM block of a stream (R414). -/
def XStream.sub (x : XStream) (s : State) : SubBlk := planSub x.plan 3 x.idx s

/-- N of a configuration. -/
def XCfg.size (c : XCfg) : Nat := 2 ^ c.lg

/-- H of a configuration (R176). -/
def XCfg.hop (c : XCfg) : Nat := hopOf c.lg c.overlap

/-- Samples before a frame's start that its spectrum uses (R183). -/
def XCfg.history (c : XCfg) : Nat := (c.taps - 1) * c.size

/-- Samples that a word of the stream holds: 8, or 4 complex ones on XEZ. -/
def XStream.width (x : XStream) : Nat := if x.engine = 4 then 4 else 8

/-- Bins of a stream's spectra (R179). -/
def XStream.bins (x : XStream) : Nat := binsOf x.engine x.cfg.lg

/-- Is this the stream of a plan with a stream index? -/
def XStream.is (plan idx : Nat) (x : XStream) : Bool := decide (x.plan = plan) && decide (x.idx = idx)

/-- A running stream of a plan. -/
def getX (plan idx : Nat) (s : State) : Option XStream := s.dsp.streams.find? (XStream.is plan idx)

/-- Change the transform engines. -/
def modDsp (f : Dsp → Dsp) (s : State) : State := { s with dsp := f s.dsp }

/-- Change a stream. -/
def modX (plan idx : Nat) (f : XStream → XStream) (s : State) : State :=
  modDsp (fun d => { d with streams := mapIf (XStream.is plan idx) f d.streams }) s

/-- Change an engine's counters. -/
def modEng (e : Nat) (f : XEng → XEng) (s : State) : State := modDsp (fun d => { d with engines := modNth d.engines e f }) s

/-- Sample number i of a stream as its engine sees it: 0 before `since` (R184) and in words with VALID = 0 (R194). -/
def XStream.sample (x : XStream) (i : Int) : Cplx :=
  if i < (x.since : Int) then (0, 0)
  else
    match x.hist.find? (fun w => decide ((w.1 : Int) ≤ i) && decide (i < ((w.1 + x.width : Nat) : Int))) with
    | none => (0, 0)
    | some w =>
      let k := (i - w.1).toNat
      if !w.2.has tagValid then (0, 0)
      else if x.engine = 4 then (nth w.2.vals (2 * k) 0, nth w.2.vals (2 * k + 1) 0)
      else (nth w.2.vals k 0, 0)

/-- Words that hold samples of lo .. hi - 1 and are in use, oldest first. -/
def XStream.words (x : XStream) (lo : Int) (hi : Nat) : List HWord :=
  ((x.hist.filter fun w => decide (lo < ((w.1 + x.width : Nat) : Int)) && decide (w.1 < hi) && decide (x.since ≤ w.1)).map
    (·.2)).reverse

/-- The next frame's samples have all arrived, and no switch comes before its end (R176, R196). -/
def XStream.ready (x : XStream) : Bool :=
  (match x.hist.head? with
    | none => false
    | some w => decide (x.next + x.cfg.size ≤ w.1 + x.width))
  && (match x.switch with
    | none => true
    | some w => decide (x.next + x.cfg.size ≤ w.point))

/-- The next frame's filterbank history is incomplete (R184). -/
def XStream.filling (x : XStream) : Bool := decide (x.cfg.taps ≠ 0) && decide (x.next < x.since + x.cfg.history)

/-- Words that no later frame needs are forgotten. -/
def XStream.prune (x : XStream) : XStream :=
  { x with hist := x.hist.filter fun w => decide (x.next < w.1 + x.width + x.cfg.history) && decide (x.since < w.1 + x.width) }

/-! ### Frequencies (R190) -/

/-- A bin axis: bin b lies at (base + b * step) / den Hz. -/
structure Axis where
  base : Int
  step : Int
  den : Nat
  deriving DecidableEq, Repr

/-- Frequency of a bin, Q44.20, nearest with ties to even. -/
def Axis.at (a : Axis) (b : Nat) : Int := roundDivEven ((a.base + a.step * b) * 2 ^ 20) a.den

/-- Spacing of bins, Q44.20. -/
def Axis.df (a : Axis) : Int := roundDivEven (a.step * 2 ^ 20) a.den

/-- FTW of an NCO in force at an index. -/
def Nco.ftwAt (i : Nat) (n : Nco) : Nat := ((n.retunes.find? fun r => decide (r.1 ≤ i)).map (·.2)).getD n.ftw0

/-- The axis of a stream with a configuration for a frame whose first sample is at a position index. -/
def XStream.axis (x : XStream) (index : Nat) (s : State) : Axis :=
  let fs := ((getPlan x.plan s).map Plan.fs).getD (0, 1)
  let zone2 := decide ((x.sub s).f 0x13 1 = 2)
  let n := x.cfg.size
  if x.engine = 4 then
    let sl := getSlot x.slot s
    let f := getFront sl.front s
    -- everything over 2^48 * 2^S * step * N / 2^40, times fs_den
    let chan := 2 ^ (f.dec + sl.backDec) * zoomStep sl.ratio * n
    let mix : Int := (sext 48 (f.nco.ftwAt index) * 2 ^ f.dec + sext 48 (sl.nco.ftwAt index))
    let den := 2 ^ (48 + f.dec) * chan
    let fc : Int := if zone2 then (2 ^ (48 + f.dec) - mix) * chan else mix * chan
    let unit : Int := 2 ^ (48 + f.dec) * 2 ^ 40
    let st := if zone2 != sl.invert then -unit else unit
    ⟨(fc - st * (n / 2 : Nat)) * fs.1, st * fs.1, den * fs.2⟩
  else if zone2 then ⟨(fs.1 * n : Nat), -(fs.1 : Int), fs.2 * n⟩ else ⟨0, fs.1, fs.2 * n⟩

/-! ### A spectrum -/

/-- A formed spectrum as its consumers see it. -/
structure Spectrum where
  plan : Nat
  idx : Nat
  engine : Nat
  slot : Nat
  cfg : XCfg
  number : Nat
  index : Nat
  frac : Nat
  flags : Nat
  epochs : Nat
  exp : Nat
  arith : Nat
  bins : List Cplx
  power : List Nat
  enbw : Nat
  ref : Nat
  centre : Int
  /-- span centre as a placement (R226) -/
  mid : Nat
  axis : Axis
  span : Nat × Nat
  deriving DecidableEq, Repr

/-- A flag of R194. -/
def Spectrum.has (sp : Spectrum) (b : Nat) : Bool := bit sp.flags b

/-- Equivalent noise bandwidth in bins, Q8.24, nearest: N * sum w^2 / (sum w)^2 (R199). -/
def enbwOf (size : Nat) (co : List Int) : Nat :=
  let s1 := co.foldl (· + ·) (0 : Int)
  if s1 = 0 then 0
  else (roundDivEven ((size * 2 ^ 24 : Nat) * co.foldl (fun a w => a + w * w) (0 : Int)) (s1.natAbs * s1.natAbs)).toNat

/-- Position of a frame's first sample (R176, R199). -/
def XStream.position (x : XStream) (k : Nat) (s : State) : Nat × Nat := if x.engine = 4 then slotPos x.slot k s else (k, 0)

/-- Rounding and scaling of a stream (R186, R187). -/
def XStream.arith (x : XStream) (s : State) : ArithCfg :=
  ⟨decide ((x.sub s).f 0x0E 1 = 1), (x.sub s).f 0x18 4, decide ((x.sub s).f 0x0F 1 = 1)⟩

/-- Frame words' flags (R194). -/
def wordFlags (ws : List HWord) : Nat :=
  packBits [(0, 1, b2n (ws.any (·.has tagSettle))), (1, 1, b2n (ws.any (·.has tagOvr))), (2, 1, b2n (ws.any (·.has tagRamp)))
    , (3, 1, b2n (ws.any (·.has tagRetune))), (4, 1, b2n (ws.any (·.has tagReplay)))
    , (9, 1, b2n (ws.any fun w => !w.has tagValid)), (10, 1, b2n (ws.any (·.has tagTrig)))]

/-- The next spectrum of a stream (R183-R190). -/
def XStream.form (x : XStream) (s : State) : Spectrum :=
  let c := x.cfg
  let a := x.arith s
  let lo : Int := (x.next : Int) - c.history
  let ws := x.words lo (x.next + c.size)
  let co := coefficients c.window c.taps c.size c.table
  let xs : List Cplx := (List.range co.length).map fun (k : Nat) => x.sample (lo + (k : Int))
  let re := foldPoints a.up c.size ((xs.zip co).map fun p => p.1.1 * p.2)
  let im := foldPoints a.up c.size ((xs.zip co).map fun p => p.1.2 * p.2)
  let f := if x.engine = 4 then zoomFft a c.lg (re.zip im) else realFft a c.lg re
  let ref := refLevel (co.foldl (· + ·) 0) (if x.engine = 4 then (getSlot x.slot s).gain else 0)
  let p := x.position x.next s
  let e := x.position (x.next + c.size) s
  { plan := x.plan, idx := x.idx, engine := x.engine, slot := x.slot, cfg := c, number := x.number
    index := p.1, frac := p.2
    flags := wordFlags ws ||| packBits [(0, 1, b2n x.filling), (5, 1, b2n x.gap), (6, 1, b2n x.filling), (7, 1, b2n f.ovf)
      , (8, 1, b2n x.change), (11, 1, b2n (decide ((x.sub s).f 0x13 1 = 2)))]
    epochs := packBits [(0, 4, (ws.head?.map (·.calepoch)).getD 0), (4, 4, (ws.getLast?.map (·.calepoch)).getD 0)]
    exp := f.exp, arith := packBits [(0, 1, b2n (!a.schedule)), (1, 1, b2n a.up)]
    bins := f.pts, power := f.pts.map fun b => powerOf b f.exp ref
    enbw := enbwOf c.size co, ref := ref, centre := ((c.size / 2 : Nat) : Int) - (c.history / 2 : Nat)
    mid := if x.engine = 4 then let q := slotPos x.slot (x.next + c.size / 2) s; q.1 * 65536 + q.2
      else ((x.next : Int) + (c.size / 2 : Nat) - (c.history / 2 : Nat)).toNat * 65536
    axis := x.axis p.1 s, span := (timeOf p.1 s, timeOf e.1 s) }

/-- A reference level as binary32 (R199). -/
def refBits (ref : Nat) : Nat := (roundRat f32 false ref 1).1

/-! ### SPECTRUM records (R199) -/

/-- Bytes of a bin of a detector (R189): 1 POWER, 2 LOGPWR, 3 COMPLEX. -/
def detBytes (det : Nat) : Nat := if det = 1 then 4 else if det = 2 then 2 else 8

/-- LOGPWR of every bin. -/
def Spectrum.logs (sp : Spectrum) : List Int := sp.power.map logpwr

/-- Fields of the bins first .. first + count - 1 of a detector, from an offset on (R189). -/
def Spectrum.binFields (sp : Spectrum) (det off first count : Nat) : List Fld :=
  match det with
  | 1 => arrayFields off 4 ((sp.power.drop first).take count)
  | 2 => arrayFields off 2 ((((sp.power.drop first).take count).map logpwr).map (wrapInt 16))
  | _ => arrayFields off 4 ((((sp.bins.drop first).take count).map fun b => [wrapInt 32 b.1, wrapInt 32 b.2]).flatten)

/-- SPECTRUM payload of a bin range (R199). -/
def Spectrum.payload (sp : Spectrum) (det first count : Nat) (last : Bool) : List Fld :=
  [⟨0x40, 4, sp.plan⟩, ⟨0x44, 1, sp.engine⟩, ⟨0x45, 1, det⟩, ⟨0x46, 2, sp.flags ||| (if last then 0x1000 else 0)⟩
   , ⟨0x48, 8, sp.number⟩, ⟨0x50, 8, sp.index⟩, ⟨0x58, 2, sp.frac⟩, ⟨0x5A, 1, sp.slot⟩, ⟨0x5B, 1, sp.epochs⟩
   , ⟨0x5C, 1, sp.cfg.lg⟩, ⟨0x5D, 1, sp.cfg.overlap⟩, ⟨0x5E, 1, sp.cfg.window⟩, ⟨0x5F, 1, sp.cfg.taps⟩
   , ⟨0x60, 1, sp.exp⟩, ⟨0x61, 1, sp.arith⟩, ⟨0x64, 4, first⟩, ⟨0x68, 4, count⟩, ⟨0x6C, 4, sp.enbw⟩
   , ⟨0x70, 8, wrapInt 64 (sp.axis.at first)⟩, ⟨0x78, 8, wrapInt 64 sp.axis.df⟩, ⟨0x80, 4, refBits sp.ref⟩
   , ⟨0x84, 4, wrapInt 32 sp.centre⟩] ++ sp.binFields det 0x88 first count

/-- A range cut into pieces of at most `m`: (first, count, last), `n` bounds their number. -/
def pieces (m : Nat) : Nat → Nat → Nat → List (Nat × Nat × Bool)
  | 0, _, _ => []
  | n + 1, first, count =>
    if count ≤ m then [(first, count, true)] else (first, m, false) :: pieces m n (first + m) (count - m)

/-- The records of one detector of a recorded spectrum. -/
def specRecords (det ring : Nat) (sp : Spectrum) (first count : Nat) (s : State) : State :=
  (pieces (2 ^ 18 / detBytes det) (count + 1) first count).foldl (fun s p =>
    (recordOn (planCtx sp.plan s) ring ⟨0x0030, recBytes (0x88 + detBytes det * p.2.1), sp.payload det p.1 p.2.1 p.2.2
      , sp.span.1, sp.span.2⟩ s).1) s

/-- A spectrum goes to its records (R199). -/
def recordSpectrum (sp : Spectrum) (s : State) : State :=
  let b := planSub sp.plan 3 sp.idx s
  let every := b.f 0x1C 4
  if every ≠ 0 && decide (sp.number % every = 0) then
    (maskIdx (b.f 0x14 1) 3).foldl (fun s d => specRecords (d + 1) (b.f 0x16 1) sp (b.f 0x20 4) (b.f 0x24 4) s) s
  else s

/-- A range of a source's bins that a tap asks for; a count of 0 is all bins. -/
def tapRange (bins first count : Nat) : Nat × Nat := (first, if count = 0 then bins - first else count)

/-- A spectrum is offered to taps (R299). -/
def tapSpectrum (sp : Spectrum) (s : State) : State :=
  [1, 2, 3].foldl (fun s d =>
    offerTap sp.plan 1 sp.idx d (fun f c =>
      let r := tapRange sp.bins.length f c
      (0x48 + detBytes d * r.2, sp.payload d r.1 r.2 true)) s) s

/-! ### Traces (R191-R193, R200) -/

/-- A reducer's fields: mode, k_bins, l_spectra, first_bin, bin_count. -/
structure Reducer where
  mode : Nat
  k : Nat
  l : Nat
  first : Nat
  count : Nat
  deriving DecidableEq, Repr

/-- Reducer r of a TRANSFORM block (R414). -/
def SubBlk.reducer (b : SubBlk) (r : Nat) : Reducer :=
  let o := 0x30 + 16 * r
  ⟨b.f o 1, b.f (o + 2) 2, b.f (o + 4) 4, b.f (o + 8) 4, b.f (o + 12) 4⟩

/-- The reducer's bins of a spectrum in cells of K. -/
def Reducer.cells (r : Reducer) (p : List Nat) : List (List Nat) := chunks r.k r.count ((p.drop r.first).take r.count)

/-- A point after one more spectrum, number s of the trace: (value or binary64 sum, bin offset, spectrum offset). -/
def pointStep (mode s : Nat) (cell : List Nat) (pt : Nat × Nat × Nat) : Nat × Nat × Nat :=
  match mode with
  | 1 => cell.zipIdx.foldl (fun q x => if (s = 0 && x.2 = 0) || decide (q.1 < x.1) then (x.1, x.2, s) else q) pt
  | 2 => cell.zipIdx.foldl (fun q x => if (s = 0 && x.2 = 0) || decide (x.1 < q.1) then (x.1, x.2, s) else q) pt
  | 5 => (nth cell (cell.length / 2) 0, 0, 0)
  | _ => (cell.foldl (fun a x => add64 a (widen x)) pt.1, 0, 0)

/-- A point's value when the trace closes, binary32. -/
def pointValue (mode cells : Nat) (v : Nat) : Nat :=
  match mode with
  | 3 => narrow (div64 v (nat64 cells))
  | 4 => narrow (sqrt64 (div64 v (nat64 cells)))
  | _ => v

/-- Points of a trace (R200). -/
def Trace.points (r : Reducer) (t : Trace) : List Nat :=
  t.pts.zipIdx.map fun x =>
    let k := min r.k (r.count - x.2 * r.k)
    packBits [(0, 32, pointValue r.mode (t.used * k) x.1.1), (32, 12, x.1.2.1), (44, 16, x.1.2.2)]

/-- TRACE payload of a range of cells (R200): `first` is the first bin of the first cell. -/
def tracePayload (sp : Spectrum) (n : Nat) (r : Reducer) (t : Trace) (extra first : Nat) (pts : List Nat) : List Fld :=
  [⟨0x40, 4, sp.plan⟩, ⟨0x44, 1, sp.engine⟩, ⟨0x45, 1, n⟩, ⟨0x46, 2, t.flags ||| 0x1000 ||| extra⟩, ⟨0x48, 8, t.number⟩
   , ⟨0x50, 8, t.firstSpec⟩, ⟨0x58, 8, t.firstIndex⟩, ⟨0x60, 2, t.firstFrac⟩, ⟨0x62, 1, r.mode⟩, ⟨0x63, 1, sp.slot⟩
   , ⟨0x64, 2, r.k⟩, ⟨0x68, 4, r.l⟩, ⟨0x6C, 4, t.used⟩, ⟨0x70, 4, first⟩, ⟨0x74, 4, pts.length⟩
   , ⟨0x78, 8, wrapInt 64 (sp.axis.at first)⟩, ⟨0x80, 8, wrapInt 64 sp.axis.df⟩, ⟨0x88, 4, refBits sp.ref⟩
   , ⟨0x8C, 4, sp.enbw⟩] ++ arrayFields 0x90 8 pts

/-- A trace of reducer n closes: its record and its tap item. `sp` gives the stream's labels; `extra` is PARTIAL. -/
def closeTrace (sp : Spectrum) (n : Nat) (r : Reducer) (t : Trace) (extra : Nat) (s : State) : State :=
  let pts := t.points r
  let b := planSub sp.plan 3 sp.idx s
  let s1 := (recordOn (planCtx sp.plan s) (b.f 0x17 1) ⟨0x0031, recBytes (0x90 + 8 * pts.length)
    , tracePayload sp n r t extra r.first pts, timeOf t.firstIndex s, sp.span.2⟩ s).1
  offerTap sp.plan 2 sp.idx n (fun f c =>
    let rg := tapRange pts.length f c
    (0x50 + 8 * rg.2, tracePayload sp n r t extra (r.first + rg.1 * r.k) ((pts.drop rg.1).take rg.2))) s1

/-- A spectrum enters reducer n of its stream. -/
def traceSpectrum (sp : Spectrum) (n : Nat) (s : State) : State :=
  match getX sp.plan sp.idx s with
  | none => s
  | some x =>
    let r := (x.sub s).reducer n
    let t0 := nth x.traces n Trace.empty
    let cells := r.cells sp.power
    let t : Trace := { t0 with
      used := t0.used + 1
      firstSpec := if t0.used = 0 then sp.number else t0.firstSpec
      firstIndex := if t0.used = 0 then sp.index else t0.firstIndex
      firstFrac := if t0.used = 0 then sp.frac else t0.firstFrac
      flags := if t0.used = 0 then sp.flags else t0.flags ||| sp.flags
      pts := cells.zipIdx.map fun c => pointStep r.mode t0.used c.1 (if t0.used = 0 then (0, 0, 0) else nth t0.pts c.2 (0, 0, 0)) }
    let set := fun (t : Trace) => modX sp.plan sp.idx fun x => { x with traces := x.traces.set n t }
    if r.l ≤ t.used then set { Trace.empty with number := t.number + 1 } (closeTrace sp n r t 0 s) else set t s

/-- A spectrum enters every reducer of its stream. -/
def traceAll (sp : Spectrum) (s : State) : State :=
  (List.range ((planSub sp.plan 3 sp.idx s).f 0x15 1)).foldl (fun s n => traceSpectrum sp n s) s

/-- Open traces of a stream close early with PARTIAL (R193, R197); `sp` gives the labels in force. -/
def closeTraces (sp : Spectrum) (s : State) : State :=
  (List.range ((planSub sp.plan 3 sp.idx s).f 0x15 1)).foldl (fun s n =>
    match getX sp.plan sp.idx s with
    | none => s
    | some x =>
      let t := nth x.traces n Trace.empty
      if t.used = 0 then s
      else
        modX sp.plan sp.idx (fun x => { x with traces := x.traces.set n { Trace.empty with number := t.number + 1 } })
          (closeTrace sp n ((x.sub s).reducer n) t 0x2000 s)) s

/-- The labels of a stream as they stand, for records that close without a spectrum. -/
def XStream.labels (x : XStream) (index : Nat) (s : State) : Spectrum :=
  let co := coefficients x.cfg.window x.cfg.taps x.cfg.size x.cfg.table
  { plan := x.plan, idx := x.idx, engine := x.engine, slot := x.slot, cfg := x.cfg, number := x.number, index := index
    frac := 0, flags := 0, epochs := 0, exp := 0, arith := 0, bins := [], power := [], enbw := enbwOf x.cfg.size co
    ref := refLevel (co.foldl (· + ·) 0) (if x.engine = 4 then (getSlot x.slot s).gain else 0), centre := 0, mid := 0
    axis := x.axis index s, span := (timeOf index s, timeOf index s) }

/-! ### Words -/

/-- A word joins a stream's history: `base` is the number of its first sample. -/
def XStream.push (base : Nat) (w : HWord) (x : XStream) : XStream := { x with hist := (base, w) :: x.hist }

/-- Engine counters after a formed spectrum (R201). -/
def XEng.formed (sp : Spectrum) (e : XEng) : XEng :=
  { e with frames := e.frames + 1, overflows := if sp.has 7 then satInc e.overflows else e.overflows
           lastExp := BitVec.ofNat 8 sp.exp, maxExp := if e.maxExp.toNat < sp.exp then BitVec.ofNat 8 sp.exp else e.maxExp }

end Sys2Proof.Machine
end

