-- ==== Sys2Proof/Machine/Capture.lean ====
section
/-!
DEFINITION. Capture rings, captures and their segments, spill and reads (R241-R247, R249, R423).
-/

namespace Sys2Proof.Machine

/-- Change triggers and captures. -/
def modTrg (f : Trig → Trig) (s : State) : State := { s with trg := f s.trg }

/-- A capture ring by number. -/
def getCap (r : Nat) (s : State) : Option CapRing := s.trg.rings.find? (·.r = r)

/-- Change a capture ring. -/
def modCap (r : Nat) (f : CapRing → CapRing) (s : State) : State :=
  modTrg (fun t => { t with rings := mapIf (·.r = r) f t.rings }) s

/-- Samples of a word of a ring (R241): 8, or 4 complex samples of a zoom channel. -/
def CapRing.width (r : CapRing) : Nat := if r.r < 4 then 8 else 4

/-- Samples of a block: 16,384 words (R241). -/
def CapRing.span (r : CapRing) : Nat := 16384 * r.width

/-- L_ring in words (R241). -/
def CapRing.length (r : CapRing) : Nat := (r.blocks - 3) * 16384

/-- DRAM address of a word of a block (R241). -/
def CapRing.wordAddr (r : CapRing) (b : CapBlk) (n : Nat) : Nat := r.addr + b.pos * 2 ^ 18 + (n % r.span) / r.width * 16

/-- The block of a range. -/
def CapRing.block (range : Nat) (r : CapRing) : Option CapBlk := r.blks.find? (·.range = range)

/-- Blocks held by captures. -/
def CapRing.held (r : CapRing) : Nat := (r.blks.filter fun b => !b.holders.isEmpty).length

/-- Lowest range of the contiguous ones from `k` down that the ring holds. -/
def CapRing.reach (r : CapRing) : Nat → Nat → Nat
  | 0, k => k
  | n + 1, k => if k ≠ 0 && (r.block (k - 1)).isSome then r.reach n (k - 1) else k

/-- First number of the history (R241): the start of the contiguous ranges up to the current word, or the history
start. -/
def CapRing.oldest (r : CapRing) : Nat :=
  if r.next = 0 then r.start
  else
    let k := (r.next - 1) / r.span
    if (r.block k).isSome then max r.start (r.reach r.blks.length k * r.span) else r.next

/-! ### Writing (R241, R243) -/

/-- A run of a tag log grows by a word, or a new run begins; more than 64 close the log (R243). -/
def CapBlk.logWord (n width : Nat) (tag : Nat) (b : CapBlk) : CapBlk :=
  if b.logOver then b
  else
    match b.log with
    | (f, c, t) :: rest =>
      if t = tag && f + c * width = n then { b with log := (f, c + 1, t) :: rest }
      else if b.log.length < 64 then { b with log := (n, 1, tag) :: b.log } else { b with logOver := true }
    | [] => { b with log := [(n, 1, tag)] }

/-- The free block that holds the oldest data. -/
def CapRing.oldestFree (r : CapRing) : Option CapBlk :=
  (r.blks.filter fun b => b.holders.isEmpty).foldl (fun m b =>
    match m with
    | none => some b
    | some x => if b.range < x.range then some b else m) none

/-- The writer enters a new range (R241): it assigns an unused block, or the free block with the oldest data. -/
def CapRing.assign (range : Nat) (holders : List (Nat × Nat × Nat)) (r : CapRing) : CapRing :=
  let b : CapBlk := ⟨range, r.blks.length, [], [], false, holders⟩
  if r.blks.length < r.blocks then { r with blks := b :: r.blks }
  else
    match r.oldestFree with
    | none => r
    | some o => { r with blks := { b with pos := o.pos } :: r.blks.filter fun x => decide (x.range ≠ o.range) }

/-- The TRIG entry of an accepted fire at the word of its placement (R243). -/
def CapRing.logTrig (n : Nat) (r : CapRing) : CapRing :=
  let mark := fun (b : CapBlk) =>
    match b.words.find? (·.1 = n) with
    | some x => b.logWord n 0 (x.2.tag.toNat ||| 2 ^ tagTrig)
    | none => b
  { r with blks := mapIf (·.range = n / r.span) mark r.blks }

/-- Captures whose open segment holds the blocks of a range as they are assigned (R244). -/
def rangeHolders (r : CapRing) (range : Nat) (s : State) : List (Nat × Nat × Nat) :=
  (s.trg.caps.filter fun c => decide (c.ring = r.r) && c.segs.any fun g =>
    !g.closed && decide (range * r.span < min g.fin g.spillFrom) && decide (g.first < (range + 1) * r.span)).map
      fun c => (c.plan, c.slot, c.num)

/-- A word goes into its block of a ring. -/
def CapRing.put (n : Nat) (w : HWord) (holders : List (Nat × Nat × Nat)) (r0 : CapRing) : CapRing :=
  let k := n / r0.span
  let r := if (r0.block k).isSome then r0 else r0.assign k holders
  let ovf := (r.block k).any (·.logOver)
  let bs := mapIf (·.range = k) (fun b => { b.logWord n r.width w.tag.toNat with words := (n, w) :: b.words }) r.blks
  let now := (bs.find? (·.range = k)).any (·.logOver)
  { r with blks := bs, next := n + r.width, logOvf := if now && !ovf then satInc r.logOvf else r.logOvf }

/-- Change a capture. -/
def modCapture (plan slot num : Nat) (f : Capture → Capture) (s : State) : State :=
  modTrg (fun t => { t with caps := mapIf (fun c => decide (c.plan = plan) && decide (c.slot = slot) && decide (c.num = num)) f t.caps }) s

/-- A capture by plan, slot and number. -/
def getCapture (plan slot num : Nat) (s : State) : Option Capture :=
  s.trg.caps.find? fun c => decide (c.plan = plan) && decide (c.slot = slot) && decide (c.num = num)

/-- Change a segment of a capture. -/
def Capture.modSeg (k : Nat) (f : Seg → Seg) (c : Capture) : Capture := { c with segs := mapIf (·.num = k) f c.segs }

/-- Change a capture slot. -/
def modCapSlot (plan slot : Nat) (f : CapSlot → CapSlot) (s : State) : State :=
  modTrg (fun t => { t with slots := mapIf (fun c => decide (c.plan = plan) && decide (c.slot = slot)) f t.slots }) s

/-- A capture slot. -/
def getCapSlot (plan slot : Nat) (s : State) : Option CapSlot :=
  s.trg.slots.find? fun c => decide (c.plan = plan) && decide (c.slot = slot)

/-- The CAPTURE block of a slot (R414). -/
def capBlock (plan slot : Nat) (s : State) : SubBlk := planSub plan 7 slot s

/-! ### Invalid ranges (R423) -/

/-- Runs of equal reasons over (tag index, reasons) of consecutive words, newest run last. -/
def reasonRuns : List (Nat × Nat) → List (Nat × Nat × Nat)
  | [] => []
  | (i, r) :: rest =>
    match reasonRuns rest with
    | (f, c, q) :: t => if q = r then (i, c + 1, q) :: t else (i, 1, r) :: (f, c, q) :: t
    | [] => [(i, 1, r)]

/-- Fields of the first eight runs. -/
def runFields (o : Nat) : List (Nat × Nat × Nat) → List Fld
  | [] => []
  | r :: rest => [⟨o, 8, r.1⟩, ⟨o + 8, 4, r.2.1⟩, ⟨o + 12, 2, r.2.2⟩] ++ runFields (o + 16) rest

/-- The invalid-range list at an offset (R423). -/
def rangeList (o : Nat) (l : List (Nat × Nat)) : List Fld :=
  let runs := (reasonRuns l).filter fun r => decide (r.2.2 ≠ 0)
  [⟨o, 1, min runs.length 8⟩, ⟨o + 1, 1, b2n (decide (8 < runs.length))⟩] ++ runFields (o + 8) (runs.take 8)

/-- Reasons of a word present: SETTLE, INVALID, SUSPECT (R423). -/
def wordReasons (suspect : Bool) (w : HWord) : Nat :=
  packBits [(0, 1, b2n (w.has tagSettle)), (1, 1, b2n (!w.has tagValid)), (4, 1, b2n suspect)]

/-! ### Reading a span (R247, R249) -/

/-- A word that stands for a lost or overwritten one. -/
def blankWord (i : Nat) : HWord := ⟨i, 0, 0, List.replicate 8 0⟩

/-- Number of the word after the last one that a block's tag log covers. -/
def CapBlk.logEnd (width : Nat) (b : CapBlk) : Nat := ((b.log.head?).map fun g => g.1 + g.2.1 * width).getD 0

/-- The words of a span with their reasons: (number, word, reasons). A word in a poisoned codeword is delivered as
zeros and is suspect (R452), as is the rest of a block whose tag log closed (R243). -/
def CapRing.read (r : CapRing) (poison : List Nat) (first count : Nat) : List (Nat × HWord × Nat) :=
  (List.range count).map fun k =>
    let n := first + k * r.width
    match r.block (n / r.span) with
    | none => (n, blankWord n, 8)
    | some b =>
      match b.words.find? (·.1 = n) with
      | some w =>
        if poison.contains (r.wordAddr b n / 128) then (n, { w.2 with vals := List.replicate 8 0 }, wordReasons true w.2)
        else (n, w.2, wordReasons (b.logOver && decide (b.logEnd r.width ≤ n)) w.2)
      | none => (n, blankWord n, 4)

/-- Addresses of the poisoned codewords that a span of a ring touches. -/
def CapRing.poisonedIn (r : CapRing) (poison : List Nat) (first count : Nat) : List Nat :=
  if poison.isEmpty then []
  else
    (((List.range count).filterMap fun k =>
      let n := first + k * r.width
      (r.block (n / r.span)).map fun b => r.wordAddr b n / 128).eraseDups.filter poison.contains)

/-- Logged runs that touch a span, in order, with their OVERFLOW flag. -/
def CapRing.runs (r : CapRing) (first fin : Nat) : List (Nat × Nat × Nat × Bool) :=
  let bs := (r.blks.filter fun b => decide (b.range * r.span < fin) && decide (first < (b.range + 1) * r.span)).mergeSort
    fun a b => decide (a.range ≤ b.range)
  (bs.map fun b =>
    (b.log.reverse.filter fun g => decide (g.1 < fin) && decide (first < g.1 + g.2.1 * r.width)).map (fun g => (g.1, g.2.1, g.2.2, false))
      ++ if b.logOver then [(((b.log.head?).map fun g => g.1 + g.2.1 * r.width).getD (b.range * r.span), 0, 0, true)] else []).flatten

/-- The tag index of a word number of a ring: the number itself, or the index of the word found there. -/
def CapRing.tagOf (r : CapRing) (n : Nat) : Nat :=
  if r.r < 4 then n
  else (((r.block (n / r.span)).bind fun b => b.words.find? (·.1 = n)).map (·.2.index)).getD n

/-- Bytes of words, 16 each (R93, R162). -/
def wordFields (o : Nat) (ws : List HWord) : List Fld :=
  arrayFields o 2 ((ws.map fun w => w.vals.map (wrapInt 16)).flatten)

/-- CAPTURE_DATA payload (R249). -/
def dataPayload (plan slot num seg first flags : Nat) (ws : List HWord) : List Fld :=
  [⟨0x40, 4, plan⟩, ⟨0x44, 1, slot⟩, ⟨0x45, 1, flags⟩, ⟨0x48, 8, num⟩, ⟨0x50, 4, seg⟩, ⟨0x54, 4, ws.length⟩, ⟨0x58, 8, first⟩]
    ++ wordFields 0x80 ws

/-- CAPTURE_TAGS payload (R249). -/
def tagsPayload (plan slot num seg first : Nat) (runs : List (Nat × Nat × Nat × Bool)) : List Fld :=
  [⟨0x40, 4, plan⟩, ⟨0x44, 1, slot⟩, ⟨0x45, 1, 2⟩, ⟨0x48, 8, num⟩, ⟨0x50, 4, seg⟩, ⟨0x54, 4, runs.length⟩, ⟨0x58, 8, first⟩]
    ++ (runs.zipIdx.map fun x =>
      [⟨0x80 + 16 * x.2, 8, x.1.1⟩, ⟨0x88 + 16 * x.2, 4, x.1.2.1⟩, ⟨0x8C + 16 * x.2, 2, x.1.2.2.1⟩
       , ⟨0x8E + 16 * x.2, 2, b2n x.1.2.2.2⟩]).flatten

/-! ### Spill (R245) -/

/-- A segment's spill buffer becomes a CAPTURE_DATA record; a drop is counted and marks the segment. -/
def spillOut (c : Capture) (g : Seg) (last : Bool) (s : State) : State :=
  let ws := g.spillBuf
  match ws with
  | [] => s
  | w :: _ =>
    let ring := (capBlock c.plan c.slot s).f 0x0B 1
    let z := (ws.getLast?).getD w
    let res := recordOn c.ctx ring ⟨0x0052, recBytes (0x80 + 16 * ws.length)
      , dataPayload c.plan c.slot c.num g.num w.index (1 + if last then 2 else 0) ws, timeOf w.index s
      , timeOf (z.index + 8) s⟩ s
    let s1 := modCapture c.plan c.slot c.num (Capture.modSeg g.num fun g =>
      { g with spillBuf := [], spillGap := g.spillGap || res.2 }) res.1
    if res.2 then modCap c.ring (fun r => { r with spillDrops := satInc r.spillDrops }) s1 else s1

/-- A word of the ring's stream enters the spilled part of the open segments that reach it. -/
def spillWord (ring n : Nat) (w : HWord) (s : State) : State :=
  (s.trg.caps.filter fun c => decide (c.ring = ring)).foldl (fun s c =>
    c.segs.foldl (fun s g =>
      if !g.closed && decide (g.spillFrom ≤ n) && decide (n < g.fin) then
        let g1 := { g with spillBuf := g.spillBuf ++ [w], spilled := g.spilled + 1 }
        let s1 := modCapture c.plan c.slot c.num (Capture.modSeg g.num fun _ => g1) s
        if g1.spillBuf.length = 16384 then spillOut c g1 false s1 else s1
      else s) s) s

/-- The capture writer takes a word of a ring's source; words before a restart of the numbers do not occur. -/
def captureWord (ring n : Nat) (w : HWord) (s : State) : State :=
  match getCap ring s with
  | none => s
  | some r =>
    if r.writing then
      let s1 := spillWord ring n w (modCap ring (CapRing.put n w (rangeHolders r (n / r.span) s)) s)
      if s1.dram.poison.isEmpty then s1
      else
        match (getCap ring s1).bind fun r => (r.block (n / r.span)).map fun b => r.wordAddr b n / 128 with
        | none => s1
        | some c => { s1 with dram := { s1.dram with poison := s1.dram.poison.filter fun p => decide (p ≠ c) } }
    else s

/-! ### Accepting a fire (R244) -/

/-- Words between a segment's last word and the rearm point (R244). -/
def rearmWords (fs : Nat × Nat) (rate : Nat × Nat) (pair : Bool) : Nat :=
  if pair then cdiv (32 * fs.1) (fs.2 * (14 * 10 ^ 9)) else cdiv (32 * rate.1) (rate.2 * (7 * 10 ^ 9))

/-- Ranges lo .. hi - 1 of sample numbers. -/
def rangesOf (span lo hi : Nat) : List Nat := if hi ≤ lo then [] else rangeFrom (lo / span) ((hi - 1) / span + 1 - lo / span)

/-- The ring with the blocks of given ranges held by a capture. -/
def CapRing.hold (key : Nat × Nat × Nat) (ranges : List Nat) (r : CapRing) : CapRing :=
  { r with blks := mapIf (fun b => ranges.contains b.range && !b.holders.contains key) (fun b => { b with holders := key :: b.holders }) r.blks }

/-- The ring with a capture's blocks given back. -/
def CapRing.letGo (key : Nat × Nat × Nat) (r : CapRing) : CapRing :=
  { r with blks := r.blks.map fun b => { b with holders := b.holders.filter fun k => decide (k ≠ key) } }

/-- Blocks free to be assigned, less the reserve of three (R241). -/
def CapRing.spare (r : CapRing) : Nat := r.blocks - r.held - 3

/-- Future blocks that open segments of a ring have already claimed. -/
def claimed (r : CapRing) (s : State) : Nat :=
  let top := (r.next - 1) / r.span
  (((s.trg.caps.filter fun c => decide (c.ring = r.r)).map fun c =>
    (c.segs.filter fun g => !g.closed).map fun g =>
      (rangesOf r.span g.first (min g.fin g.spillFrom)).filter fun k => decide (top < k)).flatten.flatten.eraseDups).length

/-- What a capture does with a fire: accepted as (slot, capture number, segment number), or missed for a reason of
R248. -/
inductive FireResult where
  | none
  | captured (slot num seg : Nat)
  | missed (reason : Nat)
  deriving DecidableEq, Repr

/-- Number of the word of a zoom ring that holds a position, at or after the ring's next word: the slot's output words
are counted on until their next one begins beyond it. -/
def slotNumber (slot pos m n : Nat) (s : State) : Nat → Nat
  | 0 => n
  | k + 1 =>
    let p := slotPos slot (m + 4) s
    if pos < p.1 * 65536 + p.2 then n else slotNumber slot pos (m + 4) (n + 4) s k

/-- Number of the word of a ring that holds a placement. -/
def wordAt (r : CapRing) (place : Nat) (s : State) : Nat :=
  if r.r < 4 then place / 65536 / 8 * 8
  else
    let ws := (r.blks.map (·.words)).flatten
    let best := ws.foldl (fun (m : Option (Nat × HWord)) w =>
      if w.2.index * 65536 + w.2.frac ≤ place && (m.all fun x => decide (x.1 < w.1)) then some w else m) none
    match slotOf r.plan (r.source - 17) s, best with
    | some n, some w =>
      if w.1 + 4 < r.next then w.1
      else
        -- the newest word: the placement may lie in it or in one still to come
        let p := slotPos n (getSlot n s).m s
        if place < p.1 * 65536 + p.2 then w.1
        else slotNumber n place (getSlot n s).m r.next s ((place - p.1 * 65536) / 65536 / 8 + 1)
    | some n, none => slotNumber n place (getSlot n s).m r.next s (place / 65536 / 8 + 1)
    | none, some w => w.1
    | none, none => r.next

/-- A device time for a placement: one rounding (R248). -/
def timeOfPlace (p : Nat) (s : State) : Nat :=
  let a := anchorInForce s
  ((a.t0 + mulDivRound ((p : Int) - (a.index * 65536 : Nat)) (a.rateDen * 2 ^ 64) (a.rateNum * 65536)) % (2 ^ 128 : Int)).toNat

/-- The pair that a capture source takes its words from. -/
def sourcePair (plan source : Nat) (s : State) : Nat := if source ≤ 4 then source - 1 else (planSub plan 1 (source - 17) s).f 0x20 1

/-- Key of a capture's fence among the pair's fences (R136): software holds key 0. -/
def fenceKey (c : Nat × Nat × Nat) : Nat := 1 + (c.1 * 8 + c.2.1) * 2 ^ 64 + c.2.2

/-- A capture takes a fire at a placement, or does not (R244). -/
def captureFire (plan unit trig : Nat) (forced stop : Bool) (place : Nat) (ev : TEvent) (s : State) : State × FireResult :=
  match ((getPlan plan s).map fun p => (p.kindSubs 7).find? fun b => decide (b.f 0x09 1 = unit)).join with
  | none => (s, .none)
  | some b =>
    let slot := b.idx
    match getCapSlot plan slot s, s.trg.rings.find? (fun r => decide (r.source = b.f 0x08 1) && (decide (r.r < 4) || decide (r.plan = plan))) with
    | some cs, some r =>
      let w := r.width
      let qw := wordAt r place s
      let pre := b.f 0x14 4 * w
      let fin := qw + b.f 0x18 4 * w
      let start := qw - pre
      if cs.frozen || cs.done then (s, .missed 4)
      else if qw < cs.rearm then (s, .missed 1)
      else if (decide (start < r.oldest) || decide (qw < pre)) && decide (b.f 0x0A 1 = 1) then (s, .missed 3)
      else
        let short := decide (start < r.oldest) || decide (qw < pre)
        let first := if short then min r.oldest qw else start
        let num := cs.cur.getD cs.next
        let key := (plan, slot, num)
        let preR := rangesOf r.span first qw
        let postR := (rangesOf r.span qw fin).filter fun k => !preR.contains k
        let r1 := r.hold key preR
        let missing := postR.filter fun k => (r1.block k).isNone
        let freeNow := (postR.filter fun k => (r1.block k).any fun b => b.holders.isEmpty).length
        let room := r1.spare - claimed r s
        let spill := decide (b.f 0x0B 1 ≠ 0)
        if room < missing.length + freeNow && !spill then (s, .missed 2)
        else
          let take := postR.take (room + (postR.length - missing.length - freeNow))
          let spillFrom := if room < missing.length + freeNow then
              ((postR.drop take.length).head?.map (· * r.span)).getD fin else fin
          let capture : Capture := (getCapture plan slot num s).getD
            { plan := plan, ctx := planCtx plan s, slot := slot, num := num, ring := r.r, source := b.f 0x08 1, segs := [], complete := false }
          let pair := sourcePair plan (b.f 0x08 1) s
          let g : Seg :=
            { num := capture.segs.length, trig := trig, ev := ev, forced := forced, stop := stop, unit := unit, first := first
              post := qw, fin := fin, preShort := short, postShort := false, spillFrom := max qw spillFrom, spillGap := false
              spillBuf := [], spilled := 0, expired := false, closed := false, route := (getPair pair s).route.toNat
              step := (getPair pair s).fsStep.toNat, time := timeOfPlace place s }
          let c1 := { capture with segs := capture.segs ++ [g] }
          let fs := ((getPlan plan s).map Plan.fs).getD (0, 1)
          let zr := zoomRate (planSub plan 1 (b.f 0x08 1 - 17) s)
          let rw := rearmWords fs (fs.1 * zr.1, fs.2 * zr.2) (decide (r.r < 4)) * w
          let s1 := modCap r.r (fun r => (r.hold key (preR ++ take))) s
          let s2 := modTrg (fun t => { t with
            caps := c1 :: t.caps.filter fun c => !(decide (c.plan = plan) && decide (c.slot = slot) && decide (c.num = num)) }) s1
          let s3 := modCapSlot plan slot (fun c => { c with cur := some num, next := max c.next (num + 1), rearm := fin + rw }) s2
          let s4 := modCap r.r (CapRing.logTrig qw) s3
          let s5 := if r.r < 4 then modSkim r.r (Skim.placeFence (fenceKey key) (min fin (qw + 8 * w10 s))) s4 else s4
          (s5, .captured slot num g.num)
    | _, _ => (s, .none)

/-! ### Closing and releasing (R244, R246, R247) -/

/-- The fence of a capture on its pair ends at a number, or goes when `none`. -/
def lowerFence (c : Capture) (at_ : Option Nat) (s : State) : State :=
  if c.ring < 4 then
    modSkim c.ring (fun p => match at_ with
      | none => { p with fences := p.fences.filter fun f => decide (f.1 ≠ fenceKey (c.plan, c.slot, c.num)) }
      | some i => { p with fences := mapIf (fun f => decide (f.1 = fenceKey (c.plan, c.slot, c.num))) (fun f => (f.1, min f.2 i)) p.fences }) s
  else s

/-- The segment of a capture that is open. -/
def Capture.openSeg (c : Capture) : Option Seg := c.segs.find? fun g => !g.closed

/-- A segment closes at its end or, early, at the last word written (R244, R246): the rest of its spill goes out. -/
def closeSegment (c : Capture) (g : Seg) (s : State) : State :=
  match getCap c.ring s with
  | none => s
  | some r =>
    let early := decide (r.next < g.fin)
    let fin := if early then max r.next g.post else g.fin
    let g1 := { g with fin := fin, postShort := early, closed := true, spillFrom := min g.spillFrom fin }
    let s1 := spillOut c g true s
    let s2 := modCapture c.plan c.slot c.num (Capture.modSeg g.num fun x => { g1 with spillBuf := [], spillGap := x.spillGap, spilled := x.spilled, expired := x.expired }) s1
    if early then
      lowerFence c (some fin)
        (modCapSlot c.plan c.slot (fun cs => { cs with rearm := cs.rearm - (g.fin - fin) }) s2)
    else s2

/-- The capture counts as complete (R244, R246, R247): its unit and slot go on as the arm mode asks, or freeze. -/
def completeCapture (c : Capture) (s : State) : State :=
  let stop := c.segs.any (·.stop)
  let unit := (capBlock c.plan c.slot s).f 0x09 1
  let single := decide ((planSub c.plan 6 unit s).f 0x0A 1 = 2)
  let s1 := modCapture c.plan c.slot c.num (fun c => { c with complete := true }) s
  let s2 := modCapSlot c.plan c.slot (fun cs => { cs with cur := none, frozen := cs.frozen || stop, done := cs.done || single }) s1
  let mine := fun (u : TUnit) => decide (u.plan = some c.plan) && decide (u.blk = unit)
  let s3 := modTrg (fun t => { t with units := mapIf mine (fun u =>
    if stop then { u with frozen := true } else if single then { u with armed := false } else u) t.units }) s2
  if stop then sendEvent c.ctx 0x0020 c.plan c.num 0 c.slot s3 else s3

/-- The open capture of a slot ends early: an open segment closes, segments not begun are abandoned (R246, R247). -/
def endCapture (c : Capture) (s : State) : State :=
  let s1 := match c.openSeg with
    | none => s
    | some g => closeSegment c g s
  match getCapture c.plan c.slot c.num s1 with
  | none => s1
  | some c1 => if c1.complete then s1 else completeCapture c1 s1

/-- The open segment of a slot closes once its last post word has been written; with its last segment the capture is complete
(R244). -/
def closeDue (plan slot : Nat) (s : State) : State :=
  match ((getCapSlot plan slot s).bind (·.cur)).bind fun n => getCapture plan slot n s with
  | none => s
  | some c =>
    match c.openSeg, getCap c.ring s with
    | some g, some r =>
      if r.next < g.fin then s
      else
        let s1 := closeSegment c g s
        match getCapture plan slot c.num s1 with
        | none => s1
        | some c1 => if (capBlock plan slot s).f 0x1C 4 ≤ c1.segs.length then completeCapture c1 s1 else s1
    | _, _ => s

/-- The ring of a slot's capture source. -/
def slotRing (plan slot : Nat) (s : State) : Option CapRing :=
  let src := (capBlock plan slot s).f 0x08 1
  s.trg.rings.find? fun r => decide (r.source = src) && (decide (r.r < 4) || decide (r.plan = plan))

/-- The rearm point of a slot passes (R244): AUTO forcing counts from it (R235). -/
def rearmDue (plan slot : Nat) (s : State) : State :=
  match getCapSlot plan slot s, slotRing plan slot s with
  | some cs, some r =>
    if cs.lastRearm < cs.rearm && decide (cs.rearm ≤ r.next) then modCapSlot plan slot (fun c => { c with lastRearm := c.rearm }) s else s
  | _, _ => s

/-- The slot that a unit of a plan feeds. -/
def slotOfUnit (plan unit : Nat) (s : State) : Option Nat :=
  ((getPlan plan s).bind fun p => (p.kindSubs 7).find? fun b => decide (b.f 0x09 1 = unit)).map (·.idx)

/-- A ring that no created plan captures, and in which neither a capture nor the frozen recorder holds a block, goes, with its tag log (R242). -/
def freeRings (s : State) : State :=
  let used := fun (r : CapRing) =>
    s.trg.caps.any (fun c => decide (c.ring = r.r)) || (r.blks.any fun b => b.holders.contains (0, 0, 0))
      || s.plans.any fun p => (p.kindSubs 7).any fun b => decide (b.f 0x08 1 = r.source) && (decide (r.r < 4) || decide (r.plan = p.id))
  let gone := s.trg.rings.filter fun r => !used r
  if gone.isEmpty then s
  else
    { modTrg (fun t => { t with rings := t.rings.filter used }) s with
      dram := { s.dram with allocs := s.dram.allocs.filter fun a =>
        !(gone.any fun r => decide (a.kind = .tagLog r.r)) } }

/-- A capture's blocks are given back and it is forgotten (R247). -/
def dropCapture (c : Capture) (s : State) : State :=
  freeRings (lowerFence c none (modCap c.ring (CapRing.letGo (c.plan, c.slot, c.num))
    (modTrg (fun t => { t with caps := t.caps.filter fun x =>
      !(decide (x.plan = c.plan) && decide (x.slot = c.slot) && decide (x.num = c.num)) }) s)))

/-! ### Records of a read (R247, R249) -/

/-- CAPTURE_HEADER payload of a segment (R249). -/
def headerPayload (c : Capture) (g : Seg) (r : CapRing) (poison : List Nat) : List Fld :=
  let ringFin := min g.fin g.spillFrom
  let ws := r.read poison g.first ((ringFin - g.first) / r.width)
  let real := (ws.filter fun w => decide (w.2.2 / 4 % 4 = 0)).map (·.2.1)
  let flags := packBits [(0, 1, b2n g.preShort), (1, 1, b2n g.postShort), (2, 1, b2n g.forced), (3, 1, b2n (decide (g.spilled ≠ 0)))
    , (4, 1, b2n g.spillGap), (5, 1, b2n g.stop), (7, 1, b2n g.expired)]
  [⟨0x40, 4, c.plan⟩, ⟨0x44, 1, c.slot⟩, ⟨0x45, 1, c.source⟩, ⟨0x46, 2, flags⟩, ⟨0x48, 8, c.num⟩, ⟨0x50, 4, g.num⟩
   , ⟨0x54, 4, c.segs.length⟩, ⟨0x58, 8, g.ev.place / 65536⟩, ⟨0x60, 2, g.ev.place % 65536⟩, ⟨0x62, 1, g.unit⟩
   , ⟨0x63, 1, packBits [(0, 4, (real.head?.map (·.calepoch)).getD 0), (4, 4, (real.getLast?.map (·.calepoch)).getD 0)]⟩
   , ⟨0x64, 4, (g.post - g.first) / r.width⟩, ⟨0x68, 4, (g.fin - g.post) / r.width⟩, ⟨0x6C, 4, g.spilled⟩
   , ⟨0x70, 8, r.tagOf g.first⟩, ⟨0x78, 8, g.trig⟩, ⟨0x80, 16, g.time⟩, ⟨0x90, 1, g.route⟩, ⟨0x91, 1, g.step⟩
   , ⟨0x94, 4, (r.runs g.first ringFin).length⟩] ++ rangeList 0x98 (ws.map fun w => (w.2.1.index, w.2.2))

/-- A list cut into pieces of `m`, each with its place and whether it is the last. -/
def cutWords (m : Nat) (l : List (Nat × HWord × Nat)) : List (List (Nat × HWord × Nat) × Bool) :=
  let k := cdiv l.length m
  (chunks m (l.length + 1) l).zipIdx.map fun x => (x.1, decide (x.2 + 1 = k))

/-- The records of one segment: header, data and tag runs; type, bytes, payload, first and end index. -/
def segmentRecords (c : Capture) (g : Seg) (r : CapRing) (poison : List Nat) (tags : Bool) : List (Nat × Nat × List Fld × Nat × Nat) :=
  let fin := min g.fin g.spillFrom
  let ws := r.read poison g.first ((fin - g.first) / r.width)
  let runs := r.runs g.first fin
  let a := r.tagOf g.first
  let z := ((ws.getLast?).map (·.2.1.index + 8)).getD a
  [(0x0051, 320, headerPayload c g r poison, a, z)]
    ++ ((cutWords 16384 ws).map fun p =>
      let f := (p.1.head?.map (·.2.1.index)).getD a
      (0x0052, recBytes (0x80 + 16 * p.1.length)
        , dataPayload c.plan c.slot c.num g.num f (if p.2 then 2 else 0) (p.1.map (·.2.1)), f
        , ((p.1.getLast?).map (·.2.1.index + 8)).getD f))
    ++ if tags && !runs.isEmpty then
        [(0x0053, recBytes (0x80 + 16 * runs.length), tagsPayload c.plan c.slot c.num g.num a runs, a, z)] else []

/-- The records of a word range of a ring (R247): no header, OVERWRITTEN data are reported by their flag. -/
def rangeRecords (plan slot first count : Nat) (r : CapRing) (poison : List Nat) (tags : Bool) : List (Nat × Nat × List Fld × Nat × Nat) × Bool :=
  let ws := r.read poison first count
  let fin := first + count * r.width
  let runs := r.runs first fin
  let ovf := ws.any fun w => decide (w.2.2 / 8 % 2 = 1)
  (((cutWords 16384 ws).map fun p =>
      let f := (p.1.head?.map (·.2.1.index)).getD first
      let o := p.1.any fun w => decide (w.2.2 / 8 % 2 = 1)
      (0x0052, recBytes (0x80 + 16 * p.1.length)
        , dataPayload plan slot 0 0 f ((if p.2 then 2 else 0) + if o then 4 else 0) (p.1.map (·.2.1)), f
        , ((p.1.getLast?).map (·.2.1.index + 8)).getD f))
    ++ (if tags && !runs.isEmpty then
        [(0x0053, recBytes (0x80 + 16 * runs.length), tagsPayload plan slot 0 0 first runs, first, fin)] else []), ovf)

end Sys2Proof.Machine
end

