-- ==== Sys2Proof/Machine/Recorder.lean ====
section
/-!
DEFINITION. The flight recorder: freezing and unfreezing (R542-R545).
-/

namespace Sys2Proof.Machine

/-- Change the recorder. -/
def modFr (f : Recorder → Recorder) (s : State) : State := { s with fr := f s.fr }

/-- The key under which a frozen recorder holds ring blocks (R544): no plan has id 0. -/
def frozenKey : Nat × Nat × Nat := (0, 0, 0)

/-- The routes and full-scale steps of the pairs, a byte each as in a plan's header (R412). -/
def routesImage (s : State) : Nat :=
  leNat ((List.range 4).map fun n => BitVec.ofNat 8 ((getPair n s).route.toNat + 8 * (getPair n s).fsStep.toNat))

/-- Oldest index of CP0 history held: of its ring, or of its share. -/
def oldestHistory (s : State) : Nat :=
  match getCap 0 s with
  | some r => r.oldest
  | none => ((nth s.fr.shares 0 []).getLast?.map (·.index)).getD 0

/-- The recorder freezes with a cause, or counts a further one (R544). The blocks that hold history are held. -/
def freezeRecorder (cause : Nat) (s : State) : State :=
  if s.fr.frozen then modFr (fun r => { r with lateFaults := satInc r.lateFaults }) s
  else
    let s1 := modFr (fun r => { r with frozen := true, consolidated := false, cause := BitVec.ofNat 8 cause
                                        , freezeTime := BitVec.ofNat 128 (now s), marked := []
                                        , freezeMode := if replaying s then s.mode.replayed else BitVec.ofNat 4 (effMode s)
                                        , ends := (List.range 4).map fun n => (getPair n s).next
                                        , frzNum := s.tim.rateNum, frzDen := s.tim.rateDen, frzRoutes := routesImage s }) s
    let keep := fun (r : CapRing) => if r.r < 4 then r.hold frozenKey (r.blks.map (·.range)) else r
    let s2 := modTrg (fun t => { t with rings := t.rings.map keep }) s1
    sendAdmin 0x0132 cause (oldestHistory s) 0 0 s2

/-- The recorder unfreezes: ring blocks are released and history goes on (R544). -/
def unfreezeRecorder (s : State) : State :=
  if s.fr.frozen then
    freeRings (modTrg (fun t => { t with rings := t.rings.map (CapRing.letGo frozenKey) })
      (modFr (fun r => { r with frozen := false, consolidated := false }) s))
  else s

end Sys2Proof.Machine
end

