-- ==== Sys2Proof/Machine/DramMem.lean ====
section
/-!
DEFINITION. Capture memory: the address map, reads and writes with poisoned codewords, the log, and allocation in the
general region (R26, R442-R453).
-/

namespace Sys2Proof.Machine

/-- Change capture memory. -/
def modDram (f : Dram → Dram) (s : State) : State := { s with dram := f s.dram }

/-- Change a channel. -/
def modChan (n : Nat) (f : Chan → Chan) (s : State) : State := modDram (fun d => { d with chans := modNth d.chans n f }) s

/-- A channel. -/
def getChan (n : Nat) (s : State) : Chan := nth s.dram.chans n Chan.reset

/-! ### Geometry and the address map (R442-R446) -/

/-- Channels in service, ascending. -/
def Dram.inService (d : Dram) : List Nat := (List.range d.chans.length).filter fun n => (nth d.chans n Chan.reset).online

/-- Raw capacity of the channels in service in GB (R442). -/
def Dram.rawGb (d : Dram) : Nat := d.inService.length * d.dieGb.toNat * d.geom.ranks

/-- Bytes of the data space: 15/16 of the raw capacity (R442). -/
def Dram.dataSpace (d : Dram) : Nat := d.rawGb * 2 ^ 30 * 15 / 16

/-- Bytes of the general region (R26, R446). -/
def generalBytes : Nat := 3 * 2 ^ 30

/-- The capture ring limit in bytes (R442). -/
def Dram.ringLimit (d : Dram) : Nat := d.dataSpace - generalBytes

/-- The DRAM bandwidth limit of R44 and R455, in bytes per second: 163 GB/s scaled by the channels in service. -/
def Dram.bandwidth (d : Dram) : Nat := 163 * 10 ^ 9 * d.inService.length / 12

/-- Parity of a number. -/
def xorBits (v : Nat) : Bool := (List.range (bitLen v)).foldl (fun b i => xor b (v.testBit i)) false

/-- The bank hash of a row (R443). -/
def DramGeom.hash (g : DramGeom) (row : Nat) : Nat :=
  g.bankHash.zipIdx.foldl (fun h m => h + if xorBits (row &&& m.1) then 2 ^ m.2 else 0) 0

/-- The physical row of a controller row: row_perm, then row_xor (R443). -/
def DramGeom.physical (g : DramGeom) (row : Nat) : Nat :=
  (g.rowPerm.zipIdx.foldl (fun p x => p + if row.testBit x.1 then 2 ^ x.2 else 0) 0) ^^^ g.rowXor

/-- Where a data address lies (R445). -/
structure DramPlace where
  ch : Nat
  rank : Nat
  bank : Nat
  row : Nat
  slot : Nat
  deriving DecidableEq, Repr

/-- The place of a data address (R445). -/
def Dram.place (d : Dram) (a : Nat) : DramPlace :=
  let l := d.inService
  let c := a / 128
  let k := c / max l.length 1
  let q := k / 15
  let r := q / 16
  let row := r / max d.geom.ranks 1
  { ch := nth l (c % max l.length 1) 0, rank := r % max d.geom.ranks 1, bank := (q % 16) ^^^ d.geom.hash row % 16
    row := row, slot := k % 15 }

/-- Rows of a bank (R442). -/
def Dram.rows (d : Dram) : Nat := d.dieGb.toNat * 32768

/-! ### The log (R453) -/

/-- A log entry is written and copied into the journal (R453, R543). -/
def dramLog (kind consumer : Nat) (addr : Option Nat) (channel symbol count : Nat) (s : State) : State :=
  let p := (addr.map s.dram.place).getD ⟨channel, 0, 0, 0, 0⟩
  let e : DramLog :=
    { seq := (s.dram.logSeq + 1).toNat, kind := kind, consumer := consumer, channel := p.ch, bankRank := p.bank + 16 * p.rank
      address := addr.getD (2 ^ 64 - 1), time := timeMid (now s), row := p.row, slot := p.slot, symbol := symbol
      count := min count 0xFFFF }
  journal 10 [⟨0x10, 4, e.seq⟩, ⟨0x14, 1, kind⟩, ⟨0x15, 1, consumer⟩, ⟨0x16, 1, p.ch⟩, ⟨0x17, 1, e.bankRank⟩
      , ⟨0x18, 8, e.address⟩, ⟨0x20, 8, e.time⟩, ⟨0x28, 4, p.row⟩, ⟨0x2C, 1, p.slot⟩, ⟨0x2D, 1, symbol⟩, ⟨0x2E, 2, e.count⟩] 32
    (modDram (fun d => { d with logSeq := d.logSeq + 1, log := (e :: d.log).take 64 }) s)

/-- An uncorrectable read of `bytes` of a codeword by a consumer that a context owns (R452): counted, logged,
reported, and the recorder freezes (R544). -/
def dramUncorrectable (consumer : Nat) (owner : Option Nat) (addr bytes : Nat) (s : State) : State :=
  let p := s.dram.place addr
  let s1 := dramLog 2 consumer (some (addr / 128 * 128)) p.ch 0xFF 1 (modChan p.ch (fun c => { c with uncorrected := satInc c.uncorrected }) s)
  let seq := s1.dram.logSeq.toNat
  let ctxs := (0 :: owner.toList).eraseDups
  freezeRecorder 3 (ctxs.foldl (fun s c => sendEvent c 0x0110 seq addr bytes (consumer + 16 ^ 2 * p.ch) s) s1)

/-! ### Reads and writes (R450-R452) -/

/-- Poisoned codewords that a range touches. -/
def Dram.poisonIn (d : Dram) (a n : Nat) : List Nat :=
  if n = 0 then [] else d.poison.filter fun c => decide (a / 128 ≤ c) && decide (c ≤ (a + n - 1) / 128)

/-- The data of a range with the bytes of poisoned codewords read as 0 (R452). -/
def Dram.readBytes (d : Dram) (a n : Nat) : List Byte :=
  if (d.poisonIn a n).isEmpty then Memory.readList a n d.mem
  else (List.range n).map fun i => if d.poison.contains ((a + i) / 128) then 0 else Memory.read (a + i) d.mem

/-- A range is read for a consumer: its bytes, and the reports of its poisoned codewords, clipped to the request. -/
def dramRead (consumer : Nat) (owner : Option Nat) (a n : Nat) (s : State) : List Byte × State :=
  (s.dram.readBytes a n
    , (s.dram.poisonIn a n).foldl (fun s c =>
        let lo := max a (c * 128)
        dramUncorrectable consumer owner lo (min (a + n) (c * 128 + 128) - lo) s) s)

/-- A codeword is marked poisoned. -/
def Dram.addPoison (c : Nat) (d : Dram) : Dram := { d with poison := insertVec c d.poison }

/-- Bytes are written. A codeword written whole loses its poison; one written in part keeps it, and that read-modify-write
is logged as POISON_WRITE (R451, R452). `poisoned` is a host write with EP set. -/
def dramWrite (a : Nat) (bs : List Byte) (poisoned : Bool) (s : State) : State :=
  let n := bs.length
  let hit := s.dram.poisonIn a n
  let whole := hit.filter fun c => decide (a ≤ c * 128) && decide (c * 128 + 128 ≤ a + n)
  let part := hit.filter fun c => !whole.contains c
  let touched := if n = 0 || !poisoned then [] else rangeFrom (a / 128) ((a + n - 1) / 128 + 1 - a / 128)
  let s1 := modDram (fun d =>
    touched.foldl (fun d c => d.addPoison c)
      { d with mem := Memory.writeList a bs d.mem, poison := d.poison.filter fun c => !whole.contains c }) s
  (part ++ touched).eraseDups.foldl (fun s c => dramLog 7 8 (some (c * 128)) 0 0xFF 1 s) s1

/-! ### The general region (R26) -/

/-- Bytes of a granule. -/
def granule : Nat := 65536

/-- The lowest place at or above `lo` where `n` bytes fit among allocations sorted by base. -/
def lowestFit (n limit : Nat) : Nat → List Alloc → Option Nat
  | lo, [] => if lo + n ≤ limit then some lo else none
  | lo, a :: r => if lo + n ≤ a.base then some lo else lowestFit n limit (max lo (a.base + a.bytes)) r

/-- An allocation joins those in place, sorted by base. -/
def insertAlloc (a : Alloc) : List Alloc → List Alloc
  | [] => [a]
  | x :: r => if a.base < x.base then a :: x :: r else x :: insertAlloc a r

/-- A range of the general region is allocated in whole granules (R26); the base, or none when it is short. -/
def allocate (kind : AllocKind) (bytes : Nat) (s : State) : Option (Nat × State) :=
  let n := roundUp bytes granule
  (lowestFit n (min generalBytes s.dram.dataSpace) 0 s.dram.allocs).map fun base =>
    (base, modDram (fun d => { d with allocs := insertAlloc ⟨kind, base, n⟩ d.allocs }) s)

/-- Several allocations, all or none. -/
def allocateAll : List (AllocKind × Nat) → State → Option State
  | [], s => some s
  | x :: r, s =>
    match allocate x.1 x.2 s with
    | none => none
    | some p => allocateAll r p.2

/-- The allocation of a kind. -/
def findAlloc (kind : AllocKind) (s : State) : Option Alloc := s.dram.allocs.find? fun a => decide (a.kind = kind)

/-- Allocations of a set of kinds are freed. -/
def freeAllocs (p : AllocKind → Bool) (s : State) : State :=
  modDram (fun d => { d with allocs := d.allocs.filter fun a => !p a.kind }) s

/-! ### BAR4 windows (R371) -/

/-- A window opens. -/
def openWindow (base bytes : Nat) (s : State) : State :=
  modHost (fun h => { h with windows := (base, bytes) :: h.windows }) s

/-- The window at a base closes. -/
def closeWindow (base : Nat) (s : State) : State :=
  modHost (fun h => { h with windows := h.windows.filter fun w => decide (w.1 ≠ base) }) s

/-- A BAR4 range lies in an open window. -/
def inWindow (a n : Nat) (s : State) : Bool := s.host.windows.any fun w => decide (w.1 ≤ a) && decide (a + n ≤ w.1 + w.2)

/-! ### Space for capture rings (R242, R446) -/

/-- The lowest contiguous range of capture-ring space that fits, in bytes; rings are (address, bytes). -/
def ringFit (n : Nat) (s : State) : Option Nat :=
  let l := (s.trg.rings.map fun r => (⟨.tagLog r.r, r.addr, r.blocks * 2 ^ 18⟩ : Alloc)).mergeSort fun a b => decide (a.base ≤ b.base)
  lowestFit n s.dram.dataSpace generalBytes l

end Sys2Proof.Machine
end

