-- ==== Sys2Proof/Machine/Image.lean ====
section
/-!
DEFINITION. CRC32C, colour mapping, and the image formats of render chains and display layers (R264-R267).
-/

namespace Sys2Proof.Machine

/-- One bit of CRC32C, reflected polynomial 0x82F63B78. -/
def crcBit (c : Nat) : Nat := if c % 2 = 1 then (c / 2) ^^^ 0x82F63B78 else c / 2

/-- One byte of CRC32C. -/
def crcByte (c : Nat) (b : Byte) : Nat := crcBit (crcBit (crcBit (crcBit (crcBit (crcBit (crcBit (crcBit (c ^^^ b.toNat))))))))

/-- CRC32C of a list of bytes from a seed. -/
def crc32cFrom (seed : Nat) (l : List Byte) : Nat := (l.foldl crcByte (seed ^^^ 0xFFFFFFFF)) ^^^ 0xFFFFFFFF

/-- CRC32C of a list of bytes. -/
def crc32c (l : List Byte) : Nat := crc32cFrom 0 l

/-- The cells of a list cut into pieces of `n`. -/
def cut {α : Type} (n : Nat) : Nat → List α → List (List α)
  | 0, _ => []
  | k + 1, l => if l.isEmpty then [] else l.take n :: cut n k (l.drop n)

/-! ### Colour (R264, R265) -/

/-- floor(256 * log2(v)) for v > 0, exactly: floor(log2(v^256)). -/
def log256 (v : Nat) : Nat := (v ^ 256).log2

/-- Colour-table index of a count (R264): LINEAR is map_mode 1, LOG is 2. -/
def colourIndex (mode scale x : Nat) : Nat :=
  if x = 0 then 0
  else if mode = 1 then min 255 ((x * scale) >>> 24)
  else min 255 ((log256 (x + 1) * scale) >>> 16)

/-- Entry i of the default grey table (R264): pixel_format 1 is RGB888, 2 is ARGB2101010. -/
def greyEntry (fmt i : Nat) : Nat :=
  if fmt = 1 then i * 0x10101
  else
    let c := (i <<< 2) ||| (i >>> 6)
    packBits [(0, 10, c), (10, 10, c), (20, 10, c), (30, 2, if i = 0 then 0 else 3)]

/-- The default grey table. -/
def greyTable (fmt : Nat) : List Nat := (List.range 256).map (greyEntry fmt)

/-- A colour table as its 1 KB block holds it; RGB888 entries keep bits [31:24] 0 (R265). -/
def readLut (fmt : Nat) (b : Block) : List Nat :=
  (List.range 256).map fun i => let v := blkFld b (4 * i) 4; if fmt = 1 then v % 2 ^ 24 else v

/-- A pixel's components red, green, blue in 10 bits and its alpha (R265, R270). -/
structure Pixel where
  r : Nat
  g : Nat
  b : Nat
  a : Nat
  deriving DecidableEq, Repr

/-- An 8-bit component in 10 bits (R270). -/
def widen8 (c : Nat) : Nat := (c <<< 2) ||| (c >>> 6)

/-- A stored pixel read (R265, R270): RGB888 is opaque. -/
def readPixel (argb : Bool) (w : Nat) : Pixel :=
  if argb then ⟨bits w 20 10, bits w 10 10, bits w 0 10, bits w 30 2⟩
  else ⟨widen8 (bits w 16 8), widen8 (bits w 8 8), widen8 (bits w 0 8), 3⟩

/-- A colour of DPY_COLOURS: red from bit 20 down; opaque. -/
def colourPixel (w : Nat) : Pixel := ⟨bits w 20 10, bits w 10 10, bits w 0 10, 3⟩

/-! ### Image formats (R266, R267) -/

/-- The tiles of a picture held in rows, in tile order, each a row-major list of 256 pixels. -/
def tilesOf (w h : Nat) (rows : List (List Nat)) : List (List Nat) :=
  ((List.range (h / 16)).map fun ty => (List.range (w / 16)).map fun tx =>
    (((rows.drop (16 * ty)).take 16).map fun r => (r.drop (16 * tx)).take 16).flatten).flatten

/-- The little-endian bytes of a list of pixels. -/
def pixelBytes (l : List Nat) : List Byte := (l.map (leBytes 4)).flatten

/-- The coding of a palette of `k` colours: (code, palette entries, index bits). -/
def tileCoding (k : Nat) : Nat × Nat × Nat :=
  if k ≤ 1 then (1, 1, 0) else if k ≤ 2 then (2, 2, 1) else if k ≤ 4 then (3, 4, 2) else if k ≤ 16 then (4, 16, 4) else (0, 0, 0)

/-- Bytes that a coding uses in its slot (R267); none where the coding is invalid. -/
def codingSize (c : Nat) : Option Nat :=
  match c with
  | 0 => some 1024 | 1 => some 4 | 2 => some 40 | 3 => some 80 | 4 => some 192 | _ => none

/-- A tile's header value and slot (R267): the smallest coding that reproduces it, colours in the order in which they
first appear. -/
def encodeTile (px : List Nat) : Nat × List Byte :=
  let pal := px.eraseDups
  let c := tileCoding pal.length
  let idx := fun (v : Nat) => (pal.idxOf v)
  let used :=
    if c.1 = 0 then pixelBytes px
    else
      pixelBytes (pal ++ List.replicate (c.2.1 - pal.length) 0)
        ++ leBytes (32 * c.2.2) (px.zipIdx.foldl (fun n x => n + idx x.1 <<< (c.2.2 * x.2)) 0)
  (packBits [(0, 11, used.length), (11, 3, c.1), (32, 32, crc32c (pixelBytes px))]
    , used ++ List.replicate (1024 - used.length) 0)

/-- A tile decoded from its header and slot (R267); none where the tile fails. -/
def decodeTile (hd : Nat) (slot : List Byte) : Option (List Nat) :=
  let c := bits hd 11 3
  match codingSize c with
  | none => none
  | some n =>
    if bits hd 0 11 ≠ n || decide (bits hd 14 18 ≠ 0) then none
    else
      let word := fun (i : Nat) => blkFld slot (4 * i) 4
      let pal := match c with | 1 => 1 | 2 => 2 | 3 => 4 | _ => 16
      let b := match c with | 2 => 1 | 3 => 2 | 4 => 4 | _ => 0
      let ix := leNat ((slot.drop (4 * pal)).take (32 * b))
      let px := (List.range 256).map fun p => if c = 0 then word p else word (bits ix (b * p) b)
      if crc32c (pixelBytes px) = bits hd 32 32 then some px else none

/-- Bytes of an image: format 1 linear, 2 TL16, 3 PTC (R266, R267). -/
def imageBytes (fmt w h : Nat) : Nat := if fmt = 3 then (w / 16) * (h / 16) * 1032 else 4 * w * h

/-- The bytes of an image held in rows. -/
def encodeImage (fmt w h : Nat) (rows : List (List Nat)) : List Byte :=
  match fmt with
  | 1 => pixelBytes rows.flatten
  | 2 => pixelBytes (tilesOf w h rows).flatten
  | _ =>
    let ts := (tilesOf w h rows).map encodeTile
    (ts.map fun t => leBytes 8 t.1).flatten ++ (ts.map (·.2)).flatten

end Sys2Proof.Machine
end

