-- ==== Sys2Proof/Machine/Density.lean ====
section
/-!
DEFINITION. Density surfaces: hits, the sweep, raw-count records and render chains (R253-R268).
-/

namespace Sys2Proof.Machine

/-- Change density and display. -/
def modDpy (f : Disp → Disp) (s : State) : State := { s with dpy := f s.dpy }

/-- A surface by its number in the device. -/
def getSurf (n : Nat) (s : State) : Option Surf := nth s.dpy.surfs n none

/-- Change a surface. -/
def modSurf (n : Nat) (f : Surf → Surf) (s : State) : State :=
  modDpy (fun d => { d with surfs := modNth d.surfs n (Option.map f) }) s

/-- Change a surface number's counters. -/
def modDen (n : Nat) (f : DenRegs → DenRegs) (s : State) : State := modDpy (fun d => { d with den := modNth d.den n f }) s

/-- The DENSITY block that a surface serves. -/
def Surf.sub (f : Surf) (s : State) : SubBlk := planSub f.plan 8 f.blk s

/-- The number of the surface that serves a plan's DENSITY block. -/
def surfOf (plan blk : Nat) (s : State) : Option Nat :=
  (List.range 8).find? fun n => (getSurf n s).any fun f => decide (f.plan = plan) && decide (f.blk = blk)

/-! ### Hits (R255-R257) -/

/-- The value of column c (R255) from the LOGPWR values of the bins from den_first_bin on. -/
def columnValue (det nb cols c : Nat) (logs : List Int) : Int :=
  let lo := c * nb / cols
  let n := (c + 1) * nb / cols - lo
  let l := (logs.drop lo).take n
  match det with
  | 1 => l.foldl (fun m v => if m < v then v else m) (l.headD 0)
  | 2 => l.foldl (fun m v => if v < m then v else m) (l.headD 0)
  | _ => nth l (n / 2) 0

/-- The row of a value (R256); none for a value beyond the axis that clamp does not bring in. -/
def rowOf (top : Int) (step rows : Nat) (clamp : Bool) (v : Int) : Option Nat :=
  let d := top - v
  if v = -32768 then (if clamp then some (rows - 1) else none)
  else if d < 0 then (if clamp then some 0 else none)
  else if d / step < rows then some (d / step).toNat
  else if clamp then some (rows - 1) else none

/-- Rows that a hit column increments (R257): `prev` is the row of the column before, if hit. -/
def hitRows (cap : Nat) (prev : Option Nat) (r : Nat) : List Nat :=
  match prev with
  | none => [r]
  | some p =>
    if cap = 0 then [r]
    else if p < r then (List.range (min (max 1 (r - p)) cap)).map (r - ·)
    else (List.range (min (max 1 (p - r)) cap)).map (r + ·)

/-- A cell of a column increments by 1; a count that would pass the limit stays and is noted (R257). -/
def DenCol.inc (c : DenCol) (r : Nat) : DenCol :=
  if nth c.cells r 0 < 2 ^ 32 - 1 then { c with cells := modNth c.cells r (· + 1) }
  else if c.sat.contains r then c else { c with sat := r :: c.sat }

/-- A spectrum's hits on the columns, from column values' rows (R257). -/
def hitCols (cap flags start : Nat) : Option Nat → List (Option Nat) → List DenCol → List DenCol
  | _, [], cs => cs
  | _, _, [] => []
  | prev, r :: rs, c :: cs =>
    let c0 : DenCol := { c with flags := c.flags ||| flags, start := some (c.start.getD start) }
    let c1 := match r with | none => c0 | some q => (hitRows cap prev q).foldl DenCol.inc c0
    c1 :: hitCols cap flags start r rs cs

/-! ### The sweep (R259, R260, R263, R268) -/

/-- Decay of a cell (R260). -/
def decayCell (k x : Nat) : Nat := if k = 0 then x else x - (x + 2 ^ k - 1) >>> k

/-- Spectrum number of the boundary of column c after frame j (R259). -/
def boundary (b : SubBlk) (j c : Nat) : Nat := (j + 1) * b.f 0x28 4 + c * b.f 0x2C 4 / b.f 0x10 2

/-- DENSITY_COUNTS payload (R263) of columns first .. with the stream's axis. -/
def rawPayload (n : Nat) (f : Surf) (b : SubBlk) (engine : Nat) (ax : Axis) (first : Nat) (part last : Bool) : List Fld :=
  let cols := b.f 0x10 2
  let flags := f.raw.foldl (fun m c => m ||| c.flags) 0
  [⟨0x40, 4, f.plan⟩, ⟨0x44, 1, n⟩, ⟨0x45, 1, engine⟩
   , ⟨0x46, 2, packBits [(0, 1, b2n part), (1, 1, b2n (f.raw.any fun c => !c.sat.isEmpty)), (2, 1, b2n last)]⟩
   , ⟨0x48, 8, f.frame⟩, ⟨0x50, 8, f.frame * b.f 0x28 4⟩, ⟨0x58, 4, b.f 0x28 4⟩, ⟨0x5C, 4, b.f 0x2C 4⟩, ⟨0x60, 2, first⟩
   , ⟨0x62, 2, f.raw.length⟩, ⟨0x64, 2, cols⟩, ⟨0x66, 2, b.f 0x12 2⟩, ⟨0x68, 2, b.f 0x14 2⟩, ⟨0x6A, 2, b.f 0x16 2⟩
   , ⟨0x6C, 1, b.f 0x0B 1⟩, ⟨0x6D, 1, packBits [(0, 2, b.f 0x09 1), (2, 1, b.f 0x0A 1)]⟩, ⟨0x6E, 2, b.f 0x18 2⟩
   , ⟨0x70, 8, wrapInt 64 (ax.at (b.f 0x20 4))⟩, ⟨0x78, 8, wrapInt 64 ax.df⟩, ⟨0x80, 4, b.f 0x20 4⟩, ⟨0x84, 4, b.f 0x24 4⟩
   , ⟨0x88, 2, flags⟩] ++ arrayFields 0x90 4 ((f.raw.map (·.cells)).flatten)

/-- The raw record under way closes (R263). -/
def closeRaw (n engine : Nat) (ax : Axis) (part last : Bool) (s : State) : State :=
  match getSurf n s with
  | none => s
  | some f =>
    if f.raw.isEmpty then s
    else
      let b := f.sub s
      let start := (f.raw.filterMap (·.start)).foldl min f.fin
      let r := recordOn (planCtx f.plan s) (b.f 0x1E 1)
        ⟨0x0060, recBytes (0x90 + 4 * b.f 0x12 2 * f.raw.length)
          , rawPayload n f b engine ax (f.swept - f.raw.length) part last, start, f.fin⟩ s
      let s1 := if r.2 then modDen n (fun d => { d with rawDrops := satInc d.rawDrops }) r.1 else r.1
      modSurf n (fun f => { f with raw := [] }) s1

/-- The buffer in a state. -/
def Surf.bufIn (f : Surf) (st : BufState) : Option Nat := (List.range f.bufs.length).find? fun i =>
  decide ((nth f.bufs i ⟨.free, 0⟩).state = st)

/-- A buffer changes state. -/
def Surf.setBuf (i : Nat) (b : RenderBuf) (f : Surf) : Surf := { f with bufs := f.bufs.set i b }

/-- Column 0's boundary (R268, R271): a new colour table comes in and a free buffer is taken, or the frame is skipped. -/
def beginFrame (n : Nat) (s : State) : State :=
  match getSurf n s with
  | none => s
  | some f0 =>
    let f := { f0 with lut := f0.newLut.getD f0.lut, newLut := none, pix := [] }
    if f.bufs.isEmpty then modSurf n (fun _ => f) s
    else
      match f.bufIn .free with
      | some i => modSurf n (fun _ => f.setBuf i ⟨.rendering, f.frame⟩) s
      | none => modDen n (fun d => { d with renderSkips := satInc d.renderSkips }) (modSurf n (fun _ => f) s)

/-- A frame is complete (R260, R268): its image is in DRAM, its buffer ready, an older ready buffer free. -/
def endFrame (n : Nat) (s : State) : State :=
  match getSurf n s with
  | none => s
  | some f =>
    let b := f.sub s
    let cols := b.f 0x10 2
    let rows := b.f 0x12 2
    let s1 :=
      match f.bufIn .rendering with
      | none => s
      | some i =>
        let px := (List.range rows).map fun y => f.pix.map fun c => nth c y 0
        let older := f.bufs.map fun b => if b.state = .ready then { b with state := .free } else b
        modSurf n (fun f => Surf.setBuf i ⟨.ready, f.frame⟩ { f with bufs := older })
          (dramWrite (f.base + i * f.stride) (encodeImage (b.f 0x0C 1) cols rows px) false s)
    modDen n (fun d => { d with frames := d.frames + 1 })
      (modSurf n (fun f => { f with frame := f.frame + 1, swept := 0, pix := [], complete := true }) s1)

/-- One column is swept (R260): raw cells and pixels are taken, the cells decay; the last column ends the frame. -/
def sweepColumn (n engine : Nat) (ax : Axis) (part : Bool) (s : State) : State :=
  let s0 := match getSurf n s with | some f => if f.swept = 0 then beginFrame n s else s | none => s
  match getSurf n s0 with
  | none => s0
  | some f =>
    let b := f.sub s0
    let cols := b.f 0x10 2
    let col := nth f.cols f.swept ⟨[], 0, [], none⟩
    let every := b.f 0x1A 2
    let wantRaw := every ≠ 0 && decide (f.frame % every = 0)
    let drawn := (f.bufIn .rendering).isSome
    let pixels := fun (x : Nat) => nth f.lut (colourIndex (b.f 0x0F 1) (b.f 0x30 4) x) 0
    let next : DenCol := ⟨col.cells.map (decayCell (b.f 0x0B 1)), 0, [], none⟩
    let s1 := modSurf n (fun f =>
      { f with cols := f.cols.set f.swept next, swept := f.swept + 1
               raw := if wantRaw then f.raw ++ [col] else f.raw
               pix := if drawn then f.pix ++ [col.cells.map pixels] else f.pix }) s0
    let s2 := modDen n (fun d => { d with satCells := satAdd d.satCells col.sat.length }) s1
    let last := decide (f.swept + 1 = cols)
    let full := wantRaw && decide (65536 / b.f 0x12 2 ≤ f.raw.length + 1)
    let s3 := if full || last then closeRaw n engine ax part last s2 else s2
    if last then endFrame n s3 else s3

/-- Boundaries at or before spectrum `k` are swept, in order (R260); `fuel` bounds their number. -/
def sweepDue (n engine k : Nat) (ax : Axis) : Nat → State → State
  | 0, s => s
  | fuel + 1, s =>
    match getSurf n s with
    | none => s
    | some f =>
      if boundary (f.sub s) f.frame f.swept ≤ k then sweepDue n engine k ax fuel (sweepColumn n engine ax false s) else s

/-- The thermal ladder lets surfaces apply only even spectra from step 3 on, and only multiples of 4 from step 4 on (R538). -/
def ladderSkips (step number : Nat) : Bool :=
  (decide (3 ≤ step) && decide (number % 2 ≠ 0)) || (decide (4 ≤ step) && decide (number % 4 ≠ 0))

/-- A spectrum reaches a surface (R255-R260). -/
def densityHit (n : Nat) (sp : Spectrum) (s : State) : State :=
  match getSurf n s with
  | none => s
  | some f =>
    let b := f.sub s
    let cols := b.f 0x10 2
    let rows := b.f 0x12 2
    if sp.flags &&& b.f 0x1C 2 ≠ 0 || ladderSkips s.pwr.step.toNat sp.number then modDen n (fun d => { d with skipped := satInc d.skipped }) s
    else
      let s1 := sweepDue n sp.engine sp.number sp.axis (cols * (sp.number / max (b.f 0x28 4) 1 + 1)) s
      let logs := sp.logs.drop (b.f 0x20 4)
      let hits := (List.range cols).map fun c =>
        rowOf (sext 16 (b.f 0x14 2)) (b.f 0x16 2) rows (decide (b.f 0x0A 1 = 1)) (columnValue (b.f 0x09 1) (b.f 0x24 4) cols c logs)
      let out := (hits.filter (·.isNone)).length
      modDen n (fun d => { d with outOfRange := satAdd d.outOfRange out })
        (modSurf n (fun f => { f with cols := hitCols (b.f 0x18 2) sp.flags sp.span.1 none hits f.cols, fin := sp.span.2 }) s1)

/-- A spectrum reaches every surface of its stream. -/
def densitySpectrum (sp : Spectrum) (s : State) : State :=
  (List.range 8).foldl (fun s n =>
    if (getSurf n s).any (fun f => decide (f.plan = sp.plan) && decide (f.stream = sp.idx)) then densityHit n sp s else s) s

/-! ### Life of a surface (R253, R261) -/

/-- A free surface number. -/
def freeSurf (s : State) : Option Nat := (List.range 8).find? fun n => (getSurf n s).isNone

/-- Bytes from one render buffer to the next: whole granules of 64 KB (R268). -/
def renderStride (b : SubBlk) : Nat := roundUp (imageBytes (b.f 0x0C 1) (b.f 0x10 2) (b.f 0x12 2)) granule

/-- A plan's surface comes into being, cleared, with its render chain at `base` (R253, R268). -/
def newSurf (plan n base : Nat) (b : SubBlk) (lut : Option Block) (s : State) : State :=
  let cells := List.replicate (b.f 0x12 2) 0
  let table := match lut with | some l => readLut (b.f 0x0E 1) l | none => greyTable (b.f 0x0E 1)
  let f : Surf :=
    { plan := plan, blk := b.idx, stream := b.f 0x08 1, cols := List.replicate (b.f 0x10 2) ⟨cells, 0, [], none⟩, frame := 0
      swept := 0, raw := [], pix := [], lut := table, newLut := none, liveLut := table
      bufs := List.replicate (b.f 0x0D 1) ⟨.free, 0⟩, base := base, stride := renderStride b, complete := false, fin := 0 }
  modDen n (fun d => { d with frames := 0 }) (modDpy (fun d => { d with surfs := d.surfs.set n (some f) }) s)

/-- A plan's surfaces start over with nothing counted (R47, R253). -/
def clearSurfs (plan : Nat) (s : State) : State :=
  (List.range 8).foldl (fun s n =>
    match getSurf n s with
    | none => s
    | some f =>
      if f.plan = plan then
        let cells := List.replicate ((f.sub s).f 0x12 2) 0
        modDen n (fun d => { d with frames := 0 })
          (modSurf n (fun f =>
            { f with cols := f.cols.map fun _ => ⟨cells, 0, [], none⟩, frame := 0, swept := 0, raw := [], pix := [], complete := false }) s)
      else s) s

/-- PLAN_STOP sweeps every column that the open frame has not swept yet, with PARTIAL (R261). -/
def stopSurf (n : Nat) (s : State) : State :=
  match getSurf n s with
  | none => s
  | some f =>
    match getX f.plan f.stream s with
    | none => s
    | some x =>
      let k := f.swept
      let cols := (f.sub s).f 0x10 2
      let ax := x.axis (x.position x.next s).1 s
      (List.range (cols - k)).foldl (fun s _ => sweepColumn n x.engine ax true s) s

/-- PLAN_STOP sweeps a plan's surfaces. -/
def stopSurfs (plan : Nat) (s : State) : State :=
  (List.range 8).foldl (fun s n => if (getSurf n s).any (fun f => decide (f.plan = plan)) then stopSurf n s else s) s

/-- A plan's surfaces and render chains are released (R42). -/
def releaseSurfs (plan : Nat) (s : State) : State :=
  (List.range 8).foldl (fun s n =>
    match getSurf n s with
    | none => s
    | some f =>
      if f.plan = plan then
        let s1 := modDpy (fun d => { d with surfs := d.surfs.set n none }) s
        if f.bufs.isEmpty then s1 else closeWindow f.base (freeAllocs (fun k => decide (k = .render n)) s1)
      else s) s

end Sys2Proof.Machine
end

