-- ==== Sys2Proof/Machine/Display.lean ====
section
/-!
DEFINITION. Panel scan-out: composition, latch points, flips, buffer releases and tearing-effect pacing (R269-R278).
-/

namespace Sys2Proof.Machine

/-- An output. -/
def getOut (o : Nat) (s : State) : DOut := nth s.dpy.outs o DOut.reset

/-- Change an output. -/
def modOut (o : Nat) (f : DOut → DOut) (s : State) : State := modDpy (fun d => { d with outs := modNth d.outs o f }) s

/-- A layer of an output. -/
def getLayer (o l : Nat) (s : State) : Layer := nth (getOut o s).layers l Layer.reset

/-- Change a layer. -/
def modLayer (o l : Nat) (f : Layer → Layer) (s : State) : State :=
  modOut o (fun d => { d with layers := modNth d.layers l f }) s

/-- Active width and height (R419). -/
def DOut.width (d : DOut) : Nat := nth d.timing 0 0
@[inherit_doc DOut.width] def DOut.height (d : DOut) : Nat := nth d.timing 1 0

/-- Ports that an output drives (R269). -/
def DOut.ports (d : DOut) : Nat := if d.lockstep then 2 else 1

/-- Bits per pixel on the link, in 1/16 bit (R272). -/
def DOut.bpp16 (d : DOut) : Nat := if d.format = 1 then 384 else if d.format = 2 then 480 else nth d.dsc 2 0

/-- Coarse ticks of a frame period. -/
def DOut.period (d : DOut) : Nat := 800000000 * 1000 / max d.refresh 1

/-- Coarse ticks of a command-mode frame transfer: the frame's bits over all data lanes. -/
def DOut.transferTicks (d : DOut) : Nat := cdiv (d.width * d.height * d.bpp16 * 800) (16 * 4 * d.ports * max d.laneMbps 1)

/-- Width and height of a layer's picture: a DRAM image, or the surface's columns and rows (R270). -/
def Layer.size (l : Layer) (s : State) : Nat × Nat :=
  if l.source = 1 then (l.width, l.height)
  else let b := planSub l.plan 8 l.surface s; (b.f 0x10 2, b.f 0x12 2)

/-- DRAM reader demand of a layer in bytes per second (R270): 4 * W * H * refresh for DRAM and RENDER. -/
def Layer.demand (l : Layer) (refresh : Nat) (s : State) : Nat :=
  if l.enabled && decide (l.source ≠ 3) then let z := l.size s; cdiv (4 * z.1 * z.2 * refresh) 1000 else 0

/-! ### Reading a layer's picture (R265-R271, R452) -/

/-- Pixels of a linear or TL16 image: none where the pixel lies in a poisoned codeword. -/
def plainImage (fmt w h base : Nat) (argb : Bool) (s : State) : List (Option Pixel) :=
  let at_ := fun (x y : Nat) =>
    if fmt = 1 then 4 * (y * w + x) else 1024 * (y / 16 * (w / 16) + x / 16) + 4 * (y % 16 * 16 + x % 16)
  ((List.range h).map fun y => (List.range w).map fun x =>
    let a := base + at_ x y
    if s.dram.poison.contains (a / 128) then none else some (readPixel argb (Memory.readNat a 4 s.dram.mem))).flatten

/-- The tiles of a PTC image (R267): none where a tile fails, or its header lies in a poisoned codeword. -/
def ptcTiles (w h base : Nat) (s : State) : List (Option (List Nat)) :=
  let n := (w / 16) * (h / 16)
  (List.range n).map fun t =>
    if s.dram.poison.contains ((base + 8 * t) / 128) then none
    else decodeTile (leNat (s.dram.readBytes (base + 8 * t) 8)) (s.dram.readBytes (base + 8 * n + 1024 * t) 1024)

/-- Pixels of a PTC image, and the number of tiles that fail. -/
def ptcImage (w h base : Nat) (argb : Bool) (s : State) : List (Option Pixel) × Nat :=
  let ts := ptcTiles w h base s
  (((List.range h).map fun y => (List.range w).map fun x =>
      (nth ts (y / 16 * (w / 16) + x / 16) none).map fun px => readPixel argb (nth px (y % 16 * 16 + x % 16) 0)).flatten
    , (ts.filter (·.isNone)).length)

/-- Pixels of a DLIVE layer: the surface's cells through its table (R264, R271). -/
def liveImage (f : Surf) (b : SubBlk) : List (Option Pixel) :=
  let argb := decide (b.f 0x0E 1 = 2)
  ((List.range (b.f 0x12 2)).map fun y => f.cols.map fun c =>
    some (readPixel argb (nth f.liveLut (colourIndex (b.f 0x0F 1) (b.f 0x30 4) (nth c.cells y 0)) 0))).flatten

/-- What a layer's fetch gives: its pixels row by row (none: fallback colour), failed tiles, and the DRAM range read. -/
def Layer.fetch (l : Layer) (areaBase : Nat) (s : State) : List (Option Pixel) × Nat × Nat × Nat :=
  let z := l.size s
  let dark := List.replicate (z.1 * z.2) (none : Option Pixel)
  let image := fun (fmt base : Nat) (argb : Bool) =>
    let n := imageBytes fmt z.1 z.2
    if inWindow base n s then
      if fmt = 3 then let p := ptcImage z.1 z.2 base argb s; (p.1, p.2, base, n) else (plainImage fmt z.1 z.2 base argb s, 0, base, n)
    else (dark, 0, 0, 0)
  if l.source = 1 then image l.format (areaBase + l.cur.base) l.argb
  else
    let b := planSub l.plan 8 l.surface s
    match (surfOf l.plan l.surface s).bind fun n => getSurf n s with
    | none => (dark, 0, 0, 0)
    | some f =>
      if !(planRuns l.plan s && f.complete) then (dark, 0, 0, 0)
      else if l.source = 3 then (liveImage f b, 0, 0, 0)
      else
        match l.shown with
        | none => (dark, 0, 0, 0)
        | some i => image (b.f 0x0C 1) (f.base + i * f.stride) (decide (b.f 0x0E 1 = 2))

/-! ### Composition (R270) -/

/-- One component: source over destination. -/
def mixOver (alpha src dst : Nat) : Nat := (src * alpha + dst * (65025 - alpha) + 32512) / 65025

/-- A pixel drawn over another with a plane's alpha. -/
def overPixel (plane : Nat) (src dst : Pixel) : Pixel :=
  let a := plane * (src.a * 85)
  ⟨mixOver a src.r dst.r, mixOver a src.g dst.g, mixOver a src.b dst.b, 3⟩

/-- A layer's picture over what lies below it. -/
def overLayer (w : Nat) (l : Layer) (size : Nat × Nat) (px : List (Option Pixel)) (fallback : Pixel) (below : List Pixel) : List Pixel :=
  below.zipIdx.map fun p =>
    let x := p.2 % w
    let y := p.2 / w
    if decide (l.x ≤ x) && decide (x < l.x + size.1) && decide (l.y ≤ y) && decide (y < l.y + size.2) then
      overPixel l.alpha ((nth px ((y - l.y) * size.1 + (x - l.x)) none).getD fallback) p.1
    else p.1

/-- An output pixel (R270): RGB888 and DSC round to 8 bits. -/
def outPixel (fmt : Nat) (p : Pixel) : Nat :=
  if fmt = 2 then packBits [(0, 10, p.b), (10, 10, p.g), (20, 10, p.r)]
  else
    let r8 := fun (c : Nat) => min 255 ((c + 2) >>> 2)
    packBits [(0, 8, r8 p.b), (8, 8, r8 p.g), (16, 8, r8 p.r)]

/-- The frame of an output as it stands, with the reports of its fetches: it leaves on the port. -/
def sendFrame (o : Nat) (s : State) : State :=
  let d := getOut o s
  let w := d.width
  let base := List.replicate (w * d.height) (colourPixel d.background.toNat)
  let step := fun (acc : List Pixel × State) (l : Layer) =>
    if l.enabled then
      let f := l.fetch d.areaBase acc.2
      let s1 := modOut o (fun d => { d with ptcFails := satAdd d.ptcFails f.2.1 }) acc.2
      (overLayer w l (l.size acc.2) f.1 (colourPixel d.fallback.toNat) acc.1, (dramRead 5 (some d.owner) f.2.2.1 f.2.2.2 s1).2)
    else acc
  let r := d.layers.foldl step (base, s)
  emit (.frame o d.frame.toNat ([⟨0, 2, w⟩, ⟨2, 2, d.height⟩, ⟨4, 1, d.format⟩, ⟨5, 1, b2n d.lockstep⟩]
    ++ arrayFields 0x10 4 (r.1.map (outPixel d.format)))) r.2

/-! ### Flips and releases (R276, R277) -/

/-- A buffer's release is posted to an output's owner: reason 0 replaced, 1 superseded, 2 disabled. -/
def sendRelease (o layer flip reason : Nat) (s : State) : State :=
  sendEvent (getOut o s).owner 0x0030 flip 0 0 (packBits [(0, 1, o), (1, 2, layer), (3, 2, reason)]) s

/-- Pending flips complete with SUPERSEDED and their buffers are released. -/
def supersedeFlips (o reason : Nat) (s : State) : State :=
  let d := getOut o s
  let s1 := d.flips.foldl (fun s f => completeBy (some f.asker) .superseded 0 0 s) (modOut o (fun d => { d with flips := [] }) s)
  (List.range 4).foldl (fun s l =>
    match (getLayer o l s).pend with
    | none => s
    | some p => sendRelease o l p.flip reason (modLayer o l (fun l => { l with pend := none }) s)) s1

/-- Render buffers that some layer shows, for a surface. -/
def shownSomewhere (plan surface buf : Nat) (s : State) : Bool :=
  s.dpy.outs.any fun d => d.layers.any fun l =>
    l.enabled && decide (l.source = 2) && decide (l.plan = plan) && decide (l.surface = surface) && decide (l.shown = some buf)

/-- A buffer that no layer shows any more becomes free. -/
def dropShown (plan surface buf : Nat) (s : State) : State :=
  if shownSomewhere plan surface buf s then s
  else
    match surfOf plan surface s with
    | none => s
    | some n => modSurf n (fun f => if (nth f.bufs buf ⟨.free, 0⟩).state = .shown then f.setBuf buf ⟨.free, 0⟩ else f) s

/-- A layer stops (R277): its pending flip and its installed buffer are released. -/
def stopLayer (o l : Nat) (s : State) : State :=
  let y := getLayer o l s
  if !y.enabled then s
  else
    let s1 := modLayer o l (fun _ => Layer.reset) s
    if y.source = 1 then
      let d := getOut o s1
      let s2 := match y.pend with | none => s1 | some p => sendRelease o l p.flip 2 s1
      let lost := d.flips.filter fun f => decide (f.mask = 2 ^ l)
      let s3 := lost.foldl (fun s f => completeBy (some f.asker) .superseded 0 0 s)
        (modOut o (fun d => { d with flips := (d.flips.filter fun f => decide (f.mask ≠ 2 ^ l)).map fun f =>
          { f with mask := if f.mask.testBit l then f.mask - 2 ^ l else f.mask } }) s2)
      sendRelease o l y.cur.flip 2 s3
    else match y.shown with
      | none => s1
      | some b => dropShown y.plan y.surface b s1

/-- An output is disabled (R276, R277): flips are superseded, layers stop, its area and window go. -/
def disableOutput (o : Nat) (s : State) : State :=
  let d := getOut o s
  if !d.enabled then s
  else
    let s1 := (List.range 4).foldl (fun s l => stopLayer o l s) (supersedeFlips o 1 s)
    let s2 := (getOut o s1).releases.foldl (fun s r => sendRelease o r.layer r.flip 0 s) s1
    let s3 := closeWindow d.areaBase (freeAllocs (fun k => decide (k = .display o)) s2)
    modOut o (fun d => { DOut.reset with frame := d.frame, teTimeouts := d.teTimeouts, teSkips := d.teSkips
                                         ptcFails := d.ptcFails, underruns := d.underruns, fallback := d.fallback
                                         background := d.background, latch := d.latch, panel := d.panel }) s3

/-- Every layer on a destroyed plan's surfaces is disabled and its owner told (R271). -/
def dropPlanLayers (plan : Nat) (s : State) : State :=
  (List.range 2).foldl (fun s o => (List.range 4).foldl (fun s l =>
    let y := getLayer o l s
    if y.enabled && decide (y.source ≠ 1) && decide (y.plan = plan) then
      stopLayer o l (sendEvent (getOut o s).owner 0x0031 y.surface 0 0 (packBits [(0, 1, o), (1, 2, l)]) s)
    else s) s) s

/-! ### Latch points (R268, R275, R276) -/

/-- Flips recorded before the latch point are taken: layers fetch the new images and the flips complete. -/
def takeFlips (o : Nat) (s : State) : State :=
  let d := getOut o s
  let s1 := (List.range 4).foldl (fun s l =>
    match (getLayer o l s).pend with
    | none => s
    | some p =>
      let old := (getLayer o l s).cur
      modOut o (fun d => { d with releases := d.releases ++ [⟨l, old.flip⟩] })
        (modLayer o l (fun y => { y with cur := p, pend := none }) s)) s
  d.flips.foldl (fun s f => completeBy (some f.asker) .success d.frame.toNat 0 s) (modOut o (fun d => { d with flips := [] }) s1)

/-- A RENDER layer takes its chain's ready buffer (R268). -/
def takeReady (o l : Nat) (s : State) : State :=
  let y := getLayer o l s
  if !(y.enabled && decide (y.source = 2)) then s
  else
    match surfOf y.plan y.surface s with
    | none => s
    | some n =>
      match (getSurf n s).bind fun f => (f.bufIn .ready).map fun i => (f, i) with
      | none => s
      | some (f, i) =>
        let b := nth f.bufs i ⟨.free, 0⟩
        let s1 := modLayer o l (fun y => { y with shown := some i }) (modSurf n (fun f => f.setBuf i { b with state := .shown }) s)
        match y.shown with
        | none => s1
        | some old => if old = i then s1 else dropShown y.plan y.surface old s1

/-- Colour tables of the surfaces that an output's DLIVE layers show (R271). -/
def takeTables (o : Nat) (s : State) : State :=
  (getOut o s).layers.foldl (fun s y =>
    if y.enabled && decide (y.source = 3) then
      match surfOf y.plan y.surface s with
      | none => s
      | some n => modSurf n (fun f => { f with liveLut := f.newLut.getD f.lut }) s
    else s) s

/-- A latch point of an output (R275): the frame that follows carries the new DPY_FRAME. -/
def latchOutput (o : Nat) (s : State) : State :=
  let d := getOut o s
  let s1 := modOut o (fun d => { d with frame := d.frame + 1, latch := BitVec.ofNat 128 (now s), latchTick := nowTick s
                                        busyUntil := nowTick s + if d.cmdMode then d.transferTicks else 0 }) s
  let s2 := (List.range 4).foldl (fun s l => takeReady o l s) (takeFlips o s1)
  if d.enabled then sendFrame o (takeTables o s2) else s2

/-- The latch point of a video-mode output falls due (R275). -/
def latchVideo (o : Nat) (s : State) : State :=
  let d := getOut o s
  if d.enabled && !d.cmdMode then latchOutput o (advanceToTick (d.latchTick + d.period) s) else s

/-- A TE edge (R275, R278): low time before it and pulse width in ns. -/
def teEdge (o lowNs pulseNs : Nat) (s : State) : State :=
  let d := getOut o s
  if d.enabled && d.cmdMode && decide (1000 ≤ lowNs) && decide (100 ≤ pulseNs) then
    let s1 := if d.inFallback then sendEvent d.owner 0x0033 o 0 0 0 (modOut o (fun d => { d with inFallback := false }) s) else s
    if nowTick s < d.busyUntil then modOut o (fun d => { d with teSkips := satInc d.teSkips, teRaised := false }) s1
    else latchOutput o (modOut o (fun d => { d with teRaised := false }) s1)
  else s

/-- No qualified TE edge has arrived within te_timeout_ms of the last latch point (R278). -/
def teTimeout (o : Nat) (s : State) : State :=
  let d := getOut o s
  if d.enabled && d.cmdMode && decide (d.teTimeout ≠ 0) && !d.teRaised then
    sendEvent d.owner 0x0032 o 0 0 0
      (modOut o (fun d => { d with teRaised := true, inFallback := d.teFallback, teTimeouts := satInc d.teTimeouts })
        (advanceToTick (d.latchTick + d.teTimeout * 800000) s))
  else s

/-- A self-timed transfer starts in fallback (R278), a refresh period after the last latch point. -/
def selfTimed (o : Nat) (s : State) : State :=
  let d := getOut o s
  if d.enabled && d.cmdMode && d.inFallback then latchOutput o (advanceToTick (d.latchTick + d.period) s) else s

/-- The first replaced buffer's release is posted (R277). -/
def releaseBuffer (o : Nat) (s : State) : State :=
  match (getOut o s).releases with
  | [] => s
  | r :: rest => sendRelease o r.layer r.flip 0 (modOut o (fun d => { d with releases := rest }) s)

/-! ### The panel (R274) -/

/-- The panel's response to a DCS read arrives: at most 16 bytes go to host memory. -/
def panelResponse (o : Nat) (data : Block) (s : State) : State :=
  match (getOut o s).panel with
  | none => s
  | some p =>
    let bs := data.take 16
    completeBy (some p.asker) .success 0 bs.length
      (modOut o (fun d => { d with panel := none }) (emit (.hostWrite p.fn p.addr bs) s))

/-- The panel's response does not arrive within 10 ms. -/
def panelLate (o : Nat) (s : State) : State :=
  match (getOut o s).panel with
  | none => s
  | some p =>
    completeBy (some p.asker) .panelTimeout 0 0
      (modOut o (fun d => { d with panel := none }) (advanceToTick (p.start + 8000000) s))

/-- LINE of DPY_STATUS (R281): in video mode lines are counted from the latch point, the start of line v_active; in command
mode the line of the transfer under way. -/
def DOut.lineNow (d : DOut) (t : Nat) : Nat :=
  let vt := max (nth d.timing 3 0) 1
  if !d.enabled then 0
  else if d.cmdMode then (if t < d.busyUntil then (t - d.latchTick) * d.height / max d.transferTicks 1 else 0)
  else (d.height + (t - d.latchTick) * vt / max d.period 1) % vt

end Sys2Proof.Machine
end

