-- ==== Sys2Proof/Machine/PlanCheck.lean ====
section
/-!
DEFINITION. Reading and checking a plan object (R10, R50, R405 step 10, R412-R414, with the ranges of R169, R179, R191,
R204, R217, R218, R227-R233, R244, R254).
-/

namespace Sys2Proof.Machine

/-! ### The sub-blocks (R413) -/

/-- Size of a sub-block by kind; HOP depends on its hop_count. -/
def subBytes (kind hops : Nat) : Option Nat :=
  match kind with
  | 1 => some 0x40 | 2 => some (0x10 + 16 * hops) | 3 => some 0x70 | 4 => some 0x30 | 5 => some 0x10 | 6 => some 0x80
  | 7 => some 0x20 | 8 => some 0x40 | _ => none

/-- Largest sub_index by kind. -/
def subIndexMax (kind : Nat) : Nat :=
  match kind with | 1 => 31 | 2 => 31 | 3 => 35 | 4 => 35 | 5 => 0 | _ => 7

/-- Sub-blocks from an offset on, and the offset of the first field that keeps the rest from being read. -/
def readSubs (b : Block) : Nat → Nat → List SubBlk × Option Nat
  | 0, _ => ([], none)
  | n + 1, off =>
    if b.length ≤ off then ([], none)
    else
      let kind := blkFld b off 2
      let len := blkFld b (off + 2) 2
      if kind = 0 || decide (8 < kind) then ([], some off)
      else if len < 16 || decide (len % 16 ≠ 0) || decide (b.length < off + len) then ([], some (off + 2))
      else
        let r := readSubs b n (off + len)
        (⟨kind, blkFld b (off + 4) 1, off, (b.drop off).take len⟩ :: r.1, r.2)

/-- A plan object as a plan that has not been created. -/
def viewPlan (ctx : Nat) (b : Block) : Plan :=
  { id := 0, ctx := ctx, head := b.take 64, subs := (readSubs b 4096 64).1, phase := .created, order := 0, startTime := 0
    startIndex := 0, firstTag := 0, lastTag := none, starter := none, stopper := none, destroyed := false, luts := []
    duty := none, keep := [], answers := [], reserved := false }

/-! ### Fields -/

/-- A field of a sub-block at its offset in the plan object, with the reserved bits inside it. -/
def sfB (b : SubBlk) (off len rbits : Nat) (zeroBad : Bool) (ok : Nat → Bool) : Fd :=
  ⟨b.off + off, len, b.f off len, zeroBad, ok (b.f off len), rbits⟩

/-- A field of a sub-block. -/
def sf (b : SubBlk) (off len : Nat) (zeroBad : Bool) (ok : Nat → Bool) : Fd := sfB b off len 0 zeroBad ok

/-- A field in lo..hi; with lo above 0 its 0 is refused. -/
def sfIn (b : SubBlk) (off len lo hi : Nat) : Fd := sf b off len (decide (0 < lo)) fun v => decide (lo ≤ v) && decide (v ≤ hi)

/-- A field in 0..hi whose 0 has a meaning, or that must be 0 where it is not used. -/
def sfIf (use : Bool) (b : SubBlk) (off len lo hi : Nat) : Fd :=
  if use then sfIn b off len lo hi else sf b off len false fun v => decide (v = 0)

/-- The frame of a sub-block (R413). -/
def frameFds (p : Plan) (b : SubBlk) : List Fd :=
  let same := p.subs.any fun x => decide (x.off < b.off) && decide (x.kind = b.kind) && decide (x.idx = b.idx)
    && (decide (b.kind ≠ 2) || decide (x.f 0x08 1 = b.f 0x08 1))
  let parent := match b.kind with
    | 2 => (p.sub? 1 b.idx).isSome | 4 => (p.sub? 3 b.idx).isSome | _ => true
  [sf b 0 2 true fun _ => true, sf b 2 2 false fun v => decide (some v = subBytes b.kind (b.f 0x09 1))
   , sf b 4 1 false fun v => decide (v ≤ subIndexMax b.kind) && !same && parent]

/-! ### ZOOM and HOP (R159, R169, R170) -/

/-- The block is the first channel of its front unit. -/
def frontFirst (p : Plan) (b : SubBlk) : Bool := p.frontFirsts.any fun f => decide (f.off = b.off)

/-- ZOOM fields. -/
def zoomFds (p : Plan) (b : SubBlk) : List Fd :=
  let first := frontFirst p b
  let size := ((p.kindSubs 1).filter fun z => sameFront z b).length
  let fronts := (p.frontFirsts.filter fun z => decide (z.f 0x20 1 = b.f 0x20 1) && decide (z.idx ≤ b.idx)).length
  [sfB b 0x08 8 (2 ^ 64 - 2 ^ 48) false (fun _ => true), sfB b 0x10 8 (2 ^ 64 - 2 ^ 48) false (fun _ => true)
   , sfB b 0x18 8 (2 ^ 64 - 2 ^ 41) false (fun v => decide (v = 0) || (decide (2 ^ 39 ≤ v) && decide (v ≤ 2 ^ 40)))
   , sf b 0x20 1 false (fun v => decide (v ≤ 3) && p.holdsPair v && decide (fronts ≤ 2)), sfIn b 0x21 1 3 6
   , sf b 0x22 1 false (fun v => decide (v + b.f 0x21 1 ≤ 16))
   , sf b 0x23 1 first (fun v => decide (v ≤ 4) && (!first || decide (v = size))), sfIn b 0x24 1 0 6, sfIn b 0x25 1 0 1]
  ++ ((rangeFrom 0x26 19).map fun o => sfIn b o 1 0 3)

/-- HOP fields. -/
def hopFds (p : Plan) (b : SubBlk) : List Fd :=
  [sf b 0x08 1 false (fun v => decide (v = 1) || (decide (v = 0) && ((p.sub? 1 b.idx).any fun z => frontFirst p z)))
   , sfIn b 0x09 1 1 16, sfIn b 0x0A 1 0 1]
  ++ ((List.range (min (b.f 0x09 1) 16)).map fun e =>
    [sfB b (0x10 + 16 * e) 8 (2 ^ 64 - 2 ^ 48) false (fun _ => true), sf b (0x18 + 16 * e) 4 true (fun _ => true)]).flatten

/-! ### TRANSFORM (R174, R179, R191) -/

/-- Is this a window code: a ROM window or a user table handle? -/
def windowCode (v : Nat) : Bool := decide (v ≤ 23) || (decide (33 ≤ v) && decide (v ≤ 40))

/-- Is this a number of taps? -/
def tapsCode (v : Nat) : Bool := [0, 2, 4, 8, 16].contains v

/-- log2_size, taps and overlap at their declared maxima (R179). -/
def SubBlk.maxLg (b : SubBlk) : Nat := if b.f 0x10 1 = 0 then b.f 0x0A 1 else b.f 0x10 1
@[inherit_doc SubBlk.maxLg] def SubBlk.maxTaps (b : SubBlk) : Nat := if b.f 0x11 1 = 0 then b.f 0x0D 1 else b.f 0x11 1
@[inherit_doc SubBlk.maxLg] def SubBlk.maxOverlap (b : SubBlk) : Nat := if b.f 0x12 1 = 0 then b.f 0x0B 1 else b.f 0x12 1

/-- Bins of a TRANSFORM block at its original size. -/
def SubBlk.xbins (b : SubBlk) : Nat := binsOf (b.f 0x08 1) (b.f 0x0A 1)

/-- Fields of reducer r. -/
def reducerFds (b : SubBlk) (r : Nat) : List Fd :=
  let o := 0x30 + 16 * r
  let use := decide (r < b.f 0x15 1)
  [sfIf use b o 1 1 5, sfIf use b (o + 2) 2 1 4096, sfIf use b (o + 4) 4 1 65536
   , sf b (o + 8) 4 false (fun v => if use then decide (v < b.xbins) else decide (v = 0))
   , sf b (o + 12) 4 use (fun v => if use then decide (v + b.f (o + 8) 4 ≤ b.xbins)
       && decide (cdiv v (max (b.f (o + 2) 2) 1) ≤ 32768) else decide (v = 0))]

/-- TRANSFORM fields. -/
def xformFds (p : Plan) (b : SubBlk) : List Fd :=
  let e := b.f 0x08 1
  let z := decide (e = 4)
  let lg := b.f 0x0A 1
  let taps := b.f 0x0D 1
  let twin := (p.kindSubs 3).any fun x => decide (x.off < b.off) && decide (x.f 0x08 1 = e)
    && (!z || decide (x.f 0x09 1 = b.f 0x09 1))
  let det := decide (b.f 0x14 1 ≠ 0)
  [sf b 0x08 1 false (fun v => decide (v = 4) || (decide (v < 4) && p.holdsPair v && !twin))
   , sf b 0x09 1 false (fun v => if z then (p.sub? 1 v).isSome && !twin else decide (v = 0)), sfIn b 0x0A 1 8 20
   , sfIn b 0x0B 1 0 2, sf b 0x0C 1 false windowCode
   , sf b 0x0D 1 false (fun v => tapsCode v && decide (v * 2 ^ lg ≤ 2 ^ 22) && (!z || decide (v = 0)))
   , sfIn b 0x0E 1 0 1, sfIn b 0x0F 1 0 1
   , sf b 0x10 1 false (fun v => decide (v = 0) || (decide (lg ≤ v) && decide (v ≤ 20)))
   , sf b 0x11 1 false (fun _ => tapsCode b.maxTaps && decide (taps ≤ b.maxTaps) && decide (b.maxTaps * 2 ^ b.maxLg ≤ 2 ^ 22)
       && (!z || decide (b.maxTaps = 0)))
   , sf b 0x12 1 false (fun v => decide (v = 0) || (decide (b.f 0x0B 1 ≤ v) && decide (v ≤ 2))), sfIn b 0x13 1 1 2
   , sfIn b 0x14 1 0 7, sfIn b 0x15 1 0 4, sfIf det b 0x16 1 1 8, sfIf (decide (b.f 0x15 1 ≠ 0)) b 0x17 1 1 8
   , sf b 0x18 4 false (fun v => decide (v < 2 ^ lg ∨ 32 ≤ lg)), sfIf det b 0x1C 4 0 (2 ^ 24)
   , sf b 0x20 4 false (fun v => decide (v < b.xbins)), sf b 0x24 4 true (fun v => decide (v + b.f 0x20 4 ≤ b.xbins))]
  ++ ((List.range 4).map (reducerFds b)).flatten

/-! ### INTEGRATION and CROSS (R204, R217, R218) -/

/-- A binary32 word is a number in the open or half-open range given by integer bounds lo < v and v < hi or v <= hi. -/
def floatIn (v lo hi : Nat) (closed : Bool) : Bool :=
  let fin := decide (bits v 23 8 ≠ 255) && decide (bits v 31 1 = 0)
  let f := FV.frac f32 v
  fin && decide (lo * f.2 < f.1) && (if closed then decide (f.1 ≤ hi * f.2) else decide (f.1 < hi * f.2))

/-- INTEGRATION fields. -/
def integFds (p : Plan) (b : SubBlk) : List Fd :=
  let x := p.sub 3 b.idx
  let on := decide (b.f 0x08 1 ≠ 0)
  let kurt := decide (b.f 0x08 1 = 2)
  let m := b.f 0x0A 1
  [sfIn b 0x08 1 0 2, sfIf on b 0x09 1 1 2, sfIf kurt b 0x0A 1 4 13, sfIf kurt b 0x0B 1 0 1, sfIf on b 0x0C 1 1 8
   , sfIf on b 0x0E 2 0 0xFFF
   , sf b 0x10 4 false (fun v => if on then decide (v < binsOf (x.f 0x08 1) x.maxLg) else decide (v = 0))
   , sf b 0x14 4 on (fun v => if on then decide (v + b.f 0x10 4 ≤ x.xbins) else decide (v = 0))
   , sf b 0x18 8 on (fun v => if on then decide (v ≤ 2 ^ 32) && (!kurt || decide (v % 2 ^ m = 0)) else decide (v = 0))
   , sf b 0x20 4 false (fun v => decide (v = 0) || (kurt && floatIn v 0 1 false))
   , sf b 0x24 4 kurt (fun v => if kurt then floatIn v 1 64 true else decide (v = 0)), sfIf on b 0x28 4 1 32000]

/-- Two streams agree as a cross pair asks (R218). -/
def crossAgree (p : Plan) (a b : SubBlk) : Bool :=
  let ia := p.sub 4 a.idx
  let ib := p.sub 4 b.idx
  decide (a.f 0x0A 1 = b.f 0x0A 1) && decide (a.f 0x0B 1 = b.f 0x0B 1) && decide (a.f 0x0C 1 = b.f 0x0C 1)
    && decide (a.f 0x0D 1 = b.f 0x0D 1) && decide (a.f 0x13 1 = b.f 0x13 1) && decide (ia.f 0x08 1 ≠ 0)
    && decide (ib.f 0x08 1 ≠ 0) && decide (ia.f 0x10 4 = ib.f 0x10 4) && decide (ia.f 0x14 4 = ib.f 0x14 4)
    && decide (ia.f 0x18 8 = ib.f 0x18 8)

/-- The TRANSFORM block of XEn in a plan. -/
def Plan.engineSub (p : Plan) (e : Nat) : Option SubBlk := (p.kindSubs 3).find? fun b => decide (b.f 0x08 1 = e)

/-- Engines of cross pair 0-5 (R217). -/
def pairEngines (q : Nat) : Nat × Nat :=
  match q with | 0 => (0, 1) | 1 => (0, 2) | 2 => (0, 3) | 3 => (1, 2) | 4 => (1, 3) | _ => (2, 3)

/-- CROSS fields. -/
def crossFds (p : Plan) (b : SubBlk) : List Fd :=
  let pairOk := fun (q : Nat) =>
    match p.engineSub (pairEngines q).1, p.engineSub (pairEngines q).2 with
    | some x, some y => crossAgree p x y
    | _, _ => false
  [sf b 0x08 1 true (fun v => decide (v < 64) && (maskIdx v 6).all pairOk), sfIn b 0x09 1 1 8]

/-! ### TRIGGER (R227-R233) -/

/-- Fields of a source's parameters at block offset `o`. -/
def sourceFds (p : Plan) (b : SubBlk) (src o : Nat) : List Fd :=
  let x := p.sub? 3 (b.f o 1)
  let nb := (x.map (·.xbins)).getD 0
  let target := b.f o 1
  match src with
  | 1 =>
    [sf b o 1 true (fun v => (decide (v ≤ 4) && p.holdsPair (v - 1)) || (decide (17 ≤ v) && decide (v ≤ 48) && (p.sub? 1 (v - 17)).isSome))
     , sfIn b (o + 1) 1 1 3, sfIn b (o + 2) 1 0 1
     , sf b (o + 4) 4 false (fun v => decide (v / 2 ^ 16 = if target ≤ 4 && bit v 15 then 0xFFFF else 0))
     , sf b (o + 8) 4 false (fun v => decide (v < 2 ^ 16))]
  | 2 =>
    [sf b o 1 false (fun _ => x.isSome), sfIn b (o + 1) 1 1 64, sf b (o + 4) 4 false (fun v => decide (v < nb))
     , sfIn b (o + 8) 4 1 (2 ^ 19), sfIn b (o + 12) 4 1 65535]
  | 3 =>
    [sf b o 1 false (fun _ => x.isSome), sfIn b (o + 1) 1 1 2, sf b (o + 2) 2 false (fun _ => true)
     , sf b (o + 4) 4 false (fun v => decide (v < nb)), sf b (o + 8) 4 true (fun v => decide (v + b.f (o + 4) 4 ≤ nb))
     , sfIn b (o + 12) 4 1 65535]
  | 4 =>
    [sf b o 1 false (fun v => x.isSome && decide ((p.sub 4 v).f 0x08 1 = 2)), sfIn b (o + 4) 4 1 (2 ^ 19)]
  | 5 => [sfIn b o 1 1 4, sfIn b (o + 1) 1 1 3]
  | 6 => [sfIn b o 1 1 6, if target ≤ 4 then sfIn b (o + 1) 1 1 3 else sfIn b (o + 1) 1 0 0]
  | 8 => [sf b o 16 false (fun _ => true)]
  | _ => []

/-- TRIGGER fields. -/
def triggerFds (p : Plan) (b : SubBlk) : List Fd :=
  let a := b.f 0x08 1
  let q := b.f 0x09 1
  let hasB := decide (q ≠ 0)
  let auto := decide (b.f 0x0A 1 = 3) || decide (a = 9)
  let out := b.f 0x0B 1
  [sfIn b 0x08 1 1 9, sfIn b 0x09 1 0 8, sfIn b 0x0A 1 1 3, sfIn b 0x0B 1 0 2
   , sf b 0x0C 1 false (fun v => decide (v = 0) || (decide (v = 1) && (decide (a = 2) || decide (q = 2)))), sfIn b 0x0D 1 0 8
   , sfIn b 0x0E 2 0 0xFFF, sfIn b 0x10 2 1 65535, sfIf hasB b 0x12 2 1 65535, sfIf (decide (out ≠ 0)) b 0x14 2 1 65535
   , sfIf hasB b 0x18 8 1 (2 ^ 48), sfIn b 0x20 8 0 (2 ^ 48), sfIn b 0x28 8 0 (2 ^ 48), sfIf auto b 0x30 4 1 (10 ^ 9)
   , sfIf (decide (out = 2)) b 0x34 4 0 (2 ^ 24)]
  ++ sourceFds p b a 0x40 ++ sourceFds p b q 0x60

/-! ### CAPTURE (R244) and DENSITY (R254) -/

/-- Largest ring_mb among a plan's captures of a source (R242). -/
def Plan.ringMb (p : Plan) (source : Nat) : Nat :=
  ((p.kindSubs 7).filter fun c => decide (c.f 0x08 1 = source)).foldl (fun m c => max m (c.f 0x10 4)) 0

/-- CAPTURE fields. -/
def captureBlkFds (p : Plan) (b : SubBlk) : List Fd :=
  let unit := b.f 0x09 1
  let twin := (p.kindSubs 7).any fun x => decide (x.off < b.off) && decide (x.f 0x09 1 = unit)
  let len := (p.ringMb (b.f 0x08 1) * 4 - 3) * 16384
  [sf b 0x08 1 true (fun v => (decide (v ≤ 4) && p.holdsPair (v - 1)) || (decide (17 ≤ v) && decide (v ≤ 48) && (p.sub? 1 (v - 17)).isSome))
   , sf b 0x09 1 false (fun v => (p.sub? 6 v).isSome && !twin), sfIn b 0x0A 1 0 1, sfIn b 0x0B 1 0 8
   , sf b 0x10 4 true (fun v => decide (64 ≤ v) && decide (v ≤ 10752) && decide (v % 64 = 0)), sf b 0x14 4 false (fun _ => true)
   , sf b 0x18 4 false (fun v => decide (b.f 0x0B 1 ≠ 0) || decide (v + b.f 0x14 4 ≤ len)), sfIn b 0x1C 4 1 65536]

/-- A multiple of 16 in lo..hi. -/
def mult16 (lo hi v : Nat) : Bool := decide (lo ≤ v) && decide (v ≤ hi) && decide (v % 16 = 0)

/-- DENSITY fields. -/
def densityFds (p : Plan) (b : SubBlk) : List Fd :=
  let x := p.sub? 3 (b.f 0x08 1)
  let nb := (x.map (·.xbins)).getD 0
  let render := decide (b.f 0x0C 1 ≠ 0)
  [sf b 0x08 1 false (fun _ => x.isSome), sfIn b 0x09 1 1 3, sfIn b 0x0A 1 0 1, sfIn b 0x0B 1 0 16, sfIn b 0x0C 1 0 3
   , sfIf render b 0x0D 1 2 4, sfIn b 0x0E 1 1 2, sfIn b 0x0F 1 1 2
   , sf b 0x10 2 true (fun v => mult16 16 4096 v && decide (v ≤ b.f 0x24 4)), sf b 0x12 2 true (mult16 16 1024)
   , sf b 0x14 2 false (fun _ => true), sfIn b 0x16 2 1 65535, sfIn b 0x18 2 0 1024, sfIn b 0x1A 2 0 65535
   , sfIn b 0x1C 2 0 0xFFF, sfIf (decide (b.f 0x1A 2 ≠ 0)) b 0x1E 1 1 8, sf b 0x20 4 false (fun v => decide (v < nb))
   , sf b 0x24 4 true (fun v => decide (v + b.f 0x20 4 ≤ nb)), sf b 0x28 4 true (fun _ => true)
   , sf b 0x2C 4 true (fun v => decide (v ≤ b.f 0x28 4)), sf b 0x30 4 true (fun _ => true), sf b 0x38 8 false (fun _ => true)]

/-! ### The whole object -/

/-- Fields of a sub-block after its frame. -/
def kindFds (p : Plan) (b : SubBlk) : List Fd :=
  match b.kind with
  | 1 => zoomFds p b | 2 => hopFds p b | 3 => xformFds p b | 4 => integFds p b | 5 => crossFds p b | 6 => triggerFds p b
  | 7 => captureBlkFds p b | _ => densityFds p b

/-- REFCLK in Hz (R52). -/
def refHz (s : State) : Nat := if s.tim.refFreq = 0 then 10 ^ 7 else if s.tim.refFreq = 1 then 10 ^ 8 else 4 * 10 ^ 8

/-- Fs of a plan can be made (R50): with the SPLL as REFCLK * M / N within the grade's range (R1, R2), with SCLK_IN as the
rate that the board table declares. -/
def rateOk (num den : Nat) (s : State) : Bool :=
  if den = 0 then false
  else if s.tim.sclkIn then decide (num * s.tim.rateDen = s.tim.rateNum * den)
  else
    let top := if s.host.part = 0x4108 then 8 * 10 ^ 9 else 128 * 10 ^ 8
    decide (4 * 10 ^ 9 * den ≤ num) && decide (num ≤ top * den)
      && (List.range 256).any fun k =>
        let n := k + 1
        decide (num * n % (den * refHz s) = 0) && decide (num * n ≤ 65535 * (den * refHz s))

/-- A field of the header. -/
def hf (p : Plan) (off len rbits : Nat) (zeroBad : Bool) (ok : Nat → Bool) : Fd := ⟨off, len, p.h off len, zeroBad, ok (p.h off len), rbits⟩

/-- Header fields (R412): `bytes` is the descriptor's plan_bytes, `whole` says that the sub-blocks end with the object. -/
def headerFds (p : Plan) (bytes : Nat) (whole : Bool) (s : State) : List Fd :=
  let period := p.h 0x20 4
  [hf p 0 4 0 true (fun v => decide (v = bytes)), hf p 4 2 0 true (fun v => decide (v = 1))
   , hf p 6 2 0 true (fun v => decide (v ≤ 160) && (!whole || decide (v = p.subs.length)))
   , hf p 8 8 0 true (fun v => rateOk v (p.h 0x10 4) s), hf p 0x10 4 0 true (fun _ => true)
   , hf p 0x14 1 0 false (fun v => decide (v < 16)), hf p 0x15 1 0 false (fun v => decide (v ≤ 8))
   , hf p 0x16 1 0 false (fun v => decide (v ≤ 8))]
  ++ ((List.range 4).map fun n => hf p (0x18 + n) 1 0x80 false fun v =>
      if p.holdsPair n then decide (v % 8 ≤ 5) else decide (v % 128 = 0))
  ++ [hf p 0x1C 4 0 false (fun _ => true), hf p 0x20 4 0 false (fun _ => true)
      , hf p 0x24 4 0 (decide (period ≠ 0)) (fun v => decide (v ≤ period))]

/-- Steps 2, 5 and 6 over a plan object (R405 step 10): status and result1 of the first failure. -/
def planObjectCheck (ctx bytes : Nat) (b : Block) (s : State) : Option (Status × Nat) :=
  let p := viewPlan ctx b
  let broken := (readSubs b 4096 64).2
  let fds := headerFds p bytes broken.isNone s
    ++ (p.subs.map fun x => frameFds p x ++ kindFds p x).flatten
    ++ (match broken with | none => [] | some o => [⟨o, 2, blkFld b o 2, true, false, 0⟩])
  let fin := match broken with | none => b.length | some o => o
  layoutCheck true (firstReserved (blkByte b) 0 fin fds) fds

end Sys2Proof.Machine
end

