-- ==== Sys2Proof/Machine/Trigger.lean ====
section
/-!
DEFINITION. Trigger units: sources, sequences, fires, TRIGOUT and the missed-trigger queue (R225-R240, R246, R248).
-/

namespace Sys2Proof.Machine

/-- A trigger unit. -/
def getUnit (n : Nat) (s : State) : TUnit := nth s.trg.units n TUnit.reset

/-- Change a trigger unit. -/
def modUnit (n : Nat) (f : TUnit → TUnit) (s : State) : State :=
  modTrg (fun t => { t with units := modNth t.units n f }) s

/-- The TRIGGER block that a unit serves (R414). -/
def unitBlk (n : Nat) (s : State) : SubBlk :=
  match (getUnit n s).plan with
  | none => SubBlk.none
  | some p => planSub p 6 (getUnit n s).blk s

/-- The units of a plan. -/
def unitsOf (plan : Nat) (s : State) : List Nat :=
  (List.range 8).filter fun n => decide ((getUnit n s).plan = some plan)

/-- The unit that serves a TRIGGER block of a plan. -/
def unitFor (plan blk : Nat) (s : State) : Option Nat := (unitsOf plan s).find? fun n => decide ((getUnit n s).blk = blk)

/-- Source code of a stage (R226). -/
def SubBlk.source (b : SubBlk) (stageB : Bool) : Nat := b.f (if stageB then 0x09 else 0x08) 1

/-- A source parameter of a stage (R414). -/
def SubBlk.param (b : SubBlk) (stageB : Bool) (off len : Nat) : Nat := b.f ((if stageB then 0x60 else 0x40) + off) len

/-- A unit skips the hold of R234: one source other than SPU, and no AUTO timeout. -/
def SubBlk.immediate (b : SubBlk) : Bool :=
  decide (b.source true = 0) && decide (b.source false ≠ 7) && decide (b.source false ≠ 9) && decide (b.f 0x0A 1 ≠ 3)

/-- A stage of a unit. -/
def TUnit.stage (u : TUnit) (stageB : Bool) : Stage := if stageB then u.stB else u.stA

/-- Change a stage. -/
def TUnit.modStage (stageB : Bool) (f : Stage → Stage) (u : TUnit) : TUnit :=
  if stageB then { u with stB := f u.stB } else { u with stA := f u.stA }

/-- Index of the next word of the pairs that a plan holds. -/
def planNext (plan : Nat) (s : State) : Nat :=
  match getPlan plan s with
  | none => 0
  | some p => ((maskIdx (p.h 0x14 1) 4).map fun n => pairNext n s).foldl max 0

/-- The lowest pair that a plan holds, whose words carry its TIME sources. -/
def planClock (plan : Nat) (s : State) : Option Nat := (getPlan plan s).bind fun p => (maskIdx (p.h 0x14 1) 4).head?

/-! ### TRIG marks (R236) -/

/-- TRIG on the newest or the one before of a list of words, by index. -/
def retagList (index : Nat) (l : List HWord) : List HWord := mapIf (·.index = index) (HWord.setTag tagTrig) l

/-- TRIG is set on a pair's word that is still in the trigger stage, wherever its copies have gone. -/
def retagPair (n index : Nat) (s : State) : State :=
  let tagP := fun (x : Nat × HWord) => if x.2.index = index then (x.1, x.2.setTag tagTrig) else x
  let s1 := modPair n (fun p => { p with last := p.last.map fun w => if w.index = index then w.setTag tagTrig else w }) s
  let s2 := (frontsOfPair n s1).foldl (fun s u => modFront u (fun f => { f with hist := retagList index f.hist }) s) s1
  let str := fun (x : XStream) => { x with hist := x.hist.map tagP }
  let s3 := modDsp (fun d => { d with streams := mapIf (·.engine = n) str d.streams }) s2
  let s4 := modCap n (fun r => { r with blks := r.blks.map fun b => { b with words := b.words.map tagP } }) s3
  let s5 : State := { s4 with disk := { s4.disk with exports := s4.disk.exports.map fun e =>
    { e with sources := mapIf (·.source = n) (fun c => { c with words := retagList index c.words }) e.sources } } }
  { s5 with fr := { s5.fr with shares := modNth s5.fr.shares n (retagList index) } }

/-- TRIG is set on a slot's newest word, wherever its copies have gone. -/
def retagSlot (n : Nat) (w : HWord) (s : State) : State :=
  let same := fun (x : HWord) => decide (x.index = w.index) && decide (x.frac = w.frac)
  let tagP := fun (x : Nat × HWord) => if same x.2 then (x.1, x.2.setTag tagTrig) else x
  let sl := getSlot n s
  let plan := sl.plan.getD 0
  let s1 := modSlot n (fun sl => { sl with last := sl.last.map fun x => if same x then x.setTag tagTrig else x }) s
  let isMine := fun (x : XStream) => decide (x.engine = 4) && decide (x.plan = plan) && decide (x.slot = n)
  let str := fun (x : XStream) => { x with hist := x.hist.map tagP }
  let s2 := modDsp (fun d => { d with streams := mapIf isMine str d.streams }) s1
  let mine := fun (r : CapRing) => decide (4 ≤ r.r) && decide (r.plan = plan) && decide (r.source = 17 + sl.channel)
  let retag := fun (r : CapRing) => { r with blks := r.blks.map fun b => { b with words := b.words.map tagP } }
  let s3 := modTrg (fun t => { t with rings := mapIf mine retag t.rings }) s2
  let src := fun (c : ExpSource) => { c with words := mapIf same (HWord.setTag tagTrig) c.words }
  let exp := fun (e : Export) => { e with sources := mapIf (·.source = 16 + sl.channel) src e.sources }
  { s3 with disk := { s3.disk with exports := mapIf (·.plan = plan) exp s3.disk.exports } }

/-- The word of every pair of a plan that holds a placement carries TRIG: at once while it is in the trigger stage (the
newest word or, for a crossing found with the next one, the one before), ahead while it has not been formed. Zoom words of
the plan take it when the position falls in one still to come. Answers whether any word took it. -/
def markTrig (plan place : Nat) (back : Nat) (s : State) : State × Bool :=
  let qw := place / 65536 / 8 * 8
  let pairs := match getPlan plan s with | none => [] | some p => maskIdx (p.h 0x14 1) 4
  let r := pairs.foldl (fun (r : State × Bool) n =>
    let next := pairNext n r.1
    if next ≤ qw then (modTrg (fun t => { t with ahead := (plan, n, qw) :: t.ahead }) r.1, true)
    else if next ≤ qw + back then (retagPair n qw r.1, true)
    else r) (s, false)
  if r.2 then
    ((List.range 32).foldl (fun s n =>
      if (getSlot n s).plan = some plan then
        let sl := getSlot n s
        let p := slotPos n sl.m s
        if p.1 * 65536 + p.2 ≤ place then modSlot n (fun sl => { sl with trigs := (place / 65536, place % 65536) :: sl.trigs }) s else s
      else s) r.1, true)
  else r

/-! ### TRIGOUT (R239) -/

/-- A fire of a unit with a trigout_mode schedules its rise; answers TRIGOUT_LATE. -/
def trigoutFire (n place : Nat) (s : State) : State × Bool :=
  let b := unitBlk n s
  let mode := b.f 0x0B 1
  let width := b.f 0x14 2
  let soon := nowTick s + 2
  let add := fun (t : Nat) (s : State) => modTrg (fun g => { g with out := { g.out with due := g.out.due ++ [(t, width)] } }) s
  if mode = 0 then (s, false)
  else if mode = 1 then (add soon s, false)
  else
    let target := timeOfPlace place s * tickRate + b.f 0x34 4 * 2 ^ 64
    if target + 2 ^ 64 ≤ s.tim.x then
      (modUnit n (fun u => { u with errLate := satInc u.errLate }) (add soon s), true)
    else (add (nowTick s + ticksUntilX target s) s, false)

/-- Units of the running plans that drive TRIGOUT (R239, R240). -/
def trigoutUnits (s : State) : List Nat :=
  (List.range 8).filter fun n => decide ((getUnit n s).plan.isSome) && decide ((unitBlk n s).f 0x0B 1 ≠ 0)

/-- TRIGOUT rises at a tick (R239); a rise while high extends the pulse. -/
def trigoutRise (tick width : Nat) (s : State) : State :=
  if s.trg.out.high then modTrg (fun t => { t with out := { t.out with merged := satInc t.out.merged, fallAt := tick + width } }) s
  else
    emit (.pin .trigOut true tick)
      (modTrg (fun t => { t with out := { t.out with high := true, rises := satInc t.out.rises, fallAt := tick + width } }) s)

/-- TRIGOUT falls. -/
def trigoutFall (tick : Nat) (s : State) : State :=
  if s.trg.out.high then emit (.pin .trigOut false tick) (modTrg (fun t => { t with out := { t.out with high := false } }) s) else s

/-! ### Fires (R235-R237, R248) -/

/-- TRIGGER payload (R248). -/
def triggerPayload (plan unit : Nat) (ev : TEvent) (flags number reason : Nat) (cap : Nat × Nat × Nat) (s : State) : List Fld :=
  [⟨0x40, 4, plan⟩, ⟨0x44, 1, unit⟩, ⟨0x45, 1, ev.source⟩, ⟨0x46, 2, flags⟩, ⟨0x48, 8, number⟩, ⟨0x50, 8, ev.place / 65536⟩
   , ⟨0x58, 2, ev.place % 65536⟩, ⟨0x5A, 1, reason⟩, ⟨0x5B, 1, cap.1⟩, ⟨0x5C, 4, cap.2.2⟩, ⟨0x60, 16, timeOfPlace ev.place s⟩
   , ⟨0x70, 8, cap.2.1⟩, ⟨0x78, 8, ev.detail⟩, ⟨0x80, 4, ev.detail2 % 2 ^ 32⟩]

/-- A TRIGGER record. -/
def triggerRec (fields : List Fld) (place : Nat) (s : State) : NewRec :=
  ⟨0x0050, 192, fields, timeOfPlace place s, timeOfPlace (place + 65536) s⟩

/-- A fire with its final placement in `ev` is delivered (R236): capture, TRIGOUT, record, tap and journal; a fire that
the capture cannot take is missed (R237). -/
def deliver (n : Nat) (ev : TEvent) (tagged : Bool) (s0 : State) : State :=
  match (getUnit n s0).plan with
  | none => s0
  | some plan =>
    let b := unitBlk n s0
    let u := getUnit n s0
    let number := u.fires.toNat
    let forced := decide (ev.source = 9)
    let stop := decide (b.f 0x0C 1 = 1) && decide (ev.source = 2)
    let s1 := modUnit n (fun u => { u with
      fires := u.fires + 1, lastIndex := BitVec.ofNat 64 (ev.place / 65536), lastFrac := BitVec.ofNat 16 (ev.place % 65536)
      errForced := if forced then satInc u.errForced else u.errForced }) s0
    let sc := match slotOfUnit plan u.blk s1 with | none => s1 | some k => rearmDue plan k (closeDue plan k s1)
    let cf := captureFire plan u.blk number forced stop ev.place ev sc
    let s2 := cf.1
    let tr := trigoutFire n ev.place s2
    let cap := match cf.2 with | .captured a c g => (a, c, g) | _ => (0, 0, 0)
    let reason := match cf.2 with | .missed r => r | _ => 0
    let got := match cf.2 with | .captured _ _ _ => true | _ => false
    let flags := packBits [(0, 1, b2n forced), (1, 1, b2n (decide (reason ≠ 0))), (2, 1, b2n tr.2), (3, 1, b2n tagged)
      , (4, 1, b2n got), (5, 1, b2n (got && stop)), (6, 1, b2n ev.late), (7, 1, b2n (replaying s0))]
    let fields := triggerPayload plan u.blk ev flags number reason cap tr.1
    let s3 := journal 5 (fields.map fun f => { f with off := f.off - 0x40 + 0x10 }) 128 tr.1
    let s4 := offerTap plan 5 u.blk 0 (fun _ _ => (128, fields)) s3
    if reason = 0 then
      if b.f 0x0D 1 = 0 then s4 else (recordOn (planCtx plan s4) (b.f 0x0D 1) (triggerRec fields ev.place s4) s4).1
    else
      let s5 := modUnit n (fun u => { u with
        errPre := if reason = 3 then satInc u.errPre else u.errPre
        errNoSpace := if reason = 2 then satInc u.errNoSpace else u.errNoSpace }) s4
      if (getUnit n s5).missed.length < 1024 then
        modUnit n (fun u => { u with errMissed := satInc u.errMissed, missed := u.missed ++ [⟨number, ev, reason, flags⟩] }) s5
      else modUnit n (fun u => { u with errLost := satInc u.errLost }) s5

/-- The first queued missed fire of a unit is delivered if its ring has room (R237). -/
def deliverMissed (n : Nat) (s : State) : State :=
  match (getUnit n s).plan, (getUnit n s).missed with
  | some plan, m :: rest =>
    let ring := (unitBlk n s).f 0x0D 1
    let pop := modUnit n (fun u => { u with missed := rest }) s
    if ring = 0 then pop
    else
      match (ringStream (planCtx plan s) ring s).bind fun i => getStream i s with
      | none => pop
      | some st =>
        if st.waiting.isEmpty && (findPlace st st.seq 192 s).isSome then
          (recordOn (planCtx plan s) ring (triggerRec (triggerPayload plan (getUnit n s).blk m.ev m.flags m.number m.reason (0, 0, 0) s)
            m.ev.place s) pop).1
        else s
  | _, _ => s

/-- The missed-fire queue of a unit is delivered at once, each entry dropped whole without credit (R47, R237); `k` bounds
their number. -/
def flushMissed (n : Nat) : Nat → State → State
  | 0, s => s
  | k + 1, s =>
    match (getUnit n s).plan, (getUnit n s).missed with
    | some plan, m :: rest =>
      let ring := (unitBlk n s).f 0x0D 1
      let pop := modUnit n (fun u => { u with missed := rest }) s
      let pay := triggerPayload plan (getUnit n s).blk m.ev m.flags m.number m.reason (0, 0, 0) s
      flushMissed n k (if ring = 0 then pop else (recordOn (planCtx plan s) ring (triggerRec pay m.ev.place s) pop).1)
    | _, _ => s

/-- A capture block feeds on a unit of its plan (R244). -/
def hasCapture (plan blk : Nat) (s : State) : Bool :=
  ((getPlan plan s).map fun p => (p.kindSubs 7).any fun b => decide (b.f 0x09 1 = blk)).getD false

/-- The completing event of a unit fires it (R234): delay and holdoff, the TRIG mark, and delivery once the placement has
been reached (R235). -/
def fire (n : Nat) (ev : TEvent) (s : State) : State :=
  match (getUnit n s).plan with
  | none => s
  | some plan =>
    let b := unitBlk n s
    let q := if ev.source = 9 then ev.place else ev.place + b.f 0x20 8 * 65536
    let e := { ev with place := q }
    let single := decide (b.f 0x0A 1 = 2) && !hasCapture plan (getUnit n s).blk s
    let s1 := modUnit n (fun u => { u with holdEnd := q + b.f 0x28 8 * 65536, lastFire := some q, armed := u.armed && !single }) s
    let ahead := decide (planNext plan s * 65536 ≤ q)
    let level := decide (ev.source = 1) && decide (b.source true = 0) && decide (b.f 0x20 8 = 0)
    let m := if level then markTrig plan q 16 s1
      else if ahead then markTrig plan q 0 s1
      else (s1, (decide (ev.source = 8) && decide (b.f 0x20 8 = 0)) || decide (ev.source = 9))
    if ahead && (planClock plan s).isSome then modUnit n (fun u => { u with due := u.due ++ [(q, { e with late := ev.late })] }) m.1
    else deliver n e m.2 m.1

/-- on_event of R234. -/
def onEvent (n : Nat) (ev : TEvent) (s : State) : State :=
  let u := getUnit n s
  let b := unitBlk n s
  if !u.armed || u.frozen || u.plan.isNone then s
  else if ev.place < u.holdEnd then modUnit n (fun u => { u with errHeldOff := satInc u.errHeldOff }) s
  else
    let s1 := if u.waitB && decide (u.deadline < ev.place) then
        modUnit n (fun u => { u with errBTimeouts := satInc u.errBTimeouts, waitB := false, bSeen := 0 }) s
      else s
    let u1 := getUnit n s1
    if !ev.stageB && !u1.waitB then
      if u1.aSeen + 1 < b.f 0x10 2 then modUnit n (fun u => { u with aSeen := u.aSeen + 1 }) s1
      else if b.source true = 0 then fire n ev (modUnit n (fun u => { u with aSeen := 0 }) s1)
      else modUnit n (fun u => { u with aSeen := 0, waitB := true, deadline := ev.place + b.f 0x18 8 * 65536 }) s1
    else if ev.stageB && u1.waitB then
      if u1.bSeen + 1 < b.f 0x12 2 then modUnit n (fun u => { u with bSeen := u.bSeen + 1 }) s1
      else fire n ev (modUnit n (fun u => { u with bSeen := 0, waitB := false }) s1)
    else s1

/-- Placement order, A before B (R234). -/
def eventBefore (a b : TEvent) : Bool :=
  decide (a.place < b.place) || (decide (a.place = b.place) && (!a.stageB && b.stageB))

/-- A held event takes its place; two of one source with equal placement count as one. -/
def holdEvent (ev : TEvent) : List TEvent → List TEvent
  | [] => [ev]
  | x :: r =>
    if x.place = ev.place && x.stageB = ev.stageB then x :: r
    else if eventBefore ev x then ev :: x :: r else x :: holdEvent ev r

/-- A source of a unit proposes an instant: handled at once, or held until its hold has passed (R234). -/
def offerEvent (n : Nat) (ev : TEvent) (s : State) : State :=
  if (unitBlk n s).immediate then onEvent n ev s
  else if (getUnit n s).armed && !(getUnit n s).frozen then modUnit n (fun u => { u with held := holdEvent ev u.held }) s
  else s

/-! ### Arming and AUTO (R235) -/

/-- The unit arms: its stages start afresh, and events held from before are forgotten. -/
def armUnit (n : Nat) (s : State) : State :=
  let at_ := ((getUnit n s).plan.map fun p => planNext p s).getD 0
  modUnit n (fun u => { u with armed := true, waitB := false, aSeen := 0, bSeen := 0, armAt := at_, stA := Stage.fresh
                               stB := Stage.fresh, held := [] }) s

/-- The unit has an AUTO timeout: arm_mode AUTO or a_source AUTO. -/
def SubBlk.auto (b : SubBlk) : Bool := decide (b.f 0x0A 1 = 3) || decide (b.source false = 9)

/-- Last rearm point of a unit's capture as a sample index. -/
def unitRearm (n : Nat) (s : State) : Nat :=
  match (getUnit n s).plan with
  | none => 0
  | some plan =>
    match ((getPlan plan s).map fun p => (p.kindSubs 7).find? fun b => decide (b.f 0x09 1 = (getUnit n s).blk)).join with
    | none => 0
    | some b =>
      let k := ((getCapSlot plan b.idx s).map (·.lastRearm)).getD 0
      if b.f 0x08 1 ≤ 4 || k = 0 then k
      else
        -- an output sample number: the position of that sample, counted back from the slot's next one
        match slotOf plan (b.f 0x08 1 - 17) s, s.trg.rings.find? (fun r => decide (4 ≤ r.r) && decide (r.plan = plan) && decide (r.source = b.f 0x08 1)) with
        | some sl, some r => (slotPos sl ((getSlot sl s).m - (r.next - k)) s).1
        | _, _ => 0

/-- The forcing point of R235 as a placement: the latest of the arming, the last fire and the capture's last rearm
point, plus the timeout. -/
def forcingPoint (n : Nat) (s : State) : Nat :=
  let u := getUnit n s
  let fs := ((u.plan.bind fun p => getPlan p s).map Plan.fs).getD (0, 1)
  let ref := max (max u.armAt ((u.lastFire.map (· / 65536)).getD 0)) (unitRearm n s)
  (ref + cdiv ((unitBlk n s).f 0x30 4 * fs.1) (fs.2 * 10 ^ 6)) * 65536

/-- A unit whose forcing point stands: armed, not frozen, with a timeout, and no event held before the point. -/
def autoStands (n : Nat) (s : State) : Bool :=
  let u := getUnit n s
  u.armed && !u.frozen && u.plan.isSome && (unitBlk n s).auto && u.held.all fun e => decide (forcingPoint n s ≤ e.place)

/-- A forced fire (R235), with its journal entry (R543). -/
def autoForce (n : Nat) (s : State) : State :=
  let q := forcingPoint n s
  fire n ⟨false, 9, q, 0, 0, false⟩
    (journal 6 [⟨0x10, 1, (getUnit n s).blk⟩, ⟨0x18, 8, q / 65536⟩, ⟨0x20, 2, q % 65536⟩] 24 s)

/-! ### LEVEL (R227) -/

/-- round_half_up of a quotient of non-negative numbers. -/
def halfUpNat (a b : Nat) : Nat := (2 * a + b) / (2 * b)

/-- One tested value of a LEVEL stage: level and the two thresholds that make it ready again, position and value. -/
def levelStep (slope : Nat) (lev lo hi : Int) (p1 : Nat) (x1 : Int) (st : Stage) : Stage × List Nat :=
  let place := fun (p0 : Nat) (x0 : Int) =>
    let f := halfUpNat ((lev - x0).natAbs * 65536) (x1 - x0).natAbs
    p0 + halfUpNat (f * (p1 - p0)) 65536
  let r := match st.prev with
    | none => (st, [])
    | some (p0, x0) =>
      let up := bit slope 0 && st.rise && decide (x0 < lev) && decide (lev ≤ x1)
      let dn := bit slope 1 && st.fall && decide (lev < x0) && decide (x1 ≤ lev)
      ({ st with rise := st.rise && !up, fall := st.fall && !dn }
       , (if up then [place p0 x0] else []) ++ if dn then [place p0 x0] else [])
  ({ r.1 with prev := some (p1, x1), rise := r.1.rise || decide (x1 ≤ lo), fall := r.1.fall || decide (hi ≤ x1) }, r.2)

/-- A LEVEL stage takes values with their positions; answers the crossings' placements. -/
def levelRun (slope : Nat) (lev lo hi : Int) : List (Nat × Int) → Stage → Stage × List Nat
  | [], st => (st, [])
  | v :: r, st =>
    let a := levelStep slope lev lo hi v.1 v.2 st
    let b := levelRun slope lev lo hi r a.1
    (b.1, a.2 ++ b.2)

/-- The stages of running units whose LEVEL source takes a target (1-4 a pair, 17-48 a zoom channel) of a plan. -/
def levelStages (target : Nat) (plan : Option Nat) (s : State) : List (Nat × Bool) :=
  ((List.range 8).map fun n => [(n, false), (n, true)]).flatten.filter fun x =>
    let u := getUnit x.1 s
    let b := unitBlk x.1 s
    u.plan.isSome && u.armed && decide (b.source x.2 = 1) && decide (b.param x.2 0 1 = target)
      && (plan.isNone || decide (u.plan = plan)) && planRuns (u.plan.getD 0) s

/-- A word's values reach a LEVEL stage (R227): words with VALID = 0, and SETTLE words with skip_settle, are not tested;
nothing crosses a GAP or an untested word. -/
def levelStage (n : Nat) (stageB : Bool) (w : HWord) (vals : List (Nat × Int)) (square : Bool) (s : State) : State :=
  let b := unitBlk n s
  let tested := w.has tagValid && !(w.has tagSettle && decide (b.param stageB 2 1 = 1))
  if !tested then modUnit n (TUnit.modStage stageB fun st => { st with prev := none }) s
  else
    let raw := b.param stageB 4 4
    let hy : Int := b.param stageB 8 2
    let l0 : Int := if square then raw % 65536 else sext 16 raw
    let lev := if square then l0 * l0 else l0
    let h := if square then hy * hy else hy
    let st0 := (getUnit n s).stage stageB
    let st := if w.has tagGap then { st0 with prev := none } else st0
    let r := levelRun (b.param stageB 1 1) lev (lev - h) (lev + h) vals st
    r.2.foldl (fun s p => offerEvent n ⟨stageB, 1, p, 0, 0, false⟩ s) (modUnit n (TUnit.modStage stageB fun _ => r.1) s)

/-! ### TIME (R228) -/

/-- Placement of a TIME source with the anchor in force. -/
def timePlace (b : SubBlk) (stageB : Bool) (s : State) : Int × Nat := indexOfTime (anchorInForce s) (b.param stageB 0 16)

/-- A word of index i reaches the TIME sources of a plan: one whose placement it holds fires, one already passed fires
on the word with TIME_LATE. -/
def timeWord (plan i : Nat) (s : State) : State :=
  (unitsOf plan s).foldl (fun s n =>
    [false, true].foldl (fun s sb =>
      let b := unitBlk n s
      let st := (getUnit n s).stage sb
      if b.source sb = 8 && (getUnit n s).armed && !st.fired then
        let p := timePlace b sb s
        if p.1 < ((i + 8 : Nat) : Int) then
          let late := decide (p.1 < (i : Int))
          offerEvent n ⟨sb, 8, if late then i * 65536 else p.1.toNat * 65536 + p.2, 0, 0, late⟩
            (modUnit n (TUnit.modStage sb fun st => { st with fired := true }) s)
        else s
      else s) s) s

/-! ### A word in the trigger stage -/

/-- The word of a pair that holds a TIME placement or a forcing point carries TRIG when it passes (R236). -/
def wordDue (n i : Nat) (s : State) : Bool :=
  (List.range 8).any fun k =>
    let u := getUnit k s
    match u.plan with
    | none => false
    | some plan =>
      let b := unitBlk k s
      let holds := ((getPlan plan s).map fun p => p.holdsPair n && decide (p.phase = .running)).getD false
      let t := timePlace b false s
      holds && u.armed && !u.frozen &&
        ((b.auto && autoStands k s && decide (forcingPoint k s / 65536 / 8 * 8 = i))
          || (decide (b.source false = 8) && decide (b.source true = 0) && decide (b.f 0x20 8 = 0) && !u.stA.fired
              && decide (u.aSeen + 1 = b.f 0x10 2) && decide (t.1 < ((i + 8 : Nat) : Int))))

/-- Fires of a plan whose placement the word of index i reaches are delivered (R235). -/
def deliverDue (plan i : Nat) (s : State) : State :=
  (unitsOf plan s).foldl (fun s n =>
    let now := (getUnit n s).due.filter fun d => decide (d.1 < (i + 8) * 65536)
    now.foldl (fun s d => deliver n d.2 true s)
      (modUnit n (fun u => { u with due := u.due.filter fun d => decide ((i + 8) * 65536 ≤ d.1) }) s)) s

/-- A word of pair n is in the trigger stage before anything else takes it: marks set ahead and TIME and AUTO placements
in it set TRIG. -/
def trigStage (n : Nat) (w : HWord) (s : State) : State × HWord :=
  let marked := s.trg.ahead.any fun a => decide (a.2.1 = n) && decide (a.2.2 = w.index)
  let s1 := modTrg (fun t => { t with ahead := t.ahead.filter fun a => !(decide (a.2.1 = n) && decide (a.2.2 ≤ w.index)) }) s
  (s1, if marked || wordDue n w.index s then w.setTag tagTrig else w)

/-- A pair's word has been taken: the LEVEL stages test it, and the TIME sources and due fires of the plans it clocks
are handled. -/
def trigWord (n : Nat) (w : HWord) (s : State) : State :=
  let vals := w.vals.zipIdx.map fun v => ((w.index + v.2) * 65536, v.1)
  let s1 := (levelStages (n + 1) none s).foldl (fun s x => levelStage x.1 x.2 w vals false s) s
  let plans := (s1.plans.filter fun p => decide (p.phase = .running) && decide (planClock p.id s1 = some n)).map (·.id)
  plans.foldl (fun s p => deliverDue p w.index (timeWord p w.index s)) s1

/-- A slot's word has been formed: m is the number of its first sample in its chain. -/
def trigZoomWord (slot m : Nat) (w : HWord) (s : State) : State :=
  let sl := getSlot slot s
  let vals := (List.range 4).map fun j =>
    let p := slotPos slot (m + j) s
    let re := nth w.vals (2 * j) 0
    let im := nth w.vals (2 * j + 1) 0
    (p.1 * 65536 + p.2, re * re + im * im)
  (levelStages (17 + sl.channel) sl.plan s).foldl (fun s x => levelStage x.1 x.2 w vals true s) s

/-! ### FMASK, BANDPWR and SKFLAG (R231, R232) -/

/-- Bins of a spectrum out of a mask's envelope from a stream bin on. -/
def outOfMask (img : MaskImg) (first : Nat) (logs : List Int) : Nat :=
  (((logs.drop first).zip (img.lower.zip (img.upper.zip img.care))).filter fun x =>
    x.2.2.2 && (decide (x.2.2.1 < x.1) || decide (x.1 < x.2.1))).length

/-- A mask of a context's handle. -/
def getMask (c h : Nat) (s : State) : Option Mask := s.trg.masks.find? fun m => decide (m.ctx = c) && decide (m.handle = h)

/-- Change a mask. -/
def modMask (c h : Nat) (f : Mask → Mask) (s : State) : State :=
  modTrg (fun t => { t with masks := mapIf (fun m => decide (m.ctx = c) && decide (m.handle = h)) f t.masks }) s

/-- Stages of the units of running plans that test a mask handle of a context. -/
def maskStages (c h : Nat) (s : State) : List (Nat × Bool) :=
  ((List.range 8).map fun n => [(n, false), (n, true)]).flatten.filter fun x =>
    match (getUnit x.1 s).plan with
    | none => false
    | some p => planRuns p s && decide (planCtx p s = c) && decide ((unitBlk x.1 s).source x.2 = 2) && decide ((unitBlk x.1 s).param x.2 1 1 = h)

/-- Every unit that tests a handle has switched: the newer image takes the handle, the old copy is freed, and the LOAD
completes (R230, R251). -/
def settleMask (c h : Nat) (s : State) : State :=
  match getMask c h s with
  | none => s
  | some m =>
    match m.newer with
    | none => s
    | some (img, dc, sid, _) =>
      let st := maskStages c h s
      if (st.all fun x => ((getUnit x.1 s).stage x.2).onNew) then
        let s1 := st.foldl (fun s x => modUnit x.1 (TUnit.modStage x.2 fun g => { g with onNew := false }) s) s
        let s2 := modMask c h (fun m => { m with img := img, newer := none }) s1
        let keep := s2.dram.allocs.filter fun a => decide (a.kind ≠ .mask c h)
        let als := mapIf (·.kind = .maskNew c h) (fun a => { a with kind := .mask c h }) keep
        let s3 := modTrg (fun t => { t with swaps := satInc t.swaps }) { s2 with dram := { s2.dram with allocs := als } }
        completeDesc dc sid .success 0 0 s3
      else s

/-- A unit whose handle has a newer image switches at the first spectrum whose frame begins after staging ended. -/
def switchMask (n : Nat) (stageB : Bool) (c h : Nat) (sp : Spectrum) (s : State) : State :=
  match (getMask c h s).bind (·.newer) with
  | none => s
  | some (_, _, _, idx) =>
    if !((getUnit n s).stage stageB).onNew && decide (idx ≤ sp.index) then
      settleMask c h (modUnit n (TUnit.modStage stageB fun g => { g with onNew := true, run := 0 }) s)
    else s

/-- Sum of P over a band in binary64, in ascending order (R232). -/
def bandSum (first count : Nat) (p : List Nat) : Nat := ((p.drop first).take count).foldl (fun a x => add64 a (widen x)) 0

/-- A power in binary64 in 1/256 dBFS (R189, R232). -/
def bandLog (p : Nat) : Int :=
  let f := FV.frac f64 p
  if f.1 = 0 then -32768 else logFraction f.1 f.2

/-- A spectrum reaches an FMASK or BANDPWR stage. -/
def testSpectrum (n : Nat) (stageB : Bool) (sp : Spectrum) (s0 : State) : State :=
  let b := unitBlk n s0
  let c := planCtx sp.plan s0
  let h := b.param stageB 1 1
  let isMask := decide (b.source stageB = 2)
  let s := if isMask then switchMask n stageB c h sp s0 else s0
  let st := (getUnit n s).stage stageB
  let setRun := fun (k : Nat) (s : State) => modUnit n (TUnit.modStage stageB fun g => { g with run := k, lastSpec := some sp.number }) s
  if sp.flags &&& b.f 0x0E 2 ≠ 0 then setRun 0 s
  else
    let r : Bool × Int :=
      if isMask then
        match getMask c h s with
        | none => (false, 0)
        | some m =>
          let img := match m.newer with | some x => if st.onNew then x.1 else m.img | none => m.img
          let out := outOfMask img (b.param stageB 4 4) sp.logs
          (decide (b.param stageB 8 4 ≤ out), out)
      else
        let v := bandLog (bandSum (b.param stageB 4 4) (b.param stageB 8 4) sp.power)
        let th := sext 16 (b.param stageB 2 2)
        (if b.param stageB 1 1 = 1 then decide (th < v) else decide (v < th), v)
    if !r.1 then setRun 0 s
    else if st.run + 1 < b.param stageB 0x0C 4 then setRun (st.run + 1) s
    else offerEvent n ⟨stageB, b.source stageB, sp.mid, sp.number, wrapInt 32 r.2, false⟩ (setRun 0 s)

/-- Stages of a plan's armed units with one of given sources on a stream. -/
def streamStages (plan idx : Nat) (sources : List Nat) (s : State) : List (Nat × Bool) :=
  ((unitsOf plan s).map fun n => [(n, false), (n, true)]).flatten.filter fun x =>
    let b := unitBlk x.1 s
    sources.contains (b.source x.2) && decide (b.param x.2 0 1 = idx)

/-- A spectrum reaches the trigger units. -/
def trigSpectrum (sp : Spectrum) (s : State) : State :=
  (streamStages sp.plan sp.idx [2, 3] s).foldl (fun s x => testSpectrum x.1 x.2 sp s) s

/-- A lost spectrum returns the runs on its stream to 0 (R231). -/
def trigLost (plan idx : Nat) (s : State) : State :=
  (streamStages plan idx [2, 3] s).foldl (fun s x => modUnit x.1 (TUnit.modStage x.2 fun g => { g with run := 0 }) s) s

/-- A kurtosis presentation reaches the trigger units (R214, R232). -/
def trigSk (plan idx subint flagged start : Nat) (s : State) : State :=
  (streamStages plan idx [4] s).foldl (fun s x =>
    if (unitBlk x.1 s).param x.2 4 4 ≤ flagged then
      offerEvent x.1 ⟨x.2, 4, start * 65536, subint, flagged, false⟩ s else s) s

/-! ### EXT, TDC and SPU (R226, R228) -/

/-- Placement of an instant given by a coarse tick and a position in 2^-16 ns. -/
def placeOfStamp (tick sub : Nat) (s : State) : Nat :=
  let t : Int := (timeOfTick tick s : Int) + ns16ToFrac sub
  let p := indexOfTime (anchorInForce s) t.toNat
  (p.1 * 65536 + p.2).toNat

/-- Offer an event to the stages of units of running plans with a source and selector; `only` names the context whose plans
alone may take it (R69). -/
def offerSource (code sel : Nat) (only : Option Nat) (rising : Option Bool) (ev : Bool → TEvent) (s : State) : State :=
  (((List.range 8).map fun n => [(n, false), (n, true)]).flatten).foldl (fun s x =>
    let b := unitBlk x.1 s
    let edge := b.param x.2 1 1
    let hit := match rising with
      | none => true
      | some r => decide (edge = 3) || (r && decide (edge = 1)) || (!r && decide (edge = 2))
    let may := match only with
      | none => true
      | some c => ((getUnit x.1 s).plan.bind fun p => getPlan p s).any fun p => decide (p.ctx = c)
    if (getUnit x.1 s).plan.isSome && may && decide (b.source x.2 = code) && decide (b.param x.2 0 1 = sel) && hit then
      offerEvent x.1 (ev x.2) s else s) s

/-- A stamp of a channel reaches EXT and TDC sources: TC1-TC4 are EVIN0-EVIN3, TC0, TC5, TC6 and TC7 are 1-4. -/
def trigStamp (ch tick sub : Nat) (rising : Bool) (s : State) : State :=
  let place := placeOfStamp tick sub s
  let detail := packBits [(0, 40, tick), (40, 11, sub / 64)]
  let code := if decide (1 ≤ ch) && decide (ch ≤ 4) then 5 else 6
  let sel := if code = 5 then ch else if ch = 0 then 1 else ch - 3
  let only := if ch = 5 || ch = 6 then some ((getTdc ch s).owner.getD 1024) else none
  offerSource code sel only (some rising) (fun sb => ⟨sb, code, place, detail, 0, false⟩) s

/-- A gate closes on a tick: TDC sources 5 and 6. -/
def trigGate (pin tick : Nat) (s : State) : State :=
  let place := placeOfStamp tick 0 s
  offerSource 6 (5 + pin) none none (fun sb => ⟨sb, 6, place, packBits [(0, 40, tick)], 0, false⟩) s

/-- The current word of a unit (R228): the most recent word of its first pair source to have passed. -/
def currentWord (n : Nat) (s : State) : Nat :=
  let b := unitBlk n s
  let pair := if decide (b.source false = 1) && decide (b.param false 0 1 ≤ 4) then some (b.param false 0 1 - 1)
    else if decide (b.source true = 1) && decide (b.param true 0 1 ≤ 4) then some (b.param true 0 1 - 1)
    else (getUnit n s).plan.bind fun p => planClock p s
  match pair with
  | none => 0
  | some p => pairNext p s - 8

/-- A kernel posts a trigger to a unit (R228): at a placement, or on the current word. The journal holds it as applied. -/
def trigSpu (n : Nat) (place : Option Nat) (s : State) : State :=
  let p := place.getD (currentWord n s * 65536)
  let s1 := journal 8 [⟨0x10, 2, (getUnit n s).blk⟩, ⟨0x18, 8, p / 65536⟩, ⟨0x20, 8, p % 65536⟩] 24 s
  [false, true].foldl (fun s sb =>
    if (unitBlk n s).source sb = 7 then offerEvent n ⟨sb, 7, p, 0, 0, false⟩ s else s) s1

end Sys2Proof.Machine
end

