-- ==== Sys2Proof/Machine/Integ.lean ====
section
/-!
DEFINITION. Integration, spectral kurtosis, cross-spectra and the drain of their dumps (R203-R224).
-/

namespace Sys2Proof.Machine

/-! ### The block exponent (R207-R209) -/

/-- 2^52, the threshold of R207. -/
def accTop : Nat := 2 ^ 52

/-- One accumulator after an add: at 2^52 it asks for a shift, or is clamped once e is 32. -/
def clampAcc (exp : Nat) (v : Int) : Int × Bool × Bool :=
  if v.natAbs < accTop then (v, false, false)
  else if exp < 32 then (v, true, false)
  else (if v < 0 then -((accTop : Int) - 1) else (accTop : Int) - 1, false, true)

/-- add_event of R207: `q e` are the quantised values at exponent e. -/
def AccBlock.add (q : Nat → List Int) (b0 : AccBlock) : AccBlock :=
  let b := if b0.due then { b0 with acc := b0.acc.map fun a => roundDivEven a 2, exp := b0.exp + 1, due := false } else b0
  let qs := q b.exp
  let sums := if b.added then (b.acc.zip qs).map fun x => x.1 + x.2 else qs
  let r := sums.map (clampAcc b.exp)
  { b with acc := r.map (·.1), due := r.any (·.2.1), sat := b.sat || r.any (·.2.2), added := true }

/-- The accumulators, all 0 when the interval had no add event. -/
def AccBlock.values (n : Nat) (b : AccBlock) : List Int := if b.added then b.acc else List.replicate n 0

/-- A non-negative fraction times 2^(49 - e), rounded convergently. -/
def quantise (f : Nat × Nat) (e : Nat) : Int := roundDivEven ((f.1 * 2 ^ 49 : Nat) : Int) (f.2 * 2 ^ e)

/-! ### The INTEGRATION block (R204, R414) -/

/-- The INTEGRATION block of a stream, unless int_kind is 0. -/
def intBlock (plan idx : Nat) (s : State) : Option SubBlk :=
  ((getPlan plan s).bind fun p => p.sub? 4 idx).bind fun b => if b.f 0x08 1 = 0 then none else some b

/-- KURTOSIS. -/
def SubBlk.isKurt (b : SubBlk) : Bool := decide (b.f 0x08 1 = 2)

/-- SINGLE. -/
def SubBlk.isSingle (b : SubBlk) : Bool := decide (b.f 0x09 1 = 2)

/-- First bin, bin count and int_length. -/
def SubBlk.intFirst (b : SubBlk) : Nat := b.f 0x10 4
@[inherit_doc SubBlk.intFirst] def SubBlk.intCount (b : SubBlk) : Nat := b.f 0x14 4
@[inherit_doc SubBlk.intFirst] def SubBlk.intLength (b : SubBlk) : Nat := b.f 0x18 8

/-- Spectra of a sub-integration, 2^sk_m_log2. -/
def SubBlk.subLength (b : SubBlk) : Nat := 2 ^ b.f 0x0A 1

/-- The plan's drain rate in MB/s (R215). -/
def drainRate (plan : Nat) (s : State) : Nat :=
  ((getPlan plan s).map fun p => sumBy (fun b => if b.f 0x08 1 = 0 then 0 else b.f 0x28 4) (p.kindSubs 4)).getD 0

/-- Dump bytes of a source: 8 a bin for POWER, 16 for KURTOSIS and cross pairs (R221). -/
def dumpBytes (kind count : Nat) : Nat := (if kind = 1 then 8 else 16) * count

/-- An interval as it begins: number j of a grid that starts at spectrum `base`, with `drain` spectra of the drain of
the one before. -/
def Integ.fresh (base j drain : Nat) : Integ :=
  { base := base, j := j, idle := false, begun := false, blk := AccBlock.fresh, cnt := [], lastSk := [], s1 := [], s2 := []
    integrated := 0, skipped := 0, lost := 0, drained := 0, short := 0, subDrained := 0, flags := 0, subFlags := 0
    subBad := false, subIndex := 0, firstIndex := 0, drain := drain }

/-- A cross pair's interval as it begins. -/
def CrossPair.fresh (pair base j drain : Nat) : CrossPair :=
  { pair := pair, base := base, j := j, idle := false, begun := false, blk := AccBlock.fresh, integrated := 0, skipped := 0
    lost := 0, drained := 0, flags := 0, firstIndex := 0, drain := drain }

/-! ### Kurtosis (R211-R214) -/

/-- P as a binary64 word. -/
def p64 (p : Nat) : Nat := widen p

/-- The estimator of R212 in binary64. -/
def skEstimate (m : Nat) (s1 s2 : Nat) : Nat :=
  let big := nat64 m
  let one := nat64 1
  mul64 (div64 (add64 big one) (sub64 big one)) (sub64 (div64 (mul64 big s2) (mul64 s1 s1)) one)

/-- Is a binary64 word +0 or -0? -/
def isZero64 (w : Nat) : Bool := decide (w % f64.signBit = 0)

/-- A bin is flagged (R212): thresholds are binary32 words. -/
def skFlagged (lower upper m s1 s2 : Nat) : Bool :=
  if isZero64 s1 then true
  else
    let sk := skEstimate m s1 s2
    lt64 (widen upper) sk || (decide (lower % f32.signBit ≠ 0) && lt64 sk (widen lower))

/-- last_sk of a bin, binary32 (R214, R221). -/
def skValue (m s1 s2 : Nat) : Nat := if isZero64 s1 then 0 else narrow (skEstimate m s1 s2)

/-- SK_FLAGS payload of a bin range (R222). -/
def skPayload (plan engine slot subint count first : Nat) (flags : List Bool) : List Fld :=
  [⟨0x40, 4, plan⟩, ⟨0x44, 1, engine⟩, ⟨0x45, 1, slot⟩, ⟨0x48, 8, subint⟩, ⟨0x50, 4, count⟩, ⟨0x54, 4, first⟩
   , ⟨0x58, 4, flags.length⟩
   , ⟨0x60, cdiv flags.length 8, flags.zipIdx.foldl (fun a f => if f.1 then a + 2 ^ f.2 else a) 0⟩]

/-- Count an event in the engine's counters. -/
def engShort (e : Nat) : State → State := modEng e fun x => { x with short := satInc x.short }
@[inherit_doc engShort] def engDrained (e : Nat) : State → State := modEng e fun x => { x with drained := satInc x.drained }
@[inherit_doc engShort] def engDrop (e : Nat) : State → State := modEng e fun x => { x with drops := satInc x.drops }

/-- A presentation of R214 goes to the SK_FLAGS record, the taps and the trigger units. Zeros follow the bitmap up to a multiple of
64 bytes of the record (R222; DEDUCED, log entry 237). -/
def presentSk (x : XStream) (b : SubBlk) (subint start : Nat) (flags : List Bool) (span : Nat × Nat) (s : State) : State :=
  let count := countTrue flags
  let s1 := if b.f 0x0B 1 = 1 then
      let r := recordOn (planCtx x.plan s) (b.f 0x0C 1) ⟨0x0041, recBytes (0x60 + cdiv flags.length 8)
        , skPayload x.plan x.engine x.slot subint count b.intFirst flags, span.1, span.2⟩ s
      if r.2 then engDrop x.engine r.1 else r.1
    else s
  let s2 := offerTap x.plan 4 x.idx 0 (fun f c =>
    let n := if c = 0 then flags.length else c
    let part := (flags.drop (f - b.intFirst)).take n
    (0x20 + cdiv part.length 8
      , skPayload x.plan x.engine x.slot subint count (max f b.intFirst) part)) s1
  trigSk x.plan x.idx subint count start s2

/-! ### Dumps (R210, R213, R220, R221) -/

/-- Bin fields of a dump. -/
def dumpBins (kind off : Nat) (acc : List Int) (cnt lastSk : List Nat) (n first count : Nat) : List Fld :=
  if kind = 1 then arrayFields off 8 (((acc.drop first).take count).map (wrapInt 64))
  else if kind = 2 then
    ((((acc.zip (cnt.zip lastSk)).drop first).take count).zipIdx.map fun x =>
      [⟨off + 16 * x.2, 8, wrapInt 64 x.1.1⟩, ⟨off + 16 * x.2 + 8, 4, x.1.2.1⟩, ⟨off + 16 * x.2 + 12, 4, x.1.2.2⟩]).flatten
  else
    ((((acc.take n).zip (acc.drop n)).drop first |>.take count).zipIdx.map fun x =>
      [⟨off + 16 * x.2, 8, wrapInt 64 x.1.1⟩, ⟨off + 16 * x.2 + 8, 8, wrapInt 64 x.1.2⟩]).flatten

/-- What an INT_DUMP record says beside its bins (R220). -/
structure DumpHead where
  kind : Nat
  source : Nat
  slot : Nat
  exp : Nat
  number : Nat
  firstSpec : Nat
  firstIndex : Nat
  integrated : Nat
  skipped : Nat
  lost : Nat
  drained : Nat
  subTotal : Nat
  short : Nat
  subDrained : Nat
  flags : Nat
  specFlags : Nat
  m : Nat
  shift : Int
  lower : Nat
  upper : Nat
  deriving DecidableEq, Repr

/-- INT_DUMP payload of one record of a source (R220). -/
def dumpPayload (h : DumpHead) (lab : Spectrum) (first count : Nat) (last : Bool) (bins : List Fld) : List Fld :=
  [⟨0x40, 4, lab.plan⟩, ⟨0x44, 1, h.kind⟩, ⟨0x45, 1, h.source⟩, ⟨0x46, 1, h.slot⟩, ⟨0x47, 1, h.exp⟩, ⟨0x48, 8, h.number⟩
   , ⟨0x50, 8, h.firstSpec⟩, ⟨0x58, 8, h.firstIndex⟩, ⟨0x60, 8, h.integrated⟩, ⟨0x68, 4, h.skipped⟩, ⟨0x6C, 4, h.lost⟩
   , ⟨0x70, 4, h.drained⟩, ⟨0x74, 4, h.subTotal⟩, ⟨0x78, 4, h.short⟩, ⟨0x7C, 4, h.subDrained⟩
   , ⟨0x80, 2, h.flags + if last then 8 else 0⟩, ⟨0x82, 2, h.specFlags⟩, ⟨0x84, 1, h.m⟩, ⟨0x85, 1, wrapInt 8 h.shift⟩
   , ⟨0x86, 1, lab.cfg.lg⟩, ⟨0x87, 1, lab.cfg.window⟩, ⟨0x88, 4, h.lower⟩, ⟨0x8C, 4, h.upper⟩, ⟨0x90, 4, first⟩
   , ⟨0x94, 4, count⟩, ⟨0x98, 8, wrapInt 64 (lab.axis.at first)⟩, ⟨0xA0, 8, wrapInt 64 lab.axis.df⟩
   , ⟨0xA8, 4, lab.enbw⟩] ++ bins

/-- A dump's records join the drain (R215): `order` is the place of the source (R221), `bins off f c` gives the fields of
c bins from the f-th of the source on, and `tap` its source number for taps. -/
def queueDump (h : DumpHead) (lab : Spectrum) (order engine ring tap first count : Nat)
    (bins : Nat → Nat → Nat → List Fld) (span : Nat × Nat) (s : State) : State :=
  let per := if h.kind = 1 then 32768 else 16384
  let recs := (pieces per (count + 1) 0 count).map fun p =>
    ({ plan := lab.plan, order := order, engine := engine, ring := ring, recType := 0x0040
       bytes := recBytes (0xB0 + dumpBytes h.kind p.2.1)
       payload := dumpPayload h lab (first + p.1) p.2.1 p.2.2 (bins 0xB0 p.1 p.2.1), spanStart := span.1, spanEnd := span.2 } : DumpRec)
  let s1 := modDsp (fun d => { d with drain := d.drain ++ recs }) s
  offerTap lab.plan 3 tap 0 (fun f c =>
    let n := if c = 0 then count else c
    let o := f - first
    (0x70 + dumpBytes h.kind n, dumpPayload h lab (first + o) n true (bins 0xB0 o n))) s1

/-- Place of an auto source in R221's order. -/
def sourceOrder (x : XStream) : Nat := if x.engine < 4 then x.engine else 4 + x.slot

/-- The open interval of a stream is dumped (R210, R213, R220); `extra` holds PARTIAL and CONFIG_CHANGE, `subs` is
subints_total. -/
def dumpStream (x : XStream) (b : SubBlk) (g : Integ) (extra subs : Nat) (s : State) : State :=
  let kurt := b.isKurt
  let n := b.intCount
  let lab := x.labels g.firstIndex s
  let acc := g.blk.values n
  let cnt := if g.blk.added then g.cnt else List.replicate n 0
  let sk := if g.lastSk.isEmpty then List.replicate n 0 else g.lastSk
  let m := if kurt then b.f 0x0A 1 else 0
  let h : DumpHead :=
    { kind := if kurt then 2 else 1, source := x.engine, slot := x.slot, exp := g.blk.exp, number := g.j
      firstSpec := g.base + g.j * b.intLength, firstIndex := g.firstIndex, integrated := g.integrated
      skipped := g.skipped, lost := g.lost, drained := g.drained, subTotal := if kurt then subs else 0, short := g.short
      subDrained := g.subDrained, flags := extra + if g.blk.sat then 2 else 0, specFlags := g.flags, m := m
      shift := (g.blk.exp : Int) - 49 + m, lower := b.f 0x20 4, upper := b.f 0x24 4 }
  let span := (timeOf g.firstIndex s, timeOf (x.position x.next s).1 s)
  queueDump h lab (sourceOrder x) x.engine (b.f 0x0C 1) x.idx b.intFirst n
    (fun off f c => dumpBins h.kind off acc cnt sk n f c) span
    (modEng x.engine (fun e => { e with dumps := e.dumps + 1, saturated := if g.blk.sat then satInc e.saturated else e.saturated }) s)

/-! ### The drain window (R215) -/

/-- Index at which the frame of spectrum `k` of a stream starts on its grid. -/
def XStream.startOf (x : XStream) (k : Nat) (s : State) : Int :=
  let n : Int := (x.next : Int) + ((k : Int) - x.number) * x.cfg.hop
  if x.engine = 4 then (slotPos x.slot n.toNat s).1 else n

/-- Does an integration of the plan have a dump due at a boundary that starts at an index: the start of its open interval,
or its end? -/
def dueAt (index : Int) (s : State) (x : XStream) : Bool :=
  match x.integ, intBlock x.plan x.idx s with
  | some g, some b =>
    !g.idle && !b.isSingle && ((decide (0 < g.j) && decide (x.startOf (g.base + g.j * b.intLength) s = index))
      || decide (x.startOf (g.base + (g.j + 1) * b.intLength) s = index))
  | _, _ => false

/-- The CROSS block of a plan. -/
def crossBlock (plan : Nat) (s : State) : Option SubBlk := (getPlan plan s).bind fun p => p.sub? 5 0

/-- Bin bytes of all dumps of a plan that fall due at a boundary (R215). -/
def dueBytes (plan : Nat) (index : Int) (s : State) : Nat :=
  let auto := sumBy (fun x => match intBlock x.plan x.idx s with
    | some b => if dueAt index s x then dumpBytes (b.f 0x08 1) b.intCount else 0
    | none => 0) (s.dsp.streams.filter fun x => decide (x.plan = plan))
  let pairs := match crossBlock plan s with
    | none => 0
    | some c =>
      match s.dsp.streams.find? fun x => decide (x.plan = plan) && decide (x.engine < 4) && dueAt index s x with
      | none => 0
      | some x => (maskIdx (c.f 0x08 1) 6).length * (((intBlock plan x.idx s).map fun b => dumpBytes 3 b.intCount).getD 0)
  auto + pairs

/-- D of R215 for a stream whose next frame starts the new interval. -/
def drainSpectra (x : XStream) (s : State) : Nat :=
  let r := ((getPlan x.plan s).map fun p => p.streamRate (x.sub s)).getD (0, 1)
  let rate := drainRate x.plan s
  if rate = 0 then 0
  else cdiv (dueBytes x.plan (x.startOf x.number s) s * r.1) (rate * 10 ^ 6 * x.cfg.hop * r.2)

/-! ### Spectra of an integration -/

/-- Bins of an integration taken from a spectrum. -/
def SubBlk.intBins (b : SubBlk) (sp : Spectrum) : List Nat := (sp.power.drop b.intFirst).take b.intCount

/-- A spectrum is summed into the sub-integration (R211). -/
def Integ.sumSub (b : SubBlk) (sp : Spectrum) (g : Integ) : Integ :=
  let p := (b.intBins sp).map p64
  let z := p.map fun _ => 0
  { g with s1 := ((if g.s1.isEmpty then z else g.s1).zip p).map fun x => add64 x.1 x.2
           s2 := ((if g.s2.isEmpty then z else g.s2).zip p).map fun x => add64 x.1 (mul64 x.2 x.2)
           subFlags := g.subFlags ||| sp.flags }

/-- A sub-integration that is not short ends (R212, R213): flags of the bins, and the integration after its add event. -/
def Integ.endSub (b : SubBlk) (g : Integ) : Integ × List Bool :=
  let m := b.subLength
  let bins := g.s1.zip g.s2
  let fl := bins.map fun x => skFlagged (b.f 0x20 4) (b.f 0x24 4) m x.1 x.2
  let q := fun (e : Nat) => (g.s1.zip fl).map fun x =>
    if x.2 then (0 : Int) else let f := FV.frac f64 x.1; quantise (f.1, f.2 * m) e
  let cnt0 := if g.blk.added then g.cnt else fl.map fun _ => 0
  ({ g with blk := g.blk.add q, cnt := (cnt0.zip fl).map fun x => if x.2 then x.1 else x.1 + 1
            lastSk := bins.map fun x => skValue m x.1 x.2, flags := g.flags ||| g.subFlags
            integrated := g.integrated + if fl.any (!·) then m else 0 }, fl)

/-- Change a stream's integration. -/
def modInteg (x : XStream) (f : Integ → Integ) (s : State) : State :=
  modX x.plan x.idx (fun x => { x with integ := x.integ.map f }) s

/-- An interval ends with the spectrum just handled: dump, and the next interval or idle (R205, R215). -/
def endInterval (x0 : XStream) (b : SubBlk) (s : State) : State :=
  match getX x0.plan x0.idx s with
  | none => s
  | some x =>
    match x.integ with
    | none => s
    | some g =>
      let s1 := dumpStream x b g 0 (b.intLength / b.subLength) s
      if b.isSingle then modInteg x (fun g => { g with idle := true, blk := AccBlock.fresh }) s1
      else
        let d := drainSpectra x s
        modInteg x (fun g => Integ.fresh g.base (g.j + 1) d) s1

/-- Spectrum number `k` of a stream, formed (`sp`) or lost, reaches its integration (R205, R206, R211, R215). The stream
has already moved on to the next frame. -/
def integSpectrum (x : XStream) (k index : Nat) (sp : Option Spectrum) (s : State) : State :=
  match x.integ, intBlock x.plan x.idx s with
  | some g0, some b =>
    if g0.idle || decide (k < g0.base + g0.j * b.intLength) then s
    else
      let rel := k - g0.base - g0.j * b.intLength
      let inDrain := decide (rel < g0.drain)
      let skip := match sp with | none => false | some p => decide (p.flags &&& b.f 0x0E 2 ≠ 0)
      let g1 := { g0 with firstIndex := if rel = 0 then index else g0.firstIndex, begun := g0.begun || sp.isSome }
      let s2 :=
        if b.isKurt then
          let pos := rel % b.subLength
          let g2 := if pos = 0 then { g1 with s1 := [], s2 := [], subFlags := 0, subBad := false, subIndex := index } else g1
          let g3 := match sp with
            | none => { g2 with lost := g2.lost + 1, subBad := true }
            | some p => if skip then { g2 with skipped := g2.skipped + 1, subBad := true } else g2.sumSub b p
          if pos + 1 < b.subLength then modInteg x (fun _ => g3) s
          else if inDrain then engDrained x.engine (modInteg x (fun _ => { g3 with subDrained := g3.subDrained + 1 }) s)
          else if g3.subBad then engShort x.engine (modInteg x (fun _ => { g3 with short := g3.short + 1 }) s)
          else
            let r := g3.endSub b
            presentSk x b ((k - g0.base) / b.subLength) g3.subIndex r.2 (timeOf g3.subIndex s, timeOf index s)
              (modInteg x (fun _ => r.1) s)
        else
          match sp with
          | none => modInteg x (fun _ => { g1 with lost := g1.lost + 1 }) s
          | some p =>
            if inDrain then engDrained x.engine (modInteg x (fun _ => { g1 with drained := g1.drained + 1 }) s)
            else if skip then modInteg x (fun _ => { g1 with skipped := g1.skipped + 1 }) s
            else
              let q := fun (e : Nat) => (b.intBins p).map fun w => quantise (FV.frac f32 w) e
              modInteg x (fun _ => { g1 with blk := g1.blk.add q, integrated := g1.integrated + 1, flags := g1.flags ||| p.flags }) s
      if rel + 1 = b.intLength then endInterval x b s2 else s2
  | _, _ => s

/-- An open interval ends early (R216): dumped with PARTIAL if it holds a formed spectrum; an open sub-integration is
short. -/
def closeInteg (x : XStream) (extra : Nat) (s : State) : State :=
  match x.integ, intBlock x.plan x.idx s with
  | some g, some b =>
    if g.idle || !g.begun then s
    else
      let rel := x.number - g.base - g.j * b.intLength
      let openSub := b.isKurt && decide (rel % b.subLength ≠ 0)
      let g1 := if openSub then { g with short := g.short + 1 } else g
      dumpStream x b g1 (1 + extra) (cdiv rel b.subLength) (if openSub then engShort x.engine s else s)
  | _, _ => s

/-! ### Cross-spectra (R217-R219) -/

/-- Engines of cross pair 0-5 (R217). -/
def crossEngines (pair : Nat) : Nat × Nat :=
  match pair with | 0 => (0, 1) | 1 => (0, 2) | 2 => (0, 3) | 3 => (1, 2) | 4 => (1, 3) | _ => (2, 3)

/-- The stream of a plan on an engine XE0-XE3. -/
def engineStream (plan engine : Nat) (s : State) : Option XStream :=
  s.dsp.streams.find? fun x => decide (x.plan = plan) && decide (x.engine = engine)

/-- Change a plan's cross-spectra. -/
def modCross (plan : Nat) (f : CrossSt → CrossSt) (s : State) : State :=
  modDsp (fun d => { d with cross := mapIf (·.plan = plan) f d.cross }) s

/-- Change one pair's interval. -/
def modCrossPair (plan pair : Nat) (f : CrossPair → CrossPair) (s : State) : State :=
  modCross plan (fun c => { c with pairs := mapIf (·.pair = pair) f c.pairs }) s

/-- The open interval of a pair is dumped (R217, R220). -/
def dumpPair (x : XStream) (b : SubBlk) (ring : Nat) (g : CrossPair) (extra : Nat) (s : State) : State :=
  let n := b.intCount
  let acc := g.blk.values (2 * n)
  let h : DumpHead :=
    { kind := 3, source := g.pair, slot := 0, exp := g.blk.exp, number := g.j, firstSpec := g.base + g.j * b.intLength
      firstIndex := g.firstIndex, integrated := g.integrated, skipped := g.skipped, lost := g.lost, drained := g.drained
      subTotal := 0, short := 0, subDrained := 0, flags := extra + if g.blk.sat then 2 else 0, specFlags := g.flags, m := 0
      shift := (g.blk.exp : Int) - 49, lower := 0, upper := 0 }
  let s1 := modDsp (fun d => { d with crossSat := if g.blk.sat then satInc d.crossSat else d.crossSat }) s
  queueDump h (x.labels g.firstIndex s) (100 + g.pair) 5 ring (8 + g.pair) b.intFirst n
    (fun off f c => dumpBins 3 off acc [] [] n f c) (timeOf g.firstIndex s, timeOf (x.position x.next s).1 s) s1

/-- The components of X_a * conj (X_b) over a bin range: real parts, then imaginary ones. -/
def crossProduct (first count : Nat) (a b : List Cplx) : List Int :=
  let l := (((a.zip b).drop first).take count).map fun x =>
    ((x.1.1 * x.2.1 + x.1.2 * x.2.2 : Int), (x.1.2 * x.2.1 - x.1.1 * x.2.2 : Int))
  l.map (·.1) ++ l.map (·.2)

/-- Two spectra of one number reach a pair (R217, R219). -/
def pairSpectrum (plan pair : Nat) (a b : CrossIn) (ref : Nat) (s : State) : State :=
  let e := crossEngines pair
  match (s.dsp.cross.find? (·.plan = plan)).bind (fun c => c.pairs.find? (·.pair = pair)), engineStream plan e.1 s, engineStream plan e.2 s with
  | some g0, some xa, some xb =>
    match intBlock plan xa.idx s, intBlock plan xb.idx s with
    | some ba, some bb =>
      if g0.idle || decide (a.number < g0.base + g0.j * ba.intLength) then s
      else
        let rel := a.number - g0.base - g0.j * ba.intLength
        let g := { g0 with firstIndex := if rel = 0 then a.index else g0.firstIndex, begun := g0.begun || (a.formed.isSome && b.formed.isSome) }
        let unpair := modDsp fun d => { d with unpaired := satInc d.unpaired }
        let set := fun (g : CrossPair) => modCrossPair plan pair fun _ => g
        let mask := ba.f 0x0E 2 ||| bb.f 0x0E 2
        let s1 := match a.formed, b.formed with
          | some (fa, ea, pa), some (fb, eb, pb) =>
            if rel < g.drain then set { g with drained := g.drained + 1 } s
            else if (fa ||| fb) &&& mask ≠ 0 then unpair (set { g with skipped := g.skipped + 1 } s)
            else
              let q := fun (x : Nat) => (crossProduct ba.intFirst ba.intCount pa pb).map fun v =>
                roundDivEven (v * 2 ^ (ea + eb) * 2 ^ 49) (ref * 2 ^ x)
              set { g with blk := g.blk.add q, integrated := g.integrated + 1, flags := g.flags ||| fa ||| fb } s
          | _, _ => unpair (set { g with lost := g.lost + 1 } s)
        if rel + 1 = ba.intLength then
          match (s1.dsp.cross.find? (·.plan = plan)).bind (fun c => c.pairs.find? (·.pair = pair)) with
          | none => s1
          | some g1 =>
            let ring := ((crossBlock plan s1).map fun c => c.f 0x09 1).getD 0
            let s2 := dumpPair xa ba ring g1 0 s1
            if ba.isSingle then set { g1 with idle := true, blk := AccBlock.fresh } s2
            else
              -- the autos' D: the interval that has just begun on the first stream
              let d := (xa.integ.map (·.drain)).getD 0
              set (CrossPair.fresh pair g1.base (g1.j + 1) d) s2
        else s1
    | _, _ => s
  | _, _, _ => s

/-- The engines that a plan's cross pairs use. -/
def crossMembers (mask : Nat) : List Nat :=
  ((maskIdx mask 6).map fun p => [(crossEngines p).1, (crossEngines p).2]).flatten.eraseDups

/-- A spectrum of an engine, formed or lost, reaches the cross pairs of its plan: those whose other spectrum has come
take both (R219). -/
def crossSpectrum (x : XStream) (c : CrossIn) (ref : Nat) (s : State) : State :=
  match crossBlock x.plan s, s.dsp.cross.find? (·.plan = x.plan) with
  | some b, some st =>
    let mask := b.f 0x08 1
    if !(crossMembers mask).contains c.engine then s
    else
      let others := st.waiting.filter fun w => decide (w.number = c.number)
      let s1 := (maskIdx mask 6).foldl (fun s p =>
        let e := crossEngines p
        if e.1 = c.engine then
          match others.find? (·.engine = e.2) with | some o => pairSpectrum x.plan p c o ref s | none => s
        else if e.2 = c.engine then
          match others.find? (·.engine = e.1) with | some o => pairSpectrum x.plan p o c ref s | none => s
        else s) s
      let full := decide (others.length + 1 = (crossMembers mask).length)
      let left := fun (l : List CrossIn) => if full then l.filter (·.number ≠ c.number) else c :: l
      modCross x.plan (fun st => { st with waiting := left st.waiting }) s1
  | _, _ => s

/-- Open intervals of a plan's pairs end early (R216). -/
def closeCross (plan extra : Nat) (s : State) : State :=
  match s.dsp.cross.find? (·.plan = plan), crossBlock plan s with
  | some st, some c =>
    st.pairs.foldl (fun s g =>
      match engineStream plan (crossEngines g.pair).1 s with
      | none => s
      | some x =>
        match intBlock plan x.idx s with
        | none => s
        | some b => if g.idle || !g.begun then s else dumpPair x b (c.f 0x09 1) g (1 + extra) s) s
  | _, _ => s

/-! ### The drain (R215, R216, R221) -/

/-- The drain of a plan ends: its dump records are written in source order, each dropped whole without credit. -/
def drainPlan (plan : Nat) (s : State) : State :=
  let mine := (s.dsp.drain.filter fun d => decide (d.plan = plan)).mergeSort fun a b => decide (a.order ≤ b.order)
  mine.foldl (fun s d =>
    let r := recordOn (planCtx plan s) d.ring ⟨d.recType, d.bytes, d.payload, d.spanStart, d.spanEnd⟩ s
    if r.2 then
      if d.engine = 5 then modDsp (fun d => { d with crossDrops := satInc d.crossDrops }) r.1 else engDrop d.engine r.1
    else r.1) (modDsp (fun d => { d with drain := d.drain.filter fun x => decide (x.plan ≠ plan) }) s)

end Sys2Proof.Machine
end

