-- ==== Sys2Proof/Machine/Spectra.lean ====
section
/-!
DEFINITION. Transform streams as they run: forming frames and handing spectra to their consumers, gaps, switches, and the
start and stop of a plan's streams (R176-R178, R195-R197, R205, R216).
-/

namespace Sys2Proof.Machine

/-- A lost or formed spectrum as a cross pair waits for it. -/
def Spectrum.crossIn (sp : Spectrum) : CrossIn := ⟨sp.engine, sp.number, sp.index, some (sp.flags, sp.exp, sp.bins)⟩

/-- A RECONFIGURE completes when the first new spectrum is formed (R196). -/
def answerSwitch (x : XStream) (s : State) : State :=
  match x.answer with
  | none => s
  | some (c, sid, point) =>
    completeDesc c sid .success point 0 (modX x.plan x.idx (fun x => { x with answer := none }) s)

/-- A formed spectrum passes to its consumers (R178, R199, R205, R217, R229-R232, R255). -/
def consume (x : XStream) (sp : Spectrum) (s : State) : State :=
  let s1 := modEng x.engine (XEng.formed sp) s
  let s2 := traceAll sp (tapSpectrum sp (recordSpectrum sp s1))
  let s3 := integSpectrum x sp.number sp.index (some sp) s2
  let s4 := if x.engine < 4 then crossSpectrum x sp.crossIn sp.ref s3 else s3
  answerSwitch x (densitySpectrum sp (trigSpectrum sp s4))

/-- The next frame of a stream is formed if its samples have arrived (R176, R177). -/
def formFrame (plan idx : Nat) (s : State) : State :=
  match getX plan idx s with
  | none => s
  | some x =>
    if x.ready then
      let sp := x.form s
      let moved := fun (x : XStream) =>
        XStream.prune { x with next := x.next + x.cfg.hop, number := x.number + 1, gap := false, change := false }
      consume (moved x) sp (modX plan idx moved s)
    else s

/-- Every complete frame of a stream is formed; `fuel` bounds their number. -/
def formFrames (plan idx : Nat) : Nat → State → State
  | 0, s => s
  | fuel + 1, s =>
    match getX plan idx s with
    | none => s
    | some x => if x.ready then formFrames plan idx fuel (formFrame plan idx s) else s

/-- Every complete frame of a stream is formed. -/
def formAll (plan idx : Nat) (s : State) : State :=
  match getX plan idx s with
  | none => s
  | some x => formFrames plan idx (x.hist.length + 1) s

/-! ### Gaps (R177) -/

/-- The next spectrum of a stream is lost: its number is consumed and every consumer told (R177, R206, R219, R231). -/
def loseSpectrum (plan idx : Nat) (s : State) : State :=
  match getX plan idx s with
  | none => s
  | some x =>
    let k := x.number
    let index := (x.startOf k s).toNat
    let moved := fun (x : XStream) => { x with next := x.next + x.cfg.hop, number := x.number + 1 }
    let s1 := modEng x.engine (fun e => { e with lost := satInc e.lost }) (modX plan idx moved s)
    let s2 := integSpectrum (moved x) k index none s1
    let s3 := if x.engine < 4 then crossSpectrum (moved x) ⟨x.engine, k, index, none⟩ 1 s2 else s2
    trigLost plan idx s3

/-- Spectra whose frames start before index `i` are lost, in order; `fuel` bounds their number. -/
def loseUntil (plan idx i : Nat) : Nat → State → State
  | 0, s => s
  | fuel + 1, s =>
    match getX plan idx s with
    | none => s
    | some x => if x.startOf x.number s < (i : Int) then loseUntil plan idx i fuel (loseSpectrum plan idx s) else s

/-- Rate in samples of the stream per second times 20 us, rounded up (R196). -/
def twentyUs (x : XStream) (s : State) : Nat :=
  let r := ((getPlan x.plan s).map fun p => p.streamRate (x.sub s)).getD (0, 1)
  cdiv (20 * r.1) (10 ^ 6 * max r.2 1)

/-- The switch point for a change from one size to others, asked for at sample number a (R196). -/
def switchPoint (x : XStream) (a size : Nat) (s : State) : Nat := roundUp (a + twentyUs x s) size

/-- A word carrying GAP reaches a stream (R177): complete frames are formed, the frames of the old grid up to the new one
are lost, and the grid starts again: at the first multiple of H at or after index `i`, or at m = 0 on XEZ. -/
def gapStream (plan idx i : Nat) (s0 : State) : State :=
  let s := formAll plan idx s0
  match getX plan idx s with
  | none => s
  | some x =>
    let first := if x.engine = 4 then 0 else roundUp i x.cfg.hop
    let limit := if x.engine = 4 then i else first
    let base := if x.engine = 4 then 0 else i
    let s1 := loseUntil plan idx limit (limit - (x.startOf x.number s).toNat + 1) s
    let re := fun (w : XSwitch) => { w with point := switchPoint x base (max x.cfg.size w.cfg.size) s }
    modX plan idx (fun x =>
      { x with next := first, hist := [], since := base, gap := true, switch := x.switch.map re }) s1

/-! ### Switches (R182, R196, R216) -/

/-- A stream is given to XE0-XE3 of a plan. -/
def mainStreams (plan : Nat) (s : State) : List XStream :=
  s.dsp.streams.filter fun x => decide (x.plan = plan) && decide (x.engine < 4)

/-- The grids of a stream's integration start again with its next spectrum (R216); a SINGLE integration that has dumped its
interval stays idle. -/
def restartInteg (plan idx : Nat) (s : State) : State :=
  match getX plan idx s with
  | none => s
  | some x => modInteg x (fun g => { Integ.fresh x.number 0 0 with idle := g.idle }) s

/-- The open interval and the open traces of a stream end at a switch (R197, R216). -/
def closeForSwitch (plan idx : Nat) (s : State) : State :=
  match getX plan idx s with
  | none => s
  | some x => restartInteg plan idx (closeInteg x 4 (closeTraces (x.labels (x.position x.next s).1 s) s))

/-- A TABLE load whose last stream has switched takes over its handle: the old copy is freed and the load completes (R182). -/
def settleTable (c handle sid : Nat) (coef : List Nat) (s : State) : State :=
  if s.dsp.streams.any fun x => (x.switch.any fun w => w.load && decide (w.asker = (c, sid))) then s
  else
    let keep := s.dram.allocs.filter fun a => decide (a.kind ≠ .window c handle)
    let als := keep.map fun a => if a.kind = .windowNew c handle then { a with kind := .window c handle } else a
    let lg := (coef.length).log2
    let s1 := modDsp (fun d => { d with swaps := satInc d.swaps }) { s with dram := { s.dram with allocs := als } }
    completeDesc c sid .success 0 0
      (modCtx c (fun x => { x with windows := mapIf (·.handle = handle) (fun _ => ⟨handle, lg, coef⟩) x.windows }) s1)

/-- A stream has passed its switch point: old frames that end by it are formed, and the new configuration begins (R196). -/
def switchStream (plan idx : Nat) (s0 : State) : State :=
  match getX plan idx s0 with
  | none => s0
  | some x0 =>
    match x0.switch with
    | none => s0
    | some w =>
      let reached := match x0.hist.head? with | none => false | some h => decide (w.point ≤ h.1 + x0.width)
      if !reached then s0
      else
        let members := if x0.engine < 4 && (crossBlock plan s0).isSome then (mainStreams plan s0).map (·.idx) else [idx]
        let s1 := members.foldl (fun s i => formAll plan i s) s0
        let s2 := if x0.engine < 4 then closeCross plan 4 s1 else s1
        let s3 := closeForSwitch plan idx s2
        let fresh := decide (w.cfg.lg ≠ x0.cfg.lg) || decide (w.cfg.taps ≠ x0.cfg.taps)
        let s4 := modX plan idx (fun x =>
          { x with cfg := w.cfg, next := w.point, since := if fresh then w.point else x.since, change := true
                   switch := none, answer := if w.load then x.answer else some (w.asker.1, w.asker.2, w.point) }) s3
        let number := ((getX plan idx s4).map (·.number)).getD 0
        let s5 := if x0.engine < 4 then
            modCross plan (fun c => { c with pairs := c.pairs.map fun g => { CrossPair.fresh g.pair number 0 0 with idle := g.idle } }) s4
          else s4
        let s6 := modEng x0.engine (fun e => { e with switches := satInc e.switches }) s5
        if w.load then settleTable w.asker.1 (w.cfg.window - 32) w.asker.2 (w.cfg.table.getD []) s6 else s6

/-! ### Words reach the streams -/

/-- A word of a pair joins the stream of its engine. -/
def pushPair (n : Nat) (w : HWord) (plan : Nat) (s : State) : State :=
  match engineStream plan n s with
  | none => s
  | some x => modX plan x.idx (XStream.push w.index w) s

/-- A word of a zoom channel, sample number m, joins its XEZ stream. -/
def pushZoom (plan slot m : Nat) (w : HWord) (s : State) : State :=
  match s.dsp.streams.find? fun x => decide (x.plan = plan) && decide (x.engine = 4) && decide (x.slot = slot) with
  | none => s
  | some x => modX plan x.idx (XStream.push m w) s

/-- The XEZ streams that are fed by a front unit. -/
def streamsOfFront (u : Nat) (s : State) : List XStream :=
  s.dsp.streams.filter fun x => decide (x.engine = 4) && (slotsOf u s).contains x.slot

/-! ### Start and stop of a plan's streams -/

/-- The user table that a window code of a context names (R182). -/
def tableOf (c window : Nat) (s : State) : Option (List Nat) :=
  if window < 33 then none else (getCtx c s).bind fun x => (x.windows.find? (·.handle = window - 32)).map (·.coef)

/-- The configuration a TRANSFORM block gives (R414). -/
def blockCfg (c : Nat) (b : SubBlk) (s : State) : XCfg := ⟨b.f 0x0C 1, b.f 0x0A 1, b.f 0x0B 1, b.f 0x0D 1, tableOf c (b.f 0x0C 1) s⟩

/-- Overlap that the thermal ladder lets a stream have (R538). -/
def ladderOverlap (step overlap : Nat) : Nat := if step = 0 then overlap else if step = 1 then min overlap 1 else 0

/-- A plan's stream begins at the plan's first word (R176): `cfg` differs from the block's after a restart that took up a
pending RECONFIGURE. -/
def startStream (p : Plan) (index : Nat) (b : SubBlk) (cfg0 : XCfg) (s : State) : State :=
  let z := decide (b.f 0x08 1 = 4)
  let own := cfg0.overlap
  let cfg := { cfg0 with overlap := ladderOverlap s.pwr.step.toNat own }
  let x : XStream :=
    { plan := p.id, idx := b.idx, engine := b.f 0x08 1, slot := if z then (slotOf p.id (b.f 0x09 1) s).getD 0 else 0
      cfg := cfg, own := own, next := if z then 0 else roundUp index cfg.hop, number := 0, hist := [], since := if z then 0 else index
      gap := false, change := false, switch := none, answer := none
      traces := List.replicate (b.f 0x15 1) Trace.empty
      integ := (p.sub? 4 b.idx).bind fun i => if i.f 0x08 1 = 0 then none else some (Integ.fresh 0 0 0) }
  modDsp (fun d => { d with streams := d.streams ++ [x] }) s

/-- A plan's streams and cross pairs begin (R176, R205, R217). `cfgs` gives the configurations that a restart keeps. -/
def startStreams (p : Plan) (index : Nat) (cfgs : List (Nat × XCfg)) (s : State) : State :=
  let s1 := (p.kindSubs 3).foldl (fun s b =>
    startStream p index b (((cfgs.find? (·.1 = b.idx)).map (·.2)).getD (blockCfg p.ctx b s)) s) s
  match p.sub? 5 0 with
  | none => s1
  | some c =>
    let pairs := (maskIdx (c.f 0x08 1) 6).map fun q => CrossPair.fresh q 0 0 0
    modDsp (fun d => { d with cross := d.cross ++ [⟨p.id, pairs, []⟩] }) s1

/-- The streams of a plan. -/
def planStreams (plan : Nat) (s : State) : List XStream := s.dsp.streams.filter fun x => decide (x.plan = plan)

/-- A plan's streams end with their records: complete frames are formed, open traces and intervals close with PARTIAL
(R193, R216). -/
def finishStreams (plan : Nat) (s : State) : State :=
  let ids := (planStreams plan s).map (·.idx)
  let s1 := ids.foldl (fun s i => formAll plan i s) s
  let s2 := closeCross plan 0 s1
  ids.foldl (fun s i =>
    match getX plan i s with
    | none => s
    | some x => closeInteg x 0 (closeTraces (x.labels (x.position x.next s).1 s) s)) s2

/-- Pending RECONFIGUREs of a plan complete with a status, and pending TABLE loads no longer wait for its streams (R197). -/
def dropSwitches (plan : Nat) (st : Status) (s : State) : State :=
  (planStreams plan s).foldl (fun s x =>
    let s1 := match x.answer with | none => s | some (c, sid, _) => completeDesc c sid st 0 0 s
    match x.switch with
    | none => s1
    | some w =>
      let s2 := modX plan x.idx (fun x => { x with switch := none }) s1
      if w.load then settleTable w.asker.1 (w.cfg.window - 32) w.asker.2 (w.cfg.table.getD []) s2
      else completeDesc w.asker.1 w.asker.2 st 0 0 s2) s

/-- A plan's streams and cross pairs go. -/
def removeStreams (plan : Nat) (s : State) : State :=
  modDsp (fun d => { d with streams := d.streams.filter (fun x => decide (x.plan ≠ plan))
                            cross := d.cross.filter (fun c => decide (c.plan ≠ plan)) }) s

end Sys2Proof.Machine
end

