-- ==== Sys2Proof/Machine/Admit.lean ====
section
/-!
DEFINITION. Admission: the partition and limits of the modes, what a plan costs, whether it fits a mode on an idle device
(R41), and whether what is left suffices to reserve it (R42-R44, R90, R175, R242, R262, R302, R427).
-/

namespace Sys2Proof.Machine

/-! ### The modes (R31, R32) -/

/-- Region sizes T, I, D, M, S, OFF, TEST of a mode in MB (R31). -/
def partitionOf (mode : Nat) : List Nat :=
  match mode with
  | 1 => [32, 32, 64, 16, 16, 0, 0] | 2 => [64, 80, 0, 0, 16, 0, 0] | 3 => [32, 96, 0, 16, 16, 0, 0]
  | 4 => [48, 48, 32, 16, 16, 0, 0] | 5 => [32, 16, 32, 32, 48, 0, 0] | 6 => [16, 16, 32, 16, 80, 0, 0]
  | 7 => [16, 16, 0, 16, 112, 0, 0] | 8 => [32, 16, 96, 0, 16, 0, 0] | 9 => [16, 16, 32, 16, 80, 0, 0]
  | 10 => [16, 16, 16, 16, 16, 80, 0] | _ => [0, 0, 0, 0, 0, 0, 160]

/-- Zoom slots of a mode (R32). -/
def slotLimit (mode : Nat) : Nat :=
  match mode with | 3 => 0 | 4 => 32 | 8 => 4 | 9 => 0 | 10 => 4 | 12 => 32 | _ => 8

/-- Density surfaces of a mode (R32). -/
def surfLimit (mode : Nat) : Nat :=
  match mode with | 1 => 4 | 2 => 0 | 3 => 0 | 7 => 0 | 8 => 8 | 10 => 1 | 12 => 8 | _ => 2

/-- The mode whose partition and limits a mode has (R35): in REPLAY those of the mode the bundle records, MAINTENANCE as
SURVEY. -/
def limitsMode (mode replayed : Nat) : Nat := if mode = 11 then (if replayed = 12 || replayed = 0 then 1 else replayed) else mode

/-- Bytes in a MB of a region. -/
def mb : Nat := 2 ^ 20

/-! ### Rates -/

/-- A rate as a fraction, rounded up to a whole number per second. -/
def rateUp (r : Nat × Nat) : Nat := cdiv r.1 (max r.2 1)

/-- A rate times a fraction. -/
def rateMul (r : Nat × Nat) (a b : Nat) : Nat × Nat := (r.1 * a, r.2 * b)

/-- Spectra per second of a stream at its declared maximum overlap (R179, R262). -/
def Plan.spectrumRate (p : Plan) (x : SubBlk) : Nat × Nat := rateMul (p.streamRate x) (2 ^ x.maxOverlap) (2 ^ x.f 0x0A 1)

/-- Points per second of a stream at its declared maximum overlap (R175). -/
def Plan.pointRate (p : Plan) (x : SubBlk) : Nat := rateUp (rateMul (p.streamRate x) (2 ^ x.maxOverlap) 1)

/-- Complex output rate of a zoom channel. -/
def Plan.zoomFs (p : Plan) (z : SubBlk) : Nat × Nat := let r := zoomRate z; rateMul p.fs r.1 r.2

/-- The TRANSFORM block that a block names by stream index. -/
def Plan.stream (p : Plan) (idx : Nat) : SubBlk := p.sub 3 idx

/-! ### What a plan costs (R30) -/

/-- Bytes of Analysis Memory by region. -/
structure Regions where
  t : Nat
  i : Nat
  d : Nat
  m : Nat
  s : Nat
  deriving DecidableEq, Repr

/-- Sum of two needs. -/
def Regions.add (a b : Regions) : Regions := ⟨a.t + b.t, a.i + b.i, a.d + b.d, a.m + b.m, a.s + b.s⟩

/-- A need of nothing. -/
def Regions.zero : Regions := ⟨0, 0, 0, 0, 0⟩

/-- The need in all regions, which MAINTENANCE charges to TEST (R578). -/
def Regions.all (a : Regions) : Nat := a.t + a.i + a.d + a.m + a.s

/-- A need holds within a partition; outside MAINTENANCE the first 16 MB of S are the absorb buffer (R29). -/
def Regions.within (a : Regions) (mode : Nat) : Bool :=
  let p := partitionOf mode
  if mode = 12 then decide (a.all ≤ 160 * mb)
  else decide (a.t ≤ nth p 0 0 * mb) && decide (a.i ≤ nth p 1 0 * mb) && decide (a.d ≤ nth p 2 0 * mb)
    && decide (a.m ≤ nth p 3 0 * mb) && decide (a.s ≤ (nth p 4 0 - 16) * mb)

/-- Granules of T for a TRANSFORM block at its declared maxima (R30, R179). -/
def SubBlk.costT (x : SubBlk) : Nat :=
  roundUp (16 * 2 ^ x.maxLg) granule
    + if x.maxTaps = 0 then 0 else roundUp (2 * (x.maxTaps - 1) * 2 ^ x.maxLg) granule

/-- Granules of I for an INTEGRATION block (R30). -/
def SubBlk.costI (b : SubBlk) : Nat :=
  match b.f 0x08 1 with
  | 1 => roundUp (8 * b.f 0x14 4) granule
  | 2 => roundUp (28 * b.f 0x14 4) granule
  | _ => 0

/-- Granules of I for the cross pairs (R30, R217). -/
def Plan.costCross (p : Plan) : Nat :=
  match p.sub? 5 0 with
  | none => 0
  | some c =>
    sumBy (fun k =>
      let e := (crossEngines k).1
      let x := (p.kindSubs 3).find? fun x => decide (x.f 0x08 1 = e)
      roundUp (16 * ((x.map fun x => (p.sub 4 x.idx).f 0x14 4).getD 0)) granule) (maskIdx (c.f 0x08 1) 6)

/-- What a plan needs of Analysis Memory; its exports are charged beside it. -/
def Plan.regions (p : Plan) : Regions :=
  { t := sumBy SubBlk.costT (p.kindSubs 3), i := sumBy SubBlk.costI (p.kindSubs 4) + p.costCross
    d := sumBy (fun b => roundUp (4 * b.f 0x10 2 * b.f 0x12 2) granule) (p.kindSubs 8), m := 0, s := 0 }

/-- S that an export's assembly buffers take: two records for each source (R428). -/
def Export.staging (e : Export) : Nat :=
  let bytes := 256 + (if e.form = 1 then 16 else 12) * e.recordWords
  roundUp (2 * recBytes (bytes - 64) * ((maskIdx e.sourceMask 4).length + (maskIdx e.zoomMask 32).length)) granule

/-- Exports of the plans of a list. -/
def exportsOf (l : List Plan) (s : State) : List Export := s.disk.exports.filter fun e => l.any fun p => decide (p.id = e.plan)

/-- The staged masks, in bytes of M (R229). -/
def maskBytes (n : Nat) : Nat := roundUp (4 * n + cdiv n 8) granule

/-- The staged window tables, in bytes of T (R30). -/
def tableBytes (lg : Nat) : Nat := roundUp (cdiv (18 * 2 ^ lg) 8) granule

/-- Feature limits against which requests are checked (R35, R46). -/
def checkMode (s : State) : Nat := limitsMode (effMode s) s.mode.replayed.toNat

/-- What handles, bindings, scratch windows and stamp queues hold; with no M region no mask is staged (R47, R230). -/
def heldRegions (s : State) : Regions :=
  let tabs := sumBy (fun c => sumBy (fun w => tableBytes w.log2) c.windows) s.host.ctxs
  let fresh := (s.dsp.streams.filterMap fun x => (x.switch.filter (·.load)).map fun w => (w.asker, w.cfg.table)).eraseDups
  { t := tabs + sumBy (fun w => (w.2.map fun l => tableBytes l.length.log2).getD 0) fresh
    i := 0, d := 0
    m := if nth (partitionOf (checkMode s)) 3 0 = 0 then 0 else sumBy (fun m => maskBytes m.img.lower.length + ((m.newer.map fun n => maskBytes n.1.lower.length).getD 0)) s.trg.masks
    s := sumBy (fun b => roundUp b.windowBytes granule) s.disk.bindings
      + sumBy (fun k => if k.scratchInS then k.instances * roundUp (k.scratchKb * 1024) granule else 0) s.spu.kernels
      + sumBy (fun c => roundUp (c.stagingKb * 1024) granule) s.tim.chans }

/-- Analysis Memory in use with the plans of a list. -/
def regionsOf (l : List Plan) (s : State) : Regions :=
  (l.foldl (fun a p => a.add p.regions) (heldRegions s)).add
    { Regions.zero with s := sumBy Export.staging (exportsOf l s) }

/-- Plans that hold reservations. -/
def reservedPlans (s : State) : List Plan := s.plans.filter (·.reserved)

/-- Room for a further need beside what is held. -/
def roomFor (a : Regions) (s : State) : Bool := ((regionsOf (reservedPlans s) s).add a).within (checkMode s)

/-! ### DRAM demand (R44) -/

/-- Capture writers of a list of plans: (plan, cap_source, bytes per second), once per pair. -/
def writerDemand (l : List Plan) : Nat :=
  let caps := (l.map fun p => (p.kindSubs 7).map fun c => (p, c.f 0x08 1)).flatten
  let pairs := (caps.filter fun c => decide (c.2 ≤ 4)).map fun c => (c.2, rateUp (rateMul c.1.fs 2 1))
  let zooms := ((caps.filter fun c => decide (4 < c.2)).map fun c => (c.1.id, c.2, rateUp (rateMul (c.1.zoomFs (c.1.sub 1 (c.2 - 17))) 4 1))).eraseDups
  sumBy (fun n => ((pairs.filter fun c => decide (c.1 = n)).map (·.2)).foldl max 0) [1, 2, 3, 4] + sumBy (fun z => z.2.2) zooms

/-- Render chain bytes per second of a DENSITY block (R262). -/
def Plan.renderDemand (p : Plan) (b : SubBlk) : Nat :=
  if b.f 0x0C 1 = 0 then 0
  else rateUp (rateMul (p.spectrumRate (p.stream (b.f 0x08 1))) (4 * b.f 0x10 2 * b.f 0x12 2) (max (b.f 0x28 4) 1))

/-- Readers that a plan declares. -/
def Plan.readerDemand (p : Plan) : Nat :=
  p.h 0x1C 4 * 10 ^ 6 + sumBy p.renderDemand (p.kindSubs 8)
    + sumBy (fun c => if c.f 0x0B 1 = 0 then 0 else rateUp (rateMul p.fs 2 1)) (p.kindSubs 7)

/-- Demand of the display layers but for one. -/
def layerDemand (but : Option (Nat × Nat)) (s : State) : Nat :=
  sumBy (fun o => sumBy (fun l =>
      let y := getLayer o l s
      if y.enabled && decide (but ≠ some (o, l)) then y.demand (getOut o s).refresh s else 0) (List.range 4)) (List.range 2)

/-- Demand of the kernels. -/
def kernelDemand (s : State) : Nat := sumBy (fun k => k.dmaMb * 10 ^ 6) s.spu.kernels

/-- Demand of the replay feed (R549). -/
def replayDemand (s : State) : Nat :=
  match s.fr.loaded with
  | some b => if replaying s then rateUp (2 * b.rateNum * b.pairs, max b.rateDen 1) else 0
  | none => 0

/-- Total DRAM demand with the plans of a list. -/
def dramDemand (l : List Plan) (s : State) : Nat :=
  writerDemand l + sumBy Plan.readerDemand l + layerDemand none s + kernelDemand s + replayDemand s

/-! ### Export rates (R427) -/

/-- Bytes per second on the two ports. -/
abbrev PortRate := Nat × Nat

/-- Sum of port rates. -/
def portSum (l : List PortRate) : PortRate := l.foldl (fun a b => (a.1 + b.1, a.2 + b.2)) (0, 0)

/-- A rate on one port. -/
def onPort (port rate : Nat) : PortRate := if port = 0 then (rate, 0) else (0, rate)

/-- Port of a context. -/
def ctxPort (c : Nat) (s : State) : Nat := ((getCtx c s).map fun x => fnPort x.fn).getD 0

/-- A rate that goes to a data ring: a ring group that spans both ports charges each half (R427). -/
def ringRate (c r rate : Nat) (s : State) : PortRate :=
  if r = 0 then (0, 0)
  else
    match (ringStream c r s).bind (getStream · s) with
    | some st => if st.rings.length = 2 then (cdiv rate 2, cdiv rate 2) else onPort (ctxPort c s) rate
    | none => onPort (ctxPort c s) rate

/-- Bytes of the records of one recorded spectrum of a TRANSFORM block, over its detectors. -/
def SubBlk.spectrumBytes (x : SubBlk) : Nat :=
  sumBy (fun det => if bit (x.f 0x14 1) (det - 1) then
      sumBy (fun p => recBytes (0x88 + detBytes det * p.2.1)) (pieces (2 ^ 18 / detBytes det) (x.f 0x24 4 + 1) 0 (x.f 0x24 4)) else 0)
    [1, 2, 3]

/-- Raw-record bytes per second of a DENSITY block with their headers (R262, R263). -/
def Plan.rawRate (p : Plan) (b : SubBlk) : Nat :=
  if b.f 0x1A 2 = 0 then 0
  else
    let per := max (65536 / max (b.f 0x12 2) 1) 1
    let recs := cdiv (b.f 0x10 2) per
    rateUp (rateMul (p.spectrumRate (p.stream (b.f 0x08 1))) (4 * b.f 0x10 2 * b.f 0x12 2 + 0x90 * recs) (max (b.f 0x28 4 * b.f 0x1A 2) 1))

/-- Rates that a plan declares, without its exports: (ring, bytes per second). -/
def Plan.declared (p : Plan) : List (Nat × Nat) :=
  ((p.kindSubs 3).map fun x => (x.f 0x16 1, if x.f 0x1C 4 = 0 then 0
      else rateUp (rateMul (p.spectrumRate x) x.spectrumBytes (x.f 0x1C 4))))
  ++ ((p.kindSubs 4).map fun b => (b.f 0x0C 1, b.f 0x28 4 * 10 ^ 6))
  ++ ((p.kindSubs 7).map fun c => (c.f 0x0B 1, if c.f 0x0B 1 = 0 then 0 else rateUp (rateMul p.fs 2 1)))
  ++ ((p.kindSubs 8).map fun b => (b.f 0x1E 1, p.rawRate b))

/-- Rates of an export's sources in samples, or output samples, per second, with the bytes of one. -/
def exportSources (p : Plan) (e : Export) : List ((Nat × Nat) × Nat) :=
  ((maskIdx e.sourceMask 4).map fun _ => (p.fs, 8)) ++ ((maskIdx e.zoomMask 32).map fun z => (p.zoomFs (p.sub 1 z), 4))

/-- Sample bytes per second of an export (R427). -/
def sampleRateOf (p : Plan) (e : Export) : Nat :=
  sumBy (fun x => rateUp (rateMul x.1 ((if e.form = 1 then 16 else 12)) x.2)) (exportSources p e)

/-- Header bytes per second of an export: 256 a record. -/
def headerRateOf (p : Plan) (e : Export) : Nat :=
  sumBy (fun x => rateUp (rateMul x.1 256 (x.2 * max e.recordWords 1))) (exportSources p e)

/-- Port rates of an export; disk traffic goes by the port of the sender's bindings. -/
def exportPorts (p : Plan) (e : Export) (s : State) : PortRate :=
  let r := sampleRateOf p e + headerRateOf p e
  if e.disk then onPort (ctxPort e.ctx s) r else ringRate e.ctx e.target r s

/-- Port rates of a plan with its exports. -/
def Plan.ports (p : Plan) (s : State) : PortRate :=
  portSum ((p.declared.map fun x => ringRate p.ctx x.1 x.2 s) ++ ((exportsOf [p] s).map fun e => exportPorts p e s))

/-- Port rates of the kernels' emits. -/
def kernelPorts (s : State) : PortRate := portSum (s.spu.kernels.map fun k => ringRate k.ctx k.emitRing (k.emitMb * 10 ^ 6) s)

/-- Reserved egress of the two ports with the plans of a list (R440). -/
def portRates (l : List Plan) (s : State) : PortRate := portSum (kernelPorts s :: l.map fun p => p.ports s)

/-- Reserved sample bytes per second (R440). -/
def sampleRates (l : List Plan) (s : State) : Nat :=
  sumBy (fun p => sumBy (sampleRateOf p) (exportsOf [p] s)) l

/-- The port budgets and the sample cap hold (R427). -/
def exportFits (l : List Plan) (s : State) : Bool :=
  let r := portRates l s
  decide (r.1 ≤ 58 * 10 ^ 9) && decide (r.2 ≤ 58 * 10 ^ 9) && decide (sampleRates l s ≤ 768 * 10 ^ 8)

/-! ### Tap rates (R299, R302) -/

/-- Bins of a stream's spectra at its declared maximum size. -/
def SubBlk.maxBins (x : SubBlk) : Nat := binsOf (x.f 0x08 1) x.maxLg

/-- Bytes of a tap's largest item with its header (R300), and items per second (R302): a TRIGGER source has no rate of its
own. -/
def tapItem (p : Plan) (kind source detail count : Nat) : Nat × (Nat × Nat) :=
  let x := p.stream source
  let b := p.sub 4 source
  let n := fun (all : Nat) => if count = 0 then all else count
  let pad := fun (v : Nat) => 32 + roundUp v 16
  match kind with
  | 1 => (pad (0x48 + detBytes detail * n x.maxBins), p.spectrumRate x)
  | 2 => let r := x.reducer detail
         (pad (0x50 + 8 * n (cdiv r.count (max r.k 1))), rateMul (p.spectrumRate x) 1 (max r.l 1))
  | 3 =>
    let y := if source < 8 || decide (13 < source) then x
             else ((p.kindSubs 3).find? fun x => decide (x.f 0x08 1 = (crossEngines (source - 8)).1)).getD SubBlk.none
    let g := p.sub 4 y.idx
    let cross := decide (8 ≤ source) && decide (source ≤ 13) && (p.sub? 5 0).isSome && ((p.sub? 3 source).isNone || (p.sub? 4 source).isNone)
    (pad (0x70 + dumpBytes (if cross then 3 else g.f 0x08 1) (n (g.f 0x14 4))), rateMul (p.spectrumRate y) 1 (max (g.f 0x18 8) 1))
  | 4 => (pad (0x20 + cdiv (n (b.f 0x14 4)) 8), rateMul (p.spectrumRate x) 1 (2 ^ b.f 0x0A 1))
  | _ => (pad 128, (0, 1))

/-- Bytes per second of a tap (R302). -/
def tapRate (p : Plan) (t : Tap) : Nat :=
  let i := tapItem p t.kind t.source t.detail t.count
  rateUp (rateMul i.2 i.1 (max t.every 1))

/-- Tap rate into a logical SPU from the plans of a list. -/
def Lsu.tapTotal (l : List Plan) (u : Lsu) : Nat :=
  sumBy (fun t => sumBy (fun p => if p.id = t.plan then tapRate p t else 0) l) u.taps

/-- Every SPU's tap rate holds. -/
def tapsFit (l : List Plan) (s : State) : Bool := s.spu.lsus.all fun u => decide (u.tapTotal l ≤ 16 * 10 ^ 9)

/-! ### Density, zoom and engines -/

/-- Cell updates per second of a DENSITY block (R262). -/
def Plan.cellRate (p : Plan) (b : SubBlk) : Nat :=
  let c := b.f 0x10 2
  rateUp (rateMul (p.spectrumRate (p.stream (b.f 0x08 1)))
    (c * max (b.f 0x18 2) 1 + cdiv c (max (b.f 0x2C 4) 1) * b.f 0x12 2) 1)

/-- Cell updates per second of the plans of a list. -/
def cellRates (l : List Plan) : Nat := sumBy (fun p => sumBy p.cellRate (p.kindSubs 8)) l

/-- Points per second on XEZ (R175). -/
def xezRate (l : List Plan) : Nat :=
  sumBy (fun p => sumBy (fun x => if x.f 0x08 1 = 4 then p.pointRate x else 0) (p.kindSubs 3)) l

/-- Slot input rate of the plans of a list, in complex samples per second (R160). -/
def slotRate (l : List Plan) : Nat :=
  sumBy (fun p => sumBy (fun z => rateUp (rateMul p.fs 1 (2 ^ z.f 0x21 1))) (p.kindSubs 1)) l

/-- Front units that the plans of a list take of a pair. -/
def frontCount (l : List Plan) (n : Nat) : Nat :=
  sumBy (fun p => (p.frontFirsts.filter fun z => decide (z.f 0x20 1 = n)).length) l

/-! ### Does a plan fit a mode (R41)? -/

/-- A source code occurs among a plan's trigger units. -/
def Plan.usesSource (p : Plan) (code : Nat) : Bool :=
  (p.kindSubs 6).any fun b => decide (b.source false = code) || decide (b.source true = code)

/-- A plan fits a mode on an otherwise idle device (R25, R30, R32, R33, R36, R41, R527, R578): `mode` is the mode itself,
`limits` the one whose limits apply. -/
def fitsMode (p : Plan) (mode limits : Nat) (s : State) : Bool :=
  let caps := p.kindSubs 7
  let duty := decide (p.h 0x20 4 ≠ 0)
  (decide (mode ≠ 12) || decide (p.ctx = 0))
    && (if mode = 11 || decide (mode = 12) then !duty && caps.isEmpty else (decide (limits ≠ 10) || duty))
    && ((decide (limits ≠ 2) && decide (limits ≠ 8) && decide (mode ≠ 12)) || !p.usesSource 2)
    && ((p.sub? 5 0).isNone || decide (limits = 3) || decide (mode = 12))
    && (decide (limits = 5) || caps.all fun c => decide (c.f 0x1C 4 ≤ 1))
    && p.regions.within limits
    && decide ((p.kindSubs 1).length ≤ slotLimit limits) && decide ((p.kindSubs 8).length ≤ surfLimit limits)
    && ((p.kindSubs 3).all fun x => decide (x.f 0x08 1 = 4) || decide (p.pointRate x ≤ 28 * 10 ^ 9))
    && decide (xezRate [p] ≤ 28 * 10 ^ 9) && decide (slotRate [p] ≤ 14 * 10 ^ 9) && decide (cellRates [p] ≤ 56 * 10 ^ 9)
    && decide (writerDemand [p] + p.readerDemand ≤ s.dram.bandwidth)
    && decide (sumBy (·.2) p.declared ≤ 116 * 10 ^ 9)

/-- A plan fits the mode in force, or the one being entered. -/
def fitsNow (p : Plan) (s : State) : Bool := fitsMode p (effMode s) (checkMode s) s

/-! ### Is there room for it (R42)? -/

/-- Engines XE0-XE3 of a plan. -/
def Plan.engines (p : Plan) : List Nat := ((p.kindSubs 3).map fun x => x.f 0x08 1).filter fun e => decide (e < 4)

/-- Route and full-scale step of pair n that a plan asks for (R412). -/
def Plan.routeOf (p : Plan) (n : Nat) : Nat × Nat := (p.h (0x18 + n) 1 % 8, p.h (0x18 + n) 1 / 8 % 16)

/-- Two plans disagree on a pair that both hold (R43, R90). -/
def routesClash (p q : Plan) : Bool :=
  (List.range 4).any fun n => p.holdsPair n && q.holdsPair n && decide (p.routeOf n ≠ q.routeOf n)

/-- A plan asks for the rate in force (R51). -/
def atRate (p : Plan) (s : State) : Bool := decide (p.fs.1 * s.tim.rateDen = s.tim.rateNum * p.fs.2)

/-- A plan holds some pair. -/
def Plan.holdsAny (p : Plan) : Bool := (List.range 4).any p.holdsPair

/-- A unit drives TRIGOUT. -/
def Plan.drivesTrigout (p : Plan) : Bool := (p.kindSubs 6).any fun b => decide (b.f 0x0B 1 ≠ 0)

/-- Capture rings that a plan would add: (cap_source, MB). -/
def newRings (p : Plan) (s : State) : List (Nat × Nat) :=
  (((p.kindSubs 7).map fun c => c.f 0x08 1).eraseDups.filter fun src =>
    s.trg.rings.all fun r => decide (r.source ≠ src) || (decide (4 < src) && decide (r.plan ≠ p.id))).map fun src => (src, p.ringMb src)

/-- A ring number for a capture ring: pairs take 0-3, zoom rings 4-7. -/
def ringNumber (src : Nat) (s : State) : Option Nat :=
  if src ≤ 4 then some (src - 1) else [4, 5, 6, 7].find? fun r => s.trg.rings.all fun x => decide (x.r ≠ r)

/-- A capture ring as it begins (R241). -/
def CapRing.empty (r src plan blocks addr : Nat) : CapRing :=
  { r := r, source := src, plan := plan, blocks := blocks, writing := false, start := 0, next := 0, blks := [], addr := addr
    overwritten := 0, logOvf := 0, spillDrops := 0 }

/-- The recorder's history of a pair starts afresh in the place that now holds it (R542). -/
def clearShare (n : Nat) (s : State) : State :=
  if s.fr.frozen then s else modFr (fun r => { r with shares := modNth r.shares n fun _ => [] }) s

/-- Rings created one after another with their tag logs; the code of what is short (R242). -/
def createRings (plan : Nat) : List (Nat × Nat) → State → Except Nat State
  | [], s => .ok s
  | (src, size) :: r, s =>
    let used := sumBy (fun x => x.blocks * 2 ^ 18) s.trg.rings
    match ringNumber src s, ringFit (size * mb) s with
    | some n, some a =>
      if s.dram.ringLimit < used + size * mb then .error 16
      else
        match allocate (.tagLog n) (size * 4 * 1024) s with
        | none => .error 12
        | some (_, s1) =>
          let ring := CapRing.empty n src (if src ≤ 4 then 0 else plan) (size * 4) a
          createRings plan r (clearShare n (modTrg (fun t => { t with rings := t.rings ++ [ring] }) s1))
    | _, _ => .error (if s.dram.inService.isEmpty then 12 else 16)

/-- Bytes of a capture's segment table (R244). -/
def segTableBytes (c : SubBlk) : Nat := roundUp (32 * c.f 0x1C 4) granule

/-- The general region's share of a plan: segment tables and render chains (R244, R268). -/
def planAllocs (p : Plan) (surfNos : List Nat) : List (AllocKind × Nat) :=
  ((p.kindSubs 7).map fun c => (.segTable p.id c.idx, segTableBytes c))
  ++ (((p.kindSubs 8).zip surfNos).filterMap fun b =>
      if b.1.f 0x0C 1 = 0 then none else some (.render b.2, renderStride b.1 * b.1.f 0x0D 1))

/-- A ring of the plan's sources exists and is too small for a capture of it (R242). -/
def ringTooSmall (p : Plan) (s : State) : Bool :=
  (p.kindSubs 7).any fun c => s.trg.rings.any fun r =>
    decide (r.source = c.f 0x08 1) && (decide (r.source ≤ 4) || decide (r.plan = p.id)) && decide (r.blocks < c.f 0x10 4 * 4)

/-- The first short resource, by code, for a plan beside those that hold reservations (R42, R406); the general region and
the rings are tried by the reservation itself. -/
def shortResource (p : Plan) (s : State) : Option Nat :=
  let others := (reservedPlans s).filter fun q => decide (q.id ≠ p.id)
  let all := others ++ [p]
  let limits := checkMode s
  let rateClash := !replaying s && !atRate p s && others.any Plan.holdsAny
  let routeClash := !replaying s && (others.any (routesClash p))
  if !(regionsOf all s).within limits then some 1
  else if (others.any fun q => q.engines.any p.engines.contains) || decide (28 * 10 ^ 9 < xezRate all) then some 2
  else if decide (slotLimit limits < sumBy (fun q => (q.kindSubs 1).length) all) || decide (14 * 10 ^ 9 < slotRate all)
      || (List.range 4).any (fun n => decide (2 < frontCount all n)) then some 3
  else if 8 < sumBy (fun q => (q.kindSubs 6).length) all then some 4
  else if decide (56 * 10 ^ 9 < cellRates all) || decide (surfLimit limits < sumBy (fun q => (q.kindSubs 8).length) all) then some 5
  else if s.dram.bandwidth < dramDemand all s then some 6
  else if !exportFits all s then some 7
  else if !tapsFit all s then some 8
  else if rateClash || routeClash then some 10
  else if p.drivesTrigout && others.any Plan.drivesTrigout then some 11
  else none

end Sys2Proof.Machine
end

