-- ==== Sys2Proof/Machine/Exports.lean ====
section
/-!
DEFINITION. Sample exports and disk sets: forming STREAM_SAMPLES records, opening and closing, drive completions (R420-R437).
-/

namespace Sys2Proof.Machine

/-- Change the exports and bindings. -/
def modDisk (f : Disk → Disk) (s : State) : State := { s with disk := f s.disk }

/-- Change an export by its slot. -/
def modExport (slot : Nat) (f : Export → Export) (s : State) : State :=
  modDisk (fun d => { d with exports := mapIf (fun e => decide (e.slot = slot)) f d.exports }) s

/-- An export by its slot. -/
def getExport (slot : Nat) (s : State) : Option Export := s.disk.exports.find? fun e => decide (e.slot = slot)

/-! ### Records (R420-R423) -/

/-- One 16-bit value packed to 12 bits, and whether it hit the limit (R421). -/
def pack12 (v : Int) : Int × Bool :=
  let y := roundDivEven v 16
  let c := clampInt (-2048) 2047 y
  (c, decide (c ≠ y))

/-- The bytes of words in a sample form, and whether a value was clamped (R421). -/
def exportBytes (form : Nat) (ws : List HWord) (off : Nat) : List Fld × Bool :=
  if form = 1 then (wordFields off ws, false)
  else
    let l := ws.map fun w => w.vals.map pack12
    ((l.zipIdx.map fun g => ⟨off + 12 * g.2, 12, g.1.zipIdx.foldl (fun n c => n + wrapInt 12 c.1.1 * 2 ^ (12 * c.2)) 0⟩)
      , l.any fun g => g.any (·.2))

/-- Index distance from a word to its successor: 8 for a pair, four output samples of a zoom channel. -/
def sourceStep (plan source : Nat) (s : State) : Nat :=
  if source < 16 then 8
  else let z := planSub plan 1 (source - 16) s; 4 * 2 ^ (z.f 0x21 1 + z.f 0x22 1) * zoomStep (z.f 0x18 8) / 2 ^ 40

/-- STREAM_SAMPLES payload (R422). -/
def samplesPayload (e : Export) (x : ExpSource) : List Fld :=
  let fst := x.words.headD (blankWord 0)
  let lst := x.words.getLast?.getD fst
  let any := fun b => x.words.any (·.has b)
  let data := exportBytes e.form x.words 0x100
  let flags := packBits [(0, 1, b2n (fst.has tagGap)), (1, 1, b2n (decide (x.words.length < e.recordWords)))
    , (2, 1, b2n (any tagOvr)), (3, 1, b2n (any tagRamp)), (4, 1, b2n (any tagTrig)), (5, 1, b2n (any tagRetune))
    , (6, 1, b2n (any tagReplay)), (7, 1, b2n data.2)]
  [⟨0x40, 4, e.id⟩, ⟨0x44, 1, x.source⟩, ⟨0x45, 1, e.form⟩, ⟨0x46, 2, flags⟩, ⟨0x48, 8, fst.index⟩, ⟨0x50, 2, fst.frac⟩
   , ⟨0x52, 1, fst.calepoch + 16 * lst.calepoch⟩, ⟨0x54, 4, x.words.length⟩, ⟨0x58, 8, x.recordNumber⟩]
  ++ rangeList 0x60 (x.words.map fun w => (w.index, wordReasons false w)) ++ data.1

/-- The open record of a source closes (R420): formed as a record of the export's stream, or dropped and counted. -/
def closeExpRecord (slot source : Nat) (s : State) : State :=
  match getExport slot s with
  | none => s
  | some e =>
    match e.sources.find? (fun x => decide (x.source = source)) with
    | none => s
    | some x =>
      match x.words with
      | [] => s
      | w :: _ =>
        let lst := (x.words.getLast?.getD w).index
        let bytes := recBytes (256 + (if e.form = 1 then 16 else 12) * x.words.length)
        let r := formRealtime e.streamId
          ⟨0x0080, bytes, samplesPayload e x, timeOf w.index s, timeOf (lst + sourceStep e.plan source s) s⟩ s
        modExport slot (fun e =>
          { e with drops := if r.2 then satInc e.drops else e.drops
                   sources := mapIf (fun y => decide (y.source = source))
                     (fun y => { y with words := [], recordNumber := y.recordNumber + 1 }) e.sources }) r.1

/-- A word of a source reaches an export: GAP begins a new record, and records end on multiples of their length (R420). -/
def exportWordTo (slot source : Nat) (w : HWord) (s : State) : State :=
  let s1 := if w.has tagGap then closeExpRecord slot source s else s
  let width := if source < 16 then 8 else 4
  let put := fun (x : ExpSource) => { x with words := x.words ++ [w], pos := if source < 16 then w.index + 8 else x.pos + 4 }
  let s2 := modExport slot (fun e => { e with sources := mapIf (fun x => decide (x.source = source)) put e.sources }) s1
  match (getExport slot s2).bind fun e => (e.sources.find? (fun x => decide (x.source = source))).map fun x => (e, x) with
  | none => s2
  | some (e, x) => if x.pos % (width * max e.recordWords 1) = 0 then closeExpRecord slot source s2 else s2

/-- A word of a plan's source reaches the export that takes it (R424). -/
def exportWord (plan source : Nat) (w : HWord) (s : State) : State :=
  (s.disk.exports.filter fun e => decide (e.plan = plan) && e.running && e.closing.isNone
    && e.sources.any fun x => decide (x.source = source)).foldl (fun s e => exportWordTo e.slot source w s) s

/-- The open records of an export close SHORT, pairs before zoom channels (R420). -/
def closeExpRecords (slot : Nat) (s : State) : State :=
  match getExport slot s with
  | none => s
  | some e => (e.sources.map (·.source)).foldl (fun s n => closeExpRecord slot n s) s

/-! ### Plans that stop and start (R425, R527) -/

/-- A plan's exports pause: open records close SHORT, and a GAP with reason INTERVAL falls due. -/
def pauseExports (plan : Nat) (s : State) : State :=
  (s.disk.exports.filter fun e => decide (e.plan = plan) && e.running).foldl (fun s e =>
    modExport e.slot (fun e => { e with running := false, pausedAt := some (now s) }) (closeExpRecords e.slot s)) s

/-- A plan's exports run: each that has paused writes one GAP record over the pause. -/
def resumeExports (plan : Nat) (s : State) : State :=
  (s.disk.exports.filter fun e => decide (e.plan = plan) && e.closing.isNone).foldl (fun s e =>
    let s1 := modExport e.slot (fun e => { e with running := true, pausedAt := none }) s
    match e.pausedAt with
    | none => s1
    | some t => formGap e.streamId 0 0 0 2 0 t (now s) s1) s

/-! ### Closing (R425, R426) -/

/-- Members of an export's disk set. -/
def setMembers (e : Export) (s : State) : List Binding :=
  s.disk.bindings.filter fun b => decide (b.ctx = e.ctx) && decide (b.set = e.target)

/-- A close begins: open records, the final SEAL with its reason, and on a disk set the open extents (R426, R501). -/
def beginClose (slot reason : Nat) (asker : Option (Nat × Nat)) (s : State) : State :=
  match getExport slot s with
  | none => s
  | some e =>
    let s1 := nameDrops e.streamId (closeExpRecords slot s)
    let q := ((getStream e.streamId s1).map (·.seq)).getD 0
    modExport slot (fun e => { e with running := false, closing := some ⟨asker, q, false, 0, false⟩ })
      (formSeal e.streamId reason asker s1)

/-- The export is gone; a disk stream ends with it. -/
def removeExport (e : Export) (s : State) : State :=
  let s1 := modDisk (fun d => { d with exports := d.exports.filter fun x => decide (x.slot ≠ e.slot) }) s
  if e.disk then modHost (fun h => { h with streams := h.streams.filter fun x => decide (x.id ≠ e.streamId) }) s1 else s1

/-- The close ends: the completion of STREAM_CLOSE, or EXPORT_CLOSED to the owner. -/
def finishClose (e : Export) (c : Closing) (s : State) : State :=
  let s1 := removeExport e s
  match c.asker with
  | some a => completeDesc a.1 a.2 (if c.failed then .diskFailed else .success) (if c.failed then 0 else c.sealSeq) 0 s1
  | none => sendEvent e.ctx 0x0100 e.id c.sealSeq e.plan 0 s1

/-- Flush commands go to the active members of a set; others count as failed (R426). -/
def sendFlushes (e : Export) (s : State) : State :=
  let ms := setMembers e s
  let live := ms.filter fun b => decide (b.state = .active)
  let s1 := live.foldl (fun s b =>
    emit (.nvme b.slot 0 0 true) (modBinding b.slot (fun b =>
      { b with outstanding := b.outstanding ++ [⟨b.nextCid, 0, 0, 0, [], false, true⟩], nextCid := b.nextCid + 1 }) s)) s
  modExport e.slot (fun e => { e with closing := e.closing.map fun c =>
    { c with flushing := true, left := live.length, failed := decide (live.length < ms.length) || ms.isEmpty } }) s1

/-- Moves a close on: the SEAL written, then the Flush commands, then the end. -/
def stepClose (slot : Nat) (s : State) : State :=
  match getExport slot s with
  | none => s
  | some e =>
    match e.closing with
    | none => s
    | some c =>
      let waits := ((getStream e.streamId s).map fun st => st.waiting.any fun w => decide (w.seq ≤ c.sealSeq)).getD false
      if waits then s
      else if e.disk then
        if c.flushing then (if c.left = 0 then finishClose e c s else s)
        else
          let s1 := sendFlushes e ((setMembers e s).foldl (fun s b => closeExtent b.slot s) s)
          match (getExport slot s1).bind fun e => e.closing.map fun c => (e, c) with
          | some (e1, c1) => if c1.left = 0 then finishClose e1 c1 s1 else s1
          | none => s1
      else finishClose e c s

/-- Moves every close on. -/
def stepCloses (s : State) : State := (s.disk.exports.map (·.slot)).foldl (fun s n => stepClose n s) s

/-! ### Drives (R434-R437) -/

/-- A disk set has no member that can still take records. -/
def setFailed (c set : Nat) (s : State) : Bool :=
  (s.disk.bindings.filter fun b => decide (b.ctx = c) && decide (b.set = set)).all fun b => decide (b.state = .failed)

/-- Stored records leave a member: their digests are known stored. -/
def recordsStored (l : List StoredRec) (s : State) : State :=
  l.foldl (fun s r => modStream r.stream (setOutcome r.seq true) s) s

/-- Runs of consecutive seqs of one stream in a list of records. -/
def lostRuns : List StoredRec → List (Nat × Nat × Nat × Nat × Nat × Nat × Nat)
  | [] => []
  | r :: t =>
    match lostRuns t with
    | (st, f, l, n, b, a, z) :: q =>
      if st = r.stream && decide (r.seq + 1 = f) then (st, r.seq, l, n + 1, b + r.bytes, min a r.spanStart, max z r.spanEnd) :: q
      else (r.stream, r.seq, r.seq, 1, r.bytes, r.spanStart, r.spanEnd) :: (st, f, l, n, b, a, z) :: q
    | [] => [(r.stream, r.seq, r.seq, 1, r.bytes, r.spanStart, r.spanEnd)]

/-- Records of a member are lost (R437): their outcomes are known, and a GAP names each run of them. -/
def recordsLost (slot reason : Nat) (l : List StoredRec) (s : State) : State :=
  let s1 := l.foldl (fun s r => modStream r.stream (setOutcome r.seq false) s) s
  let s2 := modBinding slot (fun b => { b with recordsLost := satAdd b.recordsLost l.length }) s1
  (lostRuns l).foldl (fun s r =>
    match r with
    | (st, f, z, n, b, a, e) => formGap st f z n reason b a e s) s2

/-- A set whose last member has failed: DISK_SET_FAILED to its owner (R437, R441). -/
def noteSetFailed (c set : Nat) (s : State) : State :=
  if setFailed c set s then
    let drops := sumBy (fun e => if e.disk && decide (e.ctx = c) && decide (e.target = set) then e.drops.toNat else 0) s.disk.exports
    sendEvent c 0x0102 set drops 0 0 s
  else s

/-- Change the closes of a set's exports. -/
def mapFlushes (c set : Nat) (f : Closing → Closing) (s : State) : State :=
  let mine := fun (e : Export) => e.disk && decide (e.ctx = c) && decide (e.target = set)
  modDisk (fun d => { d with exports := mapIf mine (fun e => { e with closing := e.closing.map f }) d.exports }) s

/-- The Flush commands of an export on a set that a member still owed count as failed. -/
def failFlushes (c set : Nat) (n : Nat) (s : State) : State :=
  let hit := fun (x : Closing) => if x.flushing then { x with left := x.left - 1, failed := true } else x
  if n = 0 then s else mapFlushes c set hit s

/-- Records of commands and of the open extent, in order, each once. -/
def heldRecords (b : Binding) : List StoredRec :=
  ((b.outstanding.map (·.recs)).flatten.foldl (fun l r => if l.any fun x => decide (x.stream = r.stream) && decide (x.seq = r.seq) then l
    else l ++ [r]) []) ++ b.extent

/-- A member fails (R437): its extents not completed are lost, and the host is told. -/
def failMember (slot status : Nat) (timeout modeChange : Bool) (s : State) : State :=
  match getBinding slot s with
  | none => s
  | some b =>
    let recs := heldRecords b
    let flushes := (b.outstanding.filter (·.flush)).length
    let s1 := modBinding slot (fun b => { b with state := .failed, outstanding := [], extent := [] }) s
    let s2 := sendEvent b.ctx 0x0101 b.id b.outstanding.length status (packBits [(0, 1, b2n timeout), (1, 1, b2n modeChange)]) s1
    let s3 := recordsLost slot 4 recs s2
    noteSetFailed b.ctx b.set (failFlushes b.ctx b.set flushes s3)

/-- A binding goes: its window closes and its slot is free. -/
def removeBinding (b : Binding) (s : State) : State :=
  closeWindow b.window (modDisk (fun d => { d with bindings := d.bindings.filter fun x => decide (x.slot ≠ b.slot) }) s)

/-- An unbinding member whose commands have ended goes (R437). -/
def stepUnbind (slot : Nat) (s : State) : State :=
  match getBinding slot s with
  | none => s
  | some b => if b.state = .unbinding && b.outstanding.isEmpty then completeBy b.unbinder .success 0 0 (removeBinding b s) else s

/-- A drive's completion of a command (R437): status 0 frees it; an error is retried once unless DNR is set. -/
def nvmeDone (slot cid status : Nat) (dnr : Bool) (s : State) : State :=
  match getBinding slot s with
  | none => s
  | some b =>
    match b.outstanding.find? (fun c => decide (c.cid = cid)) with
    | none => s
    | some c =>
      let drop := fun (b : Binding) => { b with outstanding := b.outstanding.filter fun x => decide (x.cid ≠ cid) }
      let s0 := emit (.nvmeDoorbell slot) s
      if status = 0 then
        let s1 := modBinding slot (fun b => { drop b with failures := 0 }) s0
        if c.flush then
          mapFlushes b.ctx b.set (fun x => if x.flushing then { x with left := x.left - 1 } else x) s1
        else
          -- a record is stored once no other outstanding command touches it
          recordsStored (c.recs.filter fun r => !(b.outstanding.any fun x => decide (x.cid ≠ cid)
            && x.recs.any fun y => decide (y.stream = r.stream) && decide (y.seq = r.seq))) s1
      else
        let fails := b.failures + 1
        let s1 := modBinding slot (fun b => { b with failures := fails }) s0
        if 8 ≤ fails then failMember slot status false false s1
        else if !dnr && !c.retried then
          emit (.nvme slot c.lba c.lbas c.flush) (modBinding slot (fun b =>
            { b with retries := satInc b.retries, outstanding := mapIf (fun x => decide (x.cid = cid)) (fun x => { x with retried := true }) b.outstanding }) s1)
        else
          let same := fun (x y : StoredRec) => decide (x.stream = y.stream) && decide (x.seq = y.seq)
          let s2 := modBinding slot (fun b =>
            let b := drop b
            { b with cmdErrors := satInc b.cmdErrors
                     outstanding := b.outstanding.map fun x => { x with recs := x.recs.filter fun y => !(c.recs.any (same y)) } }) s1
          if c.flush then failFlushes b.ctx b.set 1 s2 else recordsLost slot 3 c.recs s2

/-- The drive's controls page names the queues: the device checks it and activates the member (R434): qid list,
max_transfer_kb, whether reserved bytes are 0. The status is written to the page. -/
def activateMember (slot : Nat) (qids : List Nat) (maxKb : Nat) (reserved : Bool) (s : State) : State :=
  match getBinding slot s with
  | none => s
  | some b =>
    if b.state ≠ .awaiting then s
    else
      let q := qids.take b.queuePairs
      let badQ := decide (q.length < b.queuePairs) || (q.any fun v => decide (v = 0) || decide (65535 < v)) || decide (q.eraseDups ≠ q)
      let badM := decide (maxKb < 4) || decide (2048 < maxKb) || decide (maxKb % 2 ^ b.lbaLog2 ≠ 0)
      let st := if badQ then 2 else if badM then 3 else if reserved then 4 else 1
      modBinding slot (fun b =>
        if st = 1 then { b with state := .active, actStatus := 1, qids := q, maxTransferKb := maxKb } else { b with actStatus := st }) s

end Sys2Proof.Machine
end

