-- ==== Sys2Proof/Machine/Plans.lean ====
section
/-!
DEFINITION. The life of a plan: creating, reserving and starting, first word, duty windows, stopping, destroying (R41-R51,
R90, R241-R247, R410, R415, R425, R527, R528, R551, R552).
-/

namespace Sys2Proof.Machine

/-- A change of mode stands between its drain point and its re-check: no plan takes words (R45). -/
def drained (s : State) : Bool := s.mode.change.any fun c => decide (c.phase ≠ .accepted) && decide (c.phase ≠ .rechecked)

/-- A running plan takes words: not drained and not paused by its duty cycle. -/
def Plan.takes (p : Plan) (s : State) : Bool :=
  decide (p.phase = .running) && !drained s && !(p.duty.any (·.paused))

/-! ### Routes (R90, R91) -/

/-- A pair takes a route and a step; one in FOREGROUND takes them when it ends (R140). -/
def applyRoute (n route step : Nat) (s : State) : State :=
  if (getPair n s).foreground then
    modSkim n (fun p => { p with fgReturn := some (BitVec.ofNat 3 route, BitVec.ofNat 4 step) }) s
  else routePair n (BitVec.ofNat 3 route) (BitVec.ofNat 4 step) s

/-- A plan's pairs take its routes and steps; in REPLAY the live pairs stay as they are. -/
def routePlan (p : Plan) (s : State) : State :=
  if replaying s then s
  else (List.range 4).foldl (fun s n => if p.holdsPair n then applyRoute n (p.routeOf n).1 (p.routeOf n).2 s else s) s

/-- Pairs that no plan holds return to their default: input of the same number at the board table's step (R90). -/
def routeDefaults (s : State) : State :=
  (List.range 4).foldl (fun s n =>
    if pairHeld n s then s else applyRoute n n (getPair n s).defStep.toNat s) s

/-! ### Reserving (R42, R151, R233, R242, R268) -/

/-- An NCO of a plan's channel with its hop table (R159): `which` is 0 front, 1 sub; its counters run on. -/
def planNco (p : Plan) (channel which ftw : Nat) (old : Nco) : Nco :=
  match p.subs.find? (fun b => decide (b.kind = 2) && decide (b.idx = channel) && decide (b.f 0x08 1 = which)) with
  | none => { Nco.reset with ftw := ftw, count := old.count, late := old.late }
  | some b =>
    let l := (List.range (b.f 0x09 1)).map fun e => (b.f (0x10 + 16 * e) 8, b.f (0x18 + 16 * e) 4)
    { Nco.reset with ftw := ftw, hop := l, hopRepeat := decide (b.f 0x0A 1 = 1), count := old.count, late := old.late }

/-- A front unit and slots are assigned to the channels of one front. -/
def assignFront (p : Plan) (first : SubBlk) (s : State) : State :=
  let n := first.f 0x20 1
  match [2 * n, 2 * n + 1].find? (fun u => (getFront u s).plan.isNone) with
  | none => s
  | some u =>
    let s1 := modFront u (fun f =>
      { Front.reset with
        plan := some p.id, pair := n, dec := first.f 0x21 1, design := (List.range 6).map fun k => first.f (0x26 + k) 1
        subs := first.f 0x23 1, nco := planNco p first.idx 0 (first.f 0x08 8) f.nco }) s
    let zs := ((p.kindSubs 1).filter (sameFront first)).mergeSort fun a b => decide (a.idx ≤ b.idx)
    zs.foldl (fun s z =>
      match (List.range 32).find? (fun k => (getSlot k s).plan.isNone) with
      | none => s
      | some k =>
        modSlot k (fun sl =>
          { Slot.reset with
            plan := some p.id, channel := z.idx, front := u, sub := (zs.findIdx fun y => decide (y.idx = z.idx))
            backDec := z.f 0x22 1, backDesign := (List.range 13).map fun j => z.f (0x2C + j) 1, ratio := z.f 0x18 8
            gain := z.f 0x24 1, invert := decide (z.f 0x25 1 = 1), nco := planNco p z.idx 1 (z.f 0x10 8) sl.nco, sat := sl.sat }) s) s1

/-- A trigger unit is assigned to a TRIGGER block; its error counters run on. -/
def assignUnit (p : Plan) (b : SubBlk) (s : State) : State :=
  match (List.range 8).find? (fun n => (getUnit n s).plan.isNone) with
  | none => s
  | some n =>
    modUnit n (fun u =>
      { u with plan := some p.id, blk := b.idx, armed := false, waitB := false, frozen := false, aSeen := 0, bSeen := 0
               deadline := 0, holdEnd := 0, armAt := 0, lastFire := none, stA := Stage.fresh, stB := Stage.fresh, held := []
               due := [], missed := [], fires := 0 }) s

/-- Free surface numbers for a plan's DENSITY blocks, lowest first. -/
def surfNumbers (p : Plan) (s : State) : List Nat :=
  ((List.range 8).filter fun n => (getSurf n s).isNone).take (p.kindSubs 8).length

/-- The surfaces of a plan come into being with their colour tables and windows. -/
def assignSurfs (p : Plan) (nos : List Nat) (s : State) : State :=
  ((p.kindSubs 8).zip nos).foldl (fun s b =>
    let base := ((findAlloc (.render b.2) s).map (·.base)).getD 0
    let s1 := newSurf p.id b.2 base b.1 ((p.luts.find? fun l => decide (l.1 = b.1.idx)).map (·.2)) s
    if b.1.f 0x0C 1 = 0 then s1 else openWindow base (renderStride b.1 * b.1.f 0x0D 1) s1) s

/-- The capture slots of a plan; capture numbers run on from PLAN_CREATE (R244). -/
def assignCapSlots (p : Plan) (s : State) : State :=
  (p.kindSubs 7).foldl (fun s c =>
    let fresh := fun (x : CapSlot) => { x with cur := none, rearm := 0, lastRearm := 0, frozen := false, done := false }
    if (getCapSlot p.id c.idx s).isSome then modCapSlot p.id c.idx fresh s
    else modTrg (fun t => { t with slots := t.slots ++ [⟨p.id, c.idx, 0, none, 0, 0, false, false⟩] }) s) s

/-- A plan reserves everything it needs, or the code of what is short (R42, R406). -/
def reserve (p : Plan) (s : State) : Except Nat State :=
  match shortResource p s with
  | some k => .error k
  | none =>
    if ringTooSmall p s then .error 16
    else
      match createRings p.id (newRings p s) s with
      | .error k => .error k
      | .ok s1 =>
        let nos := surfNumbers p s1
        match allocateAll (planAllocs p nos) s1 with
        | none => .error 12
        | some s2 =>
          let s3 := p.frontFirsts.foldl (fun s z => assignFront p z s) s2
          let s4 := (p.kindSubs 6).foldl (fun s b => assignUnit p b s) s3
          let s5 := assignCapSlots p (assignSurfs p nos s4)
          .ok (routePlan p (modPlan p.id (fun q => { q with reserved := true, luts := p.luts }) s5))

/-- A rate other than the one in force makes the SPLL retune: words stop until it relocks (R51). -/
def retune (p : Plan) (s : State) : State :=
  if replaying s || atRate p s then s
  else modTim (fun t => { t with rateNum := p.fs.1, rateDen := p.fs.2, relocking := true, sclkLock := false }) s

/-! ### Taking words (R241, R415) -/

/-- The capture writer of each ring runs while a plan that takes words captures its source; a writer that starts begins
its history at `index`, one that stops gives the pair's history back to the recorder's share (R23, R241, R542). -/
def setWriters (index : Nat) (s : State) : State :=
  s.trg.rings.foldl (fun s r =>
    let want := s.plans.any fun p => p.takes s && (decide (r.r < 4) || decide (r.plan = p.id))
      && (p.kindSubs 7).any fun c => decide (c.f 0x08 1 = r.source)
    if want = r.writing then s
    else
      let s1 := if r.r < 4 then clearShare r.r s else s
      modCap r.r (fun r => if want then { r with writing := true, start := if r.r < 4 then index else r.next } else { r with writing := false }) s1) s

/-- First tag that a waiting plan can take: at or after its start index, with every pair's words still to come (R415). -/
def Plan.firstTagNow (p : Plan) (s : State) : Nat :=
  let pairs := maskIdx (p.h 0x14 1) 4
  let next := (if pairs.isEmpty then [0] else pairs).map fun n => pairNext n s
  roundUp (next.foldl max p.startIndex) 8

/-- Front units of a plan. -/
def planFronts (plan : Nat) (s : State) : List Nat := (List.range 8).filter fun u => decide ((getFront u s).plan = some plan)

/-- Configurations of streams that a restart keeps (R197). -/
def keptCfgs (p : Plan) (s : State) : List (Nat × XCfg) :=
  p.keep.map fun k => (k.1, ⟨nth k.2 0 0, nth k.2 1 0, nth k.2 2 0, nth k.2 3 0, tableOf p.ctx (nth k.2 0 0) s⟩)

/-- RECONFIGUREs that a restart completes: result0 is the start index of the stream's first frame (R197). -/
def answerRestart (p : Plan) (s : State) : State :=
  p.answers.foldl (fun s a =>
    match getX p.id a.1 s with
    | none => s
    | some x => completeDesc a.2.1 a.2.2 .success (x.position x.next s).1 0 s) s

/-- A waiting plan takes its first word, of tag `index` (R415, R527): chains, streams, captures, units, taps and exports
begin, and PLAN_START completes. -/
def beginPlan (id index : Nat) (s : State) : State :=
  match getPlan id s with
  | none => s
  | some p =>
    let duty := if p.h 0x20 4 = 0 then none else some (p.duty.getD ⟨timeOf index s, 0, false, false⟩)
    let cfgs := keptCfgs p s
    let s1 := modPlan id (fun q =>
      { q with phase := .running, startIndex := index, firstTag := if q.starter.isSome then index else q.firstTag
               starter := none, duty := duty, keep := [], answers := [] }) s
    let s2 := (planFronts id s1).foldl (fun s u => startChain u index false s) s1
    let s3 := answerRestart p (startStreams p index cfgs s2)
    let s4 := setWriters index s3
    let s5 := (unitsOf id s4).foldl (fun s n => armUnit n s) s4
    let s6 := resumeExports id (tapsOf id true s5)
    completeBy p.starter .success index 0 s6

/-- Waiting plans that hold a pair begin when its word of index `i` is their first (R415). A plan that holds no pair goes by
CP0. -/
def beginDue (n i : Nat) (s : State) : State :=
  if drained s then s
  else
    (s.plans.filter fun p => decide (p.phase = .waiting) && (p.holdsPair n || (!p.holdsAny && decide (n = 0)))
      && decide (p.firstTagNow s ≤ i)).foldl (fun s p => beginPlan p.id i s) s

/-! ### Stopping (R216, R246, R261, R415, R425) -/

/-- Captures of a plan that are open. -/
def openCaptures (plan : Nat) (s : State) : List Capture := s.trg.caps.filter fun c => decide (c.plan = plan) && !c.complete

/-- A plan's units are disarmed and what they hold back is forgotten. -/
def disarmPlan (plan : Nat) (s : State) : State :=
  let s1 := (unitsOf plan s).foldl (fun s n => modUnit n (fun u => { u with armed := false, held := [], due := [] }) s) s
  modTrg (fun t => { t with ahead := t.ahead.filter fun a => decide (a.1 ≠ plan) }) s1

/-- A plan ends taking words: units disarm with their missed fires delivered, captures close, the writers stop where
nothing else captures, exports pause and taps close (R246, R301, R425). -/
def haltPlan (plan : Nat) (s : State) : State :=
  let s1 := disarmPlan plan s
  let s2 := (unitsOf plan s1).foldl (fun s n => flushMissed n (getUnit n s).missed.length s) s1
  let s3 := (openCaptures plan s2).foldl (fun s c => endCapture c s) s2
  tapsOf plan false (pauseExports plan s3)

/-- What a plan has reserved is released (R42): fronts, slots, units, surfaces, segment tables, TRIGOUT, and its pairs return
to their defaults unless a mode change defers that (R91). -/
def releasePlan (plan : Nat) (s : State) : State :=
  let s1 := modPlan plan (fun p =>
    { p with phase := .created, reserved := false, startIndex := 0, firstTag := 0, lastTag := none, starter := none, stopper := none
             duty := none, keep := [], answers := [], luts := [] }) s
  let s2 := (planFronts plan s1).foldl (fun s u => modFront u (fun f => { f with plan := none, hist := [] }) s) s1
  let s3 := (List.range 32).foldl (fun s k => if (getSlot k s).plan = some plan then modSlot k (fun x => { x with plan := none }) s else s) s2
  let s4 := (unitsOf plan s3).foldl (fun s n => modUnit n (fun u => { u with plan := none, missed := [] }) s) s3
  let seg := fun (k : AllocKind) => match k with | .segTable p _ => decide (p = plan) | _ => false
  let s5 := freeAllocs seg (removeStreams plan (releaseSurfs plan s4))
  let s6 := if (reservedPlans s5).any Plan.drivesTrigout then s5
            else modTrg (fun t => { t with out := { t.out with high := false, due := [] } }) s5
  let s7 := setWriters 0 s6
  if s7.mode.change.isSome then s7 else routeDefaults s7

/-- PLAN_STOP begins on a running plan: its records are formed, and the drain of its dumps follows (R216, R261). -/
def stopPlan (plan : Nat) (stopper : Option (Nat × Nat)) (s : State) : State :=
  let s1 := stopSurfs plan (finishStreams plan (haltPlan plan s))
  let s2 := dropSwitches plan .planNotRunning s1
  setWriters 0 (modPlan plan (fun p => { p with phase := .stopping, stopper := stopper }) s2)

/-- The drains of a stopped plan end: its dump records are written, its reservations released, and PLAN_STOP completes with
the tag of the last word taken (R216). -/
def finishStop (plan : Nat) (s : State) : State :=
  match getPlan plan s with
  | none => s
  | some p => if p.phase = .stopping then completeBy p.stopper .success (p.lastTag.getD 0) 0 (releasePlan plan (drainPlan plan s)) else s

/-- A waiting PLAN_START is given up with a status; its reservations are released (R410). -/
def dropWaiting (plan : Nat) (st : Status) (result1 : Nat) (s : State) : State :=
  match getPlan plan s with
  | none => s
  | some p => completeBy p.starter st 0 result1 (releasePlan plan s)

/-- A plan is destroyed (R415): stopped without dump, trace or density records; its exports close, its layers go, held
captures stay readable. `say` is off at teardown, which closes exports without an event. -/
def destroyPlan (plan : Nat) (say : Bool) (s : State) : State :=
  match getPlan plan s with
  | none => s
  | some p =>
    let s1 := match p.phase with
      | .created => s
      | .waiting => dropWaiting plan .superseded 0 s
      | .running | .stopping =>
        let s0 := dropSwitches plan .planNotRunning (haltPlan plan s)
        completeBy p.stopper .success (p.lastTag.getD 0) 0
          (releasePlan plan (modDsp (fun d => { d with drain := d.drain.filter fun r => decide (r.plan ≠ plan) }) s0))
    let es := s1.disk.exports.filter fun e => decide (e.plan = plan) && e.closing.isNone
    let s2 := if say then es.foldl (fun s e => beginClose e.slot 2 none s) s1 else s1
    let s3 := dropPlanLayers plan s2
    freeRings (modTrg (fun t => { t with slots := t.slots.filter fun c => decide (c.plan ≠ plan) })
      { s3 with plans := s3.plans.filter fun q => decide (q.id ≠ plan) })

/-! ### Duty cycle (R527, R528) -/

/-- Period and on-time in 2^-64 s. -/
def Plan.dutyTimes (p : Plan) : Nat × Nat := (p.h 0x20 4 * 2 ^ 64 / 1000, p.h 0x24 4 * 2 ^ 64 / 1000)

/-- A stream's grid starts again at an index with nothing lost: open frames are discarded (R527). -/
def restartGrid (plan idx index : Nat) (s : State) : State :=
  match getX plan idx s with
  | none => s
  | some x =>
    let base := if x.engine = 4 then 0 else index
    let re := fun (w : XSwitch) => { w with point := switchPoint x base (max x.cfg.size w.cfg.size) s }
    modX plan idx (fun x =>
      { x with next := if x.engine = 4 then 0 else roundUp index x.cfg.hop, hist := [], since := base, gap := true, switch := x.switch.map re }) s

/-- A plan pauses at the end of an on-window. -/
def pausePlan (plan : Nat) (s : State) : State :=
  let s1 := disarmPlan plan s
  let s2 := ((openCaptures plan s1).filter fun c => c.openSeg.isSome).foldl (fun s c => endCapture c s) s1
  let s3 := (planStreams plan s2).foldl (fun s x => modX plan x.idx (fun x => { x with hist := [] }) s) s2
  setWriters 0 (pauseExports plan (modPlan plan (fun p => { p with duty := p.duty.map fun d => { d with paused := true, window := d.window + 1 } }) s3))

/-- A plan that a deep power state wound down restarts with fresh state (R521). -/
def restartPaused (plan index : Nat) (s : State) : State :=
  let up := fun (d : Duty) => { d with paused := false, fresh := false }
  let s1 := modPlan plan (fun p => { p with phase := .waiting, duty := p.duty.map up }) s
  sendEvent (planCtx plan s) 0x0002 plan 0 0 0 (beginPlan plan index s1)

/-- A plan resumes at its next on-window, with the word of tag `index`. -/
def resumeWindow (plan index : Nat) (s : State) : State :=
  let s1 := modPlan plan (fun p => { p with duty := p.duty.map fun d => { d with paused := false }, startIndex := index }) s
  let s2 := (planFronts plan s1).foldl (fun s u => startChain u index true s) s1
  let s3 := (planStreams plan s2).foldl (fun s x => restartGrid plan x.idx index s) s2
  let s4 := setWriters index s3
  let ready := fun n => !(getUnit n s4).frozen
    && !(decide ((unitBlk n s4).f 0x0A 1 = 2) && ((s4.trg.slots.any fun c => decide (c.plan = plan) && c.done
      && decide ((capBlock plan c.slot s4).f 0x09 1 = (getUnit n s4).blk))))
  resumeExports plan (((unitsOf plan s4).filter ready).foldl (fun s n => armUnit n s) s4)

/-- A plan's next on-window begins with the word of tag `index`. -/
def resumePlan (plan index : Nat) (s : State) : State :=
  if ((getPlan plan s).any fun p => p.duty.any (·.fresh)) then restartPaused plan index s else resumeWindow plan index s

/-- What the duty cycle asks of a plan at the word of index `i`: pause at the first word at or after the window's end, resume
at the first word at or after the next window's start (R527). -/
def dutyStep (plan i : Nat) (s : State) : State :=
  match getPlan plan s with
  | none => s
  | some p =>
    match p.duty with
    | none => s
    | some d =>
      if p.phase ≠ .running then s
      else
        let w := p.dutyTimes
        let t := timeOf i s
        let elapsed := t - d.t0
        let k := elapsed / max w.1 1
        let within := decide (elapsed % max w.1 1 < w.2)
        if d.paused then
          (if decide (d.window ≤ k) && within then
            resumePlan plan i (modPlan plan (fun p => { p with duty := some { d with window := k } }) s)
           else s)
        else if decide (w.2 < w.1) && decide (d.t0 + d.window * w.1 + w.2 ≤ t) then pausePlan plan s else s

/-! ### Setting device time (R57, R410, R528) -/

/-- Index that a start_time converts to with the anchors in force: at once for 0 or a time already passed (R415). -/
def startIndexOf (start : Nat) (s : State) : Nat :=
  if start = 0 || (decide (start ≤ now s) && !replaying s) then 0
  else
    let p := indexOfTime (anchorInForce s) start
    (if p.2 = 0 then p.1 else p.1 + 1).toNat

/-- Device time is set (R57): waiting starts are converted again (R410), and duty windows keep their sampling instants
(R528). -/
def setDeviceTime (v seconds : Nat) (edge : Bool) (s : State) : State :=
  let before := now s
  let s1 := applySet v seconds edge s
  let shift := fun (t : Nat) => (((t : Int) + (v : Int) - before) % (2 ^ 128 : Int)).toNat
  let move := fun (p : Plan) => { p with duty := p.duty.map fun d => { d with t0 := shift d.t0 } }
  let s2 : State := { s1 with plans := s1.plans.map move }
  (s2.plans.filter fun p => decide (p.phase = .waiting) && p.starter.isSome).foldl (fun s p =>
    modPlan p.id (fun p => { p with startIndex := startIndexOf p.startTime s }) s) s2

end Sys2Proof.Machine
end

