-- ==== Sys2Proof/Machine/Start.lean ====
section
/-!
DEFINITION. PLAN_CREATE and PLAN_START: what they check when they begin, in the order of R405, and what they reserve
(R41, R42, R182, R231, R254, R405, R412, R415, R424, R549, R552).
-/

namespace Sys2Proof.Machine

/-- Host block `i` of a descriptor, of `n` bytes; none where its read fails (R405 step 9). -/
def Desc.block (d : Desc) (i n : Nat) : Option Block :=
  match nth d.reads i none with
  | some b => if n ≤ b.length then some (b.take n) else none
  | none => none

/-- A field of a descriptor's body. -/
def Desc.f (d : Desc) (off len : Nat) : Nat := bodyFld d.sub.body off len

/-- A descriptor completes with a status and no results. -/
def failDesc (c sid : Nat) (st : Status) (s : State) : State := completeDesc c sid st 0 0 s

/-- A descriptor completes with RESOURCE_BUSY and the code of the short resource (R406). -/
def busy (c sid code : Nat) (s : State) : State := completeDesc c sid .resourceBusy 0 code s

/-- A plan of a context. -/
def ownPlan (c plan : Nat) (s : State) : Option Plan := s.plans.find? fun p => decide (p.id = plan) && decide (p.ctx = c)

/-- A data ring of a context exists. -/
def hasRing (c r : Nat) (s : State) : Bool := (ringAt (c, r) s).isSome

/-! ### PLAN_CREATE (R41, R412) -/

/-- PLAN_CREATE begins: the plan object is read and checked, and the plan must fit the mode on an idle device. -/
def beginPlanCreate (c sid : Nat) (d : Desc) (s : State) : State :=
  let n := d.f 0x18 4
  match d.block 0 n with
  | none => failDesc c sid .hostReadError s
  | some b =>
    match planObjectCheck c n b s with
    | some (st, r1) => completeDesc c sid st 0 r1 s
    | none =>
      let p : Plan := { viewPlan c b with id := s.nextPlan, ctx := c }
      if fitsNow p s then
        completeDesc c sid .success p.id 0 { s with plans := s.plans ++ [p], nextPlan := s.nextPlan + 1 }
      else failDesc c sid .modeMismatch s

/-! ### PLAN_START (R415) -/

/-- Data rings that a plan names. -/
def Plan.ringNames (p : Plan) : List Nat :=
  let used := [p.h 0x15 1, p.h 0x16 1]
    ++ ((p.kindSubs 3).map fun b => [b.f 0x16 1, b.f 0x17 1]).flatten
    ++ ((p.kindSubs 4).map fun b => b.f 0x0C 1) ++ ((p.kindSubs 5).map fun b => b.f 0x09 1)
    ++ ((p.kindSubs 6).map fun b => b.f 0x0D 1) ++ ((p.kindSubs 7).map fun b => b.f 0x0B 1)
    ++ ((p.kindSubs 8).map fun b => b.f 0x1E 1)
  used.filter fun r => decide (r ≠ 0)

/-- FMASK sources of a plan: block, stage. -/
def Plan.maskUses (p : Plan) : List (SubBlk × Bool) :=
  ((p.kindSubs 6).map fun b => [(b, false), (b, true)]).flatten.filter fun x => decide (x.1.source x.2 = 2)

/-- Streams of a plan that name a user table. -/
def Plan.tableUses (p : Plan) : List SubBlk := (p.kindSubs 3).filter fun b => decide (32 < b.f 0x0C 1)

/-- Every window and mask handle that a plan names holds something. -/
def handlesHeld (p : Plan) (s : State) : Bool :=
  (p.tableUses.all fun b => (tableOf p.ctx (b.f 0x0C 1) s).isSome)
    && p.maskUses.all fun x => (getMask p.ctx (x.1.param x.2 1 1) s).isSome

/-- A mask image fits an FMASK source whose stream has `bins` bins (R231). -/
def maskFits (bins : Nat) (b : SubBlk) (stageB : Bool) (img : MaskImg) : Bool :=
  let n := img.lower.length
  decide (b.param stageB 4 4 + n ≤ bins) && decide (b.param stageB 8 4 ≤ n)

/-- A user table has the length that a size and a filterbank need (R182). -/
def tableFits (len lg taps : Nat) : Bool := decide (len = (max taps 1) * 2 ^ lg)

/-- Offset in the plan object of the first field whose handle holds something that does not fit it. -/
def misfit (p : Plan) (s : State) : Option Nat :=
  let tabs := p.tableUses.filterMap fun b =>
    if tableFits ((tableOf p.ctx (b.f 0x0C 1) s).getD []).length (b.f 0x0A 1) (b.f 0x0D 1) then none else some (b.off + 0x0C)
  let masks := p.maskUses.filterMap fun x =>
    match getMask p.ctx (x.1.param x.2 1 1) s with
    | none => none
    | some m =>
      if maskFits (p.stream (x.1.param x.2 0 1)).xbins x.1 x.2 m.img then none else some (x.1.off + (if x.2 then 0x61 else 0x41))
  (tabs ++ masks).foldl (fun m o => minOff m (some o)) none

/-- DENSITY blocks with a colour table in host memory (R254). -/
def Plan.lutUses (p : Plan) : List SubBlk := (p.kindSubs 8).filter fun b => decide (b.f 0x38 8 ≠ 0)

/-- The colour tables that PLAN_START reads, in block order; none where a read fails. -/
def readLuts (d : Desc) : Nat → List SubBlk → Option (List (Nat × Block))
  | _, [] => some []
  | i, b :: r =>
    match d.block i 1024, readLuts d (i + 1) r with
    | some x, some l => some ((b.idx, x) :: l)
    | _, _ => none

/-- A plan can take the bundle's words: same rate, and only pairs that the bundle holds (R552). -/
def fitsBundle (p : Plan) (s : State) : Bool :=
  match s.fr.loaded with
  | none => false
  | some b => decide (p.fs.1 * b.rateDen = b.rateNum * p.fs.2) && (List.range 4).all fun n => !p.holdsPair n || bit b.pairs n

/-- The exports of a plan may stand in the mode (R32, R424). -/
def exportsStand (p : Plan) (s : State) : Bool :=
  (s.disk.exports.filter fun e => decide (e.plan = p.id)).all fun e => decide (checkMode s = if e.disk then 7 else 6) && !replaying s

/-- A plan that has been created fits the mode now: PLAN_START and the re-check of R46 test it. -/
def startFits (p : Plan) (s : State) : Bool := fitsNow p s && exportsStand p s && (!replaying s || fitsBundle p s)

/-- The replay feed starts at the first PLAN_START in REPLAY (R549): from the first bundle word at or after `start` on every
pair; one that has ended starts again. -/
def startFeed (start : Nat) (s : State) : State :=
  match s.fr.loaded with
  | none => s
  | some b =>
    if !replaying s || (s.fr.feeding && !s.fr.ended) then s
    else
      let firstOf := fun (n : Nat) =>
        (((nth b.words n []).find? fun w => decide (start ≤ w.index)).map (·.index)).getD (nth b.fin n 0)
      let pos := (List.range 4).map firstOf
      modFr (fun r => { r with feeding := true, ended := false, pos := pos, fed := pos.foldl min (pos.headD 0) }) s

/-- A TDC source names TC5 or TC6, and the plan's context does not hold the channel (R69). -/
def Plan.lacksTdc (p : Plan) (s : State) : Bool :=
  (p.kindSubs 6).any fun b => [false, true].any fun st =>
    let t := b.param st 0 1
    decide (b.source st = 6) && (decide (t = 2) || decide (t = 3)) && decide ((getTdc (t + 3) s).owner ≠ some p.ctx)

/-- PLAN_START begins. -/
def beginPlanStart (c sid : Nat) (d : Desc) (s : State) : State :=
  match ownPlan c (d.f 0x10 4) s with
  | none => failDesc c sid .planUnknown s
  | some p0 =>
    if p0.phase = .running then completeDesc c sid .success p0.firstTag 0 s
    else if !(p0.ringNames.all fun r => hasRing c r s) then failDesc c sid .ringUnknown s
    else if !handlesHeld p0 s then failDesc c sid .handleUnknown s
    else
      match readLuts d 0 p0.lutUses with
      | none => failDesc c sid .hostReadError s
      | some luts =>
        match misfit p0 s with
        | some o => completeDesc c sid .fieldRange 0 (layoutResult true o) s
        | none =>
          let p := { p0 with luts := luts }
          if !startFits p s then failDesc c sid .modeMismatch s
          else if p0.phase ≠ .created then busy c sid 13 s
          else
            match reserve p s with
            | .error k => busy c sid (if decide (13 < k) && p.lacksTdc s then 13 else k) s
            | .ok s1 =>
              if p.lacksTdc s then busy c sid 13 s
              else
              let start := d.f 0x20 16
              let first := startIndexOf start s1
              let set := fun (q : Plan) =>
                { q with phase := .waiting, order := s.nextOrder, startTime := start, startIndex := first, starter := some (c, sid) }
              startFeed first (retune p { modPlan p.id set s1 with nextOrder := s.nextOrder + 1 })

end Sys2Proof.Machine
end

