-- ==== Sys2Proof/Machine/Modes.lean ====
section
/-!
DEFINITION. Mode changes: MODE_SET, the five steps of a change, and the rebuild of capture memory that follows the same steps
(R34-R38, R45-R47, R72, R91, R197, R311, R410, R441, R455, R552).
-/

namespace Sys2Proof.Machine

/-- Change the mode state. -/
def modMode (f : ModeSt → ModeSt) (s : State) : State := { s with mode := f s.mode }

/-- The register image of MGT_MODE_PARTITION (R40). -/
def partitionImage (m : ModeSt) : Nat := packBits (m.part.zipIdx.map fun x => (8 * x.2, 8, x.1))

/-- A mode change, or a rebuild, starts with its drain still to come (R45). -/
def startChange (mode : Nat) (asker : Option (Nat × Nat)) (s : State) : State :=
  modMode (fun m => { m with target := BitVec.ofNat 4 mode, change := some ⟨.accepted, asker, []⟩ }) s

/-- MODE_SET begins (R37). -/
def beginModeSet (c sid : Nat) (d : Desc) (s : State) : State :=
  let mode := d.f 0x10 1
  if decide (mode = s.mode.mode.toNat) && decide (mode ≠ 11) then completeDesc c sid .success s.mode.gen.toNat 0 s
  else if mode = 11 && s.fr.loaded.isNone then failDesc c sid .replayNotLoaded s
  else if decide (d.f 0x11 1 = 1) && (s.plans.any fun p => decide (p.phase = .running) && decide (p.ctx ≠ c)) then
    failDesc c sid .modeBusy s
  else startChange mode (some (c, sid)) s

/-! ### Drain point -/

/-- What a restart keeps of a running stream (R197): the configuration in force, or the one that a RECONFIGURE or a TABLE load
asked for. -/
def keepOf (x : XStream) : Nat × List Nat :=
  let c := (x.switch.map (·.cfg)).getD x.cfg
  (x.idx, [c.window, c.lg, x.own, c.taps])

/-- RECONFIGUREs of a stream that the restart will complete: one that waits for its switch, or for its first spectrum. -/
def answersOf (x : XStream) : List (Nat × Nat × Nat) :=
  (match x.answer with | none => [] | some (c, sid, _) => [(x.idx, c, sid)])
    ++ (match x.switch with | none => [] | some w => if w.load then [] else [(x.idx, w.asker.1, w.asker.2)])

/-- TABLE loads that waited for a plan's streams take their handles: the restarted streams use the new table (R182). -/
def settleLoads (plan : Nat) (s : State) : State :=
  (planStreams plan s).foldl (fun s x =>
    match x.switch with
    | some w => if w.load then
        settleTable w.asker.1 (w.cfg.window - 32) w.asker.2 (w.cfg.table.getD []) (modX plan x.idx (fun x => { x with switch := none }) s)
      else s
    | none => s) s

/-- A running plan is drained (R47): frames in flight are discarded, intervals and traces close with PARTIAL, captures close,
surfaces are lost. -/
def drainOne (plan : Nat) (s : State) : State :=
  let xs := planStreams plan s
  let s1 := modPlan plan (fun p => { p with keep := xs.map keepOf, answers := (xs.map answersOf).flatten }) s
  let s2 := settleLoads plan (finishStreams plan (haltPlan plan s1))
  clearSurfs plan (removeStreams plan s2)

/-- Plans that the re-check takes, in PLAN_START order: those that run, and those that wait for their first word (R46, R410). -/
def changePlans (s : State) : List Nat :=
  let l := s.plans.filter fun p => decide (p.phase = .running) || decide (p.phase = .waiting)
  (l.mergeSort fun a b => decide (a.order ≤ b.order)).map (·.id)

/-- A change moves on to a phase. -/
def setPhase (ph : ChangePhase) (s : State) : State := modMode (fun m => { m with change := m.change.map fun c => { c with phase := ph } }) s

/-- The change stands in a phase. -/
def inPhase (ph : ChangePhase) (s : State) : Bool := s.mode.change.any fun c => decide (c.phase = ph)

/-- Ring-held captures and histories are gone (R455): each held capture gives DRAM_CAPTURE_LOST with a cause. -/
def dropCaptures (cause : Nat) (keep : Capture → Bool) (s : State) : State :=
  let lost := s.trg.caps.filter fun c => !keep c
  let s1 := lost.foldl (fun s c => sendEvent c.ctx 0x0112 c.plan c.num cause c.slot s) s
  lost.foldl (fun s c => dropCapture c s) s1

/-- The drain point (R45, R47): what runs is drained; the replay feed and, on leaving DISK, submission stop. -/
def changeDrain (s : State) : State :=
  let ids := changePlans s
  let run := (s.plans.filter fun p => decide (p.phase = .running)).map (·.id)
  let s1 := (ids.filter run.contains).foldl (fun s p => drainOne p s) s
  let s2 := modMode (fun m => { m with change := m.change.map fun c => { c with phase := .drained, plans := ids } }) s1
  let s3 := setWriters 0 s2
  if s3.mode.mode = 11 then modFr (fun r => { r with feeding := false }) s3 else s3

/-! ### Flush -/

/-- The stamp queues shrink to their on-chip entries on leaving TIMING (R72): what the extensions hold is delivered, or lost and
counted. -/
def dropStaging (s : State) : State :=
  (List.range 8).foldl (fun s n =>
    let c := getTdc n s
    if c.stagingKb = 0 then s
    else
      let s1 := flushStamps n s
      let more := (getTdc n s1).queue.length - 4096
      modTdc n (fun c => { c with stagingKb := 0, queue := c.queue.take 4096, queueLost := satAdd c.queueLost more
                                  queueMark := c.queueMark || decide (0 < more) }) s1) s

/-- The flush is complete (R45): dump records and missed triggers have been delivered. -/
def changeFlush (s : State) : State :=
  let ids := (s.mode.change.map (·.plans)).getD []
  let s1 := ids.foldl (fun s p => drainPlan p s) s
  let s2 := if s1.mode.mode = 9 && decide (s1.mode.target ≠ 9) then dropStaging s1 else s1
  setPhase .flushed s2

/-! ### Repartition -/

/-- Bindings stop on leaving DISK (R437): their extents are lost, and their windows close. -/
def closeBindings (s : State) : State :=
  s.disk.bindings.foldl (fun s b =>
    let s1 := if b.state = .failed then s else failMember b.slot 0 false true s
    match getBinding b.slot s1 with
    | none => s1
    | some b1 => completeBy b1.unbinder .success 0 0 (removeBinding b1 s1)) s

/-- Scratch of the kernels in S is zeroed with its region. -/
def zeroScratch (s : State) : State :=
  modSpu (fun x => { x with lsus := x.lsus.map fun l =>
    if (x.kernels.any fun k => decide (k.id = l.kernel) && k.scratchInS) then { l with scratch := [] } else l }) s

/-- Entering or leaving MAINTENANCE ends every instance at its next safe point with reason MODE (4), and leaving it clears every
local memory (R47, R311). -/
def modeEndsKernels (s : State) : State :=
  let enters := decide (s.mode.target = 12)
  let leaves := decide (s.mode.mode = 12)
  if enters = leaves then s
  else
    modSpu (fun x => { x with lsus := x.lsus.map fun l =>
      let l1 := if l.kernel ≠ 0 && l.ending.isNone then { l with ending := some 4 } else l
      if leaves then { l1 with mem := [] } else l1 }) s

/-- REPLAY takes up the staged bundle, or the one loaded (R37, R548). -/
def takeBundle (s : State) : State :=
  match s.fr.staged with
  | none => modFr (fun r => { r with feeding := false, ended := false, pos := (r.loaded.map (·.first)).getD [0, 0, 0, 0] }) s
  | some b =>
    let s1 := freeAllocs (fun k => decide (k = .bundle)) s
    let als := mapIf (fun a => decide (a.kind = .bundleNew)) (fun a => { a with kind := .bundle }) s1.dram.allocs
    let s2 : State := { s1 with dram := { s1.dram with allocs := als } }
    modFr (fun r => { r with loaded := some b, staged := none, feeding := false, ended := false, pos := b.first }) s2

/-- The mode that a mode being entered replays: its bundle's, and SURVEY for a bundle recorded in MAINTENANCE (R35). -/
def replayedOf (mode : Nat) (s : State) : Nat :=
  if mode = 11 then limitsMode 11 ((s.fr.loaded.map (·.mode)).getD 0) else 0

/-- Regions are resized and zeroed (R45). -/
def changeRepartition (s : State) : State :=
  let goal := s.mode.target.toNat
  let s1 := if goal = 11 then takeBundle s else s
  let rep := replayedOf goal s1
  let s2 := modMode (fun m => { m with replayed := BitVec.ofNat 4 rep, part := partitionOf (limitsMode goal rep) }) s1
  let s3 := if s2.mode.mode = 7 && decide (goal ≠ 7) then closeBindings s2 else s2
  modeEndsKernels (zeroScratch (setPhase .repartitioned s3))

/-! ### Re-check -/

/-- The code of what a plan falls short of at the re-check (R46): MODE_MISMATCH, RESOURCE_BUSY, or none where it passes. -/
def recheckCode (p : Plan) (s : State) : Option Status :=
  if !startFits p s then some .modeMismatch
  else if !handlesHeld p s || (shortResource p s).isSome || !(newRings p s).isEmpty && !((createRings p.id (newRings p s) s).toBool) then
    some .resourceBusy
  else none

/-- A plan that passes restarts with fresh state (R46): it waits for its first word, or for its next on-window. -/
def restartPlan (p : Plan) (ran : Bool) (s : State) : State :=
  let s0 := match createRings p.id (newRings p s) s with | .ok t => t | .error _ => s
  let off := p.duty.any (·.paused)
  let s1 := modPlan p.id (fun q =>
    { q with phase := if off then .running else .waiting, reserved := true, startIndex := if ran then 0 else q.startIndex
             lastTag := none, duty := q.duty.map fun d => { d with fresh := off } }) s0
  let s2 := (planFronts p.id s1).foldl (fun s u =>
    modFront u (fun f =>
      let z := (p.frontFirsts.find? fun z => decide (z.f 0x20 1 = f.pair)).getD SubBlk.none
      { f with nco := planNco p z.idx 0 (z.f 0x08 8) f.nco, hist := [] }) s) s1
  let s3 := (List.range 32).foldl (fun s k =>
    if (getSlot k s).plan = some p.id then
      modSlot k (fun sl => { sl with nco := planNco p sl.channel 1 ((p.sub 1 sl.channel).f 0x10 8) sl.nco, gap := false, trigs := [], last := none }) s
    else s) s2
  let s4 := (unitsOf p.id s3).foldl (fun s n => modUnit n (fun u => { u with frozen := false, fires := 0 }) s) s3
  let s5 := retune p (assignCapSlots p (clearSurfs p.id s4))
  if ran && !off then sendEvent p.ctx 0x0002 p.id 0 0 0 s5 else s5

/-- A plan that fails is stopped but stays created: its exports close, and what waited for it completes PLAN_STOPPED with the
reason (R46, R197, R410, R425). -/
def stopAtRecheck (p : Plan) (ran : Bool) (why : Status) (s : State) : State :=
  let s1 := p.answers.foldl (fun s a => completeDesc a.2.1 a.2.2 .planStopped 0 why.code s) s
  let s2 := completeBy p.starter .planStopped 0 why.code s1
  let es := s2.disk.exports.filter fun e => decide (e.plan = p.id) && e.closing.isNone
  let s3 := es.foldl (fun s e => beginClose e.slot 3 none s) s2
  let s4 := releasePlan p.id s3
  if ran then sendEvent p.ctx 0x0003 p.id 0 why.code 0 s4 else s4

/-- Whether a plan of the change ran at the drain point: it waits for no PLAN_START. -/
def Plan.ran (p : Plan) : Bool := p.starter.isNone

/-- Plans are re-checked in PLAN_START order; then pairs that none of them holds return to their defaults (R46, R91). -/
def changeRecheck (s : State) : State :=
  let ids := (s.mode.change.map (·.plans)).getD []
  let s1 : State := { s with plans := mapIf (fun p => ids.contains p.id) (fun p => { p with reserved := false }) s.plans }
  let s2 := ids.foldl (fun s id =>
    match getPlan id s with
    | none => s
    | some p =>
      match recheckCode p s with
      | none => restartPlan p p.ran s
      | some why => stopAtRecheck p p.ran why s) s1
  routeDefaults (setPhase .rechecked s2)

/-! ### The end -/

/-- The journal entry of a mode, power or ladder change (R543). -/
def journalMode (s : State) : State :=
  journal 11 [⟨0x10, 1, s.mode.mode.toNat⟩, ⟨0x11, 1, s.pwr.state.toNat⟩, ⟨0x12, 1, s.pwr.step.toNat⟩, ⟨0x18, 8, s.mode.gen.toNat⟩] 16 s

/-- The change completes (R45): MODE is updated, MODE_CHANGED goes to every context and MODE_SET completes. -/
def changeDone (s : State) : State :=
  let asker := s.mode.change.bind (·.asker)
  let s1 := modMode (fun m => { m with mode := m.target, gen := m.gen + 1, change := none }) s
  let gen := s1.mode.gen.toNat
  let image := partitionImage s1.mode
  let s2 := journalMode s1
  let s3 := sendAll 0x0001 s1.mode.mode.toNat image gen 0 s2
  completeBy asker .success gen 0 s3

/-- The default mode is set at the end of Primer stage 4 (R38): the board table's, or SURVEY where it names none, MAINTENANCE or
REPLAY. -/
def primerMode (named : Nat) (s : State) : State :=
  let bad := decide (named = 0) || decide (10 < named)
  let m := if bad then 1 else named
  modMode (fun x => { x with mode := BitVec.ofNat 4 m, target := BitVec.ofNat 4 m, defaulted := bad, part := partitionOf m }) s

/-! ### The rebuild after a channel is lost (R455) -/

/-- Every backing copy of the general region is gone: masks, window tables, kernel images, bundles and the flight recorder. -/
def dropBacking (s : State) : State :=
  let gone := fun (k : AllocKind) => match k with
    | .mask .. | .maskNew .. | .window .. | .windowNew .. | .kernel .. | .bundle | .bundleNew | .tagLog _ => true | _ => false
  let s1 := freeAllocs gone s
  let s2 := modTrg (fun t => { t with masks := [], rings := [] }) s1
  let s3 := modHost (fun h => { h with ctxs := h.ctxs.map fun c => { c with windows := [], kernels := [] } }) s2
  modFr (fun r =>
    { r with frozen := false, consolidated := false, shares := [[], [], [], []], journal := [], journalBytes := 0, loaded := none, staged := none
             feeding := false }) s3

/-- Loads whose new image was staged in a general region that is gone complete ABORTED. -/
def abortLoads (s : State) : State :=
  s.trg.masks.foldl (fun s m =>
    match m.newer with
    | none => s
    | some (_, c, sid, _) => failDesc c sid .aborted s) s

/-- The repartition step of a rebuild: the data space takes its new size and all contents are discarded. In REPLAY the device
enters the replayed mode. -/
def rebuildMemory (s : State) : State :=
  let s1 := dropBacking (abortLoads (dropCaptures 2 (fun _ => false) s))
  modDram (fun d => { d with mem := [], poison := [] }) s1

/-- A channel leaves service (R455): a change to the mode in force begins, or to the replayed mode in REPLAY; if a change is
under way the loss joins it. -/
def beginRebuild (s : State) : State :=
  match s.mode.change with
  | some _ => s
  | none => startChange (if s.mode.mode = 11 then s.mode.replayed.toNat else s.mode.mode.toNat) none s

end Sys2Proof.Machine
end

