-- ==== Sys2Proof/Machine/Context.lean ====
section
/-!
DEFINITION. Attaching contexts, their doorbells, data rings and heartbeat (R373-R376, R379-R392, R402, R430, R499).
-/

namespace Sys2Proof.Machine

/-! ### Admission (R373-R376) -/

/-- What an attach or a CONTEXT_CREATE asks for. -/
structure AttachReq where
  cmdBase : Nat
  cplBase : Nat
  evtBase : Nat
  hbBase : Nat
  cmdLog2 : Nat
  cplLog2 : Nat
  evtLog2 : Nat
  admin : Bool
  cplVec : Nat
  cplEn : Bool
  evtVec : Nat
  evtEn : Bool
  /-- cpl_mod_count, cpl_mod_us, evt_mod_count, evt_mod_us -/
  mods : List Nat
  /-- offset of the first reserved bit that is not 0, of a base that is 0 and of a field out of range -/
  reserved : Option Nat
  deriving DecidableEq, Repr

/-- The request that a function's attach block holds (R374). -/
def FnRegs.request (r : FnRegs) : AttachReq :=
  let c := r.cfg.toNat
  let q := r.irq.toNat
  let m := r.mod.toNat
  { cmdBase := r.cmdBase.toNat, cplBase := r.cplBase.toNat, evtBase := r.evtBase.toNat, hbBase := r.hbBase.toNat
    cmdLog2 := bits c 0 5, cplLog2 := bits c 5 5, evtLog2 := bits c 10 5, admin := bit c 15
    cplVec := bits q 0 11, cplEn := bit q 11, evtVec := bits q 12 11, evtEn := bit q 23
    mods := [bits m 0 12, bits m 12 16, bits m 32 12, bits m 44 16]
    reserved := if bits c 16 48 ≠ 0 then some 0x62 else if bits q 24 40 ≠ 0 then some 0x6B
                else if bits m 28 4 ≠ 0 then some 0x73 else if bits m 60 4 ≠ 0 then some 0x77 else none }

/-- The request of a CONTEXT_CREATE (R411). -/
def createRequest (d : Desc) : AttachReq :=
  let resv := firstReserved (fun o => d.f o 1) 0x10 0x40
    [⟨0x10, 0x24, 0, false, true, 0⟩, ⟨0x33, 1, d.f 0x33 1, false, true, 0xFC⟩, ⟨0x34, 2, d.f 0x34 2, false, true, 0xF800⟩
     , ⟨0x36, 2, d.f 0x36 2, false, true, 0xF800⟩, ⟨0x38, 8, 0, false, true, 0⟩]
  let top := (List.range 7).find? fun k => decide (bits d.sub.resv.toNat (8 * k) 8 ≠ 0)
  { cmdBase := d.f 0x10 8, cplBase := d.f 0x18 8, evtBase := d.f 0x20 8, hbBase := d.f 0x28 8
    cmdLog2 := d.f 0x30 1, cplLog2 := d.f 0x31 1, evtLog2 := d.f 0x32 1, admin := false
    cplVec := d.f 0x34 2, cplEn := bit (d.f 0x33 1) 0, evtVec := d.f 0x36 2, evtEn := bit (d.f 0x33 1) 1
    mods := [d.f 0x38 2, d.f 0x3A 2, d.f 0x3C 2, d.f 0x3E 2], reserved := (top.map (· + 1)).or resv }

/-- Contexts that a function holds. -/
def fnContexts (f : Nat) (s : State) : List Ctx := s.host.ctxs.filter fun c => decide (c.fn = f)

/-- The first failing check of R375 for a request from a function, with result1 for a CONTEXT_CREATE. -/
def attachCheck (f : Nat) (r : AttachReq) (s : State) : Option (Status × Nat) :=
  let bad := fun (l : List (Bool × Nat)) => (l.find? (·.1)).map (·.2)
  let zero := bad [(decide (r.cmdBase = 0), 0x10), (decide (r.cplBase = 0), 0x18), (decide (r.evtBase = 0), 0x20)]
  let log := fun (n : Nat) => decide (n < 4) || decide (16 < n)
  let range := bad [(decide (r.cmdBase % 4096 ≠ 0), 0x10), (decide (r.cplBase % 4096 ≠ 0), 0x18), (decide (r.evtBase % 4096 ≠ 0), 0x20)
    , (decide (r.hbBase % 64 ≠ 0), 0x28), (log r.cmdLog2, 0x30), (log r.cplLog2 || decide (r.cplLog2 < r.cmdLog2), 0x31), (log r.evtLog2, 0x32)
    , (r.cplEn && decide (fnVectors f ≤ r.cplVec), 0x34), (r.evtEn && decide (fnVectors f ≤ r.evtVec), 0x36)
    , (decide (4095 < nth r.mods 0 0), 0x38), (decide (4095 < nth r.mods 2 0), 0x3C)]
  let quota := ((getFn f s).map (·.quota.toNat)).getD 0
  if !s.host.adminReady then some (.notReady, 0)
  else match r.reserved, zero, range with
    | some o, _, _ => some (.reservedNonzero, o)
    | none, some o, _ => some (.zeroField, o)
    | none, none, some o => some (.fieldRange, o)
    | none, none, none =>
      if r.admin && decide (fnNumber f ≠ 0) then some (.adminOnly, 0)
      else if r.admin && (getCtx 0 s).isSome then some (.resourceBusy, 15)
      else if decide (1024 ≤ s.host.ctxs.length) || decide (quota ≤ (fnContexts f s).length) then some (.resourceBusy, 15)
      else none

/-- The number that a new context gets: round-robin from the one most recently given (R373). -/
def nextContext (s : State) : Nat :=
  (((List.range 1023).map fun k => (s.host.lastCtx + k) % 1023 + 1).find? fun n => (getCtx n s).isNone).getD 0

/-- The doorbell page of a new context: its number on PF0, the lowest free slot on a VF (R373). -/
def newPage (f n : Nat) (s : State) : Nat :=
  if fnNumber f = 0 then n
  else ((List.range 16).find? fun k => (fnContexts f s).all fun c => decide (c.page ≠ k)).getD 0

/-- A new completion or event ring (R379, R380). -/
def newDevRing (base lg vec : Nat) (en : Bool) (count us : Nat) : DevRing :=
  { base := base, log2 := lg, head := 0, tail := 0, phase := true, vec := vec, vecEn := en, modCount := count, modUs := us
    count := 0, armed := true }

/-- A context comes into being; its number (R375). -/
def admitCtx (f : Nat) (r : AttachReq) (s : State) : Nat × State :=
  let n := if r.admin then 0 else nextContext s
  let c : Ctx :=
    { num := n, fn := f, page := newPage f n s, state := .live, cause := 0, cmdBase := r.cmdBase, cmdLog2 := r.cmdLog2, cmdHead := 0
      cmdTail := 0, posted := [], acc := [], nextSid := 1
      cpl := newDevRing r.cplBase r.cplLog2 r.cplVec r.cplEn (nth r.mods 0 0) (nth r.mods 1 0), held := []
      evt := newDevRing r.evtBase r.evtLog2 r.evtVec r.evtEn (nth r.mods 2 0) (nth r.mods 3 0), eventsLost := 0, lostUnsent := 0
      dbErrors := 0, dbRaised := false, hbBase := r.hbBase, beats := 0, rings := [], windows := [], kernels := [], nextEvent := none
      destroyer := none }
  let s1 := modHost (fun h => { h with ctxs := h.ctxs ++ [c], lastCtx := if n = 0 then h.lastCtx else n }) s
  let s2 := sendAdmin 0x0050 n f 0 0 s1
  if n = 0 then
    (n, s2.hedge.waiting.foldl (fun s e => sendAdmin e.1 e.2.1 e.2.2.1 e.2.2.2 0 s) { s2 with hedge := { s2.hedge with waiting := [] } })
  else (n, s2)

/-- A refusal is counted (R375). -/
def countRefusal (s : State) : State := modHost (fun h => { h with refusals := satInc h.refusals }) s

/-- A decision on an attach is reported in the function's attach block (R374). -/
def reportAttach (f state ctx reason : Nat) (s : State) : State :=
  modFn f (fun r =>
    { r with attState := BitVec.ofNat 2 state, attContext := BitVec.ofNat 10 ctx, attReason := BitVec.ofNat 8 reason
             attSeq := r.attSeq + 1, attHeld := false }) s

/-- An attach is decided (R375); in DORMANT the decision waits for the exit (R522). -/
def decideAttach (f : Nat) (s : State) : State :=
  match getFn f s with
  | none => s
  | some r =>
    if s.pwr.state = 6 then modFn f (fun r => { r with attState := 1, attHeld := true }) s
    else match attachCheck f r.request s with
    | some (st, _) => reportAttach f 3 0 st.code (countRefusal s)
    | none =>
      if s.mode.change.isSome then modFn f (fun r => { r with attState := 1, attHeld := true }) s
      else
        let a := admitCtx f r.request s
        reportAttach f 2 a.1 0 a.2

/-- ATTACH is written (R374): ignored while a decision is pending. -/
def attach (f : Nat) (s : State) : State :=
  match getFn f s with
  | none => s
  | some r => if r.attHeld then s else decideAttach f s

/-- Attaches held over a mode change are decided (R375). -/
def decideHeld (s : State) : State :=
  (List.range s.host.fns.length).foldl (fun s f => if (getFn f s).any (·.attHeld) then decideAttach f s else s) s

/-- CONTEXT_CREATE begins (R376): the first failing check, or the new context. -/
def beginContextCreate (c sid : Nat) (d : Desc) (s : State) : State :=
  match getCtx c s with
  | none => s
  | some x =>
    match attachCheck x.fn (createRequest d) s with
    | some (st, r1) => completeDesc c sid st 0 r1 (countRefusal s)
    | none =>
      let a := admitCtx x.fn (createRequest d) s
      completeDesc c sid .success a.1 0 a.2

/-! ### Data rings (R385, R386, R402, R430) -/

/-- A new data ring. -/
def newDataRing (d : Desc) (stream : Nat) : DataRing :=
  { id := d.f 0x18 1, base := d.f 0x10 8, log2 := d.f 0x19 1, blockLog2 := d.f 0x1A 1, vec := d.f 0x1C 2
    vecEn := decide (d.f 0x1B 1 = 1), modCount := d.f 0x1E 2, modUs := d.f 0x20 2, w := 0, head := 0, phase := true, drops := 0
    count := 0, armed := true, streamId := stream }

/-- A new stream on rings, or on a disk set. -/
def newStream (id ctx : Nat) (rings : List (Nat × Nat)) (set : Nat) : Stream :=
  { id := id, ctx := ctx, rings := rings, turn := 0, diskSet := set, seq := 0, lastTag := 0, drops := none, waiting := [], parts := [], bound := none
    h := 0, pend := [], sinceSeal := 0, prevSeal := 0, sealed := false, coveredFirst := 0, contributed := 0, coveredThrough := 0 }

/-- A ring may join a stream's group (R430): one ring so far, on the other port, of functions with the same number. -/
def joinOk (c stream : Nat) (s : State) : Bool :=
  match getStream stream s, getCtx c s with
  | some st, some x =>
    match st.rings with
    | [(c2, _)] => (getCtx c2 s).any fun y => decide (fnPort y.fn ≠ fnPort x.fn) && decide (fnNumber y.fn = fnNumber x.fn)
    | _ => false
  | _, _ => false

/-- RING_CREATE begins (R385). -/
def beginRingCreate (c sid : Nat) (d : Desc) (s : State) : State :=
  let r := d.f 0x18 1
  let join := d.f 0x24 4
  if hasRing c r s then completeDesc c sid .fieldRange 0 0x18 s
  else if join ≠ 0 && !joinOk c join s then completeDesc c sid .fieldRange 0 0x24 s
  else
    let id := if join = 0 then s.host.nextStream else join
    let s1 := modCtx c (fun x => { x with rings := x.rings ++ [newDataRing d id] }) s
    let s2 := if join = 0 then
        modHost (fun h => { h with streams := h.streams ++ [newStream id c [(c, r)] 0], nextStream := h.nextStream + 1 }) s1
      else modStream id (fun st => { st with rings := st.rings ++ [(c, r)] }) s1
    completeDesc c sid .success id 0 s2

/-- A source is still bound to a data ring (R386). -/
def ringBound (c r : Nat) (s : State) : Bool :=
  (s.plans.any fun p => decide (p.ctx = c) && p.reserved && p.ringNames.contains r)
    || (s.spu.kernels.any fun k => decide (k.ctx = c) && decide (k.emitRing = r))
    || (s.tim.chans.any fun t => decide (t.owner = some c) && decide (t.ring = r))
    || (s.tim.gates.any fun g => g.any fun g => decide (g.ctx = c) && decide (g.ring = r))
    || (s.disk.exports.any fun e => !e.disk && decide (e.ctx = c) && decide (e.target = r))
    || ((ringStream c r s).bind fun i => getStream i s).any fun st => st.waiting.any fun w => w.owner.isSome

/-- The descriptor's work is done but for records that wait for credit. -/
def onWritten (c sid r0 r1 : Nat) (s : State) : State :=
  modCtx c (fun x => { x with acc := mapIf (fun a => decide (a.sid = sid)) (fun a => { a with onWritten := some (r0, r1) }) x.acc }) s

/-- A ring leaves its stream's group, and the stream ends with its last ring. -/
def leaveGroup (c r : Nat) (s : State) : State :=
  match ringStream c r s with
  | none => s
  | some i =>
    let s1 := modStream i (fun st => { st with rings := st.rings.filter fun p => decide (p ≠ (c, r)), turn := 0 }) s
    modHost (fun h => { h with streams := h.streams.filter fun st => !(decide (st.id = i) && st.rings.isEmpty && decide (st.diskSet = 0)) }) s1

/-- A data ring is freed. -/
def freeRing (c r : Nat) (s : State) : State :=
  modCtx c (fun x => { x with rings := x.rings.filter fun y => decide (y.id ≠ r) }) (leaveGroup c r s)

/-- RING_DESTROY begins (R386, R431): the SEAL goes to that ring, and the ring is freed once it is written. -/
def beginRingDestroy (c sid : Nat) (d : Desc) (s : State) : State :=
  let r := d.f 0x10 1
  match ringStream c r s with
  | none => failDesc c sid .ringUnknown s
  | some i =>
    if ringBound c r s then busy c sid 13 s
    else
      let s1 := nameDrops i (modStream i (fun st => { st with turn := (st.rings.findIdx fun p => decide (p = (c, r))) }) s)
      let q := ((getStream i s1).map (·.seq)).getD 0
      onWritten c sid q 0 (formSeal i 4 (some (c, sid)) s1)

/-- ATTEST_BIND begins (R499). -/
def beginAttestBind (c sid : Nat) (d : Desc) (s : State) : State :=
  let id := d.f 0x14 4
  match ringStream c (d.f 0x10 1) s with
  | none => failDesc c sid .ringUnknown s
  | some i =>
    match s.trust.sessions.find? (fun x => decide (x.id = id) && x.finished), getStream i s with
    | some x, some st =>
      if s.trust.debug then failDesc c sid .sessionUnknown s
      else if st.rings.length = 2 && st.bound.isSome then
        (if (st.bound.map (·.1)) = some id then failDesc c sid .success s else busy c sid 13 s)
      else if st.seq ≠ 0 then failDesc c sid .streamStarted s
      else failDesc c sid .success (modStream i (fun st => { st with bound := some (id, x.secret) }) s)
    | _, _ => failDesc c sid .sessionUnknown s

/-! ### Doorbells (R382-R384, R387, R390) -/

/-- The context whose doorbell page a function writes. -/
def pageCtx (f page : Nat) (s : State) : Option Ctx :=
  s.host.ctxs.find? fun c => decide (c.page = page) && decide (c.fn = f)

/-- A write of BAR2 that R390 ignores: counted for the page's context, or for the function where none stands. -/
def badDoorbell (f page off v : Nat) (s : State) : State :=
  match pageCtx f page s with
  | none => modFn f (fun r => { r with dbErrors := satInc r.dbErrors }) s
  | some c =>
    let s1 := modCtx c.num (fun c => { c with dbErrors := satInc c.dbErrors, dbRaised := true }) s
    let s2 := modFn c.fn (fun r => { r with dbErrors := satInc r.dbErrors }) s1
    if c.dbRaised then s2 else sendEvent c.num 0x0053 0 (page * 4096 + off) v 0 s2

/-- Space between two indices of a ring. -/
def ringDist (lg a b : Nat) : Nat := (b + 2 ^ lg - a) % 2 ^ lg

/-- A head write is accepted when it lies between the head and the device's write index. -/
def headOk (lg head w v : Nat) : Bool := decide (v < 2 ^ lg) && decide (ringDist lg head v ≤ ringDist lg head w)

/-- HST_DB_CMD: descriptors up to the new tail become fetchable (R382). -/
def dbCmd (f page v : Nat) (s : State) : State :=
  match pageCtx f page s with
  | none => badDoorbell f page 0 v s
  | some c =>
    if decide (c.state = .live) && decide (v < 2 ^ c.cmdLog2) && decide (ringDist c.cmdLog2 c.cmdHead c.cmdTail ≤ ringDist c.cmdLog2 c.cmdHead v) then
      modCtx c.num (fun c => { c with cmdTail := v }) s
    else badDoorbell f page 0 v s

/-- HST_DB_CPL: completion entries are freed and the ring is armed again (R383, R391). -/
def dbCpl (f page v : Nat) (s : State) : State :=
  match pageCtx f page s with
  | none => badDoorbell f page 4 v s
  | some c =>
    if decide (c.state = .live) && headOk c.cpl.log2 c.cpl.head c.cpl.tail v then
      let s1 := modCtx c.num (fun c => { c with cpl := { c.cpl with head := v, armed := true } }) s
      drainHeld c.num c.held.length (signalIfDue c.num .cpl s1)
    else badDoorbell f page 4 v s

/-- HST_DB_EVT: event entries are freed, the ring is armed again, and dropped events are reported (R384, R391). -/
def dbEvt (f page v : Nat) (s : State) : State :=
  match pageCtx f page s with
  | none => badDoorbell f page 8 v s
  | some c =>
    if decide (c.state = .live) && headOk c.evt.log2 c.evt.head c.evt.tail v then
      let s1 := modCtx c.num (fun c => { c with evt := { c.evt with head := v, armed := true } }) s
      reportLostEvents c.num (signalIfDue c.num .evt s1)
    else badDoorbell f page 8 v s

/-- HST_DB_DATAr: blocks are freed, the ring is armed again, and waiting records of its stream are written (R387, R388). -/
def dbData (f page r v : Nat) (s : State) : State :=
  match pageCtx f page s with
  | none => badDoorbell f page (0x10 + 4 * (r - 1)) v s
  | some c =>
    match c.ring r with
    | none => badDoorbell f page (0x10 + 4 * (r - 1)) v s
    | some y =>
      if decide (c.state = .live) && headOk y.log2 y.head y.w v then
        creditStream y.streamId (signalIfDue c.num (.data r) (modRing c.num r (fun y => { y with head := v, armed := true }) s))
      else badDoorbell f page (0x10 + 4 * (r - 1)) v s

/-! ### Heartbeat (R392) -/

/-- Whether the device is in SAFE status is held by Hedge; the heartbeat carries it as `safe`. -/
def heartbeat (safe : Bool) (s : State) : State :=
  s.host.ctxs.foldl (fun s c =>
    if c.hbBase = 0 then s
    else
      let n := c.beats + 1
      let flags := packBits [(0, 1, b2n safe), (1, 1, b2n s.mode.change.isSome), (2, 1, b2n (decide (s.pwr.shed ≠ 0)))]
      emit (.heartbeat c.num n [⟨0x10, 16, now s⟩, ⟨0x20, 1, s.mode.mode.toNat⟩, ⟨0x21, 1, flags⟩, ⟨0x22, 2, s.mode.gen.toNat⟩
        , ⟨0x24, 1, s.pwr.step.toNat⟩]) (modCtx c.num (fun c => { c with beats := n }) s)) s

end Sys2Proof.Machine
end

