-- ==== Sys2Proof/Machine/Kernel.lean ====
section
/-!
DEFINITION. SPU kernels: images, launching, signals, ends, taps, DMA windows and emitted records (R299-R311, R417).
-/

namespace Sys2Proof.Machine

/-- A named field of a host block. -/
def bfd (b : Block) (off len : Nat) (zeroBad : Bool) (ok : Nat → Bool) (rbits : Nat) : Fd :=
  ⟨off, len, blkFld b off len, zeroBad, ok (blkFld b off len), rbits⟩

/-- Checks of a host block's own layout (R405 step 10). -/
def blockCheck (b : Block) (l : List Fd) : Option (Status × Nat) :=
  layoutCheck true (firstReserved (blkByte b) 0 b.length l) l

/-! ### SPU_LOAD (R307, R308, R417) -/

/-- The fields of a kernel image's header; `n` is the descriptor's image_bytes. -/
def imageFds (n : Nat) (b : Block) : List Fd :=
  [bfd b 0 4 true (fun v => decide (v = 0x4B494731)) 0, bfd b 4 2 true (fun v => decide (v = 1)) 0, bfd b 6 2 false (fun _ => true) 0xFFFE
   , bfd b 8 4 true (fun v => decide (16 ≤ v) && decide (v ≤ 2 ^ 18) && decide (v % 16 = 0) && decide (n = 64 + v)) 0
   , bfd b 0x0C 4 false (fun _ => true) 0, bfd b 0x10 4 false (fun _ => true) 0, bfd b 0x14 4 false (fun _ => true) 0]

/-- A running kernel uses a handle. -/
def handleRuns (c h : Nat) (s : State) : Bool := s.spu.kernels.any fun k => decide (k.ctx = c) && decide (k.handle = h)

/-- SPU_LOAD begins. -/
def beginSpuLoad (c sid : Nat) (d : Desc) (s : State) : State :=
  let h := d.f 0x10 1
  let n := d.f 0x14 4
  match d.block 0 n with
  | none => failDesc c sid .hostReadError s
  | some b =>
    match layoutCheck true (firstReserved (blkByte b) 0 64 (imageFds n b)) (imageFds n b) with
    | some (st, r1) => completeDesc c sid st 0 r1 s
    | none =>
      if handleRuns c h s then busy c sid 13 s
      else
        match allocate (.kernel c h) n (freeAllocs (fun k => decide (k = .kernel c h)) s) with
        | none => busy c sid 12 s
        | some (_, s1) =>
          failDesc c sid .success
            (modCtx c (fun x => { x with kernels := (x.kernels.filter fun k => decide (k.handle ≠ h)) ++ [⟨h, b⟩] }) s1)

/-! ### SPU_LAUNCH (R299-R304, R309, R417) -/

/-- A tap entry of a launch block. -/
def tapEntry (b : Block) (t : Nat) : Tap :=
  let o := 0x60 + 32 * t
  let f := fun (x n : Nat) => blkFld b (o + x) n
  { kind := f 0 1, plan := f 4 4, source := f 2 1, detail := f 1 1, first := f 8 4, count := f 0x0C 4, every := f 0x10 2
    ringAddr := f 0x14 4, ringBytes := f 0x18 4, head := 0, tail := 0, isOpen := false, seen := 0, seq := 0, dropped := 0, fresh := true }

/-- Bins, points or none that a tap's source has, when the plan has that source (R299). -/
def tapSourceBins (p : Plan) (t : Tap) : Option Nat :=
  let x := p.sub? 3 t.source
  let g := p.sub 4 t.source
  match t.kind with
  | 1 => x.map (·.maxBins)
  | 2 => x.bind fun b => if t.detail < b.f 0x15 1 then some (cdiv (b.reducer t.detail).count (max (b.reducer t.detail).k 1)) else none
  | 3 =>
    if x.isSome && decide (g.f 0x08 1 ≠ 0) then some (g.f 0x14 4)
    else if decide (8 ≤ t.source) && decide (t.source ≤ 13) && bit ((p.sub 5 0).f 0x08 1) (t.source - 8) then
      ((p.engineSub (crossEngines (t.source - 8)).1).map fun y => (p.sub 4 y.idx).f 0x14 4)
    else none
  | 4 => if decide (g.f 0x08 1 = 2) then some (g.f 0x14 4) else none
  | 5 => if (p.sub? 6 t.source).isSome then some 0 else none
  | _ => none

/-- The fields of a tap entry. -/
def tapFds (ctx : Nat) (b : Block) (t : Nat) (s : State) : List Fd :=
  let o := 0x60 + 32 * t
  let e := tapEntry b t
  let p := ownPlan ctx e.plan s
  let bins := (p.bind fun p => tapSourceBins p e).getD 0
  let named := (p.map fun p => (tapSourceBins p e).isSome).getD true
  let fits := (p.map fun p => decide (2 * (tapItem p e.kind e.source e.detail e.count).1 ≤ e.ringBytes)).getD true
  [bfd b o 1 true (fun v => decide (v ≤ 5)) 0
   , bfd b (o + 1) 1 (decide (e.kind = 1)) (fun v => if e.kind = 1 then decide (v ≤ 3) else if e.kind = 2 then decide (v ≤ 3) else decide (v = 0)) 0
   , bfd b (o + 2) 1 false (fun _ => named) 0, bfd b (o + 4) 4 true (fun _ => true) 0
   , bfd b (o + 8) 4 false (fun v => decide (v = 0) || decide (v < bins)) 0
   , bfd b (o + 0x0C) 4 false (fun v => if e.kind = 5 then decide (v = 0) else decide (v + e.first ≤ bins)) 0
   , bfd b (o + 0x10) 2 true (fun _ => true) 0
   , bfd b (o + 0x14) 4 false (fun v => decide (v < 2 ^ 18) && decide (v % max e.ringBytes 1 = 0)) 0
   , bfd b (o + 0x18) 4 true (fun v => decide (4096 ≤ v) && decide (v ≤ 2 ^ 17) && decide (2 ^ v.log2 = v) && fits) 0]

/-- The fields of a window entry: window w = 1-7. -/
def windowEntryFds (plan : Option Plan) (b : Block) (w : Nat) : List Fd :=
  let o := 0x160 + 16 * (w - 1)
  let kind := blkFld b o 1
  let ok := fun (v : Nat) => match kind with
    | 1 => plan.any fun p => (p.sub? 7 v).isSome
    | 2 => decide (v ≤ 1)
    | 3 => decide (v ≤ 1024)
    | 4 => plan.any fun p => (p.sub? 8 v).any fun x => decide (x.f 0x0C 1 ≠ 0)
    | _ => true
  [bfd b o 1 true (fun v => decide (v ≤ 4)) 0, bfd b (o + 4) 4 (decide (kind = 3)) ok 0]

/-- The fields of a launch block. -/
def launchFds (c : Nat) (b : Block) (s : State) : List Fd :=
  let taps := blkFld b 2 1
  let wins := blkFld b 3 1
  let plan := ownPlan c (blkFld b 8 4) s
  [bfd b 0 1 true (fun v => decide (v ≤ 16)) 0, bfd b 1 1 true (fun v => decide (v ≤ 16)) 0, bfd b 2 1 false (fun v => decide (v ≤ 8)) 0
   , bfd b 3 1 false (fun v => decide (v ≤ 7)) 0, bfd b 4 1 false (fun v => decide (v ≤ 8)) 0, bfd b 8 4 false (fun _ => true) 0
   , bfd b 0x0C 4 false (fun _ => true) 0, bfd b 0x10 4 (decide (wins ≠ 0)) (fun _ => true) 0
   , bfd b 0x14 4 (decide (blkFld b 4 1 ≠ 0)) (fun v => decide (blkFld b 4 1 ≠ 0) || decide (v = 0)) 0
   , bfd b 0x20 64 false (fun _ => true) 0]
  ++ ((List.range (min taps 8)).map fun t => tapFds c b t s).flatten
  ++ ((List.range (8 - min taps 8)).map fun k => bfd b (0x60 + 32 * (min taps 8 + k)) 32 false (fun v => decide (v = 0)) 0)
  ++ ((rangeFrom 1 (min wins 7)).map fun w => windowEntryFds plan b w).flatten
  ++ ((List.range (7 - min wins 7)).map fun k => bfd b (0x160 + 16 * (min wins 7 + k)) 16 false (fun v => decide (v = 0)) 0)

/-- The range of a window of kind 1, 2 or 4 that a context owns now: base and bytes. -/
def windowRange (c kind target : Nat) (p : Option Plan) (s : State) : Option (Nat × Nat) :=
  match kind with
  | 1 =>
    (p.bind fun p => s.trg.rings.find? fun r =>
      decide (r.source = (p.sub 7 target).f 0x08 1) && (decide (r.r < 4) || decide (r.plan = p.id))).map fun r => (r.addr, r.blocks * 2 ^ 18)
  | 2 => let o := getOut target s; if o.enabled && decide (o.owner = c) then some (o.areaBase, o.areaMb * mb) else none
  | 4 => (p.bind fun p => surfOf p.id target s).bind fun n => (getSurf n s).map fun f => (f.base, f.stride * f.bufs.length)
  | _ => none

/-- Logical SPUs free to take an instance. -/
def freeLsus (s : State) : List Nat := (List.range 16).filter fun n => decide ((getLsu n s).state = 0) && (getLsu n s).recovery.isNone

/-- An instance as a launch leaves it (R309). -/
def newInstance (k : Kernel) (inst : Nat) (img args : Block) (taps : List Tap) (l : Lsu) : Lsu :=
  let contents := (img.drop 64).take (blkFld img 8 4)
  let addr := blkFld img 0x14 4
  let m0 := Memory.writeList 0 contents []
  let m1 := args.zipIdx.foldl (fun m x => Memory.write ((addr + x.2) % 2 ^ 18) x.1 m) m0
  let b0 := { SpuBank.zero with a := [BitVec.ofNat 32 inst, BitVec.ofNat 32 k.instances] ++ List.replicate 14 0 }
  { Lsu.reset l.phys with
    state := 1, phys := l.phys, kernel := k.id, inst := inst, b0 := b0, pc := blkFld img 0x0C 4 % 2 ^ 18, lastPc := 0, mem := m1, taps := taps
    pend := if taps.any (·.isOpen) then 4 else 0, tapDrops := l.tapDrops, emitDrops := l.emitDrops, rejected := l.rejected }

/-- The general region's share of a launch: BUFFER windows, and scratch that S cannot hold. -/
def launchAllocs (k : Kernel) (b : Block) : List (AllocKind × Nat) :=
  ((rangeFrom 1 (blkFld b 3 1)).filterMap fun w =>
    if blkFld b (0x160 + 16 * (w - 1)) 1 = 3 then some (.buffer k.id w, blkFld b (0x164 + 16 * (w - 1)) 4 * mb) else none)
  ++ (if k.scratchInS || k.scratchKb = 0 then [] else (List.range k.instances).map fun i => (.scratch k.id i, k.scratchKb * 1024))

/-- A launch takes its resources and starts its instances, or answers the code of what is short. -/
def launch (k0 : Kernel) (img b : Block) (ranges : List SpuWindow) (taps : List Tap) (s : State) : Except Nat State :=
  let free := freeLsus s
  let inS := roomFor { Regions.zero with s := k0.instances * roundUp (k0.scratchKb * 1024) granule } s
  let k := { k0 with scratchInS := inS }
  if free.length < k.instances then .error 8
  else
    let s1 := modSpu (fun x => { x with kernels := x.kernels ++ [k], nextKernel := x.nextKernel + 1 }) s
    let started := (free.take k.instances).zipIdx.foldl (fun s n =>
      modLsu n.1 (newInstance k n.2 img ((b.drop 0x20).take 64) taps) s) s1
    if s1.dram.bandwidth < dramDemand (reservedPlans s1) s1 then .error 6
    else if !exportFits (reservedPlans s1) s1 then .error 7
    else if !tapsFit (reservedPlans s1) started then .error 8
    else
      match allocateAll (launchAllocs k b) started with
      | none => .error 12
      | some s2 =>
        let full := fun (w : SpuWindow) =>
          if w.kind = 3 then { w with base := ((findAlloc (.buffer k.id w.base) s2).map (·.base)).getD 0 } else w
        .ok (modSpu (fun x => { x with kernels := mapIf (fun y => decide (y.id = k.id)) (fun y => { y with windows := ranges.map full }) x.kernels }) s2)

/-- The windows of a launch in number order; none where a range does not exist. A BUFFER's base holds its number until it is
allocated. -/
def launchWindows (c : Nat) (b : Block) (p : Option Plan) (s : State) : Nat → Nat → Option (List SpuWindow)
  | _, 0 => some []
  | w, n + 1 =>
    let kind := blkFld b (0x160 + 16 * (w - 1)) 1
    let target := blkFld b (0x164 + 16 * (w - 1)) 4
    let one := if kind = 3 then some (w, target * mb) else windowRange c kind target p s
    match one, launchWindows c b p s (w + 1) n with
    | some r, some l => some (⟨kind, target, r.1, r.2⟩ :: l)
    | _, _ => none

/-- SPU_LAUNCH begins. -/
def beginSpuLaunch (c sid : Nat) (d : Desc) (s : State) : State :=
  match d.block 0 464 with
  | none => failDesc c sid .hostReadError s
  | some b =>
    match blockCheck b (launchFds c b s) with
    | some (st, r1) => completeDesc c sid st 0 r1 s
    | none =>
      let h := blkFld b 0 1
      let bound := blkFld b 8 4
      let plan := ownPlan c bound s
      let taps0 := (List.range (blkFld b 2 1)).map (tapEntry b)
      match (getCtx c s).bind fun x => x.kernels.find? fun k => decide (k.handle = h) with
      | none => failDesc c sid .handleUnknown s
      | some img =>
        let maint := bit (blkFld img.bytes 6 2) 0
        if (bound ≠ 0 && plan.isNone) || (taps0.any fun t => (ownPlan c t.plan s).isNone) then failDesc c sid .planUnknown s
        else if blkFld b 4 1 ≠ 0 && !hasRing c (blkFld b 4 1) s then failDesc c sid .ringUnknown s
        else if (maint && decide (effMode s ≠ 12)) || (decide (effMode s = 12) && decide (c ≠ 0)) then failDesc c sid .modeMismatch s
        else
          match launchWindows c b plan s 1 (blkFld b 3 1) with
          | none => failDesc c sid .planNotRunning s
          | some ranges =>
            let taps := taps0.map fun t => { t with isOpen := (getPlan t.plan s).any (·.takes s) }
            let k : Kernel :=
              { id := s.spu.nextKernel, ctx := c, handle := h, instances := blkFld b 1 1, plan := bound, windows := [], scratchKb := blkFld b 0x0C 4
                scratchInS := false, emitRing := blkFld b 4 1, emitMb := blkFld b 0x14 4, dmaMb := blkFld b 0x10 4, maintOnly := maint
                irqEntry := blkFld img.bytes 0x10 4 % 2 ^ 18, stops := [] }
            match launch k img.bytes b ranges taps s with
            | .error code => busy c sid code s
            | .ok s1 => completeDesc c sid .success k.id k.instances s1

/-! ### Instances and their ends (R310, R311) -/

/-- A kernel by its id. -/
def getKernel (k : Nat) (s : State) : Option Kernel := s.spu.kernels.find? fun x => decide (x.id = k)

/-- Change a kernel. -/
def modKernel (k : Nat) (f : Kernel → Kernel) (s : State) : State :=
  modSpu (fun x => { x with kernels := mapIf (fun y => decide (y.id = k)) f x.kernels }) s

/-- Logical SPUs of a kernel's instances still running. -/
def kernelLsus (k : Nat) (s : State) : List Nat := (List.range 16).filter fun n => decide ((getLsu n s).kernel = k)

/-- An instance of a kernel has ended: STOPs that waited for it go on. -/
def answerStops (k inst : Nat) (s : State) : State :=
  match getKernel k s with
  | none => s
  | some x =>
    let left := x.stops.map fun p => (p.1, p.2.1, p.2.2.filter fun i => decide (i ≠ inst))
    let s1 := modKernel k (fun x => { x with stops := left.filter fun p => !p.2.2.isEmpty }) s
    (left.filter fun p => p.2.2.isEmpty).foldl (fun s p => failDesc p.1 p.2.1 .success s) s1

/-- A kernel whose last instance has ended gives back its scratch, buffers and rates. -/
def releaseKernel (k : Nat) (s : State) : State :=
  if (kernelLsus k s).isEmpty then
    let mine := fun (a : AllocKind) => match a with | .buffer x _ => decide (x = k) | .scratch x _ => decide (x = k) | _ => false
    freeAllocs mine (modSpu (fun x => { x with kernels := x.kernels.filter fun y => decide (y.id ≠ k) }) s)
  else s

/-- An instance ends (R311): its owner receives SPU_DONE with the reason, exit code, fault code and PC. -/
def endInstance (n reason exit fault : Nat) (s : State) : State :=
  let l := getLsu n s
  match getKernel l.kernel s with
  | none => s
  | some k =>
    let s1 := modLsu n (fun l =>
      { Lsu.reset l.phys with
        state := if l.recovery.isSome then 3 else l.back, back := l.back, recovery := l.recovery, tapDrops := l.tapDrops
        emitDrops := l.emitDrops, rejected := l.rejected }) s
    let detail := packBits [(0, 32, l.lastPc), (32, 16, exit), (48, 16, fault)]
    let s2 := sendEvent k.ctx 0x0040 k.id detail 0 (packBits [(0, 4, l.inst), (4, 4, reason)]) s1
    releaseKernel k.id (answerStops k.id l.inst s2)

/-- A kernel of a context with an id. -/
def ownKernel (c k : Nat) (s : State) : Option Kernel := s.spu.kernels.find? fun x => decide (x.id = k) && decide (x.ctx = c)

/-- Logical SPUs of the instances that a mask selects. -/
def selected (k mask : Nat) (s : State) : List Nat := (kernelLsus k s).filter fun n => bit mask (getLsu n s).inst

/-- A value joins a signal queue of 16 entries (R310). -/
def Lsu.pushSignal (v : Nat) (l : Lsu) : Lsu := { l with sigq := l.sigq ++ [BitVec.ofNat 32 v] }.setPend 0

/-- SPU_SIGNAL op SIGNAL begins. -/
def beginSpuSignal (c sid : Nat) (d : Desc) (s : State) : State :=
  match ownKernel c (d.f 0x14 4) s with
  | none => failDesc c sid .handleUnknown s
  | some k =>
    let l := selected k.id (d.f 0x12 2) s
    if l.any fun n => decide (16 ≤ (getLsu n s).sigq.length) then busy c sid 14 s
    else failDesc c sid .success (l.foldl (fun s n => modLsu n (Lsu.pushSignal (d.f 0x18 4)) s) s)

/-- An instance is asked to end. -/
def Lsu.askEnd (reason : Nat) (l : Lsu) : Lsu :=
  { l with ending := some (l.ending.getD reason), state := if l.state = 1 then 2 else l.state }

/-- SPU_SIGNAL op STOP begins. -/
def beginSpuStop (c sid : Nat) (d : Desc) (s : State) : State :=
  match ownKernel c (d.f 0x14 4) s with
  | none => failDesc c sid .handleUnknown s
  | some k =>
    let l := selected k.id (d.f 0x12 2) s
    if l.isEmpty then failDesc c sid .success s
    else
      modKernel k.id (fun x => { x with stops := x.stops ++ [(c, sid, l.map fun n => (getLsu n s).inst)] })
        (l.foldl (fun s n => modLsu n (Lsu.askEnd 2) s) s)

/-- A stopping instance stands at an interrupt point or a safe point: outside a REP body and its end, in B0, or at a safe point of a
long instruction (R296, R311). -/
def Lsu.mayEnd (l : Lsu) : Bool :=
  l.recovery.isNone && (l.long.isSome || (l.rep.isNone && !l.afterRep && !l.inB1 && l.loop.all fun r => decide (r.start = l.pc)))

/-- An instance asked to end ends. -/
def stopTakes (n : Nat) (s : State) : State :=
  let l := getLsu n s
  match l.ending with
  | some r => if l.kernel ≠ 0 && l.mayEnd then endInstance n r 0 0 s else s
  | none => s

/-- A HALT ends its instance once its DMA and emit queues are empty. -/
def haltTakes (n : Nat) (s : State) : State :=
  let l := getLsu n s
  match l.halting with
  | some code => if (l.dma.all (·.isEmpty)) && l.emits.isEmpty then endInstance n 1 code 0 s else s
  | none => s

/-! ### Local memory -/

/-- A byte of local memory (R291). -/
def Lsu.byte (a : Nat) (l : Lsu) : Byte := Memory.read (a % 2 ^ 18) l.mem

/-- Bytes of local memory from an address on, wrapping. -/
def Lsu.bytes (a n : Nat) (l : Lsu) : List Byte := (List.range n).map fun i => l.byte (a + i)

/-- Bytes written to local memory from an address on, wrapping. -/
def Lsu.poke (a : Nat) (v : List Byte) (l : Lsu) : Lsu :=
  { l with mem := v.zipIdx.foldl (fun m x => Memory.write ((a + x.2) % 2 ^ 18) x.1 m) l.mem }

/-! ### Taps (R300, R301) -/

/-- Bytes `off` to `off + n - 1` of a structure given by its fields. -/
def fieldBytes (off n : Nat) (l : List Fld) : List Byte := image off (off + n) (l.filter fun f => decide (off ≤ f.off))

/-- The item of an offer as it lies in the ring: header, then the record's bytes from 0x40 on. -/
def tapItemBytes (t : Tap) (o : TapOffer) : List Byte :=
  let n := 32 + roundUp o.bytes 16
  let flags := packBits [(0, 1, b2n (decide (t.dropped ≠ 0))), (1, 1, b2n o.opened)]
  let head := fieldBytes 0 32 [⟨0, 4, n⟩, ⟨4, 1, o.tap⟩, ⟨5, 1, t.kind⟩, ⟨6, 2, flags⟩, ⟨8, 8, o.seq⟩, ⟨0x10, 4, t.dropped⟩, ⟨0x14, 4, t.plan⟩]
  head ++ fieldBytes 0x40 (n - 32) o.payload

/-- The oldest item offered to an instance is delivered into its ring, or dropped whole. -/
def Lsu.deliver (l : Lsu) : Lsu :=
  match l.offers with
  | [] => l
  | o :: r =>
    match l.taps[o.tap]? with
    | none => { l with offers := r }
    | some t =>
      let n := 32 + roundUp o.bytes 16
      let used := (t.head - t.tail).toNat
      if used + n ≤ t.ringBytes then
        let put := (tapItemBytes t o).zipIdx.foldl (fun m x =>
          Memory.write ((t.ringAddr + (t.head.toNat + x.2) % t.ringBytes) % 2 ^ 18) x.1 m) l.mem
        ({ l with offers := r, mem := put
                  taps := modNth l.taps o.tap fun t => { t with head := t.head + BitVec.ofNat 32 n, dropped := 0 } }).setPend 1
      else
        { l with offers := r, tapDrops := satInc l.tapDrops, taps := modNth l.taps o.tap fun t => { t with dropped := t.dropped + 1 } }

/-! ### DMA (R303, R304) -/

/-- A field of a DMA descriptor. -/
def DmaDesc.f (d : DmaDesc) (off len : Nat) : Nat := bits d.toNat (8 * off) (8 * len)

/-- Bytes of a capture ring from an offset in its range on: words not held read as 0. -/
def CapRing.dmaBytes (r : CapRing) (off n : Nat) : List Byte :=
  ((rangeFrom (off / 16) (n / 16)).map fun line =>
    let w := (r.blks.find? fun b => decide (b.pos = line / 16384)).bind fun b =>
      b.words.find? fun x => decide (x.1 % r.span / r.width = line % 16384)
    match w with
    | none => List.replicate 16 0
    | some x => ((x.2.vals.map fun v => leBytes 2 (wrapInt 16 v)).flatten ++ List.replicate 16 0).take 16).flatten

/-- The window that a DMA descriptor names: kind, base, bytes. -/
def dmaWindow (l : Lsu) (d : DmaDesc) (s : State) : Option (Nat × Nat × Nat) :=
  match getKernel l.kernel s with
  | none => none
  | some k =>
    let w := d.f 1 1
    if w = 0 then
      (if k.scratchKb = 0 then none
       else if k.scratchInS then some (0, 0, roundUp (k.scratchKb * 1024) granule)
       else (findAlloc (.scratch k.id l.inst) s).map fun a => (5, a.base, a.bytes))
    else (k.windows[w - 1]?).map fun x => (x.kind, x.base, x.bytes)

/-- A DMA descriptor is legal (R303, R304): op, reserved fields, alignment, access, and every row inside its window. -/
def dmaLegal (l : Lsu) (d : DmaDesc) (s : State) : Bool :=
  match dmaWindow l d s with
  | none => false
  | some (kind, _, size) =>
    let row := d.f 0x10 4
    let rows := d.f 0x14 4
    let far := d.f 8 8 + (rows - 1) * d.f 0x18 4 + row
    let op := d.f 0 1
    (decide (op = 1) || (decide (op = 2) && decide (kind ≠ 1) && decide (kind ≠ 4))) && decide (d.f 1 1 < 8)
      && decide (d.f 2 1 < 4) && decide (d.f 3 1 = 0) && decide (d.f 4 4 % 16 = 0) && decide (d.f 8 8 % 16 = 0) && decide (row % 16 = 0)
      && decide (d.f 0x18 4 % 16 = 0) && decide (d.f 0x1C 4 % 16 = 0) && (decide (row = 0) || decide (rows = 0) || decide (far ≤ size))

/-- One row of a transfer. -/
def dmaRow (n : Nat) (d : DmaDesc) (w : Nat × Nat × Nat) (i : Nat) (s : State) : State :=
  let l := getLsu n s
  let row := d.f 0x10 4
  let rs := if d.f 0x18 4 = 0 then row else d.f 0x18 4
  let ls := if d.f 0x1C 4 = 0 then row else d.f 0x1C 4
  let far := d.f 8 8 + i * rs
  let near := d.f 4 4 + i * ls
  if d.f 0 1 = 1 then
    match w.1 with
    | 0 => modLsu n (Lsu.poke near (Memory.readList far row l.scratch)) s
    | 1 =>
      match s.trg.rings.find? fun r => decide (r.addr = w.2.1) with
      | none => s
      | some r => modLsu n (Lsu.poke near (r.dmaBytes far row)) s
    | _ =>
      let got := dramRead 4 ((getKernel l.kernel s).map (·.ctx)) (w.2.1 + far) row s
      modLsu n (Lsu.poke near got.1) got.2
  else
    match w.1 with
    | 0 => modLsu n (fun l => { l with scratch := Memory.writeList far (l.bytes near row) l.scratch }) s
    | _ => dramWrite (w.2.1 + far) (l.bytes near row) false s

/-- The descriptor that a queue may start: its oldest, unless an earlier FENCE, or its own, waits (R303). -/
def Lsu.dmaNext (q : Nat) (l : Lsu) : Option (Nat × DmaDesc) :=
  match nth l.dma q [] with
  | [] => none
  | d :: _ =>
    let rest := (l.dma.map fun x => x.filter fun y => decide (y.1 < d.1)).flatten
    if bit (d.2.f 2 1) 1 && !rest.isEmpty then none
    else if rest.any fun y => bit (y.2.f 2 1) 1 then none else some d

/-- A DMA descriptor of a queue completes, or faults and halts its instance (R303, R304, R311). -/
def dmaComplete (n q : Nat) (s : State) : State :=
  let l := getLsu n s
  match l.dmaNext q with
  | none => s
  | some (_, d) =>
    if !dmaLegal l d s then endInstance n 3 0 2 s
    else
      let rows := if d.f 0x10 4 = 0 then 0 else d.f 0x14 4
      let s1 := match dmaWindow l d s with
        | none => s
        | some w => (List.range rows).foldl (fun s i => dmaRow n d w i s) s
      haltTakes n (modLsu n (fun l =>
        let l1 := { l with dma := modNth l.dma q List.tail, dmaDone := modNth l.dmaDone q (· + 1) }
        if bit (d.f 2 1) 0 then l1.setPend 3 else l1) s1)

/-! ### Emitted records (R306) -/

/-- The oldest emit entry of an instance is read out of local memory and its record formed. -/
def emitReadout (n : Nat) (s : State) : State :=
  let l := getLsu n s
  match l.emits, getKernel l.kernel s with
  | e :: r, some k =>
    let payload : List Fld := [⟨0x40, 4, k.id⟩, ⟨0x44, 1, l.inst⟩, ⟨0x48, 8, e.tag.toNat⟩, ⟨0x50, 4, e.len⟩, ⟨0x60, e.len, leNat (l.bytes e.addr e.len)⟩]
    let t := now s
    let got := recordOn k.ctx e.ring ⟨0x0070, recBytes (0x60 + e.len), payload, t, t + 1⟩ s
    haltTakes n (modLsu n (fun l =>
      let l1 := { l with emits := r, emitDrops := if got.2 then satInc l.emitDrops else l.emitDrops, outqFull := false }
      if l.outqFull then l1.setPend 5 else l1) got.1)
  | _, _ => s

/-- CYCLE reaches TIMER_CMP: TIMER becomes pending once (R312). -/
def Lsu.reachTimer (l : Lsu) : Lsu :=
  if l.timerArmed && decide (l.timerCmp ≤ l.cycle) then { l with timerArmed := false }.setPend 4 else l

end Sys2Proof.Machine
end

