-- ==== Sys2Proof/Machine/Loads.lean ====
section
/-!
DEFINITION. Window tables and reconfiguration, Topiary masks, arming, and reading and releasing captures (R182, R195-R197,
R229-R231, R235, R247, R416).
-/

namespace Sys2Proof.Machine

/-! ### WINDOW_LOAD (R182, R195-R197) -/

/-- Number of the first sample of the stream's current word. -/
def XStream.current (x : XStream) : Nat := (x.hist.head?.map (·.1)).getD (if x.engine = 4 then x.next else x.since)

/-- Coefficients of a table image: Q2.16, signed, 18 bits. -/
def tableCoefs (b : Block) (lg : Nat) : List Nat := (List.range (2 ^ lg)).map fun i => blkFld b (4 * i) 4

/-- The first byte of a table image with a reserved bit set. -/
def tableReserved (l : List Nat) : Option Nat :=
  (l.zipIdx.find? fun v => decide (2 ^ 18 ≤ v.1)).map fun v => 4 * v.2 + (if bits v.1 18 6 ≠ 0 then 2 else 3)

/-- A table whose power could not be bounded (R182): its sum is 0 or too small beside its magnitudes. -/
def tableUnbounded (l : List Nat) : Bool :=
  let total := (l.map (sext 18)).foldl (· + ·) 0
  let mags := sumBy (fun v => (sext 18 v).natAbs) l
  decide (total = 0) || decide (16 * total.natAbs ≤ mags)

/-- Streams of a context's running plans that use a handle, now or from a pending switch on. -/
def tableStreams (c h : Nat) (s : State) : List XStream :=
  s.dsp.streams.filter fun x => decide (planCtx x.plan s = c)
    && (decide (x.cfg.window = 32 + h) || x.switch.any fun w => decide (w.cfg.window = 32 + h))

/-- A stream of a running plan takes a newly staged table: at a switch of its own, or with the one already pending (R182). -/
def switchTable (h : Nat) (coef : List Nat) (asker : Nat × Nat) (x : XStream) (s : State) : State :=
  modX x.plan x.idx (fun x =>
    match x.switch with
    | some w => if w.cfg.window = 32 + h then { x with switch := some { w with cfg := { w.cfg with table := some coef } } } else x
    | none => { x with switch := some ⟨{ x.cfg with table := some coef }, switchPoint x x.current x.cfg.size s, asker, true⟩ }) s

/-- WINDOW_LOAD op TABLE begins (R182). -/
def beginWindowTable (c sid : Nat) (d : Desc) (s : State) : State :=
  let h := d.f 0x11 1
  let lg := d.f 0x12 1
  match d.block 0 (4 * 2 ^ lg) with
  | none => failDesc c sid .hostReadError s
  | some b =>
    let coef := tableCoefs b lg
    let users := tableStreams c h s
    let fits := users.all fun x =>
      let g := (x.switch.map (·.cfg)).getD x.cfg
      g.window ≠ 32 + h || tableFits coef.length g.lg g.taps
    match tableReserved coef with
    | some o => completeDesc c sid .reservedNonzero 0 (layoutResult true o) s
    | none =>
      if tableUnbounded coef || !fits then completeDesc c sid .fieldRange 0 (layoutResult true 0) s
      else
        let need := { Regions.zero with t := tableBytes lg }
        if users.isEmpty then
          let s1 := freeAllocs (fun k => decide (k = .window c h))
            (modCtx c (fun x => { x with windows := x.windows.filter fun w => decide (w.handle ≠ h) }) s)
          if !roomFor need s1 then busy c sid 1 s
          else
            match allocate (.window c h) (4 * 2 ^ lg) s1 with
            | none => busy c sid 12 s
            | some (_, s2) => failDesc c sid .success (modCtx c (fun x => { x with windows := x.windows ++ [⟨h, lg, coef⟩] }) s2)
        else if !roomFor need s then busy c sid 1 s
        else
          match allocate (.windowNew c h) (4 * 2 ^ lg) s with
          | none => busy c sid 12 s
          | some (_, s1) =>
            let s2 := users.foldl (fun s x => switchTable h coef (c, sid) x s) s1
            settleTable c h sid coef s2

/-- WINDOW_LOAD op DROP begins (R182). -/
def beginWindowDrop (c sid : Nat) (d : Desc) (s : State) : State :=
  let h := d.f 0x11 1
  if !(tableStreams c h s).isEmpty then busy c sid 13 s
  else
    failDesc c sid .success (freeAllocs (fun k => decide (k = .window c h))
      (modCtx c (fun x => { x with windows := x.windows.filter fun w => decide (w.handle ≠ h) }) s))

/-- Offset of the first field of a RECONFIGURE that its stream's declared bounds, its records, a unit or a surface refuse (R195,
R197, R231, R254). -/
def reconfigureBad (p : Plan) (b : SubBlk) (d : Desc) (s : State) : Option Nat :=
  let lg := d.f 0x22 1
  let ov := d.f 0x23 1
  let taps := d.f 0x24 1
  let between := fun (v lo hi : Nat) => decide (lo ≤ v) && decide (v ≤ hi)
  let nb := binsOf (b.f 0x08 1) lg
  let spec := b.f 0x15 1
  let ranges := (b.f 0x16 1 ≠ 0 && decide (nb < b.f 0x20 4 + b.f 0x24 4))
    || (List.range spec).any (fun r => decide (nb < (b.reducer r).first + (b.reducer r).count))
  let resized := decide (lg ≠ b.f 0x0A 1)
  let tested := p.maskUses.any fun x => decide (x.1.param x.2 0 1 = b.idx)
  let feeds := (p.kindSubs 8).any fun x => decide (x.f 0x08 1 = b.idx)
  let table := d.f 0x21 1
  let badTable := decide (32 < table) && (tableOf p.ctx table s).any fun l => !tableFits l.length lg taps
  if badTable then some 0x21
  else if !between lg (b.f 0x0A 1) b.maxLg || ranges || (resized && (tested || feeds)) then some 0x22
  else if !between ov (b.f 0x0B 1) b.maxOverlap then some 0x23
  else if !between taps (b.f 0x0D 1) b.maxTaps then some 0x24
  else none

/-- A pending RECONFIGURE of a stream is superseded by another (R197). -/
def supersedeSwitch (x : XStream) (s : State) : State :=
  match x.switch with
  | none => s
  | some w => if w.load then s else failDesc w.asker.1 w.asker.2 .superseded (modX x.plan x.idx (fun x => { x with switch := none }) s)

/-- A stream is asked to switch to new parameters (R196): pending, or merged with a table's switch. -/
def askSwitch (x : XStream) (cfg : XCfg) (asker : Nat × Nat) (s : State) : State :=
  modX x.plan x.idx (fun x =>
    { x with switch := some ⟨cfg, switchPoint x x.current (max x.cfg.size cfg.size) s, asker, false⟩ }) s

/-- WINDOW_LOAD op RECONFIGURE begins (R195-R197). -/
def beginReconfigure (c sid : Nat) (d : Desc) (s : State) : State :=
  match ownPlan c (d.f 0x14 4) s with
  | none => failDesc c sid .planUnknown s
  | some p =>
    match p.sub? 3 (d.f 0x20 1) with
    | none => completeDesc c sid .fieldRange 0 0x20 s
    | some b =>
      let w := d.f 0x21 1
      if decide (32 < w) && (tableOf c w s).isNone then failDesc c sid .handleUnknown s
      else
        match reconfigureBad p b d s with
        | some o => completeDesc c sid .fieldRange 0 o s
        | none =>
          match getX p.id b.idx s with
          | none => failDesc c sid .planNotRunning s
          | some x =>
            let ov := ladderOverlap s.pwr.step.toNat (d.f 0x23 1)
            let cfg : XCfg := ⟨w, d.f 0x22 1, ov, d.f 0x24 1, tableOf c w s⟩
            let s1 := modX p.id b.idx (fun x => { x with own := d.f 0x23 1 }) (supersedeSwitch x s)
            if decide (cfg.window = x.cfg.window) && decide (cfg.lg = x.cfg.lg) && decide (cfg.overlap = x.cfg.overlap) && decide (cfg.taps = x.cfg.taps) then
              completeDesc c sid .success 0 0 s1
            else askSwitch x cfg (c, sid) s1

/-! ### MASK_LOAD (R229-R231) -/

/-- The mask image of a block with `n` bins. -/
def readMask (b : Block) (n : Nat) : MaskImg :=
  { lower := (List.range n).map fun e => sext 16 (blkFld b (0x40 + 4 * e) 2)
    upper := (List.range n).map fun e => sext 16 (blkFld b (0x42 + 4 * e) 2)
    care := (List.range n).map fun e => !bit (blkByte b (0x40 + 4 * n + e / 8)) (e % 8) }

/-- The first entry of an image whose lower bound lies above its upper one (R229). -/
def MaskImg.badEntry (m : MaskImg) : Option Nat :=
  ((m.lower.zip (m.upper.zip m.care)).findIdx? fun x => x.2.2 && decide (x.2.1 < x.1))

/-- The checks of a mask image against its descriptor's image_bytes: the image, or the first failure. -/
def maskCheck (b : Block) (bytes : Nat) : Except (Status × Nat) MaskImg :=
  let n := blkFld b 0 4
  let whole := decide (n ≤ 2 ^ 19) && decide (bytes = 64 + 4 * n + roundUp (cdiv n 8) 4)
  match layoutCheck true (firstReserved (blkByte b) 0 64 [bfd b 0 4 true (fun _ => whole) 0]) [bfd b 0 4 true (fun _ => whole) 0] with
  | some e => .error e
  | none =>
    let m := readMask b n
    match m.badEntry with
    | some e => .error (.fieldRange, layoutResult true (0x40 + 4 * e))
    | none => .ok m

/-- A mask of a context goes with its backing copy. -/
def dropMask (c h : Nat) (s : State) : State :=
  freeAllocs (fun k => decide (k = .mask c h) || decide (k = .maskNew c h))
    (modTrg (fun t => { t with masks := t.masks.filter fun m => !(decide (m.ctx = c) && decide (m.handle = h)) }) s)

/-- Staged masks over all contexts. -/
def stagedMasks (s : State) : Nat := sumBy (fun m => if m.newer.isSome then 2 else 1) s.trg.masks

/-- The current mode has no M region. -/
def noMasks (s : State) : Bool := decide (nth (partitionOf (checkMode s)) 3 0 = 0)

/-- MASK_LOAD op LOAD begins (R230). -/
def beginMaskLoad (c sid : Nat) (d : Desc) (s : State) : State :=
  let h := d.f 0x11 1
  let bytes := d.f 0x14 4
  match d.block 0 bytes with
  | none => failDesc c sid .hostReadError s
  | some b =>
    match maskCheck b bytes with
    | .error (st, r1) => completeDesc c sid st 0 r1 s
    | .ok img =>
      let users := maskStages c h s
      let fits := users.all fun x =>
        let blk := unitBlk x.1 s
        maskFits ((((getPlan ((getUnit x.1 s).plan.getD 0) s).map fun p => (p.stream (blk.param x.2 0 1)).xbins)).getD 0) blk x.2 img
      let need := { Regions.zero with m := maskBytes img.lower.length }
      if noMasks s then failDesc c sid .modeMismatch s
      else if !fits then completeDesc c sid .fieldRange 0 (layoutResult true 0) s
      else if users.isEmpty then
        let s1 := dropMask c h s
        if 64 ≤ stagedMasks s1 then busy c sid 14 s
        else if !roomFor need s1 then busy c sid 1 s
        else
          match allocate (.mask c h) bytes s1 with
          | none => busy c sid 12 s
          | some (_, s2) => failDesc c sid .success (modTrg (fun t => { t with masks := t.masks ++ [⟨c, h, img, none⟩] }) s2)
      else if 64 ≤ stagedMasks s then busy c sid 14 s
      else if !roomFor need s then busy c sid 1 s
      else
        match allocate (.maskNew c h) bytes s with
        | none => busy c sid 12 s
        | some (_, s1) => modMask c h (fun m => { m with newer := some (img, c, sid, nextIndex s) }) s1

/-- MASK_LOAD op DROP begins (R230). -/
def beginMaskDrop (c sid : Nat) (d : Desc) (s : State) : State :=
  let h := d.f 0x11 1
  if !noMasks s && !(maskStages c h s).isEmpty then busy c sid 13 s else failDesc c sid .success (dropMask c h s)

/-! ### TRIGGER_ARM and TRIGGER_DISARM (R235, R246) -/

/-- The units of a plan's TRIGGER blocks that a mask selects. -/
def maskUnits (plan mask : Nat) (s : State) : List Nat := (unitsOf plan s).filter fun n => bit mask (getUnit n s).blk

/-- Arms a unit that is not armed or is frozen, and clears FROZEN; its capture slots begin new captures again. -/
def armAgain (n : Nat) (s : State) : State :=
  let u := getUnit n s
  if u.armed && !u.frozen then s
  else
    let s1 := armUnit n (modUnit n (fun u => { u with frozen := false }) s)
    let mine := fun (c : CapSlot) => decide (u.plan = some c.plan) && decide ((capBlock c.plan c.slot s).f 0x09 1 = u.blk)
    modTrg (fun t => { t with slots := mapIf mine (fun c => { c with frozen := false, done := false }) t.slots }) s1

/-- Checks that TRIGGER_ARM and TRIGGER_DISARM share, then their effect on each selected unit. -/
def beginArming (c sid : Nat) (d : Desc) (f : Nat → State → State) (s : State) : State :=
  match ownPlan c (d.f 0x10 4) s with
  | none => failDesc c sid .planUnknown s
  | some p =>
    let mask := d.f 0x14 1
    if !((maskIdx mask 8).all fun u => (p.sub? 6 u).isSome) then completeDesc c sid .fieldRange 0 0x14 s
    else if p.phase ≠ .running then failDesc c sid .planNotRunning s
    else failDesc c sid .success ((maskUnits p.id mask s).foldl (fun s n => f n s) s)

/-- Disarms a unit. -/
def disarmUnit (n : Nat) (s : State) : State := modUnit n (fun u => { u with armed := false, waitB := false, held := [] }) s

/-! ### CAPTURE_READ and CAPTURE_RELEASE (R247) -/

/-- A context may name a plan in a capture descriptor: it exists, or a capture of it is held. -/
def capturePlan (c plan : Nat) (s : State) : Bool :=
  (ownPlan c plan s).isSome || s.trg.caps.any fun x => decide (x.plan = plan) && decide (x.ctx = c)

/-- A capture of a context. -/
def ownCapture (c plan slot num : Nat) (s : State) : Option Capture :=
  s.trg.caps.find? fun x => decide (x.plan = plan) && decide (x.slot = slot) && decide (x.num = num) && decide (x.ctx = c)

/-- Records that a read writes, waiting for credit, and the completion once they are written. -/
def writeRead (c sid ring : Nat) (l : List (Nat × Nat × List Fld × Nat × Nat)) (s : State) : State :=
  match ringStream c ring s with
  | none => s
  | some i =>
    let s1 := l.foldl (fun s r => formWaiting i ⟨r.1, r.2.1, r.2.2.1, timeOf r.2.2.2.1 s, timeOf r.2.2.2.2 s⟩ (some (c, sid)) s) s
    onWritten c sid l.length 0 s1

/-- Poisoned codewords that a read of a ring meets are reported (R452). -/
def reportPoison (c : Nat) (r : CapRing) (first count : Nat) (s : State) : State :=
  (r.poisonedIn s.dram.poison first count).foldl (fun s a => dramUncorrectable 2 (some c) (a * 128) 128 s) s

/-- CAPTURE_READ of segments begins: the capture is complete (R247). -/
def beginCaptureSegments (c sid : Nat) (d : Desc) (s : State) : State :=
  let plan := d.f 0x10 4
  match capturePlan c plan s, hasRing c (d.f 0x16 1) s, ownCapture c plan (d.f 0x14 1) (d.f 0x18 8) s with
  | false, _, _ => failDesc c sid .planUnknown s
  | true, false, _ => failDesc c sid .ringUnknown s
  | true, true, none => failDesc c sid .captureUnknown s
  | true, true, some x =>
    let first := d.f 0x20 4
    let n := d.f 0x24 4
    if x.segs.length < first + n then completeDesc c sid .fieldRange 0 0x24 s
    else
      match getCap x.ring s with
      | none => failDesc c sid .captureUnknown s
      | some r =>
        let gs := (x.segs.drop first).take n
        let tags := decide (d.f 0x17 1 = 1)
        let l := (gs.map fun g => segmentRecords x g r s.dram.poison tags).flatten
        writeRead c sid (d.f 0x16 1) l
          (gs.foldl (fun s g => reportPoison c r g.first ((min g.fin g.spillFrom - g.first) / r.width) s) s)

/-- CAPTURE_READ of a word range of a ring begins (R247). -/
def beginCaptureWords (c sid : Nat) (d : Desc) (s : State) : State :=
  let n := d.f 0x30 4
  match ownPlan c (d.f 0x10 4) s with
  | none => failDesc c sid .planUnknown s
  | some p =>
    if !hasRing c (d.f 0x16 1) s then failDesc c sid .ringUnknown s
    else
      let mine := fun (r : CapRing) => decide (r.r = d.f 0x34 1) && (p.kindSubs 7).any (fun b => decide (b.f 0x08 1 = r.source))
        && (decide (r.r < 4) || decide (r.plan = p.id))
      match s.trg.rings.find? mine with
      | none => completeDesc c sid .fieldRange 0 0x34 s
      | some r =>
        if n = 0 then completeDesc c sid .success 0 0 s
        else if r.length < n then completeDesc c sid .fieldRange 0 0x30 s
        else
          let first := d.f 0x28 8 - d.f 0x28 8 % r.width
          let got := rangeRecords p.id (d.f 0x14 1) first n r s.dram.poison (decide (d.f 0x17 1 = 1))
          let s1 := if got.2 then modCap r.r (fun r => { r with overwritten := satInc r.overwritten }) s else s
          writeRead c sid (d.f 0x16 1) got.1 (reportPoison c r first n s1)

/-- CAPTURE_RELEASE begins: the capture is closed if it is open, and its blocks are freed (R247). -/
def beginCaptureRelease (c sid : Nat) (d : Desc) (s : State) : State :=
  let plan := d.f 0x10 4
  match capturePlan c plan s, ownCapture c plan (d.f 0x14 1) (d.f 0x18 8) s with
  | false, _ => failDesc c sid .planUnknown s
  | true, none => failDesc c sid .captureUnknown s
  | true, some x =>
    let s1 := if x.complete then s else endCapture x s
    match ownCapture c plan x.slot x.num s1 with
    | none => completeDesc c sid .success 0 0 s1
    | some y =>
      let freed := ((getCap y.ring s1).map fun r =>
        (r.blks.filter fun b => decide (b.holders = [(y.plan, y.slot, y.num)])).length).getD 0
      completeDesc c sid .success freed 0 (dropCapture y s1)

end Sys2Proof.Machine
end

