-- ==== Sys2Proof/Machine/Outputs.lean ====
section
/-!
DEFINITION. DISPLAY_CONFIG and DISPLAY_FLIP (R269-R276, R418, R419).
-/

namespace Sys2Proof.Machine

/-- Ports of an OUTPUT block. -/
def outPorts (b : Block) : Nat := if blkFld b 0x19 1 = 1 then 2 else 1

/-- Bits per pixel of an OUTPUT block, in sixteenths (R272). -/
def outBpp (b : Block) : Nat := match blkFld b 0x1A 1 with | 1 => 384 | 2 => 480 | _ => blkFld b 0x1E 2

/-- The timing's line rate holds within its lanes (R272). -/
def laneFits (b : Block) : Bool :=
  decide (blkFld b 4 2 * blkFld b 6 2 * blkFld b 0x10 4 * outBpp b ≤ blkFld b 0x14 2 * 10 ^ 6 * 1000 * 16 * 4 * outPorts b)

/-- The fields of an OUTPUT block (R419). -/
def outputFds (o : Nat) (b : Block) : List Fd :=
  let dsc := decide (blkFld b 0x1A 1 = 3)
  let v := blkFld b 2 2
  let nz := fun (x : Nat) => bfd b x 2 true (fun _ => true) 0
  [bfd b 0 2 true (fun h => decide (h ≤ 4096 * outPorts b)) 0, bfd b 2 2 true (fun v => decide (v ≤ 4096)) 0
   , bfd b 4 2 true (fun _ => laneFits b) 0, nz 6, nz 8, nz 0xA, nz 0xC, nz 0xE, bfd b 0x10 4 true (fun _ => true) 0
   , bfd b 0x14 2 true (fun r => decide (80 ≤ r) && decide (r ≤ 2500) && decide (r % 10 = 0)) 0
   , bfd b 0x16 2 true (fun m => decide (m ≤ 1024)) 0, bfd b 0x18 1 true (fun m => decide (m ≤ 2)) 0
   , bfd b 0x19 1 false (fun l => decide (l = 0) || (decide (l = 1) && decide (o = 0))) 0, bfd b 0x1A 1 true (fun f => decide (f ≤ 3)) 0
   , bfd b 0x1B 1 false (fun n => if dsc then decide (n = 1) || decide (n = 2) || decide (n = 4) else decide (n = 0)) 0
   , bfd b 0x1C 2 false (fun h => if dsc then decide (8 ≤ h) && decide (v % max h 1 = 0) else decide (h = 0)) 0
   , bfd b 0x1E 2 false (fun p => if dsc then decide (128 ≤ p) && decide (p ≤ 192) else decide (p = 0)) 0
   , bfd b 0x20 2 false (fun t => decide (t ≤ 1000)) 0, bfd b 0x22 1 false (fun f => decide (f ≤ 1)) 0
   , bfd b 0x24 4 false (fun _ => true) 0xC0000000, bfd b 0x28 4 false (fun _ => true) 0xC0000000]

/-- An output as its OUTPUT block configures it; layers and counters stay. -/
def outputOf (c base tick : Nat) (b : Block) (d : DOut) : DOut :=
  let f := blkFld b
  { d with
    enabled := true, lockstep := decide (f 0x19 1 = 1), cmdMode := decide (f 0x18 1 = 2), format := f 0x1A 1, owner := c
    timing := [f 0 2, f 2 2, f 4 2, f 6 2, f 8 2, f 0xA 2, f 0xC 2, f 0xE 2], refresh := f 0x10 4, laneMbps := f 0x14 2
    dsc := [f 0x1B 1, f 0x1C 2, f 0x1E 2], teTimeout := f 0x20 2, teFallback := decide (f 0x22 1 = 1), inFallback := false, teRaised := false
    latchTick := tick, busyUntil := 0, fallback := BitVec.ofNat 30 (f 0x28 4), background := BitVec.ofNat 30 (f 0x24 4)
    areaBase := base, areaMb := f 0x16 2 }

/-- Why a context may not use an output that some context has enabled (R269, R276): it is off, or another's. -/
def outputDenied (c o : Nat) (s : State) : Option (Status × Nat) :=
  let d := getOut o s
  if o = 1 && (getOut 0 s).lockstep then some (.resourceBusy, 13)
  else if !d.enabled then some (.displayOff, 0)
  else if d.owner ≠ c then some (.resourceBusy, 13)
  else none

/-- A DRAM layer's image lies in the display area. -/
def Layer.inArea (y : Layer) (base areaMb : Nat) : Bool := decide (base + imageBytes y.format y.width y.height ≤ areaMb * mb)

/-- The display area of an output, kept when its size does not change: its base, and the state that holds it. -/
def displayArea (o size : Nat) (s : State) : Option (Nat × State) :=
  let d := getOut o s
  if d.enabled && decide (d.areaMb = size) then some (d.areaBase, s)
  else
    let s1 := if d.enabled then closeWindow d.areaBase (freeAllocs (fun k => decide (k = .display o)) s) else s
    (allocate (.display o) (size * mb) s1).map fun a => (a.1, openWindow a.1 (size * mb) a.2)

/-- DISPLAY_CONFIG op OUTPUT begins (R269). -/
def beginDisplayOutput (c sid : Nat) (d : Desc) (s : State) : State :=
  let o := d.f 0x11 1
  match d.block 0 64 with
  | none => failDesc c sid .hostReadError s
  | some b =>
    match blockCheck b (outputFds o b) with
    | some (st, r1) => completeDesc c sid st 0 r1 s
    | none =>
      let y := getOut o s
      let twin := decide (blkFld b 0x19 1 = 1) && (getOut 1 s).enabled
      if (o = 1 && (getOut 0 s).lockstep) || (y.enabled && decide (y.owner ≠ c)) || twin then busy c sid 13 s
      else
        match displayArea o (blkFld b 0x16 2) s with
        | none => busy c sid 12 s
        | some (base, s1) =>
          let s2 := modOut o (outputOf c base (nowTick s) b) (supersedeFlips o 1 s1)
          if s2.dram.bandwidth < dramDemand (reservedPlans s2) s2 then busy c sid 6 s
          else
            let s3 := (List.range 4).foldl (fun s l =>
              let y := getLayer o l s
              if y.enabled && decide (y.source = 1) && !y.inArea y.cur.base (blkFld b 0x16 2) then stopLayer o l s else s) s2
            completeDesc c sid .success base 0 s3

/-- The layer that a DISPLAY_CONFIG op LAYER asks for. -/
def layerOf (d : Desc) : Layer :=
  { Layer.reset with
    enabled := true, source := d.f 0x13 1, format := d.f 0x14 1, argb := decide (d.f 0x15 1 = 2), alpha := d.f 0x16 1, x := d.f 0x18 2
    y := d.f 0x1A 2, width := d.f 0x1C 2, height := d.f 0x1E 2, cur := ⟨d.f 0x20 8, 0⟩, plan := d.f 0x34 4, surface := d.f 0x17 1 }

/-- DISPLAY_CONFIG op LAYER begins (R270). -/
def beginDisplayLayer (c sid : Nat) (d : Desc) (s : State) : State :=
  let o := d.f 0x11 1
  let y := layerOf d
  let plan := ownPlan c y.plan s
  let blk := plan.bind fun p => p.sub? 8 y.surface
  if y.source ≠ 1 && plan.isNone then failDesc c sid .planUnknown s
  else if y.source ≠ 1 && !(blk.any fun b => decide (y.source = 3) || decide (b.f 0x0C 1 ≠ 0)) then completeDesc c sid .fieldRange 0 0x17 s
  else
    match outputDenied c o s with
    | some (st, r1) => completeDesc c sid st 0 r1 s
    | none =>
      if y.source = 1 && !y.inArea y.cur.base (getOut o s).areaMb then completeDesc c sid .fieldRange 0 0x20 s
      else
        let s1 := modLayer o (d.f 0x12 1) (fun _ => y) (stopLayer o (d.f 0x12 1) s)
        if s1.dram.bandwidth < dramDemand (reservedPlans s1) s1 then busy c sid 6 s else failDesc c sid .success s1

/-- DISPLAY_CONFIG op LUT_LOAD begins (R271). -/
def beginLutLoad (c sid : Nat) (d : Desc) (s : State) : State :=
  match ownPlan c (d.f 0x34 4) s with
  | none => failDesc c sid .planUnknown s
  | some p =>
    match p.sub? 8 (d.f 0x17 1), d.block 0 1024 with
    | none, _ => completeDesc c sid .fieldRange 0 0x17 s
    | some _, none => failDesc c sid .hostReadError s
    | some b, some l =>
      match surfOf p.id b.idx s with
      | none => failDesc c sid .planNotRunning s
      | some n => failDesc c sid .success (modSurf n (fun f => { f with newLut := some (readLut (b.f 0x0E 1) l) }) s)

/-- DISPLAY_CONFIG op PANEL_CMD begins (R274): a write is sent, a read waits for its response. -/
def beginPanelCmd (c sid : Nat) (d : Desc) (s : State) : State :=
  let o := d.f 0x11 1
  if bit (d.f 0x32 1) 0 then
    match outputDenied c o s with
    | some (st, r1) => completeDesc c sid st 0 r1 s
    | none =>
      let fn := ((getCtx c s).map (·.fn)).getD 0
      modOut o (fun y => { y with panel := some ⟨(c, sid), fn, d.f 0x28 8, nowTick s⟩ }) (emit (.panel o true []) s)
  else
    match d.block 0 (d.f 0x30 2), outputDenied c o s with
    | none, _ => failDesc c sid .hostReadError s
    | some _, some (st, r1) => completeDesc c sid st 0 r1 s
    | some b, none => failDesc c sid .success (emit (.panel o false b) s)

/-- DISPLAY_CONFIG op LAYER_OFF begins. -/
def beginLayerOff (c sid : Nat) (d : Desc) (s : State) : State :=
  match outputDenied c (d.f 0x11 1) s with
  | some (st, r1) => completeDesc c sid st 0 r1 s
  | none => failDesc c sid .success (stopLayer (d.f 0x11 1) (d.f 0x12 1) s)

/-- DISPLAY_CONFIG op OUTPUT_OFF begins. -/
def beginOutputOff (c sid : Nat) (d : Desc) (s : State) : State :=
  match outputDenied c (d.f 0x11 1) s with
  | some (st, r1) => completeDesc c sid st 0 r1 s
  | none => failDesc c sid .success (disableOutput (d.f 0x11 1) s)

/-! ### DISPLAY_FLIP (R276) -/

/-- Offset of the first field of a flip that its output refuses: a layer that is not DRAM, or a base outside the area. -/
def flipBad (o : Nat) (d : Desc) (s : State) : Option Nat :=
  let ls := maskIdx (d.f 0x11 1) 4
  if (ls.any fun l => !(getLayer o l s).enabled || decide ((getLayer o l s).source ≠ 1)) then some 0x11
  else (ls.find? fun l => !(getLayer o l s).inArea (d.f (0x18 + 8 * l) 8) (getOut o s).areaMb).map fun l => 0x18 + 8 * l

/-- Flips that share a layer with a mask are superseded, and their buffers released at once. -/
def supersedeMask (o mask : Nat) (s : State) : State :=
  let lost := (getOut o s).flips.filter fun f => (maskIdx mask 4).any fun l => bit f.mask l
  lost.foldl (fun s f =>
    let s1 := modOut o (fun y => { y with flips := y.flips.filter fun g => decide (g ≠ f) }) s
    let s2 := (maskIdx f.mask 4).foldl (fun s l =>
      match (getLayer o l s).pend with
      | none => s
      | some p => sendRelease o l p.flip 1 (modLayer o l (fun y => { y with pend := none }) s)) s1
    completeBy (some f.asker) .superseded 0 0 s2) s

/-- DISPLAY_FLIP begins: it is recorded for the next latch point. -/
def beginFlip (c sid : Nat) (d : Desc) (s : State) : State :=
  let o := d.f 0x10 1
  match outputDenied c o s with
  | some (st, r1) => completeDesc c sid st 0 r1 s
  | none =>
    match flipBad o d s with
    | some off => completeDesc c sid .fieldRange 0 off s
    | none =>
      let mask := d.f 0x11 1
      let s1 := supersedeMask o mask s
      let s2 := (maskIdx mask 4).foldl (fun s l =>
        modLayer o l (fun y => { y with pend := some ⟨d.f (0x18 + 8 * l) 8, d.f 0x14 4⟩ }) s) s1
      modOut o (fun y => { y with flips := y.flips ++ [⟨(c, sid), mask⟩] }) s2

end Sys2Proof.Machine
end

