-- ==== Sys2Proof/Machine/Streams.lean ====
section
/-!
DEFINITION. STREAM_OPEN, STREAM_CLOSE, DISK_BIND and DISK_UNBIND (R424-R427, R432, R433, R437).
-/

namespace Sys2Proof.Machine

/-! ### Exports (R424-R427) -/

/-- The export that a STREAM_OPEN asks for. -/
def exportOf (c slot id stream : Nat) (disk running : Bool) (d : Desc) : Export :=
  let srcs := maskIdx (d.f 0x17 1) 4 ++ (maskIdx (d.f 0x18 4) 32).map (16 + ·)
  { slot := slot, id := id, plan := d.f 0x10 4, ctx := c, disk := disk, target := d.f 0x15 1, form := d.f 0x16 1, sourceMask := d.f 0x17 1
    zoomMask := d.f 0x18 4, recordWords := d.f 0x1C 4, streamId := stream, running := running
    sources := srcs.map fun n => ⟨n, [], 0, 0⟩, drops := 0, gaps := 0, pausedAt := none, closing := none }

/-- Offset of the field that names a source the plan does not have. -/
def sourcesBad (p : Plan) (d : Desc) : Option Nat :=
  if !((maskIdx (d.f 0x17 1) 4).all p.holdsPair) then some 0x17
  else if !((maskIdx (d.f 0x18 4) 32).all fun z => (p.sub? 1 z).isSome) then some 0x18 else none

/-- A source of a request is in another export of the plan. -/
def sourceTaken (d : Desc) (s : State) : Bool :=
  s.disk.exports.any fun e => decide (e.plan = d.f 0x10 4)
    && (decide (e.sourceMask &&& d.f 0x17 1 ≠ 0) || decide (e.zoomMask &&& d.f 0x18 4 ≠ 0))

/-- Beginning of STREAM_OPEN for both targets. -/
def beginStreamOpen (c sid : Nat) (disk : Bool) (d : Desc) (s : State) : State :=
  let target := d.f 0x15 1
  match ownPlan c (d.f 0x10 4) s with
  | none => failDesc c sid .planUnknown s
  | some p =>
    if !disk && !hasRing c target s then failDesc c sid .ringUnknown s
    else
      match sourcesBad p d with
      | some o => completeDesc c sid .fieldRange 0 o s
      | none =>
        let member := s.disk.bindings.any fun b => decide (b.ctx = c) && decide (b.set = target) && decide (b.state = .active)
        if decide (checkMode s ≠ if disk then 7 else 6) || replaying s then failDesc c sid .modeMismatch s
        else if disk && !member then failDesc c sid .diskFailed s
        else if sourceTaken d s then busy c sid 13 s
        else
          match (List.range 8).find? fun n => (getExport n s).isNone with
          | none => busy c sid 14 s
          | some slot =>
            let stream := if disk then s.host.nextStream else (ringStream c target s).getD 0
            let e := exportOf c slot s.disk.nextExport stream disk (p.takes s) d
            let s1 := modDisk (fun x => { x with exports := x.exports ++ [e], nextExport := x.nextExport + 1 }) s
            let s2 := if disk then
                modHost (fun h => { h with streams := h.streams ++ [newStream stream c [] target], nextStream := h.nextStream + 1 }) s1
              else s1
            if p.reserved && !exportFits (reservedPlans s2) s2 then busy c sid 7 s
            else if p.reserved && !(regionsOf (reservedPlans s2) s2).within (checkMode s2) then busy c sid 1 s
            else completeDesc c sid .success e.id 0 s2

/-- STREAM_CLOSE begins (R426). -/
def beginStreamClose (c sid : Nat) (d : Desc) (s : State) : State :=
  match ownPlan c (d.f 0x10 4) s with
  | none => failDesc c sid .planUnknown s
  | some p =>
    match s.disk.exports.find? fun e => decide (e.id = d.f 0x14 4) && decide (e.plan = p.id) && e.closing.isNone with
    | none => failDesc c sid .exportUnknown s
    | some e => beginClose e.slot 2 (some (c, sid)) s

/-! ### Bindings (R432, R433) -/

/-- Bytes of a binding's window: control page, queues, PRP lists of one page for each queue pair, and data buffers (R433). -/
def windowSize (pairs lg : Nat) : Nat :=
  roundUp (0x1000 + pairs * (max 4096 (64 * 2 ^ lg) + max 4096 (16 * 2 ^ lg)) + pairs * 4096) (2 * mb) + 2 * mb * pairs

/-- BAR4 offset at which the S region begins (R367). -/
def stagingBase : Nat := 0xF00000000

/-- The lowest place in S beyond the absorb buffer where a window of `n` bytes fits, among bindings in rising order. -/
def stagingFit (n limit : Nat) : Nat → List (Nat × Nat) → Option Nat
  | at_, [] => if at_ + n ≤ limit then some at_ else none
  | at_, w :: r => if at_ + n ≤ w.1 then some at_ else stagingFit n limit (max at_ (w.1 + roundUp w.2 granule)) r

/-- Where a new window goes, as a BAR4 offset. -/
def stagingPlace (n : Nat) (s : State) : Option Nat :=
  let held := (s.disk.bindings.map fun b => (b.window - stagingBase, b.windowBytes)).mergeSort fun a b => decide (a.1 ≤ b.1)
  (stagingFit (roundUp n granule) (nth (partitionOf (checkMode s)) 4 0 * mb) (16 * mb) held).map (stagingBase + ·)

/-- DISK_BIND begins (R432). Its read is the drive's CAP register. -/
def beginDiskBind (c sid : Nat) (d : Desc) (s : State) : State :=
  let set := d.f 0x10 1
  let pairs := d.f 0x11 1
  let lg := d.f 0x12 1
  let n := windowSize pairs lg
  let others := s.disk.bindings.filter fun b => decide (b.ctx = c) && decide (b.set = set)
  match d.block 0 8 with
  | none => if checkMode s = 7 then failDesc c sid .diskUnreachable s else failDesc c sid .modeMismatch s
  | some cap =>
    if checkMode s ≠ 7 then failDesc c sid .modeMismatch s
    else if blkFld cap 0 2 + 1 < 2 ^ lg then completeDesc c sid .fieldRange 0 0x12 s
    else if (others.any fun b => decide (b.lbaLog2 ≠ d.f 0x13 1)) then completeDesc c sid .fieldRange 0 0x13 s
    else if decide (32 < sumBy (·.queuePairs) s.disk.bindings + pairs) then busy c sid 14 s
    else if !roomFor { Regions.zero with s := roundUp n granule } s then busy c sid 1 s
    else
      match stagingPlace n s, (List.range 32).find? fun k => (getBinding k s).isNone with
      | some base, some slot =>
        let b : Binding :=
          { slot := slot, id := s.disk.nextBinding, ctx := c, set := set, queuePairs := pairs, queueLog2 := lg, lbaLog2 := d.f 0x13 1
            nsid := d.f 0x14 4, controller := d.f 0x18 8, firstLba := d.f 0x20 8, lbaCount := d.f 0x28 8, port := ctxPort c s, window := base
            windowBytes := n, state := .awaiting, maxTransferKb := 0, actStatus := 0, qids := [], nextLba := d.f 0x20 8, extent := []
            outstanding := [], nextCid := 0, failures := 0, cmdErrors := 0, retries := 0, timeouts := 0, recordsLost := 0, unbinder := none }
        completeDesc c sid .success base b.id
          (openWindow base n (modDisk (fun x => { x with bindings := x.bindings ++ [b], nextBinding := x.nextBinding + 1 }) s))
      | none, _ => busy c sid 1 s
      | _, none => busy c sid 14 s

/-- DISK_UNBIND begins (R437): no new extent goes to the member; it ends when its commands have. -/
def beginDiskUnbind (c sid : Nat) (d : Desc) (s : State) : State :=
  match s.disk.bindings.find? fun b => decide (b.id = d.f 0x10 4) && decide (b.ctx = c) with
  | none => failDesc c sid .handleUnknown s
  | some b =>
    if b.unbinder.isSome then busy c sid 13 s
    else
      let s1 := if b.state = .active then closeExtent b.slot s else s
      modBinding b.slot (fun b => { b with state := .unbinding, unbinder := some (c, sid) }) s1

end Sys2Proof.Machine
end

