-- ==== Sys2Proof/Machine/Device.lean ====
section
/-!
DEFINITION. TDC_CONFIGURE, TDC_GATE, CAL_CONTROL, SET_TIME, POWER_HINT and the TEST_CONTROL ops but LANE_TEST (R57-R58, R69-R72,
R79, R136-R144, R358, R526, R578).
-/

namespace Sys2Proof.Machine

/-! ### TDC_CONFIGURE (R69, R72) -/

/-- Another context holds a channel. -/
def tdcTaken (c ch : Nat) (s : State) : Bool := (getTdc ch s).owner.any fun o => decide (o ≠ c)

/-- TDC_CONFIGURE op ENABLE begins: the channel is taken and its stream begins with a TDC_WRAP marker (R76). -/
def beginTdcEnable (c sid : Nat) (d : Desc) (s : State) : State :=
  let ch := d.f 0x10 1
  let kb := d.f 0x18 4
  let freed := modTdc ch (fun x => { x with stagingKb := 0 }) s
  if !hasRing c (d.f 0x14 1) s then failDesc c sid .ringUnknown s
  else if decide (kb ≠ 0) && decide (effMode s ≠ 9) then failDesc c sid .modeMismatch s
  else if tdcTaken c ch s then busy c sid 13 s
  else if decide (kb ≠ 0) && !roomFor ⟨0, 0, 0, 0, kb * 1024⟩ freed then busy c sid 1 s
  else
    let s1 := flushStamps ch s
    let take := fun (x : TdcCh) =>
      { x with owner := some c, edges := d.f 0x12 1, dividerLog2 := d.f 0x13 1, ring := d.f 0x14 1, stagingKb := kb
               deadMark := false, queueMark := false, stampsSinceCal := 0, lastCal := nowTick s1 }
    completeDesc c sid .success 0 0 (tdcMarker ch 2 (modTdc ch take s1))

/-- A channel is given up: what its queue holds is delivered, and its extension is released (R69, R72). -/
def releaseTdc (ch : Nat) (s : State) : State :=
  modTdc ch (fun x => { x with owner := none, stagingKb := 0, queue := [], openRec := [] }) (flushStamps ch s)

/-- TDC_CONFIGURE op RELEASE begins. -/
def beginTdcRelease (c sid : Nat) (d : Desc) (s : State) : State :=
  let ch := d.f 0x10 1
  if tdcTaken c ch s then busy c sid 13 s
  else completeDesc c sid .success 0 0 (if (getTdc ch s).owner.isSome then releaseTdc ch s else s)

/-! ### TDC_GATE (R79) -/

/-- The channels that a measurement involves, each once. -/
def gateChannels (interval : Bool) (d : Desc) : List Nat :=
  if interval then [d.f 0x13 1, d.f 0x14 1].eraseDups else [d.f 0x13 1]

/-- Arming calibrates each channel involved (R77): the descriptor's reads carry, per channel, the two mean raw codes and the die
temperature that the calibration measured. -/
def armCals (c ring tick : Nat) : List Nat → List HostRead → State → State
  | [], _, s => s
  | ch :: r, reads, s =>
    let b := ((reads.head?).join).getD []
    armCals c ring tick r reads.tail (calibrate ch 2 tick (blkFld b 0 4) (blkFld b 4 4) (blkFld b 8 2) (some (c, ring)) s)

/-- TDC_GATE begins: the measurement is armed on a free pin. -/
def beginTdcGate (c sid : Nat) (interval : Bool) (d : Desc) (s : State) : State :=
  let pin := d.f 0x10 1
  let ring := d.f 0x15 1
  if !hasRing c ring s then failDesc c sid .ringUnknown s
  else if (nth s.tim.gates pin none).isSome then busy c sid 13 s
  else
    let s1 := armCals c ring (nowTick s) (gateChannels interval d) d.reads s
    let g : Gate :=
      { interval := interval, startCh := d.f 0x13 1, stopCh := if interval then d.f 0x14 1 else 0, high := decide (d.f 0x12 1 = 1)
        ring := ring, mid := d.f 0x18 4, maxUs := d.f 0x20 8, ctx := c, phase := .armed, openTick := 0, openTime := 0
        stepped := false, starts := [], stops := [], startCount := 0, stopCount := 0, lostEdges := 0, startLost := false
        stopLost := false, n := 0, sk := 0, skk := 0, st := 0, skt := 0, stt := 0, limited := false
        calSeq := (getTdc (d.f 0x13 1) s1).calSeq }
    completeDesc c sid .success 0 0 (modTim (fun t => { t with gates := t.gates.set pin (some g) }) s1)

/-! ### CAL_CONTROL (R136, R139-R144) -/

/-- The pairs that a CAL_CONTROL selects. -/
def calPairs (d : Desc) : List Nat := maskIdx (d.f 0x11 1) 4

/-- Change Skim of every selected pair. -/
def onCalPairs (d : Desc) (f : Nat → Skim → Skim) (s : State) : State := (calPairs d).foldl (fun s n => modSkim n (f n) s) s

/-- SET_MODE begins (R143): on entering HOLD a held set is discarded. A pair in FOREGROUND takes AUTO at its end whatever was
asked. -/
def beginCalSetMode (c sid : Nat) (d : Desc) (s : State) : State :=
  let m := d.f 0x12 1
  completeDesc c sid .success 0 0
    (onCalPairs d (fun _ p =>
      if p.mode = 4 then p else { p with mode := BitVec.ofNat 3 m, held := if m = 2 then none else p.held }) s)

/-- The layout of a MANUAL_LOAD set (R144, R149): status and result1 of its first failure. -/
def setCheck (b : Block) : Option (Status × Nat) :=
  let flds := setFields 0 (readSet b)
  let covered := fun (o : Nat) => flds.any fun f => decide (f.off ≤ o) && decide (o < f.off + f.len)
  let bad := (List.range 160).find? fun o => !covered o && decide (blkByte b o ≠ 0)
  match bad with
  | some o => some (.reservedNonzero, layoutResult true o)
  | none =>
    ((flds.zip (readSet b).zipIdx).find? fun x => !coefOk x.2.2 x.2.1).map fun x => (.fieldRange, layoutResult true x.1.off)

/-- MANUAL_LOAD begins: the mode becomes MANUAL and the set is offered for ramp commit on each selected pair. -/
def beginCalManualLoad (c sid : Nat) (d : Desc) (s : State) : State :=
  match d.block 0 160 with
  | none => failDesc c sid .hostReadError s
  | some b =>
    match setCheck b with
    | some (st, r1) => completeDesc c sid st 0 r1 s
    | none =>
      completeDesc c sid .success 0 0
        (onCalPairs d (fun n p => { p with mode := 3 }.offer (getPair n s).next (readSet b) 3 false) s)

/-- FENCE begins: a fence from the word formed now, of duration_us rounded up to whole words (R136). -/
def beginCalFence (c sid : Nat) (d : Desc) (s : State) : State :=
  let holds := fun (p : Plan) => decide (p.ctx = c) && decide (p.phase = .running) && (calPairs d).all p.holdsPair
  if decide (c ≠ 0) && !s.plans.any holds then failDesc c sid .pairNotHeld s
  else
    let words := cdiv (d.f 0x14 4 * s.tim.rateNum) (s.tim.rateDen * (8 * 10 ^ 6))
    completeDesc c sid .success 0 0 (onCalPairs d (fun n p => p.placeFence 0 ((getPair n s).next + 8 * words)) s)

/-- RAMP_LENGTH begins: the next ramp commit takes it (R133). -/
def beginCalRampLength (c sid : Nat) (d : Desc) (s : State) : State :=
  completeDesc c sid .success 0 0 (onCalPairs d (fun _ p => { p with lg := d.f 0x13 1 }) s)

/-- TABLE_RESET begins: the learned bins go, so that lookups use the fuse seeds (R139). -/
def beginTableReset (c sid : Nat) (d : Desc) (s : State) : State :=
  completeDesc c sid .success 0 0 (onCalPairs d (fun _ p => { p with learned := [] }) s)

/-- FOREGROUND starts on a pair (R140): routed to CAL at the board default step; a block under way is discarded. -/
def startForeground (n : Nat) (s : State) : State :=
  let p := getPair n s
  let s1 := routePair n 4 p.defStep s
  modPair n (fun p => { p with foreground := true })
    (modSkim n (fun k => { k with mode := 4, fgReturn := some (p.route, p.fsStep), solve := none, accepted := 0, excited := 0 }) s1)

/-- RUN_FOREGROUND begins (R144); it completes when FOREGROUND has ended on every selected pair. -/
def beginRunForeground (c sid : Nat) (d : Desc) (s : State) : State :=
  if effMode s ≠ 12 then failDesc c sid .modeMismatch s
  else if (calPairs d).any fun n => pairHeld n s || decide ((getSkim n s).mode = 4) then busy c sid 13 s
  else
    let s1 := (calPairs d).foldl (fun s n => startForeground n s) s
    { s1 with skm := { s1.skm with fgRun := some (c, sid, calPairs d) } }

/-! ### SET_TIME (R57, R58) -/

/-- A pending SET_TIME gives way to a newer one. -/
def supersedeSet (s : State) : State :=
  match s.tim.setPending with
  | none => s
  | some p => failDesc p.ctx p.sid .superseded (modTim (fun t => { t with setPending := none }) s)

/-- SET_TIME with apply 1 begins: it waits for the next PPS edge. -/
def beginSetTimePps (c sid : Nat) (d : Desc) (s : State) : State :=
  modTim (fun t => { t with setPending := some ⟨c, sid, d.f 0x28 8, t.ticks.toNat⟩ }) (supersedeSet s)

/-- SET_TIME with apply 2 begins: device time is set on the first tick after acceptance. -/
def beginSetTimeImmediate (c sid : Nat) (d : Desc) (s : State) : State :=
  let sec := d.f 0x28 8
  let s1 := setDeviceTime (sec * 2 ^ 64 + d.f 0x20 8) sec false (tick (supersedeSet s))
  completeDesc c sid .success s1.tim.stepGen.toNat 0 s1

/-- 1.5 s pass without a PPS edge: the pending SET_TIME has no effect. -/
def setTimePpsTimeout (s : State) : State :=
  match s.tim.setPending with
  | none => s
  | some p =>
    failDesc p.ctx p.sid .ppsAbsent
      (modTim (fun t => { t with setPending := none }) (advanceToTick (p.accepted + tickRate * 3 / 2) s))

/-! ### POWER_HINT (R526) -/

/-- Change the power manager. -/
def modPwr (f : Pwr → Pwr) (s : State) : State := { s with pwr := f s.pwr }

/-- CAP begins. -/
def beginHintCap (c sid : Nat) (d : Desc) (s : State) : State :=
  completeDesc c sid .success 0 0 (modPwr (fun p => { p with cap := BitVec.ofNat 3 (d.f 0x11 1) }) s)

/-- NEXT_EVENT begins: an event already passed clears the hint. -/
def beginHintNextEvent (c sid : Nat) (d : Desc) (s : State) : State :=
  let t := d.f 0x20 16
  completeDesc c sid .success 0 0 (modCtx c (fun x => { x with nextEvent := if t ≤ now s then none else some t }) s)

/-- UNCAP begins: from context 0 the cap becomes DORMANT. -/
def beginHintUncap (c sid : Nat) (s : State) : State :=
  completeDesc c sid .success 0 0 (if c = 0 then modPwr (fun p => { p with cap := 6 }) s else s)

/-! ### TEST_CONTROL (R358, R418, R578) -/

/-- Complete a test whose results the spec does not state. -/
def completeTest (c sid : Nat) (s : State) : State :=
  let r := freshValue 64 s
  completeDesc c sid .success r.1.toNat 0 r.2

/-- SELFTEST begins: it needs its part of TEST, which plans and kernels must leave free. -/
def beginSelftest (c sid : Nat) (d : Desc) (s : State) : State :=
  let need := (Config.selftestMb (d.f 0x11 1) (d.f 0x18 8) (d.f 0x20 8)).toNat * mb
  let fits := if effMode s = 12 then roomFor ⟨need, 0, 0, 0, 0⟩ s else decide (need = 0)
  if fits then completeTest c sid s else busy c sid 1 s

/-- CLEAR_RETIREMENT begins: the record in the NOR is cleared, in MAINTENANCE only; the units stay retired until the next cold
start. -/
def beginClearRetirement (c sid : Nat) (s : State) : State :=
  if effMode s ≠ 12 then failDesc c sid .modeMismatch s
  else
    completeDesc c sid .success 0 0
      (emit (.nor "retirement record cleared" []) { s with spu := { s.spu with record := 0 } })

end Sys2Proof.Machine
end

