-- ==== Sys2Proof/Machine/Flight.lean ====
section
/-!
DEFINITION. FLIGHT_READ, replay bundles and REPLAY_LOAD (R545, R546, R548).
-/

namespace Sys2Proof.Machine

/-! ### History held (R542, R545) -/

/-- Bytes of a pair's share of the sample area: a quarter of the window less its journal, in blocks of 256 KB. -/
def shareBytes (s : State) : Nat := (s.fr.windowMb.toNat - 32) * mb / 4 / 2 ^ 18 * 2 ^ 18

/-- The frozen ring of a pair whose history it holds, unless consolidation has taken it. -/
def ringHeld (n : Nat) (s : State) : Option CapRing := if s.fr.consolidated then none else getCap n s

/-- Words of a frozen ring, oldest first, each with its address. -/
def CapRing.frozenWords (r : CapRing) (fin : Nat) : List (HWord × Nat) :=
  let bs := (r.blks.filter fun b => b.holders.contains frozenKey).mergeSort fun a b => decide (a.range ≤ b.range)
  ((bs.map fun b => b.words.reverse.map fun w => (w.2, r.wordAddr b w.1)).flatten).filter fun w => decide (w.1.index < fin)

/-- Words of a pair's history held, oldest first. -/
def history (n : Nat) (s : State) : List HWord :=
  match ringHeld n s with
  | none => (nth s.fr.shares n []).reverse
  | some r => (r.frozenWords (nth s.fr.ends n 0)).map (·.1)

/-- Ring-held history of a pair is copied into its share, newest words first, up to the share (R465, R545); a word in a
poisoned codeword is delivered as zeros and marked (R452). -/
def consolidatePair (n : Nat) (s : State) : State :=
  match ringHeld n s with
  | none => s
  | some r =>
    let l := (r.frozenWords (nth s.fr.ends n 0)).reverse.take (shareBytes s / 16)
    let bad := fun (a : Nat) => s.dram.poison.contains (a / 128)
    let ws := l.map fun w => if bad w.2 then { w.1 with vals := List.replicate 8 0 } else w.1
    let marks := (l.filter fun w => bad w.2).map fun w => (n, w.1.index)
    let hit := ((l.map fun w => w.2 / 128).filter s.dram.poison.contains).eraseDups
    let s1 := hit.foldl (fun s a => dramUncorrectable 11 none (a * 128) 128 s) s
    modFr (fun f => { f with shares := modNth f.shares n (fun _ => ws), marked := f.marked ++ marks }) s1

/-- All ring-held history is consolidated. -/
def consolidate (s : State) : State :=
  if s.fr.consolidated then s
  else modFr (fun f => { f with consolidated := true }) ((List.range 4).foldl (fun s n => consolidatePair n s) s)

/-! ### Bundles (R546) -/

/-- Samples and journal of a bundle: words of the four pairs, journal entries oldest first, the span's start. -/
structure Excerpt where
  words : List (List HWord)
  journal : List JEntry
  start : Nat

/-- A part of a bundle: kind, pair, fields from 0x60 on, payload bytes, span. -/
structure Part where
  kind : Nat
  pair : Nat
  fields : List Fld
  bytes : Nat
  span : Nat × Nat

/-- The anchor of the live clock. -/
def liveAnchor (s : State) : Anchor := s.tim.anchor.getD ⟨0, 0, 0, 0, s.tim.rateNum, s.tim.rateDen, 0, 0⟩

/-- Device time of the oldest word held, or of the freeze. -/
def oldestTime (s : State) : Nat :=
  let l := (List.range 4).filterMap fun n => (history n s).head?.map fun w => timeOfIndex (liveAnchor s) w.index
  l.foldl min s.fr.freezeTime.toNat

/-- The history from a device time over a span, clipped to what is held, with the anchor and the calibration snapshot of each
pair in force at its start (R545). -/
def excerpt (start0 : Nat) (span : Option Nat) (s : State) : Excerpt :=
  let start := max start0 (oldestTime s)
  let begins := if start0 = 0 then start else start0
  let isIn := fun (w : HWord) =>
    let t := timeOfIndex (liveAnchor s) w.index
    decide (start ≤ t) && (match span with | none => true | some d => decide (t < begins + d))
  let fin := match span with | none => s.fr.freezeTime.toNat | some d => min s.fr.freezeTime.toNat (begins + d)
  let all := s.fr.journal.reverse
  let before := all.filter fun e => decide (e.time ≤ timeMid start)
  let latest := fun (p : JEntry → Bool) => ((before.filter p).getLast?).toList
  let anchor := latest fun e => decide (e.kind = 4)
  let cals := ((List.range 4).map fun n => latest fun e => decide (e.kind = 3) && decide (fldAt e.body 0x14 = n)).flatten
  let inside := all.filter fun e => decide (timeMid start < e.time) && decide (e.time ≤ timeMid fin)
  { words := (List.range 4).map fun n => (history n s).filter isIn
    journal := (anchor ++ cals).mergeSort (fun a b => decide (a.time ≤ b.time)) ++ inside, start := start }

/-- Cut words into runs of consecutive indices of at most `m` words each. -/
def chunkWords (m : Nat) (l : List HWord) : List (List HWord) :=
  ((l.foldl (fun (acc : List (List HWord)) w =>
    match acc with
    | (x :: c) :: r => if x.index + 8 = w.index && c.length + 1 < m then (w :: x :: c) :: r else [w] :: acc
    | _ => [w] :: acc) []).reverse.map List.reverse)

/-- A SAMPLES part. -/
def samplesPart (n : Nat) (ws : List HWord) (s : State) : Part :=
  let first := (ws.head?.map (·.index)).getD 0
  let runs := reasonRuns (ws.map fun w => (w.index, w.tag.toNat))
  let off := 0x100 + roundUp (16 + 16 * runs.length) 64
  let reasons := ws.map fun w => (w.index, wordReasons (s.fr.marked.contains (n, w.index)) w)
  let runFlds := (runs.zipIdx.map fun x =>
    [⟨0x110 + 16 * x.2, 8, x.1.1⟩, ⟨0x118 + 16 * x.2, 4, x.1.2.1⟩, ⟨0x11C + 16 * x.2, 2, x.1.2.2⟩]).flatten
  { kind := 2, pair := n, bytes := off - 0x100 + 16 * ws.length
    fields := rangeList 0x60 reasons ++ [⟨0x100, 8, first⟩, ⟨0x108, 4, ws.length⟩, ⟨0x10C, 4, runs.length⟩] ++ runFlds
      ++ wordFields off ws
    span := (timeOfIndex (liveAnchor s) first, timeOfIndex (liveAnchor s) (first + 8 * ws.length)) }

/-- SAMPLES parts in ascending first_index, with pairs in order at equal index. -/
def samplesParts (x : Excerpt) (s : State) : List Part :=
  let l := (x.words.zipIdx.map fun p => (chunkWords 8192 p.1).map fun c => (((c.head?.map (·.index)).getD 0, p.2), c)).flatten
  (l.mergeSort fun a b => decide (a.1.1 < b.1.1) || (decide (a.1.1 = b.1.1) && decide (a.1.2 ≤ b.1.2))).map
    fun y => samplesPart y.1.2 y.2 s

/-- Fields of whole journal entries from an offset on (R543). -/
def entryFields (o : Nat) : List JEntry → List Fld
  | [] => []
  | e :: r =>
    [⟨o, 8, e.time⟩, ⟨o + 8, 2, e.kind⟩, ⟨o + 10, 2, 16 + e.bytes⟩] ++ e.body.map (fun f => { f with off := o + f.off })
      ++ entryFields (o + 16 + e.bytes) r

/-- Group journal entries into parts of at most 65,536 bytes. -/
def entryGroups (l : List JEntry) : List (List JEntry) :=
  ((l.foldl (fun (acc : List (Nat × List JEntry)) e =>
    match acc with
    | (n, c) :: r => if n + 16 + e.bytes ≤ 65536 then (n + 16 + e.bytes, e :: c) :: r else (16 + e.bytes, [e]) :: acc
    | [] => [(16 + e.bytes, [e])]) []).reverse.map fun x => x.2.reverse)

/-- JOURNAL parts, in time order. -/
def journalParts (x : Excerpt) : List Part :=
  (entryGroups x.journal).map fun g =>
    let t := fun (e : Option JEntry) => ((e.map (·.time)).getD 0) * 2 ^ 32
    { kind := 3, pair := 0, fields := entryFields 0x100 g, bytes := sumBy (fun e => 16 + e.bytes) g
      span := (t g.head?, t g.getLast? + 1) }

/-- Pairs that have words in an excerpt. -/
def Excerpt.pairs (x : Excerpt) : Nat := packBits (x.words.zipIdx.map fun p => (p.2, 1, b2n (!p.1.isEmpty)))

/-- First index of each pair's words. -/
def Excerpt.firsts (x : Excerpt) : List Nat := x.words.map fun l => (l.head?.map (·.index)).getD 0

/-- Index after each pair's last word. -/
def Excerpt.fins (x : Excerpt) : List Nat := x.words.map fun l => (l.getLast?.map (·.index + 8)).getD 0

/-- The HEADER part; `count` is part_count. -/
def headerPart (x : Excerpt) (count : Nat) (s : State) : Part :=
  { kind := 1, pair := 0, bytes := 0xC0, span := (x.start, s.fr.freezeTime.toNat)
    fields := [⟨0x100, 1, s.fr.freezeMode.toNat⟩, ⟨0x101, 1, x.pairs⟩, ⟨0x102, 1, s.fr.cause.toNat⟩, ⟨0x104, 4, s.fr.frzDen⟩
      , ⟨0x108, 8, s.fr.frzNum⟩, ⟨0x110, 8, partitionImage s.mode⟩, ⟨0x118, 4, s.fr.frzRoutes⟩
      , ⟨0x120, 16, s.fr.freezeTime.toNat⟩] ++ arrayFields 0x130 8 x.firsts ++ arrayFields 0x150 8 x.fins
      ++ [⟨0x170, 16, x.start⟩, ⟨0x180, 4, count⟩, ⟨0x184, 4, s.host.fwVersion.toNat⟩, ⟨0x188, 4, s.spu.patchVersion.toNat⟩
      , ⟨0x190, 48, s.trust.devId.toNat⟩] }

/-- All parts of a bundle in order; the END part is completed as it is written. -/
def bundleParts (x : Excerpt) (s : State) : List Part :=
  let mid := samplesParts x s ++ journalParts x
  let last : Part := { kind := 4, pair := 0, fields := [], bytes := 0x94 + s.trust.certs.length, span := (x.start, s.fr.freezeTime.toNat) }
  headerPart x (mid.length + 2) s :: (mid ++ [last])

/-- Length of a part's record. -/
def Part.record (p : Part) : Nat := recBytes (0x100 + p.bytes)

/-- The BUNDLE record of part `k`. -/
def partRec (id k : Nat) (p : Part) : NewRec :=
  ⟨bundleType, p.record, [⟨0x40, 8, id⟩, ⟨0x48, 1, p.kind⟩, ⟨0x49, 1, p.pair⟩, ⟨0x4C, 4, k⟩, ⟨0x50, 4, p.bytes⟩] ++ p.fields
   , p.span.1, p.span.2⟩

/-- bundle_id: device time bits [95:32] of the freeze. -/
def bundleId (s : State) : Nat := timeMid s.fr.freezeTime.toNat

/-! ### FLIGHT_READ (R545) -/

/-- FLIGHT_READ begins: freeze, consolidate, and write one bundle, whose records wait for credit. -/
def beginFlightRead (c sid : Nat) (d : Desc) (s : State) : State :=
  match ringStream c (d.f 0x10 1) s with
  | none => failDesc c sid .ringUnknown s
  | some i =>
    let s1 := consolidate (if s.fr.frozen then s else freezeRecorder 1 s)
    let x := excerpt (d.f 0x20 16) (some (d.f 0x30 4 * 2 ^ 64 / 10 ^ 6)) s1
    let parts := bundleParts x s1
    let s2 := parts.zipIdx.foldl (fun s p => formWaiting i (partRec (bundleId s1) p.2 p.1) (some (c, sid)) s) s1
    let s3 := if bit (d.f 0x11 1) 0 then unfreezeRecorder s2 else s2
    onWritten c sid parts.length parts.length s3

/-! ### Reading a bundle (R546, R548) -/

/-- Cut a block into records by their record_bytes. -/
def splitRecords : Nat → Block → Option (List Block)
  | 0, b => if b.isEmpty then some [] else none
  | n + 1, b =>
    if b.isEmpty then some []
    else
      let k := blkFld b 0 4
      if decide (0x100 ≤ k) && decide (k % 64 = 0) && decide (k ≤ b.length) then
        (splitRecords n (b.drop k)).map fun r => b.take k :: r
      else none

/-- The covered bytes of a record as bytes (R497). -/
def coveredBytes (b : Block) : List Byte := b.take 6 ++ (b.drop 7).take 25 ++ b.drop 0x40

/-- Kinds of parts come in order: HEADER, SAMPLES, JOURNAL, END. -/
def kindsOk : List Nat → Bool
  | [] => false
  | 1 :: r => (r.dropLast.all fun k => decide (k = 2) || decide (k = 3)) && decide (r.getLast? = some 4)
      && (r.zip r.tail).all fun x => decide (x.1 ≤ x.2)
  | _ => false

/-- SAMPLES parts ascend by (first_index, pair). -/
def samplesOk (l : List Block) : Bool :=
  (l.zip l.tail).all fun x =>
    let a := (blkFld x.1 0x100 8, blkFld x.1 0x49 1)
    let b := (blkFld x.2 0x100 8, blkFld x.2 0x49 1)
    decide (a.1 < b.1) || (decide (a.1 = b.1) && decide (a.2 < b.2))

/-- Part order: every record is a BUNDLE record of one bundle, numbered from 0, with the parts in order. -/
def partsOk (l : List Block) : Bool :=
  let id := blkFld (l.headD []) 0x40 8
  kindsOk (l.map fun b => blkFld b 0x48 1)
    && (l.zipIdx.all fun x => decide (blkFld x.1 4 2 = bundleType) && decide (blkFld x.1 0x40 8 = id)
          && decide (blkFld x.1 0x4C 4 = x.2) && decide (blkFld x.1 0x50 4 + 0x100 ≤ x.1.length))
    && decide (blkFld (l.headD []) 0x180 4 = l.length) && samplesOk (l.filter fun b => decide (blkFld b 0x48 1 = 2))

/-- The END digest and then the signature hold. -/
def endOk (l : List Block) : Bool :=
  let e := l.getLastD []
  let dig := Config.sha384 (l.dropLast.map coveredBytes).flatten
  let n := blkFld e 0x192 2
  decide (blkFld e 0x100 48 = dig.toNat) && !bit (blkFld e 0x190 1) 4
    && Config.chainVerify ((e.drop 0x194).take n) (Config.sha384 (leBytes 48 dig.toNat ++ leBytes 8 (blkFld e 0x40 8))) ((e.drop 0x130).take 96)

/-- The tag of a word in the runs of a SAMPLES part. -/
def runTag (b : Block) (count i : Nat) : Nat :=
  (((List.range count).map fun k => (blkFld b (0x110 + 16 * k) 8, blkFld b (0x118 + 16 * k) 4, blkFld b (0x11C + 16 * k) 2)).find?
    fun r => decide (r.1 ≤ i) && decide (i < r.1 + 8 * r.2.1)).elim 0 (·.2.2)

/-- A word lies in a range that a SAMPLES part lists with SUSPECT (R423, R452). -/
def listedSuspect (b : Block) (i : Nat) : Bool :=
  (List.range (blkFld b 0x60 1)).any fun k =>
    let f := blkFld b (0x68 + 16 * k) 8
    decide (f ≤ i) && decide (i < f + 8 * blkFld b (0x70 + 16 * k) 4) && bit (blkFld b (0x74 + 16 * k) 2) 4

/-- A word of an uncorrectable range enters the feed with VALID = 0 and zero samples (R452, R549). -/
def HWord.suspect (w : HWord) : HWord := { w with tag := w.tag &&& ~~~(BitVec.ofNat 16 (2 ^ tagValid)), vals := List.replicate 8 0 }

/-- Words of a SAMPLES part. -/
def partWords (b : Block) : List HWord :=
  let first := blkFld b 0x100 8
  let runs := blkFld b 0x10C 4
  let off := 0x100 + roundUp (16 + 16 * runs) 64
  (List.range (blkFld b 0x108 4)).map fun k =>
    let i := first + 8 * k
    let w : HWord := ⟨i, 0, BitVec.ofNat 16 (runTag b runs i), (List.range 8).map fun j => sext 16 (blkFld b (off + 16 * k + 2 * j) 2)⟩
    if listedSuspect b i then w.suspect else w

/-- Journal entries of a JOURNAL payload: the fields of a TIME_ANCHOR, and the bytes of every other entry. -/
def readEntries : Nat → Block → List JEntry
  | 0, _ => []
  | n + 1, b =>
    let k := blkFld b 10 2
    if decide (k < 16) || decide (b.length < k) then []
    else
      let kind := blkFld b 8 2
      let shape := if kind = 4 then anchorFields 0x10 ⟨0, 0, 0, 0, 0, 0, 0, 0⟩ else (List.range (k - 16)).map fun o => ⟨0x10 + o, 1, 0⟩
      ⟨blkFld b 0 8, kind, shape.map fun f => { f with val := blkFld b f.off f.len }, k - 16⟩ :: readEntries n (b.drop k)

/-- The bundle that a verified list of parts makes. -/
def readBundle (l : List Block) (bytes : Nat) : Bundle :=
  let h := l.headD []
  let of := fun k => l.filter fun b => decide (blkFld b 0x48 1 = k)
  { id := blkFld h 0x40 8, flight := false, mode := blkFld h 0x100 1, pairs := blkFld h 0x101 1 % 16, rateNum := blkFld h 0x108 8
    rateDen := blkFld h 0x104 4, routes := blkFld h 0x118 4, first := (List.range 4).map fun n => blkFld h (0x130 + 8 * n) 8
    fin := (List.range 4).map fun n => blkFld h (0x150 + 8 * n) 8
    words := (List.range 4).map fun n => (((of 2).filter fun b => decide (blkFld b 0x49 1 = n)).map partWords).flatten
    journal := ((of 3).map fun b => readEntries 4096 ((b.drop 0x100).take (blkFld b 0x50 4))).flatten, bytes := bytes }

/-- The bundle built from the frozen recorder, over all history held. -/
def flightBundle (s : State) : Bundle :=
  let x := excerpt 0 none s
  { id := bundleId s, flight := true, mode := s.fr.freezeMode.toNat, pairs := x.pairs, rateNum := s.fr.frzNum, rateDen := s.fr.frzDen
    routes := s.fr.frzRoutes, first := x.firsts, fin := x.fins
    words := x.words.zipIdx.map fun p => p.1.map fun w => if s.fr.marked.contains (p.2, w.index) then w.suspect else w
    journal := x.journal, bytes := sumBy Part.record (bundleParts x s) }

/-- The grade's maximum rate (R1), Hz. -/
def topRate (s : State) : Nat := if s.host.part = 0x4108 then 8 * 10 ^ 9 else 128 * 10 ^ 8

/-- A verified bundle is loaded, or staged beside the one in use in REPLAY (R548). -/
def loadBundle (c sid : Nat) (b : Bundle) (s : State) : State :=
  if decide (b.rateDen = 0) || decide (topRate s * b.rateDen < b.rateNum) then completeDesc c sid .fieldRange 0 (layoutResult true 0x108) s
  else
    let stage := replaying s && s.fr.loaded.isSome
    let kind := if stage then AllocKind.bundleNew else AllocKind.bundle
    match allocate kind (roundUp b.bytes granule) (freeAllocs (fun k => decide (k = kind)) s) with
    | none => busy c sid 12 s
    | some (_, s1) =>
      completeDesc c sid .success 0 0 (modFr (fun f => if stage then { f with staged := some b } else { f with loaded := some b }) s1)

/-- REPLAY_LOAD op HOST begins. -/
def beginReplayHost (c sid : Nat) (d : Desc) (s : State) : State :=
  let n := d.f 0x20 8
  match d.block 0 n with
  | none => failDesc c sid .hostReadError s
  | some b =>
    match splitRecords (n / 64 + 1) b with
    | none => failDesc c sid .bundleInvalid s
    | some l => if partsOk l && endOk l then loadBundle c sid (readBundle l n) s else failDesc c sid .bundleInvalid s

/-- REPLAY_LOAD op FLIGHT begins: a recorder that is not frozen gives NOT_FROZEN. -/
def beginReplayFlight (c sid : Nat) (s : State) : State :=
  if s.fr.frozen then loadBundle c sid (flightBundle s) s else failDesc c sid .notFrozen s

/-- REPLAY_LOAD op UNLOAD begins: the recorder unfreezes with a FLIGHT bundle (R544). -/
def beginReplayUnload (c sid : Nat) (s : State) : State :=
  match s.fr.loaded with
  | none => failDesc c sid .replayNotLoaded s
  | some b =>
    if replaying s then busy c sid 13 s
    else
      let s1 := modFr (fun f => { f with loaded := none, ended := false }) (freeAllocs (fun k => decide (k = .bundle)) s)
      completeDesc c sid .success 0 0 (if b.flight then unfreezeRecorder s1 else s1)

end Sys2Proof.Machine
end

