-- ==== Sys2Proof/Machine/Teardown.lean ====
section
/-!
DEFINITION. Teardown of contexts: its causes, what it releases, and its end (R377, R378).
-/

namespace Sys2Proof.Machine

/-- Descriptors of a context end: completed ABORTED in ring order when it destroys itself with `sid`, else without a word. -/
def endDescriptors (c : Nat) (self : Option Nat) (s : State) : State :=
  match getCtx c s with
  | none => s
  | some x =>
    match self with
    | none => modCtx c (fun x => { x with acc := [], posted := [], held := [] }) s
    | some sid =>
      let others := (x.acc.filter fun a => decide (a.sid ≠ sid)).mergeSort fun a b => decide (a.sid ≤ b.sid)
      others.foldl (fun s a => failDesc c a.sid .aborted s) (modCtx c (fun x => { x with posted := [] }) s)

/-- A pending SET_TIME of a context ends with its descriptor. -/
def dropSetTime (c : Nat) (s : State) : State :=
  if s.tim.setPending.any fun p => decide (p.ctx = c) then modTim (fun t => { t with setPending := none }) s else s

/-- Outputs of a context are disabled, with pending flips SUPERSEDED. -/
def dropOutputs (c : Nat) (s : State) : State :=
  (List.range 2).foldl (fun s o =>
    if (getOut o s).enabled && decide ((getOut o s).owner = c) then disableOutput o s else s) s

/-- A disk stream that no export writes any longer goes. -/
def dropExports (c : Nat) (s : State) : State :=
  (s.disk.exports.filter fun e => decide (e.ctx = c)).foldl (fun s e => removeExport e s) s

/-- TDC channels and gated measurements of a context (R69, R72, R85). -/
def dropTiming (c : Nat) (s : State) : State :=
  let s1 := (List.range 8).foldl (fun s ch => if (getTdc ch s).owner = some c then releaseTdc ch s else s) s
  modTim (fun t => { t with gates := t.gates.map fun g => if g.any (fun g => decide (g.ctx = c)) then none else g }) s1

/-- Kernels of a context: every running instance ends (R311). -/
def dropKernels (c : Nat) (s : State) : State :=
  let mine := (s.spu.kernels.filter fun k => decide (k.ctx = c)).map (·.id)
  ((List.range 16).filter fun n => mine.contains (getLsu n s).kernel).foldl (fun s n => endInstance n 5 0 0 s) s

/-- What forms records or holds a rate: plans, kernels, TDC channels, measurements and exports. -/
def dropSources (c : Nat) (s : State) : State :=
  let s1 := ((s.plans.filter fun p => decide (p.ctx = c)).map (·.id)).foldl (fun s p => destroyPlan p false s) s
  dropExports c (dropTiming c (dropKernels c s1))

/-- The streams of a context's data rings. -/
def ctxStreams (c : Nat) (s : State) : List Nat := ((getCtx c s).map fun x => (x.rings.map (·.streamId)).eraseDups).getD []

/-- Every data ring of a context is freed. -/
def freeAllRings (c : Nat) (s : State) : State :=
  (((getCtx c s).map fun x => x.rings.map (·.id)).getD []).foldl (fun s r => freeRing c r s) s

/-- Teardown begins (R377, R378): fetching stops, descriptors end, and what forms records is released. With cause 1 every stream
on the context's rings closes with a final SEAL; with every other cause nothing more is written. -/
def startTeardown (c cause : Nat) (destroyer : Option (Nat × Nat)) (s : State) : State :=
  match getCtx c s with
  | none => s
  | some x =>
    if x.state ≠ .live then s
    else
      let self := (destroyer.filter fun d => decide (d.1 = c)).map (·.2)
      let s1 := modCtx c (fun x => { x with state := .tearingDown, cause := cause, destroyer := destroyer }) s
      let s2 := if self.isSome then dropOutputs c s1 else s1
      let s3 := dropSetTime c (endDescriptors c self s2)
      if cause = 1 then
        let s4 := dropSources c s3
        (ctxStreams c s4).foldl (fun s i => formSeal i 5 none s) s4
      else dropSources c (freeAllRings c s3)

/-- What else a context holds: outputs, captures, masks, window tables, kernel images and bindings. -/
def dropHoldings (c : Nat) (s : State) : State :=
  let s1 := (s.trg.caps.filter fun x => decide (x.ctx = c)).foldl (fun s x => dropCapture x s) (dropOutputs c s)
  let s2 := (s1.trg.masks.filter fun m => decide (m.ctx = c)).foldl (fun s m => dropMask c m.handle s) s1
  let s3 := (s2.disk.bindings.filter fun b => decide (b.ctx = c)).foldl (fun s b => removeBinding b s) s2
  let mine := fun (k : AllocKind) => match k with
    | .window x _ | .windowNew x _ | .kernel x _ => decide (x = c) | _ => false
  freeAllocs mine s3

/-- Teardown ends (R378): the context's objects are gone, its page is inert and its number free; context 0 is told, and a
CONTEXT_DESTROY that named the context completes. Its own completion is the context's last write. -/
def finishTeardown (c : Nat) (s : State) : State :=
  match getCtx c s with
  | none => s
  | some x =>
    if x.state ≠ .tearingDown then s
    else
      let s1 := freeAllRings c (dropHoldings c s)
      let own := fun (s : State) => if (x.destroyer.map (·.1)) = some c then completeBy x.destroyer .success 0 0 s else s
      let s2 := modHost (fun h => { h with ctxs := h.ctxs.filter fun y => decide (y.num ≠ c) }) (own s1)
      let s3 := if c = 0 then s2 else sendAdmin 0x0051 c x.cause 0 0 s2
      if (x.destroyer.map (·.1)) = some c then s3 else completeBy x.destroyer .success 0 0 s3

/-- CONTEXT_DESTROY begins (R377). -/
def beginContextDestroy (c sid : Nat) (d : Desc) (s : State) : State :=
  let n := d.f 0x10 2
  match getCtx n s, getCtx c s with
  | some y, some x =>
    if decide (y.state = .live) && (decide (c = 0) || decide (y.fn = x.fn)) then startTeardown n 1 (some (c, sid)) s
    else failDesc c sid .contextUnknown s
  | _, _ => failDesc c sid .contextUnknown s

/-- DETACH is written (R374, R377). -/
def detach (f : Nat) (s : State) : State :=
  match getFn f s with
  | none => s
  | some r =>
    let n := r.ctlContext.toNat
    let held := r.attHeld
    let keep := fun (s : State) => modFn f (fun r => { r with attHeld := held }) s
    match getCtx n s with
    | some x =>
      if decide (x.fn = f) && decide (x.state = .live) then startTeardown n 2 none (keep (reportAttach f 0 n 0 s))
      else keep (reportAttach f 3 n Status.contextUnknown.code s)
    | none => keep (reportAttach f 3 n Status.contextUnknown.code s)

/-- Teardown of every context that a function-level reset, or clearing of Bus Master Enable, on a function reaches. -/
def tearFunction (f : Nat) (s : State) : State :=
  let hit := fun (x : Ctx) => if fnNumber f = 0 then decide (fnPort x.fn = fnPort f) else decide (x.fn = f)
  ((s.host.ctxs.filter hit).map (·.num)).foldl (fun s c => startTeardown c 3 none s) s

/-- Teardown of every context of a port. -/
def tearPort (port cause : Nat) (s : State) : State :=
  ((s.host.ctxs.filter fun x => decide (fnPort x.fn = port)).map (·.num)).foldl (fun s c => startTeardown c cause none s) s

end Sys2Proof.Machine
end

