-- ==== Sys2Proof/Machine/Ready.lean ====
section
/-!
DEFINITION. Which accepted descriptors may begin: subjects, fences, holds and what each power state serves (R404, R407-R410, R45, R522).
-/

namespace Sys2Proof.Machine

/-- The subjects of a descriptor (R404) as (class, number): 0 device, 1 context, 2 ring, 3 plan, 4 window handle, 5 mask handle,
6 kernel handle, 7 kernel, 8 disk set, 9 output, 10 channel, 11 gate pin, 12 pair, 13 time base. -/
def subjects (d : Desc) (s : State) : List (Nat × Nat) :=
  match d.op with
  | .noop | .fence | .timeWait | .contextCreate | .planCreate | .bad _ => []
  | .modeSet | .powerHintCap | .powerHintNextEvent | .powerHintUncap | .flightRead | .replayLoadHost | .replayLoadFlight
  | .replayUnload | .selftest | .clearRetirement | .laneTestEnter | .laneTestExit | .dramTest => [(0, 0)]
  | .contextDestroy => [(1, d.f 0x10 2)]
  | .ringCreate => [(2, d.f 0x18 1)]
  | .ringDestroy | .attestBind => [(2, d.f 0x10 1)]
  | .planStart | .planStop | .planDestroy | .triggerArm | .triggerDisarm | .captureReadSegments | .captureReadWords
  | .captureRelease | .streamOpenRing | .streamOpenDisk | .streamClose => [(3, d.f 0x10 4)]
  | .windowReconfigure => [(3, d.f 0x14 4)]
  | .windowTable | .windowDrop => [(4, d.f 0x11 1)]
  | .maskLoad | .maskDrop => [(5, d.f 0x11 1)]
  | .spuLoad => [(6, d.f 0x10 1)]
  | .spuLaunch => [(6, ((d.block 0 464).map fun b => blkFld b 0 1).getD 0)]
  | .spuSignal | .spuStop => [(7, d.f 0x14 4)]
  | .diskBind => [(8, d.f 0x10 1)]
  | .diskUnbind => [(8, ((s.disk.bindings.find? fun b => decide (b.id = d.f 0x10 4)).map (·.set)).getD 0)]
  | .displayOutput | .displayLayer | .displayLutLoad | .panelCmd | .layerOff | .outputOff => [(9, d.f 0x11 1)]
  | .displayFlip => [(9, d.f 0x10 1)]
  | .tdcEnable | .tdcRelease => [(10, d.f 0x10 1)]
  | .tdcGateInterval | .tdcGateFrequency => [(11, d.f 0x10 1)]
  | .calSetMode | .calManualLoad | .calFence | .calRampLength | .runForeground | .tableReset =>
    (maskIdx (d.f 0x11 1) 4).map fun n => (12, n)
  | .setTimePps | .setTimeImmediate => [(13, 0)]

/-- A SET_TIME. -/
def setsTime : DescOp → Bool
  | .setTimePps | .setTimeImmediate => true
  | _ => false

/-- An earlier descriptor of the same subject holds a later one back (R407); a SET_TIME that waits for its edge does not hold a
SET_TIME, nor a PLAN_START that waits for its first word a PLAN_STOP or PLAN_DESTROY (R410). -/
def holdsBack (a b : Acc) (s : State) : Bool :=
  let past := match a.desc.op, b.desc.op with
    | .planStart, .planStop | .planStart, .planDestroy => a.begun
    | x, y => a.begun && setsTime x && setsTime y
  !past && (subjects a.desc s).any (subjects b.desc s).contains

/-- FENCE and TIME_WAIT hold every later descriptor. -/
def isFence : DescOp → Bool
  | .fence | .timeWait => true
  | _ => false

/-- Forms that a mode change holds (R45). -/
def heldByChange : DescOp → Bool
  | .planCreate | .planStart | .contextCreate | .modeSet => true
  | _ => false

/-- A CAPTURE_READ of segments waits until its capture is complete (R247). -/
def readWaits (c : Nat) (d : Desc) (s : State) : Bool :=
  match d.op with
  | .captureReadSegments => (ownCapture c (d.f 0x10 4) (d.f 0x14 1) (d.f 0x18 8) s).any fun x => !x.complete
  | _ => false

/-- The conditions of R407 and R410 under which an accepted descriptor of a context begins, but for the power state. -/
def mayBegin (x : Ctx) (a : Acc) (s : State) : Bool :=
  let before := x.acc.filter fun b => decide (b.sid < a.sid)
  if a.begun then false
  else if a.desc.op = .contextDestroy then true
  else
    x.state = .live && !(before.any fun b => isFence b.desc.op) && (decide (a.desc.op ≠ .fence) || before.isEmpty)
      && !(before.any fun b => holdsBack b a s) && !(s.mode.change.isSome && heldByChange a.desc.op) && !readWaits x.num a.desc s

/-- Forms that every power state but DORMANT serves, and those that DORMANT serves too (R522): 2, 1, and 0 for the others. -/
def servedIn : DescOp → Nat
  | .noop | .fence | .timeWait => 2
  | .contextCreate | .contextDestroy | .ringCreate | .ringDestroy | .powerHintCap | .powerHintNextEvent | .powerHintUncap
  | .tdcEnable | .tdcRelease | .tdcGateInterval | .tdcGateFrequency => 1
  | _ => 0

/-- The power state serves a form: those that no state but ACTIVE serves wait until every exit or entry under way has ended. -/
def stateServes (op : DescOp) (s : State) : Bool :=
  match servedIn op with
  | 2 => true
  | 1 => decide (s.pwr.target ≠ 6) && decide (s.pwr.state ≠ 6)
  | _ => decide (s.pwr.state = 1) && decide (s.pwr.target = 1)

/-- The work of a form needs the MP: all but the Host island's own (R509). -/
def needsMp : DescOp → Bool
  | .noop | .fence | .timeWait => false
  | _ => true

/-- A descriptor begins now. -/
def beginsNow (x : Ctx) (a : Acc) (s : State) : Bool :=
  mayBegin x a s && stateServes a.desc.op s && (s.pwr.mpUp || !needsMp a.desc.op)

/-- A descriptor that may begin waits for the device to leave its power state: a wake event (R522). -/
def wakes (s : State) : Bool :=
  s.host.ctxs.any fun x => x.acc.any fun a => mayBegin x a s && !stateServes a.desc.op s

end Sys2Proof.Machine
end

