-- ==== Sys2Proof/Machine/Power.lean ====
section
/-!
DEFINITION. Power states: the limit, the known events, the choice, entry and exit (R516-R529, R465, R466).
-/

namespace Sys2Proof.Machine

/-! ### Figures of R518, in ns; states 1-6 -/

/-- Entry time of a state. -/
def pwrEntry : Nat → Nat | 2 => 100 | 3 => 10000 | 4 => 200000 | 5 => 15000000 | 6 => 20000000 | _ => 0

/-- Exit latency of a state. -/
def pwrExit : Nat → Nat | 2 => 200 | 3 => 20000 | 4 => 2000000 | 5 => 40000000 | 6 => 900000000 | _ => 0

/-- Guard margin of a state. -/
def pwrGuard : Nat → Nat | 2 => 100 | 3 => 10000 | 4 => 500000 | 5 => 10000000 | 6 => 100000000 | _ => 0

/-- Break-even time of a state. -/
def pwrEven : Nat → Nat | 2 => 2000 | 3 => 200000 | 4 => 10000000 | 5 => 400000000 | 6 => 30000000000 | _ => 0

/-! ### Retained segments (R446, R465) -/

/-- Segment of the data space that an address lies in. -/
def Dram.segment (a : Nat) (d : Dram) : Nat := a * 8 / max d.dataSpace 1

/-- ALWAYS: the segments that hold any of the general region. -/
def Dram.always (d : Dram) : Nat := 2 ^ (d.segment (generalBytes - 1) + 1) - 1

/-- The segments that a partial-array entry retains. -/
def Dram.keeps (d : Dram) : Nat := d.always ||| d.keep.toNat

/-- Every block of a capture lies in retained segments. -/
def captureKept (s : State) (c : Capture) : Bool :=
  match getCap c.ring s with
  | none => true
  | some r =>
    (r.blks.filter fun b => b.holders.contains (c.plan, c.slot, c.num)).all fun b =>
      let a := r.addr + b.pos * 2 ^ 18
      bit s.dram.keeps (s.dram.segment a) && bit s.dram.keeps (s.dram.segment (a + 2 ^ 18 - 1))

/-! ### The limit (R523) -/

/-- Begun descriptors of some forms. -/
def carriedOut (p : DescOp → Bool) (s : State) : Bool := s.host.ctxs.any fun x => x.acc.any fun a => a.begun && p a.desc.op

/-- A descriptor that a Main island carries out: all that work on the datapath, the SPUs, the display or a plan's drains; not one that
waits for a time, an edge, a latch point or credit. -/
def mainWork : DescOp → Bool
  | .planStop | .planDestroy | .windowTable | .windowReconfigure | .maskLoad | .spuStop | .streamClose | .panelCmd | .runForeground
  | .modeSet => true
  | _ => false

/-- Reads and loads that hold the device at TRIM. -/
def slowWork : DescOp → Bool
  | .captureReadSegments | .captureReadWords | .flightRead | .replayLoadHost | .replayLoadFlight => true
  | _ => false

/-- A running kernel instance. -/
def Lsu.runs (l : Lsu) : Bool := decide (l.kernel ≠ 0)

/-- A paused duty-cycled plan with an integration, a density surface or an open trace. -/
def pausedHolds (s : State) : Bool :=
  s.plans.any fun p => decide (p.phase = .running) && p.duty.any (·.paused)
    && (!(p.kindSubs 4).isEmpty || !(p.kindSubs 8).isEmpty
        || s.dsp.streams.any fun x => decide (x.plan = p.id) && x.traces.any fun t => decide (t.used ≠ 0))

/-- The rows of R523 that apply, in order, with their deepest states. -/
def limitRows (s : State) : List (Nat × Bool) :=
  [(1, effMode s = 12 || effMode s = 11 || s.mode.change.isSome || carriedOut mainWork s || wakes s
      || s.host.fns.any fun f => f.attHeld && decide (s.pwr.state = 6))
   , (2, s.plans.any (fun p => decide (p.phase = .running) && !p.duty.any (·.paused)) || s.plans.any fun p => decide (p.phase = .stopping))
   , (2, s.dpy.outs.any fun o => o.enabled && !o.cmdMode)
   , (2, s.spu.lsus.any fun l => l.runs && !l.waiting)
   , (2, carriedOut slowWork s || s.disk.bindings.any fun b => !b.outstanding.isEmpty)
   , (4, s.spu.lsus.any (·.runs))
   , (4, s.trg.caps.any fun c => !captureKept s c)
   , (4, pausedHolds s)
   , (5, s.tim.gates.any (·.isSome))]

/-- LIMIT and BLOCKER (R523, R529): the deepest state allowed, and the row that sets it, or 0. -/
def powerLimit (s : State) : Nat × Nat :=
  let rows := (limitRows s).zipIdx.filter fun x => x.1.2
  let low := rows.foldl (fun m x => min m x.1.1) 6
  if s.pwr.cap.toNat ≤ low then
    (s.pwr.cap.toNat, match rows.find? fun x => decide (x.1.1 = s.pwr.cap.toNat) with | some x => x.2 + 1 | none => 0)
  else (low, ((rows.find? fun x => decide (x.1.1 = low)).map (·.2 + 1)).getD 0)

/-! ### Known events (R524) -/

/-- The calibration that pairs kept off will need: CAL_PERIOD_S after the latest accepted block. -/
def calDue (s : State) : Nat := timeOfTick (s.pwr.lastCal + s.pwr.calPeriod.toNat * tickRate) s

/-- The next expected latch point of a command-mode output. -/
def nextLatch (o : DOut) (s : State) : Nat :=
  let per := max (tickRate * 1000 / max o.refresh 1) 1
  timeOfTick (o.latchTick + ((nowTick s - o.latchTick) / per + 1) * per) s

/-- Times of the known events. -/
def knownEvents (s : State) : List Nat :=
  (s.plans.filter fun p => decide (p.phase = .waiting) && decide (now s < p.startTime)).map (·.startTime)
  ++ s.plans.filterMap (fun p => (p.duty.filter (·.paused)).map fun d => d.t0 + d.window * p.dutyTimes.1)
  ++ (if s.pwr.calNeed = 0 then [calDue s] else [])
  ++ (s.dpy.outs.filter fun o => o.enabled && o.cmdMode).map (fun o => nextLatch o s)
  ++ s.tim.gates.filterMap (fun g => (g.filter fun g => decide (g.phase = .opened)).map fun g =>
      g.openTime + g.maxUs * 2 ^ 64 / 10 ^ 6)
  ++ (s.spu.lsus.filter fun l => l.runs && l.waiting && l.timerArmed && decide (l.cycle < l.timerCmp)).map (fun l =>
      now s + (l.timerCmp.toNat - l.cycle.toNat) * 2 ^ 64 / (2 * 10 ^ 9))
  ++ s.host.ctxs.filterMap (·.nextEvent)

/-- The next known event, if any. -/
def nextEvent (s : State) : Option Nat :=
  match knownEvents s with
  | [] => none
  | t :: r => some (r.foldl min t)

/-- Nanoseconds from now to a time; 0 once it has passed. -/
def nsUntil (t : Nat) (s : State) : Nat := (t - now s) * 10 ^ 9 / 2 ^ 64

/-- The choice of R525: from `limit` down, the first state whose times fit before the next event. -/
def chooseState (d : Option Nat) : Nat → Nat
  | 0 => 1
  | 1 => 1
  | n + 2 =>
    let st := n + 2
    let fits := match d with
      | none => true
      | some d => decide (pwrEntry st + pwrExit st + pwrGuard st ≤ d) && decide (pwrEven st ≤ d)
    if fits then st else chooseState d (n + 1)

/-- The state that the MP chooses now. -/
def powerChoice (s : State) : Nat :=
  let lim := (powerLimit s).1
  let lim := if s.pwr.calNeed = 0 then lim else min lim 2
  chooseState ((nextEvent s).map fun t => nsUntil t s) lim

/-! ### Changing state -/

/-- Time spent in the state being left is accounted (R529). -/
def Pwr.account (tick : Nat) (p : Pwr) : Pwr :=
  { p with spent := modNth p.spent (p.state.toNat - 1) (· + (tick - p.since)), since := tick }

/-- Coarse ticks in units of 0.3125 ns. -/
def dramClock (s : State) : Int := (4 * nowTick s : Nat)

/-- Every rank in service enters self-refresh, or leaves it with its due ticks counted anew (R464, R516). -/
def selfRefresh (on : Bool) (s : State) : State :=
  let t := dramClock s
  modDram (fun d => { d with chans := d.chans.map fun c =>
    if c.online && c.selfRefresh != on then
      { c with selfRefresh := on, ranks := if on then c.ranks else c.ranks.map fun r => { r with lastDue := t } }
    else c }) s

/-- The state becomes another; from DOZE on DRAM is in self-refresh (R516). -/
def setPowerState (st : Nat) (s : State) : State :=
  journalMode (selfRefresh (decide (3 ≤ st)) <| modPwr (fun p => { p.account (nowTick s) with state := BitVec.ofNat 3 st, target := BitVec.ofNat 3 st }) s)

/-- Every pair stops forming words. -/
def stopPairs (s : State) : State := (List.range 4).foldl (fun s n => modPair n (fun p => { p with running := false }) s) s

/-- Index of the first word after the pairs were off: in DOZE the sample index keeps counting; else it goes on from the last (R519,
R520). -/
def nextAfterOff (s : State) : Nat :=
  let last := nextIndex s
  if s.pwr.state = 3 then max last (roundUp (sampleAfter (baseAnchor s) (now s)).1 8) else last

/-- Pairs power up again: the first word carries GAP (R519, R520). -/
def startPairs (next : Nat) (s : State) : State :=
  (List.range 4).foldl (fun s n => modPair n (fun p => { p.powerUp with gap := true, next := next }) s) s

/-- A paused duty-cycled plan is wound down as by PLAN_STOP before Analysis Memory goes; its reservations stay (R521). -/
def windDown (plan : Nat) (s : State) : State :=
  let s1 := stopSurfs plan (finishStreams plan s)
  let s2 := clearSurfs plan (removeStreams plan (drainPlan plan s1))
  modPlan plan (fun p => { p with duty := p.duty.map fun d => { d with fresh := true } }) s2

/-- Entry to SLUMBER or DORMANT (R465, R521): paused plans are wound down, ring-held recorder history outside the retained
segments is copied, and what is retained is recorded. -/
def enterDeep (s : State) : State :=
  let paused := (s.plans.filter fun p => decide (p.phase = .running) && p.duty.any (·.paused)).map (·.id)
  let s1 := paused.foldl (fun s p => windDown p s) s
  let s2 := if s1.fr.frozen then consolidate s1 else s1
  modDram (fun d => { d with retained := BitVec.ofNat 8 d.keeps }) s2

/-- Ring histories start afresh, and captures outside the retained segments are lost (R466). -/
def loseRings (s : State) : State :=
  let s1 := dropCaptures 1 (fun c => captureKept s c) s
  let wipe := fun (r : CapRing) => { r with blks := r.blks.filter (fun b => !b.holders.isEmpty), start := r.next }
  modTrg (fun t => { t with rings := t.rings.map wipe }) s1

/-- An exit starts (R525). From DOZE on the pairs power up; from NAP on the SPLL relocks. -/
def startExit (serves : Option Nat) (s : State) : State :=
  let st := s.pwr.state.toNat
  let s1 := modPwr (fun p =>
    { p with exiting := some ⟨serves⟩, target := p.state, early := if serves.isNone then satInc p.early else p.early }) s
  let s2 := if 3 ≤ st then startPairs (nextAfterOff s1) s1 else s1
  if 4 ≤ st then modTim (fun t => { t with relocking := true, sclkLock := false }) s2 else s2

/-- The MP's choice, taken whenever the limit or the next event may have changed, once Primer has ended (R525). -/
def powerStep (s : State) : State :=
  if s.host.stage ≠ 7 || !s.pwr.mpUp || s.pwr.exiting.isSome then s
  else
    let due := decide (s.pwr.calNeed = 0) && decide (s.pwr.state ≤ 2) && decide (calDue s ≤ now s)
    let s0 := if due then modPwr (fun p => { p with calNeed := 16 }) s else s
    let c := powerChoice s0
    let st := s0.pwr.state.toNat
    if st < c then modPwr (fun p => { p with target := BitVec.ofNat 3 c }) s0
    else if c < st then startExit none s0
    else modPwr (fun p => { p with target := p.state }) s0

/-- The entry under way completes. -/
def entryDone (s : State) : State :=
  let t := s.pwr.target.toNat
  if t ≤ s.pwr.state.toNat || s.pwr.exiting.isSome then s
  else
    let s1 := if 5 ≤ t then enterDeep s else s
    let s2 := if 3 ≤ t then stopPairs s1 else s1
    modPwr (fun p => { p with entries := p.entries + 1 }) (setPowerState t s2)

/-- The scheduled exit starts: at the next known event less the state's exit latency and guard margin. -/
def exitStart (s : State) : State :=
  let st := s.pwr.state.toNat
  match nextEvent s with
  | none => s
  | some t =>
    if st = 1 || s.pwr.exiting.isSome then s
    else
      let lead := (pwrExit st + pwrGuard st) * 2 ^ 64 / 10 ^ 9
      startExit (some t) (advanceToTime (t - lead) s)

/-- Every running pair has formed its first word with VALID = 1, and the SPLL is locked (R518). -/
def pairsReady (s : State) : Bool := !s.tim.relocking && s.adc.pairs.all fun p => !p.running || decide (p.invalidLeft = 0)

/-- The exit under way completes: the device is ACTIVE, and the MP chooses again. An exit later than the event it served is
counted and reported (R525). -/
def exitDone (s : State) : State :=
  match s.pwr.exiting with
  | none => s
  | some e =>
    if !pairsReady s then s
    else
      let left := s.pwr.state.toNat
      let s1 := if 5 ≤ left then loseRings s else s
      let s2 := modPwr (fun p => { p with exiting := none }) (setPowerState 1 s1)
      match e.serves with
      | none => s2
      | some t =>
        if t < now s2 then
          sendAdmin 0x0134 left ((now s2 - t) * 10 ^ 6 / 2 ^ 64) 0 0 (modPwr (fun p => { p with late := satInc p.late }) s2)
        else s2

/-- A Skim block is accepted: calibration is served for CAL_PERIOD_S (R524, R525). -/
def noteBlock (s : State) : State := modPwr (fun p => { p with lastCal := nowTick s, calNeed := p.calNeed - 1 }) s

end Sys2Proof.Machine
end

