-- ==== Sys2Proof/Machine/Lanes.lean ====
section
/-!
DEFINITION. The PCIe lanes and ports: training from the board table, link power states, margining, the eye scan and the pattern
test (R471-R486).
-/

namespace Sys2Proof.Machine

/-- Change the lanes and ports. -/
def modLink (f : Link → Link) (s : State) : State := { s with link := f s.link }

/-- A port. -/
def getPort (p : Nat) (s : State) : Port := nth s.link.ports p Port.reset

/-- Change a port. -/
def modPort (p : Nat) (f : Port → Port) (s : State) : State := modLink (fun l => { l with ports := modNth l.ports p f }) s

/-- A lane, 0-31. -/
def getLane (l : Nat) (s : State) : Lane := nth s.link.lanes l Lane.reset

/-- Change a lane. -/
def modLane (l : Nat) (f : Lane → Lane) (s : State) : State := modLink (fun k => { k with lanes := modNth k.lanes l f }) s

/-- The lanes of a port. -/
def portLanes (p : Nat) : List Nat := rangeFrom (16 * p) 16

/-- Change every lane of a list. -/
def modLanes (ls : List Nat) (f : Nat → Lane → Lane) (s : State) : State := ls.foldl (fun s l => modLane l (f l) s) s

/-! ### The equalisation table (R473-R475) -/

/-- The table entry of a lane at a rate; none below 8.0 GT/s. -/
def eqEntry (l rate : Nat) (s : State) : BitVec 64 := if rate < 3 then 0 else nth s.link.table (3 * l + (rate - 3)) 0

/-- Preset to request of the partner. -/
def eqReq (e : BitVec 64) : Nat := bits e.toNat 37 4

/-- Preset to request when the first is rejected; 15 is none. -/
def eqFallback (e : BitVec 64) : Nat := bits e.toNat 41 4

/-- An entry that R474 calls invalid. -/
def eqInvalid (e : BitVec 64) : Bool :=
  decide (10 < eqReq e) || (decide (10 < eqFallback e) && decide (eqFallback e ≠ 15)) || decide (bits e.toNat 45 19 ≠ 0)

/-- The highest rate that a port advertises for a trained width (R474); before any training all its lanes count. -/
def advertised (p width : Nat) (s : State) : Nat :=
  let lanes := rangeFrom (16 * p) (if width = 0 then 16 else width)
  let ok := fun r => !(lanes.any fun l => eqInvalid (eqEntry l r s))
  if ok 3 then (if ok 4 then (if ok 5 then 5 else 4) else 3) else 2

/-- MAX_RATE follows the table and the trained width. -/
def setMaxRate (p : Nat) (s : State) : State :=
  modPort p (fun x => { x with maxRate := BitVec.ofNat 3 (advertised p x.width.toNat s) }) s

/-- What a partner did with the presets asked of it on a lane during Phase 2, and the preset it gave the device's transmitter. -/
def Lane.train (entry : BitVec 64) (rate : Nat) (t : LaneTraining) (x : Lane) : Lane :=
  let y := { x with
    active := true, cdrLock := true, elecIdle := false, frozen := false, rate := BitVec.ofNat 3 rate, entry := entry
    relocks := if x.cdrLock then x.relocks else satInc x.relocks }
  if rate < 3 then y
  else if !t.reject then
    { y with txPreset := t.txPreset, reqPreset := BitVec.ofNat 4 (eqReq entry), rejected := false, fallback := false }
  else if eqFallback entry = 15 then
    { y with txPreset := t.txPreset, reqPreset := BitVec.ofNat 4 (eqReq entry), rejected := true, fallback := false }
  else
    { y with txPreset := t.txPreset, reqPreset := BitVec.ofNat 4 (eqFallback entry), rejected := t.rejectFallback
             fallback := true }

/-- A lane that receives no symbols: its offsets are frozen (R476). -/
def Lane.idle (x : Lane) : Lane := { x with cdrLock := false, elecIdle := true, frozen := true }

/-! ### The eye scan (R480, R481) -/

/-- Change the eye scan engine. -/
def modScan (f : EyeScan → EyeScan) (s : State) : State := modLink (fun l => { l with scan := f l.scan }) s

/-- A running scan ends early. The bits compared so far, fewer than asked for, and the errors among them depend on the received
signal and on how long the lane was idle: free values. -/
def endScan (fin : Nat) (s : State) : State :=
  if s.link.scan.state ≠ 1 then s
  else
    let (b, s1) := freshValue 48 s
    let (e, s2) := freshValue 48 s1
    let bits := b.toNat % 2 ^ s.link.scan.runDwell.toNat
    modScan (fun x => { x with state := 3, fin := BitVec.ofNat 3 fin, bits := BitVec.ofNat 48 bits
                               errors := BitVec.ofNat 48 (e.toNat % (bits + 1)) }) s2

/-- A running scan on a lane of a list ends early. -/
def endScanOn (lanes : List Nat) (fin : Nat) (s : State) : State :=
  if lanes.contains s.link.scan.runLane.toNat then endScan fin s else s

/-- START is written: a scan of the point begins, or ends at once. -/
def startScan (s : State) : State :=
  let e := s.link.scan
  let x := getLane e.lane.toNat s
  let stop := fun (fin : BitVec 3) => modScan (fun e => { e with state := 3, fin, bits := 0, errors := 0 }) s
  if e.state = 1 then s
  else if !x.active || decide (x.rate.toNat < 3) then stop 6
  else if x.margined then stop 2
  else modScan (fun e => { e with
      state := 1, fin := 0, bits := 0, errors := 0, startTick := nowTick s, runLane := e.lane, runDwell := e.dwell }) s

/-- LNK_ES_CTL is written: fields out of range stay, then ABORT and START act. -/
def writeScanCtl (v : Nat) (s : State) : State :=
  let t := sext 7 (bits v 5 7)
  let u := sext 7 (bits v 12 7)
  let d := bits v 19 6
  let s1 := modScan (fun e => { e with
    lane := BitVec.ofNat 5 v
    toff := if decide (-32 ≤ t) && decide (t ≤ 32) then BitVec.ofNat 7 (bits v 5 7) else e.toff
    voff := if decide (-60 ≤ u) && decide (u ≤ 60) then BitVec.ofNat 7 (bits v 12 7) else e.voff
    dwell := if decide (20 ≤ d) && decide (d ≤ 40) then BitVec.ofNat 6 d else e.dwell }) s
  let s2 := if bit v 26 then endScan 1 s1 else s1
  if bit v 25 then startScan s2 else s2

/-- The scanned point reaches its bits. -/
def scanDone (errors : Nat) (s : State) : State :=
  let e := s.link.scan
  let n := 2 ^ e.runDwell.toNat
  if e.state ≠ 1 || (getLane e.runLane.toNat s).elecIdle then s
  else modScan (fun e => { e with state := 2, bits := BitVec.ofNat 48 n, errors := BitVec.ofNat 48 (min errors n) }) s

/-- A scan not finished 60 s after START ends. -/
def scanTimeout (compared errors : Nat) (s0 : State) : State :=
  if s0.link.scan.state ≠ 1 then s0
  else
    let s := advanceToTick (s0.link.scan.startTick + 60 * tickRate) s0
    let b := min compared (2 ^ s.link.scan.runDwell.toNat - 1)
    modScan (fun e => { e with
      state := 3, fin := 3, bits := BitVec.ofNat 48 b, errors := BitVec.ofNat 48 (min errors b) }) s

/-- A partner's margining command (R479): margining runs on every lane at 16.0 and 32.0 GT/s, and takes the sampler from a scan. -/
def marginLane (l : Nat) (start : Bool) (s : State) : State :=
  let x := getLane l s
  if !x.active || decide (x.rate.toNat < 4) then s
  else
    let s1 := if start then endScanOn [l] 2 s else s
    emit (.margining (l / 16) (l % 16) [⟨0, 1, 32⟩, ⟨1, 1, 60⟩, ⟨2, 1, 16⟩]) (modLane l (fun x => { x with margined := start }) s1)

/-! ### The pattern test (R482-R485) -/

/-- Eighths of a bit that a lane carries in one coarse tick at a rate. -/
def bitsPerTick8 (rate : Nat) : Nat := match rate with | 1 => 25 | 2 => 50 | 3 => 80 | 4 => 160 | 5 => 320 | _ => 0

/-- Bits that pass on a lane between two coarse ticks. -/
def Lane.bitsSince (since tick : Nat) (x : Lane) : Nat := (tick - since) * bitsPerTick8 x.rate.toNat / 8

/-- The generator sends. -/
def Lane.sends (x : Lane) : Bool := x.genEn && decide (x.pattern ≠ 0)

/-- BITS as it reads at a tick. -/
def Lane.bitsNow (tick : Nat) (x : Lane) : Nat :=
  (x.bits.toNat + if x.locked then x.bitsSince x.lockTick tick else 0) % 2 ^ 48

/-- Bits that rate injection has inverted since it began. -/
def Lane.rateInjected (tick : Nat) (x : Lane) : Nat :=
  if x.sends && decide (x.injMode = 3) then x.bitsSince x.injTick tick / 2 ^ x.injLog2.toNat else 0

/-- INJECTED as it reads at a tick. -/
def Lane.injectedNow (tick : Nat) (x : Lane) : Nat := min (x.injected.toNat + x.rateInjected tick) 0x7FFF

/-- The checker stops, with its counts so far and the errors among them. -/
def Lane.unlock (tick errors : Nat) (x : Lane) : Lane :=
  if x.locked then { x with bits := BitVec.ofNat 48 (x.bitsNow tick), errors := satAdd x.errors errors, locked := false } else x

/-- Rate injection is accounted up to a tick. -/
def Lane.account (tick : Nat) (x : Lane) : Lane := { x with injected := BitVec.ofNat 15 (x.injectedNow tick), injTick := tick }

/-- The checker of a lane stops other than by losing lock: its errors since lock are a free value. -/
def stopChecker (l : Nat) (s : State) : State :=
  if (getLane l s).locked then
    let (e, s1) := freshValue 32 s
    modLane l (fun x => x.unlock (nowTick s1) e.toNat) s1
  else s

/-- INJ_GO: one bit or a burst is inverted on a transmitted pattern; an injection in progress makes it ignored. -/
def Lane.inject (tick : Nat) (x : Lane) : Lane :=
  let n := if x.injMode = 1 then 1 else if x.injMode = 2 then x.injLen.toNat + 1 else 0
  if n = 0 || !x.sends || decide (tick < x.injUntil) then x
  else { x with injected := satAdd x.injected n, injUntil := tick + cdiv (8 * n) (bitsPerTick8 x.rate.toNat) }

/-- CLEAR clears BITS, ERRORS, RELOCKS and INJECTED. -/
def Lane.clearCounts (tick : Nat) (x : Lane) : Lane :=
  { x with bits := 0, errors := 0, prbsRelocks := 0, injected := 0, lockTick := tick, injTick := tick }

/-- LNK_LN_PRBS_CFG takes a written value: its fields, then CLEAR and INJ_GO. -/
def configureLane (tick v : Nat) (x : Lane) : Lane :=
  let lg := bits v 13 6
  let y := { x with
    pattern := if bits v 0 3 < 6 then BitVec.ofNat 3 v else x.pattern, genEn := bit v 3, chkEn := bit v 4
    injMode := BitVec.ofNat 2 (bits v 5 2), injLen := BitVec.ofNat 6 (bits v 7 6)
    injLog2 := if decide (10 ≤ lg) && decide (lg ≤ 40) then BitVec.ofNat 6 lg else x.injLog2 }
  let z := if bit v 20 then y.clearCounts tick else y
  if bit v 19 then z.inject tick else z

/-- The pattern registers of a lane take writes: its port is in TEST, and the lane within the trained width. -/
def testLane (l : Nat) (s : State) : Bool := (getPort (l / 16) s).test && (getLane l s).active

/-- LNK_LN_PRBS_CFG is written. A checker switched off or set to another pattern stops. -/
def writePrbsCfg (l v : Nat) (s : State) : State :=
  if !testLane l s then s
  else
    let x := getLane l s
    let stops := !bit v 4 || (decide (bits v 0 3 < 6) && decide (bits v 0 3 ≠ x.pattern.toNat))
    let s1 := if stops then stopChecker l s else s
    let t := nowTick s1
    modLane l (fun x => configureLane t v (x.account t)) s1

/-- The checker of a lane locks after 64 error-free bits. -/
def checkerLock (l : Nat) (s : State) : State :=
  let x := getLane l s
  if testLane l s && x.chkEn && decide (x.pattern ≠ 0) && !x.locked then
    modLane l (fun x => { x with locked := true, lockTick := nowTick s }) s
  else s

/-- A locked checker drops lock. -/
def checkerLost (l errors : Nat) (s : State) : State :=
  if testLane l s && (getLane l s).locked then
    modLane l (fun x => { x.unlock (nowTick s) errors with prbsRelocks := satInc x.prbsRelocks }) s
  else s

/-! ### The link -/

/-- SPDM sessions and IDE streams of a port end with its link (R494). -/
def endSessions (p : Nat) (s : State) : State :=
  { s with trust := { s.trust with
      sessions := s.trust.sessions.filter fun x => decide (x.port ≠ p)
      ide := s.trust.ide.filter fun x => decide (x.port ≠ p)
      nego := s.trust.nego.filter fun x => decide (x.1 ≠ p) } }

/-- A port's link goes down: its sessions end, a scan on one of its lanes ends, and its contexts are torn down with a cause. -/
def linkDown (p cause : Nat) (s : State) : State :=
  let s1 := endScanOn (portLanes p) 4 s
  let s2 := modLanes (portLanes p) (fun _ x => { x.idle with active := false, rate := 0, entry := 0, margined := false }) s1
  let s3 := modPort p (fun x => { x with
    linkUp := false, rate := 0, width := 0, state := 0, txL0s := false, rxL0s := false, l1Sub := 0 }) s2
  tearPort p cause (endSessions p s3)

/-- A port trains or retrains (R475), once Primer stage 2 has put it in Detect (R530). `recoveries` counts its entries to Recovery on
the way. -/
def trainLink (p rate width recoveries : Nat) (ls : List LaneTraining) (s : State) : State :=
  let x := getPort p s
  if p ≥ 2 || decide (s.host.stage.toNat < 3) || x.test || x.perst || !x.refOk || rate = 0 || !([4, 8, 16].contains width) || decide (advertised p width s < rate)
      || (x.linkUp && decide (x.width.toNat ≠ width)) then s
  else
    let lanes := rangeFrom (16 * p) width
    let s1 := if x.linkUp && decide (x.rate.toNat ≠ rate) then endScanOn (portLanes p) 5 s else s
    let s2 := modLanes lanes (fun l => Lane.train (eqEntry l rate s) rate (nth ls (l % 16) ⟨0, false, false⟩)) s1
    setMaxRate p (modPort p (fun x => { x with
      linkUp := true, rate := BitVec.ofNat 3 rate, width := BitVec.ofNat 5 width, state := 3, txL0s := false, rxL0s := false
      l1Sub := 0, recoveries := satAdd x.recoveries recoveries }) s2)

/-- The transmitter of a port enters L0s after its idle time (R477). -/
def enterL0s (p : Nat) (s : State) : State :=
  let x := getPort p s
  if x.linkUp && decide (x.state = 3 ∨ x.state = 5) && decide (x.l0sIdle ≠ 0) then
    modPort p (fun x => { x with state := 5, txL0s := true }) s
  else s

/-- The receiver of a port follows its partner into L0s. -/
def followL0s (p : Nat) (s : State) : State :=
  let x := getPort p s
  if x.linkUp && decide (x.state = 3 ∨ x.state = 5) then
    modLanes (rangeFrom (16 * p) x.width.toNat) (fun _ => Lane.idle) (modPort p (fun x => { x with state := 5, rxL0s := true }) s)
  else s

/-- A port has a non-zero reserved egress rate (R427, R478). -/
def portReserved (p : Nat) (s : State) : Bool :=
  let r := portRates (reservedPlans s) s
  decide ((if p = 0 then r.1 else r.2) ≠ 0)

/-- The device initiates ASPM L1 on a port (R477, R478). -/
def enterL1 (p sub : Nat) (s : State) : State :=
  let x := getPort p s
  if x.linkUp && decide (x.state = 3 ∨ x.state = 5) && decide (x.l1Idle ≠ 0) && !portReserved p s then
    modLanes (rangeFrom (16 * p) x.width.toNat) (fun _ => Lane.idle)
      (modPort p (fun x => { x with
        state := 6, l1Sub := BitVec.ofNat 2 (min sub 2), txL0s := false, rxL0s := false, l1Entries := satInc x.l1Entries }) s)
  else s

/-- A lane leaves electrical idle: its CDR relocks (R476). The first lane to leave L1 takes the port through Recovery to L0. -/
def leaveIdle (l : Nat) (s : State) : State :=
  let p := l / 16
  if !(getLane l s).active || !(getLane l s).elecIdle then s
  else
    let s1 := modLane l (fun x => { x with cdrLock := true, elecIdle := false, frozen := false, relocks := satInc x.relocks }) s
    let idle := (portLanes p).any fun k => (getLane k s1).active && (getLane k s1).elecIdle
    modPort p (fun x =>
      if x.state = 6 then { x with state := 3, l1Sub := 0, recoveries := satInc x.recoveries }
      else if x.state = 5 && !idle then { x with rxL0s := false, state := if x.txL0s then 5 else 3 } else x) s1

/-- A port's reference is absent for 10 µs (R472); in L1.2 it may stop. -/
def portClockLoss (p : Nat) (s : State) : State :=
  let x := getPort p s
  let s1 := modPort p (fun x => { x with refOk := false }) s
  if x.linkUp && !(decide (x.state = 6) && decide (x.l1Sub = 2)) then linkDown p 4 s1 else s1

/-- TEST of a port ends: its checkers and generators stop, and it is in Detect. -/
def leaveTest (p : Nat) (s : State) : State :=
  if !(getPort p s).test then s
  else
    let s1 := (portLanes p).foldl (fun s l => stopChecker l s) (endScanOn (portLanes p) 4 s)
    let t := nowTick s1
    let s2 := modLanes (portLanes p)
      (fun _ x => { (x.account t).idle with active := false, rate := 0, entry := 0, genEn := false, chkEn := false }) s1
    modPort p (fun x => { x with test := false, rate := 0, width := 0, state := 0 }) s2

/-- LANE_TEST enters TEST (R482). -/
def beginLaneTestEnter (c sid : Nat) (d : Desc) (s : State) : State :=
  let p := d.f 0x11 1 - 1
  let rate := d.f 0x20 8
  let width := (getPort p s).width.toNat
  if advertised p width s < rate then completeDesc c sid .fieldRange 0 (layoutResult false 0x20) s
  else if (getCtx 0 s).any fun x => decide (fnPort x.fn = p) then busy c sid 13 s
  else
    let lanes := rangeFrom (16 * p) width
    let s1 := if (getPort p s).test then endScanOn (portLanes p) 5 (lanes.foldl (fun s l => stopChecker l s) s) else linkDown p 4 s
    let t := nowTick s1
    let s2 := modLanes lanes (fun l x => { x.account t with
      active := true, cdrLock := true, elecIdle := false, frozen := false, rate := BitVec.ofNat 3 rate, entry := eqEntry l rate s1 }) s1
    completeDesc c sid .success 0 0 (modPort p (fun x => { x with
      test := true, state := 11, linkUp := false, rate := BitVec.ofNat 3 rate, width := BitVec.ofNat 5 width }) s2)

/-- LANE_TEST leaves TEST (R482). -/
def beginLaneTestExit (c sid : Nat) (d : Desc) (s : State) : State :=
  completeDesc c sid .success 0 0 (leaveTest (d.f 0x11 1 - 1) s)

end Sys2Proof.Machine
end

