-- ==== Sys2Proof/Machine/Pump.lean ====
section
/-!
DEFINITION. Descriptors from posting to completion: fetching, acceptance, beginning, fences and waits, and what settles after
every command (R382, R383, R404-R410).
-/

namespace Sys2Proof.Machine

/-- PLAN_STOP begins (R410, R415). -/
def beginPlanStop (c sid : Nat) (d : Desc) (s : State) : State :=
  match ownPlan c (d.f 0x10 4) s with
  | none => failDesc c sid .planUnknown s
  | some p =>
    match p.phase with
    | .created | .stopping => failDesc c sid .planNotRunning s
    | .waiting => completeDesc c sid .success 0 0 (dropWaiting p.id .superseded 0 s)
    | .running => stopPlan p.id (some (c, sid)) s

/-- PLAN_DESTROY begins (R415). -/
def beginPlanDestroy (c sid : Nat) (d : Desc) (s : State) : State :=
  match ownPlan c (d.f 0x10 4) s with
  | none => failDesc c sid .planUnknown s
  | some p => completeDesc c sid .success 0 0 (destroyPlan p.id true s)

/-- Every stream of a context's rings with the seq of its next record: what a RECORDS fence waits for (R408). -/
def fenceMarks (c : Nat) (s : State) : List (Nat × Nat) := (ctxStreams c s).filterMap fun i => (getStream i s).map fun st => (i, st.seq)

/-- FENCE begins (R408). -/
def beginFence (c sid : Nat) (d : Desc) (s : State) : State :=
  if bit (d.f 0x10 1) 0 then
    let m := fenceMarks c s
    modCtx c (fun x => { x with acc := mapIf (fun a => decide (a.sid = sid)) (fun a => { a with marks := m }) x.acc }) s
  else completeDesc c sid .success 0 0 s

/-- A position of a stream is passed: every record formed before it has been written, or dropped and named by a GAP that has been
written. -/
def markPassed (s : State) (m : Nat × Nat) : Bool :=
  match getStream m.1 s with
  | none => true
  | some st =>
    (st.waiting.all fun w => decide (m.2 ≤ w.seq) && !(decide (w.recType = 2) && decide (fldAt w.payload 0x40 < m.2)))
      && st.drops.all fun r => decide (m.2 ≤ r.first)

/-- What a descriptor does when it begins, its checks 7 to 13 included (R405). -/
def beginOp (c sid : Nat) (d : Desc) (s : State) : State :=
  match d.op with
  | .noop => completeDesc c sid .success 0 0 s
  | .fence => beginFence c sid d s
  | .timeWait => s
  | .modeSet => beginModeSet c sid d s
  | .contextCreate => beginContextCreate c sid d s
  | .contextDestroy => beginContextDestroy c sid d s
  | .ringCreate => beginRingCreate c sid d s
  | .ringDestroy => beginRingDestroy c sid d s
  | .planCreate => beginPlanCreate c sid d s
  | .planStart => beginPlanStart c sid d s
  | .planStop => beginPlanStop c sid d s
  | .planDestroy => beginPlanDestroy c sid d s
  | .windowTable => beginWindowTable c sid d s
  | .windowDrop => beginWindowDrop c sid d s
  | .windowReconfigure => beginReconfigure c sid d s
  | .maskLoad => beginMaskLoad c sid d s
  | .maskDrop => beginMaskDrop c sid d s
  | .triggerArm => beginArming c sid d armAgain s
  | .triggerDisarm => beginArming c sid d disarmUnit s
  | .captureReadSegments => beginCaptureSegments c sid d s
  | .captureReadWords => beginCaptureWords c sid d s
  | .captureRelease => beginCaptureRelease c sid d s
  | .spuLoad => beginSpuLoad c sid d s
  | .spuLaunch => beginSpuLaunch c sid d s
  | .spuSignal => beginSpuSignal c sid d s
  | .spuStop => beginSpuStop c sid d s
  | .streamOpenRing => beginStreamOpen c sid false d s
  | .streamOpenDisk => beginStreamOpen c sid true d s
  | .streamClose => beginStreamClose c sid d s
  | .diskBind => beginDiskBind c sid d s
  | .diskUnbind => beginDiskUnbind c sid d s
  | .displayOutput => beginDisplayOutput c sid d s
  | .displayLayer => beginDisplayLayer c sid d s
  | .displayLutLoad => beginLutLoad c sid d s
  | .panelCmd => beginPanelCmd c sid d s
  | .layerOff => beginLayerOff c sid d s
  | .outputOff => beginOutputOff c sid d s
  | .displayFlip => beginFlip c sid d s
  | .tdcEnable => beginTdcEnable c sid d s
  | .tdcRelease => beginTdcRelease c sid d s
  | .tdcGateInterval => beginTdcGate c sid true d s
  | .tdcGateFrequency => beginTdcGate c sid false d s
  | .calSetMode => beginCalSetMode c sid d s
  | .calManualLoad => beginCalManualLoad c sid d s
  | .calFence => beginCalFence c sid d s
  | .calRampLength => beginCalRampLength c sid d s
  | .runForeground => beginRunForeground c sid d s
  | .tableReset => beginTableReset c sid d s
  | .setTimePps => beginSetTimePps c sid d s
  | .setTimeImmediate => beginSetTimeImmediate c sid d s
  | .powerHintCap => beginHintCap c sid d s
  | .powerHintNextEvent => beginHintNextEvent c sid d s
  | .powerHintUncap => beginHintUncap c sid s
  | .flightRead => beginFlightRead c sid d s
  | .replayLoadHost => beginReplayHost c sid d s
  | .replayLoadFlight => beginReplayFlight c sid s
  | .replayUnload => beginReplayUnload c sid s
  | .attestBind => beginAttestBind c sid d s
  | .selftest => beginSelftest c sid d s
  | .clearRetirement => beginClearRetirement c sid s
  | .laneTestEnter => beginLaneTestEnter c sid d s
  | .laneTestExit => beginLaneTestExit c sid d s
  | .dramTest => completeTest c sid s
  | .bad _ => failDesc c sid .badOpcode s

/-- A descriptor begins (R405, R407). -/
def beginDesc (c : Nat) (a : Acc) (s : State) : State :=
  let s1 := modCtx c (fun x => { x with acc := mapIf (fun b => decide (b.sid = a.sid)) (fun b => { b with begun := true }) x.acc }) s
  if runsUncalibrated a.desc.op || s.host.calReady then beginOp c a.sid a.desc s1 else failDesc c a.sid .notReady s1

/-- Descriptors that may begin now begin, context by context and in ring order. -/
def beginReady (s : State) : State :=
  s.host.ctxs.foldl (fun s x =>
    x.acc.foldl (fun s a =>
      match getCtx x.num s, findAcc x.num a.sid s with
      | some y, some b => if beginsNow y b s then beginDesc x.num b s else s
      | _, _ => s) s) s

/-- Journal body of an accepted descriptor (R543): its context, then its 64 bytes. -/
def descFields (c : Nat) (d : Desc) : List Fld :=
  [⟨0x10, 2, c⟩, ⟨0x18, 1, opcodeOf d.op⟩, ⟨0x19, 7, d.sub.resv.toNat⟩, ⟨0x20, 8, d.sub.tag.toNat⟩, ⟨0x28, 48, d.sub.body.toNat⟩]

/-- Entries of a context that may be fetched now (R382, R383). -/
def Ctx.fetches (x : Ctx) : Bool :=
  decide (x.state = .live) && decide (x.cmdHead ≠ x.cmdTail) && x.held.isEmpty && decide (x.acc.length < 256)

/-- Fetch and accept descriptors of a context while it may; `n` bounds their number. A descriptor that fails checks 1-6 completes
at once. -/
def fetchCtx (c : Nat) : Nat → State → State
  | 0, s => s
  | n + 1, s =>
    match getCtx c s with
    | none => s
    | some x =>
      match x.posted with
      | [] => s
      | d :: rest =>
        if !x.fetches then s
        else
          let a : Acc := { sid := x.nextSid, index := x.cmdHead, desc := d, begun := false, marks := [], onWritten := none }
          let s1 := modCtx c (fun x => { x with
            posted := rest, cmdHead := (x.cmdHead + 1) % 2 ^ x.cmdLog2, nextSid := x.nextSid + 1, acc := x.acc ++ [a] }) s
          let s2 := journal 1 (descFields c d) 72 s1
          match acceptCheck d x s with
          | none => fetchCtx c n s2
          | some (st, r1) => fetchCtx c n (completeDesc c a.sid st 0 r1 s2)

/-- Every context fetches. -/
def fetchAll (s : State) : State := s.host.ctxs.foldl (fun s x => fetchCtx x.num x.posted.length s) s

/-- Records of a descriptor still wait for credit. -/
def recordsWait (c sid : Nat) (s : State) : Bool := s.host.streams.any fun st => st.waiting.any fun w => decide (w.owner = some (c, sid))

/-- A begun descriptor that has nothing left to wait for completes. -/
def finishAcc (c : Nat) (a : Acc) (s : State) : State :=
  if !a.begun then s
  else
    match a.desc.op, a.onWritten with
    | .fence, _ => if a.marks.all (markPassed s) then completeDesc c a.sid .success 0 0 s else s
    | .timeWait, _ => if a.desc.f 0x20 16 ≤ now s then completeDesc c a.sid .success (timeMid (now s)) 0 s else s
    | op, some (r0, r1) =>
      if recordsWait c a.sid s then s
      else completeDesc c a.sid .success r0 r1 (if op = .ringDestroy then freeRing c (a.desc.f 0x10 1) s else s)
    | _, none => s

/-- Every descriptor whose wait has ended completes. -/
def finishAll (s : State) : State :=
  s.host.ctxs.foldl (fun s x =>
    x.acc.foldl (fun s a => match findAcc x.num a.sid s with | some b => finishAcc x.num b s | none => s) s) s

/-- One round of what settles after a command. -/
def settleRound (s : State) : State :=
  let s1 := finishAll (beginReady (fetchAll (powerStep s)))
  let s2 := (s1.trg.masks.filter (·.newer.isSome)).foldl (fun s m => settleMask m.ctx m.handle s) s1
  let s3 := stepCloses s2
  let s4 := (s3.disk.bindings.map (·.slot)).foldl (fun s n => stepUnbind n s) s3
  decideHeld s4

/-- Rounds of settling. -/
def settleN : Nat → State → State
  | 0, s => s
  | n + 1, s => settleN n (settleRound s)

/-- What follows every command: descriptors are fetched, begin and complete, images and exports move on, until nothing more does. -/
def settle (s : State) : State := settleN (4 + sumBy (fun x => x.posted.length + x.acc.length) s.host.ctxs) s

/-- Software posts a descriptor in its context's command ring, with the host blocks it names. -/
def submitDesc (op : DescOp) (d : Sub) (reads : List HostRead) (s : State) : State :=
  settle (modCtx d.ctx.toNat (fun x => if x.state = .live then { x with posted := x.posted ++ [⟨op, d, reads⟩] } else x) s)

/-- Begun TIME_WAITs. -/
def timeWaits (s : State) : List Nat :=
  (s.host.ctxs.map fun x => (x.acc.filter fun a => a.begun && decide (a.desc.op = .timeWait)).map fun a => a.desc.f 0x20 16).flatten

/-- Device time reaches the earliest pending wait_time. -/
def releaseTimeWait (s : State) : State :=
  match timeWaits s with
  | [] => s
  | t :: r => settle (advanceToTime (r.foldl min t) s)

end Sys2Proof.Machine
end

