-- ==== Sys2Proof/Machine/DramCtl.lean ====
section
/-!
DEFINITION. The capture memory controller: refresh and its multiplier, training, patrol scrub, neighbour refresh, and the loss of a
channel (R447, R449, R454-R463).
-/

namespace Sys2Proof.Machine

/-! Times of ranks are in units of 0.3125 ns. -/

/-- The interval T of a rank: 3,906.25 ns / m (R456). -/
def Rank.interval (r : Rank) : Int := (50000 / 2 ^ r.mult.toNat : Nat)

/-- A rank. -/
def getRank (ch k : Nat) (s : State) : Rank := nth (getChan ch s).ranks k Rank.reset

/-- Change a rank. -/
def modRank (ch k : Nat) (f : Rank → Rank) (s : State) : State := modChan ch (fun c => { c with ranks := modNth c.ranks k f }) s

/-- A channel that refreshes its ranks: in service and not in self-refresh, with such a rank. -/
def refreshes (ch k : Nat) (s : State) : Bool :=
  decide (ch < s.dram.chans.length) && (getChan ch s).online && !(getChan ch s).selfRefresh && decide (k < (getChan ch s).ranks.length)

/-- `n` refreshes repay the oldest owed ticks; D stays at or above -8. -/
def Rank.refresh (n : Nat) (r : Rank) : Rank := { r with debt := max (r.debt - n) (-8), owed := r.owed.drop n }

/-- Refreshes are issued to a rank. -/
def issueRefresh (ch k n : Nat) (s : State) : State :=
  if n = 0 then s else emit (.refresh ch k n) (modRank ch k (Rank.refresh n) s)

/-- An urgent burst repays what is owed, at most 8 refreshes (R457). -/
def urgentBurst (ch k : Nat) (s : State) : State :=
  modChan ch (fun c => { c with bursts := satInc c.bursts }) (issueRefresh ch k (min (getRank ch k s).owed.length 8) s)

/-- The moment at which an urgent burst of a rank must begin, if it owes a tick: deadline of the oldest less D tRFCab and 100 ns. -/
def urgentAt (ch k : Nat) (s : State) : Option Int :=
  let r := getRank ch k s
  r.owed.head?.map fun t => t + 8 * r.interval - r.debt * (s.dram.geom.trfcNs * 16 / 5 : Nat) - 320

/-- A rank's multiplier after an MR4 read (R458): owed ticks whose new deadline has passed are repaid at once and reported. -/
def applyMr4 (ch k : Nat) (v : BitVec 8) (s : State) : State :=
  let asked := (Config.mr4Rate v).toNat
  let code := min asked 4
  let s0 := modRank ch k (fun r => { r with mr4 := v }) s
  let s1 := if 4 < asked then sendAdmin 0x0115 ch v.toNat 0 k s0 else s0
  if (getRank ch k s1).mult.toNat = code then s1
  else
    let s2 := modRank ch k (fun r => { r with mult := BitVec.ofNat 3 code }) s1
    let r := getRank ch k s2
    let late := (r.owed.filter fun t => decide (t + 8 * r.interval ≤ dramClock s2)).length
    if late = 0 then s2
    else
      let s3 := modChan ch (fun c => { c with bursts := satInc c.bursts, late := satAdd c.late late }) (issueRefresh ch k late s2)
      sendAdmin 0x0113 ch late code k s3

/-- A rank's due tick (R456, R457). Bursts that fell due since the last tick come first; then D counts the tick, and the refresh is
part of an urgent burst, postponed after an MR4 read, or issued. -/
def refreshDue (ch k : Nat) (writer : Bool) (mr4 : BitVec 8) (s0 : State) : State :=
  if !refreshes ch k s0 then s0
  else
    let due := (getRank ch k s0).lastDue + (getRank ch k s0).interval
    let s1 := match urgentAt ch k s0 with
      | some t => if t < due then urgentBurst ch k s0 else s0
      | none => s0
    let s2 := advanceToTick (cdiv due.toNat 4) s1
    let s3 := modRank ch k (fun r => { r with
      lastDue := due, debt := min (r.debt + 1) 8, owed := if 0 ≤ r.debt then r.owed ++ [due] else r.owed }) s2
    let urgent := match urgentAt ch k s3 with | some t => decide (t ≤ due) | none => false
    if urgent then urgentBurst ch k s3
    else if writer then applyMr4 ch k mr4 (modChan ch (fun c => { c with postponed := satInc c.postponed }) s3)
    else if -8 < (getRank ch k s3).debt then issueRefresh ch k 1 s3
    else s3

/-- A channel idle for 1 µs issues up to `n` refreshes to each rank, until D is -8 (R457). -/
def idleRefresh (ch n : Nat) (s : State) : State :=
  (List.range (getChan ch s).ranks.length).foldl (fun s k =>
    if refreshes ch k s then issueRefresh ch k (min n ((getRank ch k s).debt + 8).toNat) s else s) s

/-- MR4 is read on every rank of every channel in service (R457). -/
def pollMr4 (s : State) : State :=
  (List.range s.dram.chans.length).foldl (fun s ch =>
    (List.range (getChan ch s).ranks.length).foldl (fun s k => if refreshes ch k s then emit (.mr4Read ch k) s else s) s) s

/-! ### Channel loss (R454, R455) -/

/-- A channel fails: it is logged, and a rebuild over the others begins. -/
def failChannel (ch cause : Nat) (s : State) : State :=
  if !(getChan ch s).online || (getChan ch s).failed.isSome then s
  else beginRebuild (lostBegins 2 (dramLog 5 0 none ch 0xFF 1 (modChan ch (fun c => { c with failed := some cause }) s)))

/-- The failed channels leave service at the repartition step, and the map is rebuilt over the others (R455). -/
def retireChannels (s : State) : State :=
  let bad := (List.range s.dram.chans.length).filterMap fun n => (getChan n s).failed.map fun c => (n, c)
  if bad.isEmpty then s
  else
    let s1 := bad.foldl (fun s b => modChan b.1 (fun c => { c with online := false, failed := none }) s) s
    let s2 := rebuildMemory s1
    bad.foldl (fun s b => sendAll 0x0111 b.1 b.2 s.dram.inService.length 0 s) s2

/-- A command fails parity (R454): it is issued again, and a second error on the same command takes the channel out of service. -/
def parityError (ch : Nat) (again : Bool) (s : State) : State :=
  if decide (ch ≥ s.dram.chans.length) || !(getChan ch s).online then s
  else
    let n := (getChan ch s).parity
    let s1 := dramLog 4 0 none ch 0xFF 1
      (modChan ch (fun c => { c with cmdParity := satInc c.cmdParity, parity := if again then c.parity + 1 else 1 }) s)
    if again && decide (0 < n) then failChannel ch 1 s1 else s1

/-- A tracking pause of a channel falls due, or takes place on a refresh with what it finds: write link errors that the die counted,
drift beyond the tracking range, and whether the full retrain that it starts fails (R448, R463). -/
def trackWck (ch : Nat) (atRefresh : Bool) (errors : Nat) (drift fails : Bool) (s : State) : State :=
  if !refreshes ch 0 s then s
  else if !atRefresh then modChan ch (fun c => { c with trackDue := true }) s
  else
    let s1 := modChan ch (fun c => { c with trackDue := false, linkCorr := satAdd c.linkCorr errors }) s
    if !drift then s1
    else
      let s2 := dramLog 6 0 none ch 0xFF 1 (modChan ch (fun c => { c with retrains := satInc c.retrains }) s1)
      if fails then failChannel ch 2 s2 else s2

/-! ### Patrol scrub and neighbour refresh (R447, R449, R461) -/

/-- A codeword's symbol was corrected: counted, and logged at most once per channel per millisecond. -/
def noteCorrected (consumer addr symbol : Nat) (s : State) : State :=
  let ch := (s.dram.place addr).ch
  let ms := nowTick s / 800000
  let s1 := modChan ch (fun c => { c with corrected := satInc c.corrected }) s
  if (getChan ch s1).lastLogged = some ms then modDram (fun d => { d with suppressed := satInc d.suppressed }) s1
  else dramLog 1 consumer (some addr) ch symbol 1 (modChan ch (fun c => { c with lastLogged := some ms }) s1)

/-- Patrol scrub reads a codeword (R449) and finds it clean, one symbol wrong, or more. A poisoned codeword is uncorrectable. -/
def patrolScrub (codeword : Nat) (found : ScrubResult) (s : State) : State :=
  let a := codeword * 128
  if s.dram.dataSpace < a + 128 then s
  else if s.dram.poison.contains codeword then dramUncorrectable 9 none a 128 s
  else
    match found with
    | .clean => s
    | .symbol n => noteCorrected 9 a n s
    | .uncorrectable => dramUncorrectable 9 none a 128 (modDram (Dram.addPoison codeword) s)

/-- An activate draws a neighbour refresh of its row: queued, at most 4 per bank; a fifth is merged into the oldest entry. -/
def queueNeighbour (ch rank bank row : Nat) (s : State) : State :=
  if !s.dram.nbrEn || !refreshes ch rank s then s
  else
    let here := fun (q : Nat × Nat × Nat) => decide (q.1 = rank) && decide (q.2.1 = bank)
    modChan ch (fun c => if ((c.queue.filter here).length) < 4 then { c with queue := c.queue ++ [(rank, bank, row)] } else c) s

/-- The oldest queued neighbour refresh of a bank activates the physical rows on either side that exist. -/
def serveNeighbour (ch rank bank : Nat) (s : State) : State :=
  match (getChan ch s).queue.find? fun q => decide (q.1 = rank) && decide (q.2.1 = bank) with
  | none => s
  | some q =>
    if !refreshes ch rank s then s
    else
      let p := s.dram.geom.physical q.2.2
      let rows := ((if p = 0 then [] else [p - 1]) ++ [p + 1]).filter fun r => decide (r < s.dram.rows)
      emit (.neighbour ch rows)
        (modChan ch (fun c => { c with queue := c.queue.erase q, neighbour := satAdd c.neighbour rows.length }) s)

/-! ### The commands -/

/-- REFRESH_DUE (R456). -/
def execRefreshDue (ch : BitVec 4) (rank : BitVec 1) (writer : Bool) (mr4 : BitVec 8) (s : State) : Host.Outcome State Fault Refusal :=
  .next (refreshDue ch.toNat rank.toNat writer mr4 s)

/-- REFRESH_IDLE_PULLIN (R457). -/
def execRefreshIdlePullin (ch : BitVec 4) (count : Nat) (s : State) : Host.Outcome State Fault Refusal :=
  .next (idleRefresh ch.toNat count s)

/-- MR4_POLL (R457). -/
def execMr4Poll (s : State) : Host.Outcome State Fault Refusal := .next (pollMr4 s)

/-- MR4_RESULT (R458). -/
def execMr4Result (ch : BitVec 4) (rank : BitVec 1) (mr4 : BitVec 8) (s : State) : Host.Outcome State Fault Refusal :=
  .next (if refreshes ch.toNat rank.toNat s then applyMr4 ch.toNat rank.toNat mr4 s else s)

/-- PATROL_SCRUB (R449). -/
def execPatrolScrub (codeword : Nat) (found : ScrubResult) (s : State) : Host.Outcome State Fault Refusal :=
  .next (patrolScrub codeword found s)

/-- WCK_TRACKING (R463). -/
def execWckTracking (ch : BitVec 4) (atRefresh : Bool) (errors : BitVec 16) (drift fails : Bool) (s : State) :
    Host.Outcome State Fault Refusal := .next (settle (trackWck ch.toNat atRefresh errors.toNat drift fails s))

/-- COMMAND_PARITY_ERROR (R454). -/
def execCommandParityError (ch : BitVec 4) (again : Bool) (s : State) : Host.Outcome State Fault Refusal :=
  .next (settle (parityError ch.toNat again s))

/-- NEIGHBOUR_REFRESH (R461). -/
def execNeighbourRefresh (ch : BitVec 4) (rank : BitVec 1) (bank : BitVec 4) (draw : Option (BitVec 17)) (s : State) :
    Host.Outcome State Fault Refusal :=
  .next (match draw with
    | some row => queueNeighbour ch.toNat rank.toNat bank.toNat row.toNat s
    | none => serveNeighbour ch.toNat rank.toNat bank.toNat s)

end Sys2Proof.Machine
end

