-- ==== Sys2Proof/Machine/Words.lean ====
section
/-!
DEFINITION. A word on its way: formed by a pair, tagged, corrected and counted, and taken by triggers, streams, zoom chains, capture
rings, exports and the flight recorder (R19, R22, R23, R63, R92-R102, R106, R124-R137, R177, R241, R420, R459, R542).
-/

namespace Sys2Proof.Machine

/-! ### Where a word goes -/

/-- Plans that take a word of pair n. -/
def takers (n index : Nat) (s : State) : List Nat :=
  (s.plans.filter fun p => p.takes s && p.holdsPair n && decide (p.startIndex ≤ index)).map (·.id)

/-- A word of pair n reaches a plan's transform stream on XE n; GAP restarts its grid first (R177). -/
def streamWord (n : Nat) (w : HWord) (plan : Nat) (s : State) : State :=
  match engineStream plan n s with
  | none => s
  | some x => pushPair n w plan (if w.has tagGap then gapStream plan x.idx w.index s else s)

/-- A word of pair n reaches a front unit; GAP restarts its chain and the XEZ streams behind it (R168, R177). -/
def zoomInput (u : Nat) (w : HWord) (s : State) : State :=
  let gapAll := fun (s : State) => (streamsOfFront u s).foldl (fun s x => gapStream x.plan x.idx (getSlot x.slot s).m s) s
  frontWord u w (if w.has tagGap then gapAll s else s)

/-- The words lost in an overflow episode of the absorb buffer are reported when a word finds room again (R459). -/
def endEpisode (s : State) : State :=
  match s.dram.episode with
  | none => s
  | some k =>
    let owners := (0 :: (s.trg.rings.filter (·.writing)).flatMap (fun r =>
      (s.plans.filter fun p => decide (p.phase = .running) && (p.kindSubs 7).any fun b => decide (b.f 0x08 1 = r.source) && (decide (r.r < 4) || decide (r.plan = p.id))).map (·.ctx))).eraseDups
    let s1 := dramLog 8 0 none 0 0xFF k (modDram (fun d => { d with episode := none }) s)
    freezeRecorder 3 (owners.foldl (fun s c => sendEvent c 0x0114 0 k 0 0 s) s1)

/-- The absorb buffer is full: the word is not written. -/
def absorbLost (s : State) : State :=
  modDram (fun d => { d with lostWords := satInc d.lostWords, peakKb := 16384, episode := some (d.episode.getD 0 + 1) }) s

/-- The capture writer takes a word of pair n for its ring, or else for the recorder's share (R23, R241, R542). -/
def writeWord (n : Nat) (w : HWord) (full : Bool) (s : State) : State :=
  let ring := (getCap n s).any (·.writing)
  if !ring && s.fr.frozen then s
  else if full then absorbLost s
  else
    let s1 := endEpisode s
    if ring then captureWord n w.index w s1
    else modFr (fun r => { r with shares := modNth r.shares n fun l => (w :: l).take (shareBytes s1 / 16) }) s1

/-- A word of pair n is taken by the plans (R24). -/
def takeWord (n : Nat) (w : HWord) (s : State) : State :=
  let ids := takers n w.index s
  let s1 := ids.foldl (fun s p => streamWord n w p (modPlan p (fun q => { q with lastTag := some w.index }) s)) s
  let s2 := ((frontsOfPair n s1).filter fun u => (getFront u s1).plan.any ids.contains).foldl (fun s u => zoomInput u w s) s1
  trigWord n w (ids.foldl (fun s p => exportWord p n w s) s2)

/-- A live word of pair n leaves the crossing: in REPLAY it reaches the recorder alone. -/
def deliverWord (n : Nat) (w0 : HWord) (full : Bool) (s : State) : State :=
  if replaying s then writeWord n w0 full s
  else
    let (s1, w) := trigStage n w0 s
    takeWord n w (writeWord n w full s1)

/-! ### Forming a word -/

/-- The Hedge attenuator of the input that a pair is routed from is engaged (R100, R505). -/
def protectedPair (n : Nat) (s : State) : Bool :=
  let r := (getPair n s).route.toNat
  decide (r < 4) && bit s.hedge.protect.toNat r

/-- What falls due at a pair's next word before it is formed: duty windows and waiting plans. -/
def plansDue (n i : Nat) (s : State) : State :=
  let duty := (s.plans.filter fun p => p.duty.isSome && decide (p.phase = .running) && p.holdsPair n).map (·.id)
  beginDue n i (duty.foldl (fun s p => dutyStep p i s) s)

/-- A set held for W10 words is decided for the next word whatever fences stand, with its event (R135). -/
def fenceExpire (n : Nat) (s : State) : State :=
  let x := (getSkim n s).expire (getPair n s).next (w10 s)
  let s1 := modSkim n (fun _ => x.1) s
  if x.2 then sendPair n 0x0010 (x.1.epoch + 1).toNat s1 else s1

/-- A held set whose fences have ended, or that has been held for W10 words, is decided for the next word (R134, R135). -/
def fencesDue (n : Nat) (s : State) : State := fenceExpire n (modSkim n (Skim.release (getPair n s).next) s)

/-- A CSU window that all of two windows' words lie beyond has ended (R107). -/
def csuLate (i : Nat) (c : Csu) : Csu := if c.run && decide (c.start + 2 * c.size ≤ i) then c.windowEnd else c

/-- The pair's counters after it forms a word (R98, R100-R102). -/
def Pair.formed (w : HWord) (ovr : List Bool) (settle dropped : Bool) (p : Pair) : Pair :=
  { p with
    next := p.next + 8, gap := dropped, settling := settle, invalidLeft := p.invalidLeft - 1
    settleLeft := if p.invalidLeft = 1 then max (p.settleLeft - 1) 256 else p.settleLeft - 1
    xovf := if dropped then satInc p.xovf else p.xovf
    evenOvr := satAdd p.evenOvr (countTrue (parity 0 ovr)), oddOvr := satAdd p.oddOvr (countTrue (parity 1 ovr))
    last := if dropped then p.last else some w }

/-- The values of a word: zeros while VALID = 0, else clamped (R96, R99). -/
def wordValues (valid : Bool) (vals : List Int) : List Int := if valid then vals.map clampSample else List.replicate 8 0

/-- A word is formed from what the pair's cores delivered: its commit, ramp, tag, overrange counts, statistics and block. -/
def formWord (n : Nat) (vals : List Int) (eor : BitVec 8) (dropped : Bool) (s0 : State) : HWord × State :=
  let i := (getPair n s0).next
  let s1 := skimCommit n i (fencesDue n s0)
  let ramp := (getSkim n s1).onWord
  let s2 := modSkim n (fun _ => ramp.1) s1
  let p := getPair n s2
  let valid := decide (p.invalidLeft = 0)
  let settle := decide (p.settleLeft ≠ 0) || protectedPair n s2
  let ovr := wordOvr eor 0 vals
  let xs := wordValues valid vals
  let tag := packTag valid settle (ovr.any id) (ramp.1.epoch.toNat % 16) ramp.2 false false false p.gap
  let w : HWord := ⟨i, 0, tag, xs⟩
  let s3 := modCsu (fun c => Csu.word n i (valid && !settle) (xs.zip ovr) (csuLate i c)) (modPair n (Pair.formed w ovr settle dropped) s2)
  let s4 := if valid then lostEnds 3 s3 else s3
  (w, modSkim n (Skim.blockWord (valid && !settle && !p.gap) (ovr.any id) (sumBy (fun x => x.natAbs * x.natAbs) xs)) s4)

/-- A pair forms words: it runs, and the sample clock is there. -/
def formsWords (n : Nat) (s : State) : Bool := decide (n < 4) && (getPair n s).running && !s.tim.relocking && !s.hedge.sclkLost

/-- SAMPLE_WORD: a pair forms its next word; a full crossing FIFO drops it (R19). -/
def sampleWord (n : Nat) (vals : List Int) (eor : BitVec 8) (fifoFull absorbFull : Bool) (s : State) : State :=
  if !formsWords n s || vals.length ≠ 8 then s
  else
    let s1 := if replaying s || fifoFull then s else plansDue n (getPair n s).next s
    let r := formWord n vals eor fifoFull s1
    if fifoFull then r.2 else deliverWord n r.1 absorbFull r.2

/-! ### The replay feed (R549, R551) -/

/-- The next word of the feed: the lowest tag, and of equal tags the lowest pair. -/
def nextReplay (s : State) : Option (Nat × HWord) :=
  match s.fr.loaded with
  | none => none
  | some b =>
    let heads := (List.range 4).filterMap fun n =>
      ((nth b.words n []).find? fun w => decide (nth s.fr.pos n 0 ≤ w.index) && decide (w.index < nth b.fin n 0)).map fun w => (n, w)
    heads.foldl (fun m x => match m with
      | none => some x
      | some y => if x.2.index < y.2.index then some x else some y) none

/-- A field of a journal entry. -/
def JEntry.f (e : JEntry) (off len : Nat) : Nat := leNat (fieldBytes off len e.body)

/-- Index at which a journal entry that feeds triggers or NCOs applies: a stamp or gate close by the anchors, a fire or a request as
recorded. -/
def feedIndex (e : JEntry) (s : State) : Option Nat :=
  match e.kind with
  | 5 => if e.f 0x15 1 = 5 || e.f 0x15 1 = 6 then some (e.f 0x20 8) else none
  | 7 => if e.bytes = 12 then some (placeOfStamp (e.f 0x18 4 * 2 ^ 40 + e.f 0x10 8 % 2 ^ 40) (bits (e.f 0x10 8) 40 11 * 64) s / 65536) else none
  | 8 => some (e.f 0x18 8)
  | _ => none

/-- A fire recorded for an EXT or TDC source whose stamp the journal does not hold is offered to the replayed unit of its number, at
its placement less the unit's delay. -/
def feedFire (b : Bundle) (e : JEntry) (s : State) : State :=
  let d := e.f 0x48 8
  let known := b.journal.any fun x => decide (x.kind = 7) && decide (x.bytes = 12) && decide (x.f 0x10 8 % 2 ^ 51 = d % 2 ^ 51)
  if known then s
  else
    let src := e.f 0x15 1
    let units := (List.range 8).filter fun n => (getUnit n s).plan.isSome && decide ((getUnit n s).blk = e.f 0x14 1)
    units.foldl (fun s n =>
      let blk := unitBlk n s
      let place := e.f 0x20 8 * 65536 + e.f 0x28 2 - blk.f 0x14 4 * 65536
      [false, true].foldl (fun s sb => if blk.source sb = src then offerEvent n ⟨sb, src, place, d, 0, false⟩ s else s) s) s

/-- A recorded request of a kernel is applied (R551): a trigger post to an SPU source, or a retune of an NCO. A value beyond a
fraction marks a retune. -/
def feedRequest (e : JEntry) (s : State) : State :=
  let k := e.f 0x10 2
  let v := e.f 0x20 8
  let units := (List.range 8).filter fun n => (getUnit n s).plan.isSome && decide ((getUnit n s).blk = k)
  let posts := units.filter fun n => decide ((unitBlk n s).source false = 7) || decide ((unitBlk n s).source true = 7)
  if v < 65536 && !posts.isEmpty then
    posts.foldl (fun s n => [false, true].foldl (fun s sb =>
      if (unitBlk n s).source sb = 7 then offerEvent n ⟨sb, 7, e.f 0x18 8 * 65536 + v, 0, 0, false⟩ s else s) s) s
  else
    let slots := (List.range 32).filter fun n => (getSlot n s).plan.isSome && decide ((getSlot n s).channel = k % 32)
    slots.foldl (fun s n =>
      if bit k 5 then modSlot n (fun sl => { sl with nco := sl.nco.post (e.f 0x18 8) v (e.f 0x18 8) }) s
      else modFront (getSlot n s).front (fun f => { f with nco := f.nco.post (e.f 0x18 8) v (e.f 0x18 8) }) s) s

/-- One journal entry is fed. -/
def feedEntry (b : Bundle) (e : JEntry) (s : State) : State :=
  match e.kind with
  | 5 => feedFire b e s
  | 7 => let v := e.f 0x10 8; trigStamp (bits v 51 3) (e.f 0x18 4 * 2 ^ 40 + v % 2 ^ 40) (bits v 40 11 * 64) (bit v 54) s
  | 8 => feedRequest e s
  | _ => s

/-- The journal's events before an index are fed, in time order. -/
def feedJournal (limit : Nat) (s : State) : State :=
  match s.fr.loaded with
  | none => s
  | some b =>
    let due := b.journal.filter fun e => (feedIndex e s).any fun i => decide (s.fr.fed ≤ i) && decide (i < limit)
    modFr (fun r => { r with fed := max r.fed limit }) (due.foldl (fun s e => feedEntry b e s) s)

/-- REPLAY_WORD: the feed forms its next word with REPLAY set; a hole before it gives GAP. -/
def replayWord (s : State) : State :=
  if !replaying s || !s.fr.feeding || s.fr.ended then s
  else
    match nextReplay s with
    | none => s
    | some (n, w0) =>
      let hole := decide (w0.index ≠ nth s.fr.pos n 0)
      let w1 := (if hole then w0.setTag tagGap else w0).setTag tagReplay
      let s1 := beginDue n w1.index (feedJournal (w1.index + 8) s)
      let (s2, w2) := trigStage n w1 (modFr (fun r => { r with pos := r.pos.set n (w1.index + 8) }) s1)
      takeWord n w2 s2

/-- REPLAY_END: every running plan is stopped as by PLAN_STOP, and REPLAY_DONE is sent (R549). -/
def replayEnd (s : State) : State :=
  match s.fr.loaded with
  | none => s
  | some b =>
    if !replaying s || !s.fr.feeding || s.fr.ended || (nextReplay s).isSome then s
    else
      let run := s.plans.filter fun p => decide (p.phase = .running)
      let s1 := run.foldl (fun s p => stopPlan p.id none s) s
      let ctxs := (0 :: run.map (·.ctx)).eraseDups
      ctxs.foldl (fun s c => sendEvent c 0x0133 (b.id % 2 ^ 32) (nth b.fin 0 0) 0 0 s)
        (modFr (fun r => { r with feeding := false, ended := true }) s1)

/-! ### The commands -/

/-- SAMPLE_WORD (R93). -/
def execSampleWord (pair : BitVec 2) (vals : List Int) (eor : BitVec 8) (fifoFull absorbFull : Bool) (s : State) :
    Host.Outcome State Fault Refusal := .next (settle (sampleWord pair.toNat vals eor fifoFull absorbFull s))

/-- REPLAY_WORD (R549). -/
def execReplayWord (s : State) : Host.Outcome State Fault Refusal := .next (settle (replayWord s))

/-- REPLAY_END (R549). -/
def execReplayEnd (s : State) : Host.Outcome State Fault Refusal := .next (settle (replayEnd s))

end Sys2Proof.Machine
end

