-- ==== Sys2Proof/Machine/Signal.lean ====
section
/-!
DEFINITION. The indivisible steps of the signal path behind the words: plans beginning and ending, duty windows, spectra and switches,
zoom words and retunes, Skim, the measurement converter, triggers and captures (R113-R114, R123-R144, R156-R168, R176, R196, R215,
R234-R246, R415, R527).
-/

namespace Sys2Proof.Machine

/-! ### Plans and duty windows -/

/-- Words of a pair arrive for plans: the pair forms words, or in REPLAY the feed runs. -/
def wordsArrive (n : Nat) (s : State) : Bool := if replaying s then s.fr.feeding && !s.fr.ended else formsWords n s

/-- The first word at or after a waiting plan's start_time arrives (R415). -/
def planFirstWord (plan : Nat) (s : State) : State :=
  match getPlan plan s with
  | none => s
  | some p =>
    let pairs := maskIdx (p.h 0x14 1) 4
    let here := fun (n : Nat) => wordsArrive n s && decide (p.firstTagNow s ≤ pairNext n s)
    if p.phase ≠ .waiting || drained s then s
    else
      match (if pairs.isEmpty then [0] else pairs).find? here with
      | none => s
      | some n => beginPlan plan (pairNext n s) s

/-- The duty cycle of a plan acts at the next word, if the plan is paused or not as asked (R527). -/
def dutyWindow (paused : Bool) (plan : Nat) (s : State) : State :=
  match getPlan plan s, planClock plan s with
  | some p, some n => if p.duty.any (fun d => decide (d.paused = paused)) && wordsArrive n s then dutyStep plan (planNext plan s) s else s
  | _, _ => s

/-! ### Zoom words (R162-R168) -/

/-- A slot forms its next word: to its capture ring, its stream, exports and LEVEL stages. -/
def zoomOut (n : Nat) (s : State) : State :=
  let sl := getSlot n s
  match sl.plan, zoomWord n s with
  | some plan, some (w, sat) =>
    let s1 := slotAdvance n w sat s
    let s2 := match s1.trg.rings.find? fun r => decide (r.plan = plan) && decide (r.source = 17 + sl.channel) && decide (4 ≤ r.r) with
      | some r => if replaying s1 then s1 else captureWord r.r r.next w s1
      | none => s1
    trigZoomWord n sl.m w (exportWord plan (16 + sl.channel) w (pushZoom plan n sl.m w s2))
  | _, _ => s

/-! ### Skim (R124, R125, R138, R140) -/

/-- A Skim block of a pair ends (R124): the MP's reading of the pair's sensor and the block's rms go with it. -/
def skimBlock (n : Nat) (temp rms : BitVec 16) (s : State) : State :=
  let p := getPair n s
  let k := getSkim n s
  if k.blkWords = 0 || p.next % 2 ^ 24 ≠ 0 then s
  else
    let ok := !k.blkBad && decide (k.blkWords = 2 ^ 21) && decide (k.blkOvr ≤ 2048) && decide (k.mode ≠ 4)
    let r := k.blockEnd p.fsStep.toNat p.next temp rms
    let s1 := modSkim n (fun _ => r.1) s
    let s2 := if r.2.1 then sendPair n 0x0011 0 s1 else if r.2.2 then sendPair n 0x0012 0 s1 else s1
    if ok then noteBlock s2 else s2

/-- The MP finishes a solve for a pair (R125). -/
def skimSolve (n : Nat) (cand : List Int) (offered : Bool) (s : State) : State :=
  if cand.length = 34 && setOk cand && s.pwr.mpUp then modSkim n (Skim.solved (getPair n s).next cand offered) s else s

/-- The pair takes the route and step that wait for FOREGROUND's end (R140). -/
def leaveForeground (n : Nat) (s : State) : State :=
  let back := ((getSkim n s).fgReturn).getD (BitVec.ofNat 3 n, (getPair n s).defStep)
  routePair n back.1 back.2 (modPair n (fun p => { p with foreground := false })
    (modSkim n (fun k => { k with mode := 1, fgReturn := none }) s))

/-- FOREGROUND succeeds on a pair: the sets of the sixteen steps and the termination trims are in force, and the step's set is
committed on the first word after the route change. -/
def foregroundDone (n : Nat) (sets : List (List Int)) (trims : List Int) (s : State) : State :=
  let s1 := leaveForeground n s
  let step := (getPair n s1).fsStep.toNat
  let s2 := modSkim n (fun k => ({ k with fgSets := sets, fgFault := false }).decideStep (nth sets step []) 4) s1
  { s2 with skm := { s2.skm with termTrim := trims } }

/-- FOREGROUND fails on a pair: it keeps the set it had. -/
def foregroundFails (n : Nat) (s : State) : State :=
  freezeRecorder 7 (sendPair n 0x0013 0 (modSkim n (fun k => { k with fgFault := true }) (leaveForeground n s)))

/-- A RUN_FOREGROUND completes with its last pair (R144). -/
def foregroundRun (n : Nat) (s : State) : State :=
  match s.skm.fgRun with
  | none => s
  | some (c, sid, l) =>
    let rest := l.filter fun m => decide (m ≠ n)
    if rest.isEmpty then completeDesc c sid .success 0 0 { s with skm := { s.skm with fgRun := none } }
    else { s with skm := { s.skm with fgRun := some (c, sid, rest) } }

/-- FOREGROUND ends on a pair with what it measured (R140). -/
def foregroundEnd (n : Nat) (sets : List (List Int)) (trims : List Int) (s : State) : State :=
  if !(getPair n s).foreground then s
  else
    let ok := decide (sets.length = 16) && (sets.all fun c => decide (c.length = 34) && setOk c)
      && decide (trims.length = 4) && trims.all fun t => decide (-32 ≤ t) && decide (t ≤ 31)
    foregroundRun n (if ok then foregroundDone n sets trims s else foregroundFails n s)

/-! ### The measurement units (R107, R113, R114) -/

/-- A CSU window has ended: every pair that runs is past it. -/
def csuEnds (s : State) : Bool :=
  let fin := s.adc.csu.start + s.adc.csu.size
  s.adc.csu.run && (s.adc.pairs.any fun p => p.running) && s.adc.pairs.all fun p => !p.running || decide (fin ≤ p.next)

/-- CSU_WINDOW_END (R107). -/
def csuWindowEnd (s : State) : State := if csuEnds s then modCsu Csu.windowEnd s else s

/-! ### Triggers and captures (R234-R237, R244) -/

/-- The deadline of stage B has passed with the hold window, and no event at or before it is held (R234). -/
def deadlinePassed (n : Nat) (s : State) : Bool :=
  let u := getUnit n s
  u.waitB && u.armed && (u.held.all fun e => decide (u.deadline < e.place))
    && (u.plan.any fun p => decide (u.deadline < planNext p s * 65536))

/-- The earliest held event of a unit passes its hold and is handled; one at or after a standing forcing point waits for the forced
fire. A passed deadline resets the sequence first (R234, R235). -/
def releaseEvent (n : Nat) (s : State) : State :=
  let s1 := if deadlinePassed n s then
      modUnit n (fun u => { u with errBTimeouts := satInc u.errBTimeouts, waitB := false, bSeen := 0 }) s
    else s
  match (getUnit n s1).held with
  | [] => s1
  | e :: rest =>
    if autoStands n s1 && decide (forcingPoint n s1 ≤ e.place) then s1
    else onEvent n e (modUnit n (fun u => { u with held := rest }) s1)

/-- The forcing point of a unit has passed with no fire placed before it: a forced fire (R235). -/
def forceFire (n : Nat) (s : State) : State :=
  match (getUnit n s).plan with
  | none => s
  | some p => if autoStands n s && planRuns p s && decide (forcingPoint n s ≤ planNext p s * 65536) then autoForce n s else s

/-- TRIGOUT's earliest scheduled rise comes; a pulse that ends by then falls first (R239). -/
def trigoutRises (s : State) : State :=
  match s.trg.out.due with
  | [] => s
  | d :: rest =>
    let e := rest.foldl (fun m x => if x.1 < m.1 then x else m) d
    let s1 := modTrg (fun t => { t with out := { t.out with due := t.out.due.erase e } }) (advanceToTick e.1 s)
    trigoutRise e.1 e.2 (if s1.trg.out.fallAt ≤ e.1 then trigoutFall s1.trg.out.fallAt s1 else s1)

/-- TRIGOUT's pulse ends (R239). -/
def trigoutFalls (s : State) : State :=
  if s.trg.out.high then trigoutFall s.trg.out.fallAt (advanceToTick s.trg.out.fallAt s) else s

/-! ### The commands -/

/-- PLAN_FIRST_WORD (R415). -/
def execPlanFirstWord (plan : BitVec 32) (s : State) : Host.Outcome State Fault Refusal := .next (settle (planFirstWord plan.toNat s))

/-- PLAN_STOP_COMPLETE (R216). -/
def execPlanStopComplete (plan : BitVec 32) (s : State) : Host.Outcome State Fault Refusal := .next (settle (finishStop plan.toNat s))

/-- DUTY_WINDOW_END (R527). -/
def execDutyWindowEnd (plan : BitVec 32) (s : State) : Host.Outcome State Fault Refusal :=
  .next (settle (dutyWindow false plan.toNat s))

/-- DUTY_WINDOW_START (R527). -/
def execDutyWindowStart (plan : BitVec 32) (s : State) : Host.Outcome State Fault Refusal :=
  .next (settle (dutyWindow true plan.toNat s))

/-- INT_DRAIN_END (R215). -/
def execIntDrainEnd (plan : BitVec 32) (s : State) : Host.Outcome State Fault Refusal := .next (settle (drainPlan plan.toNat s))

/-- SPECTRUM_FORMED (R176). -/
def execSpectrumFormed (plan : BitVec 32) (stream : BitVec 8) (s : State) : Host.Outcome State Fault Refusal :=
  .next (settle (formFrame plan.toNat stream.toNat s))

/-- TRANSFORM_SWITCH (R196). -/
def execTransformSwitch (plan : BitVec 32) (stream : BitVec 8) (s : State) : Host.Outcome State Fault Refusal :=
  .next (settle (switchStream plan.toNat stream.toNat s))

/-- ZOOM_WORD (R163). -/
def execZoomWord (slot : BitVec 5) (s : State) : Host.Outcome State Fault Refusal := .next (settle (zoomOut slot.toNat s))

/-- ZOOM_HOP (R159): of a front unit's NCO, or with `sub` of a slot's. -/
def execZoomHop (sub : Bool) (u : BitVec 5) (s : State) : Host.Outcome State Fault Refusal := .next (modNco sub u.toNat Nco.hopDue s)

/-- ZOOM_RETUNE (R158): of a front unit's NCO, or with `sub` of a slot's. -/
def execZoomRetune (sub : Bool) (u : BitVec 5) (s : State) : Host.Outcome State Fault Refusal :=
  .next (modNco sub u.toNat Nco.requestDue s)

/-- SKIM_BLOCK (R124). -/
def execSkimBlock (pair : BitVec 2) (temp rms : BitVec 16) (s : State) : Host.Outcome State Fault Refusal :=
  .next (settle (skimBlock pair.toNat temp rms s))

/-- SKIM_SOLVE (R125). -/
def execSkimSolve (pair : BitVec 2) (cand : List Int) (offered : Bool) (s : State) : Host.Outcome State Fault Refusal :=
  .next (skimSolve pair.toNat cand offered s)

/-- SKIM_FENCE_END (R134). -/
def execSkimFenceEnd (pair : BitVec 2) (s : State) : Host.Outcome State Fault Refusal :=
  .next (modSkim pair.toNat (Skim.release (getPair pair.toNat s).next) s)

/-- SKIM_FENCE_EXPIRED (R135). -/
def execSkimFenceExpired (pair : BitVec 2) (s : State) : Host.Outcome State Fault Refusal := .next (settle (fenceExpire pair.toNat s))

/-- FOREGROUND_END (R140). -/
def execForegroundEnd (pair : BitVec 2) (sets : List (List Int)) (trims : List Int) (s : State) : Host.Outcome State Fault Refusal :=
  .next (settle (foregroundEnd pair.toNat sets trims s))

/-- CSU_WINDOW_END (R107). -/
def execCsuWindowEnd (s : State) : Host.Outcome State Fault Refusal := .next (csuWindowEnd s)

/-- AMC_SLOT_COMPLETE (R113): the sum of the slot's conversions. -/
def execAmcSlotComplete (sum : Int) (s : State) : Host.Outcome State Fault Refusal := .next (modAmc (Amc.complete sum) s)

/-- AMC_URGENT_REQUEST (R114). -/
def execAmcUrgentRequest (hedge : Bool) (channel trim : BitVec 5) (s : State) : Host.Outcome State Fault Refusal :=
  .next (modAmc (Amc.request ⟨hedge, channel.toNat, trim.toNat⟩) s)

/-- TRIGGER_EVENT_RELEASE (R234). -/
def execTriggerEventRelease (u : BitVec 3) (s : State) : Host.Outcome State Fault Refusal := .next (settle (releaseEvent u.toNat s))

/-- AUTO_FORCE (R235). -/
def execAutoForce (u : BitVec 3) (s : State) : Host.Outcome State Fault Refusal := .next (settle (forceFire u.toNat s))

/-- MISSED_TRIGGER_DELIVERY (R237). -/
def execMissedTriggerDelivery (u : BitVec 3) (s : State) : Host.Outcome State Fault Refusal := .next (settle (deliverMissed u.toNat s))

/-- CAPTURE_SEGMENT_CLOSE (R244). -/
def execCaptureSegmentClose (plan : BitVec 32) (slot : BitVec 3) (s : State) : Host.Outcome State Fault Refusal :=
  .next (settle (closeDue plan.toNat slot.toNat s))

/-- CAPTURE_REARM (R244). -/
def execCaptureRearm (plan : BitVec 32) (slot : BitVec 3) (s : State) : Host.Outcome State Fault Refusal :=
  .next (rearmDue plan.toNat slot.toNat s)

/-- TRIGOUT_RISE (R239). -/
def execTrigoutRise (s : State) : Host.Outcome State Fault Refusal := .next (settle (trigoutRises s))

/-- TRIGOUT_FALL (R239). -/
def execTrigoutFall (s : State) : Host.Outcome State Fault Refusal := .next (settle (trigoutFalls s))

end Sys2Proof.Machine
end

