-- ==== Sys2Proof/Machine/Timing.lean ====
section
/-!
DEFINITION. The steps of the Timing island: edges, PPS, anchors, markers, calibrations, gates, clocks and the heartbeat (R48-R86, R392,
R508).
-/

namespace Sys2Proof.Machine

/-! ### Gates (R79, R85) -/

/-- A gated measurement of a pin. -/
def getGate (pin : Nat) (s : State) : Option Gate := nth s.tim.gates pin none

/-- Change the measurement of a pin. -/
def modGate (pin : Nat) (f : Gate → Gate) (s : State) : State := modTim (fun t => { t with gates := modNth t.gates pin fun g => g.map f }) s

/-- A gate whose asserting edge lies two ticks back opens. -/
def openGate (pin e : Nat) (phase : GatePhase) (s : State) : State :=
  modGate pin (fun g => { g with phase := phase, openTick := e + 2, openTime := timeOfTick (e + 2) s }) s

/-- Tick at which an open gate reaches max_duration. -/
def Gate.maxTick (g : Gate) : Nat := g.openTick + g.maxUs * 800

/-- A gate closes at a tick: its records, and its close tick as a TDC trigger source (R79, R226). -/
def gateCloses (pin tick : Nat) (maxed : Bool) (s : State) : State :=
  let s1 := closeGate pin tick maxed s
  if replaying s1 then s1 else trigGate pin tick s1

/-- What a pin's gate has reached by a tick: opening, closing, or max_duration, whichever is first. -/
def gateDue (pin t : Nat) (s : State) : State :=
  match getGate pin s with
  | none => s
  | some g =>
    match g.phase with
    | .armed => s
    | .asserting e => if e + 2 ≤ t then openGate pin e .opened s else s
    | .opened => if g.maxTick ≤ t then gateCloses pin g.maxTick true s else s
    | .closing e =>
      if g.maxTick < e + 2 then (if g.maxTick ≤ t then gateCloses pin g.maxTick true s else s)
      else if e + 2 ≤ t then gateCloses pin (e + 2) false s
      else s

/-- What both gates have reached by a tick: an opening may be followed by a closing. -/
def gatesDue (t : Nat) (s : State) : State := [0, 1].foldl (fun s pin => gateDue pin t (gateDue pin t s)) s

/-- An edge on a gate pin (R79): ignored while nothing is armed; a level already asserted at arming does not open the gate. -/
def gateEdge (pin : Nat) (level : Bool) (tick : Nat) (s0 : State) : State :=
  let s := gatesDue tick (advanceToTick tick s0)
  match getGate pin s with
  | none => s
  | some g =>
    match g.phase with
    | .armed => if level = g.high then modGate pin (fun g => { g with phase := .asserting tick }) s else s
    | .asserting e => if level = g.high then s else openGate pin e (.closing tick) s
    | .opened => if level = g.high then s else modGate pin (fun g => { g with phase := .closing tick }) s
    | .closing _ => s

/-- Tick of the next thing that a pin's gate reaches by itself. -/
def gateNext (pin : Nat) (s : State) : Option Nat :=
  (getGate pin s).bind fun g =>
    match g.phase with
    | .armed => none
    | .asserting e => some (e + 2)
    | .opened => some g.maxTick
    | .closing e => some (min g.maxTick (e + 2))

/-- A gate waits to open. -/
def Gate.opening (g : Gate) : Bool := match g.phase with | .asserting _ => true | _ => false

/-- A gate waits to close after its deasserting edge. -/
def Gate.isClosing (g : Gate) : Bool := match g.phase with | .closing _ => true | _ => false

/-- A pin's gate takes its next step, if it is one that `p` asks for. -/
def gateStep (pin : Nat) (p : Gate → Bool) (s : State) : State :=
  match getGate pin s, gateNext pin s with
  | some g, some t => if p g then gateDue pin t (advanceToTick t s) else s
  | _, _ => s

/-! ### Edges (R59, R71, R75) -/

/-- First tick of the next wrap period. -/
def nextWrap (s : State) : Nat := (wrapOf (nowTick s) + 1) * 2 ^ 40

/-- The coarse count wraps: every enabled stream gets its marker (R75). -/
def tdcWrap (s : State) : State := if s.tim.running then tdcMarkAll 0 (advanceToTick (nextWrap s) s) else s

/-- Time moves on to an edge, through a wrap if one comes first. -/
def toTick (t : Nat) (s : State) : State := advanceToTick t (if nextWrap s ≤ t then tdcWrap s else s)

/-- The pending SET_TIME is applied at an edge (R57). -/
def applyAtEdge (p : SetPending) (sub : Nat) (s : State) : State :=
  let s1 := setDeviceTime (setTarget p.seconds sub s.tim) p.seconds true s
  completeDesc p.ctx p.sid .success s1.tim.stepGen.toNat 0 s1

/-- A stamped PPS edge: it applies a SET_TIME accepted before it, or is judged once one has been applied. -/
def ppsEdge (tick sub : Nat) (s : State) : State :=
  match s.tim.setPending with
  | some p => if p.accepted < tick && decide (tick = nowTick s) then applyAtEdge p sub s
              else if s.tim.setApplied then judgePps tick sub s else s
  | none => if s.tim.setApplied then judgePps tick sub s else s

/-- TC5 and TC6 give edges only at the divider of their owner's configuration (R69). -/
def edgeExists (ch : Nat) (s : State) : Bool := decide (ch ≠ 5 && ch ≠ 6) || (getTdc ch s).owner.isSome

/-- An edge arrives on a channel: stamped or lost, offered to triggers, judged on PPS_IN; the readout takes `taken` stamps. -/
def edgeArrives (ch tick sub : Nat) (rising : Bool) (taken : Nat) (s0 : State) : State :=
  if !s0.tim.running || decide (tickSub ≤ sub) || !edgeExists ch s0 then s0
  else
    let s := gatesDue tick (toTick tick s0)
    let r := stampEdge ch tick sub rising s
    let s1 := if r.2 && !replaying s then trigStamp ch tick sub rising r.1 else r.1
    let s2 := if r.2 && decide (ch = 0) && decide (rising ≠ s1.tim.ppsFalling) then ppsEdge tick sub s1 else s1
    takeStamps ch taken s2

/-- The readout of a channel takes stamps, and its record closes 10 us after its first entry (R74). -/
def stampsClose (ch taken : Nat) (s : State) : State :=
  let s1 := takeStamps ch taken s
  match (getTdc ch s1).openRec with
  | [] => s1
  | p :: _ => closeStamps ch (advanceToTick (p.tick + 8000) s1)

/-- A calibration of a stream falls due: after 2^16 stamps or 1 ms (R77). -/
def calibrationDue (ch tick rawOne rawTwo temp : Nat) (s : State) : State :=
  let c := getTdc ch s
  let full := decide (2 ^ 16 ≤ c.stampsSinceCal)
  if c.owner.isNone || !(full || decide (c.lastCal + 800000 ≤ tick)) then s
  else calibrate ch (b2n full) tick rawOne rawTwo temp none (toTick tick s)

/-! ### PPS (R59, R62) -/

/-- Three consecutive seconds have passed without an accepted edge (R59). -/
def ppsLost (s : State) : State :=
  if !s.tim.running || !s.tim.setApplied || s.tim.ppsLostRaised then s
  else
    let s1 := advanceToTick (s.tim.ppsRef + 3 * tickRate) s
    sendAll 0x0006 0 0 0 0 (modTim (fun t => { t with ppsPresent := false, ppsLostRaised := true }) s1)

/-- First coarse tick at or after whole second k of device time. -/
def tickOfSecond (k : Nat) (s : State) : Int :=
  (nowTick s : Int) - ((s.tim.x : Int) - (k * 2 ^ 64 * tickRate : Nat)) / (2 ^ 64 : Int)

/-- Tick of PPS_OUT's next rise. -/
def ppsOutNext (s : State) : Nat :=
  let k := now s / 2 ^ 64
  let c := ([k, k + 1, k + 2].map fun k => tickOfSecond k s + s.tim.ppsOutOffset.toInt).filter fun t => decide ((nowTick s : Int) ≤ t)
  (c.headD (nowTick s)).toNat

/-- PPS_OUT is driven low. -/
def ppsOutLow (tick : Nat) (s : State) : State :=
  if s.tim.ppsOutHigh then emit (.pin .ppsOut false tick) (modTim (fun t => { t with ppsOutHigh := false }) s) else s

/-- PPS_OUT rises at its next whole second plus OFFSET (R62). -/
def ppsOutRise (s : State) : State :=
  if !s.tim.running || !s.tim.ppsOutEnable || s.tim.ppsOutHigh || !s.tim.setApplied then s
  else
    let t := ppsOutNext s
    let s1 := advanceToTick t s
    emit (.pin .ppsOut true t) (modTim (fun m => { m with ppsOutHigh := true, ppsOutFall := t + m.ppsOutWidth.toNat * 800000 }) s1)

/-- PPS_OUT falls after WIDTH_MS (R62). -/
def ppsOutFall (s : State) : State :=
  if s.tim.ppsOutHigh then ppsOutLow s.tim.ppsOutFall (advanceToTick s.tim.ppsOutFall s) else s

/-! ### Anchors (R64) -/

/-- Measured less computed, in 2^-16 ns, of the same sample: nearest. -/
def slipOf (meas comp : Nat × Nat) (s : State) : Int :=
  (meas.2 : Int) - comp.2
    + roundDivEven (((comp.1 : Int) - meas.1) * s.tim.rateDen * (65536 * 10 ^ 9)) s.tim.rateNum

/-- The anchor of a whole second. A TC6 check more than 10 ps off the computed offset gives SAMPLE_CLOCK_SLIP and a measured anchor with
RATE_CHANGE; with SCLK_IN every anchor is measured. -/
def anchorAt (k : Nat) (meas : Option (Nat × Nat)) (s : State) : State :=
  let t := k * 2 ^ 64
  let comp := sampleAfter (baseAnchor s) t
  let slip := match meas with | none => 0 | some m => slipOf m comp s
  let slips := !s.tim.sclkIn && decide (655 < slip.natAbs)
  let flags := b2n s.tim.secOffset.isNone + 2 * b2n slips + 16 * b2n s.tim.secOutlier
  let a := makeAnchor (baseAnchor s) t (if s.tim.sclkIn || slips then meas else none) flags (s.tim.secOffset.getD 0) s
  let miss := s.tim.setApplied && s.tim.secOffset.isNone
  let s1 := modTim (fun m => { m with
    secOffset := none, secOutlier := false, missed := if miss then satInc m.missed else m.missed
    base := if slips || m.sclkIn then some a else m.base }) s
  let s2 := emitAnchor a s1
  if slips then freezeRecorder 4 (sendAll 0x0008 0 (wrapInt 64 slip) 0 0 s2) else s2

/-- TIME_ANCHOR: device time reaches the next whole second without an anchor, and its anchor is emitted. -/
def timeAnchor (meas : Option (Nat × Nat)) (s : State) : State :=
  if !s.tim.running then s
  else anchorAt (nextAnchorSecond s) meas (advanceToTime (nextAnchorSecond s * 2 ^ 64) s)

/-! ### Clocks (R51, R68, R508) -/

/-- Re-designed FIR taps for a rate: the bandwidth model is not published, so they are free values within R126's ranges. -/
def freeTaps : Nat → State → List Int × State
  | 0, s => ([], s)
  | n + 1, s =>
    let v := freshValue 32 s
    let tap : Int := if n = 3 then 3 * 2 ^ 28 + (v.1.toNat % (2 ^ 29 + 1) : Nat) else (v.1.toNat % (2 ^ 29 + 1) : Nat) - 2 ^ 28
    let r := freeTaps n v.2
    (tap :: r.1, r.2)

/-- The step commit of R142 on a pair's first word. -/
def rateCommit (n : Nat) (s : State) : State :=
  let r := freeTaps 7 s
  modSkim n (fun p => p.decideStep (p.target.take 24 ++ r.1 ++ p.target.drop 31) 6) r.2

/-- The sample clock is there again after a retune or a loss: the first word of each pair carries GAP, the partial CSU window is
discarded, a measured anchor with RATE_CHANGE comes into force, and each pair makes its RATE_CHANGE commit. -/
def relock (offset : Nat) (s : State) : State :=
  let i := nextIndex s
  let s1 := modTim (fun t => { t with relocking := false, sclkLock := true }) s
  let s2 := modAdc (fun a => { a with
    pairs := a.pairs.map (fun p => if p.running then { p with gap := true, next := i } else p), csu := a.csu.discard i }) s1
  let a := makeAnchor (baseAnchor s2) (now s2) (some (i, offset)) (2 + b2n s2.tim.secOffset.isNone) (s2.tim.secOffset.getD 0) s2
  (List.range 4).foldl (fun s n => rateCommit n s) (emitAnchor a (modTim (fun t => { t with base := some a }) s2))

/-- The SPLL relocks after a retune (R51). -/
def spllRelock (offset : Nat) (s : State) : State := if s.tim.relocking && !s.hedge.sclkLost then relock offset s else s

/-- REFCLK is lost: holdover (R68, R508). -/
def refclkLost (s : State) : State :=
  if s.tim.refclkLost then s
  else freezeRecorder 4 (sendAll 0x0122 1 0 1 0 (modTim (fun t => { t with refclkLost := true, refOk := false, tpllLock := false }) s))

/-- REFCLK is back, within ±100 ppm as `ok` says. -/
def refclkRestored (ok : Bool) (s : State) : State :=
  if s.tim.refclkLost then sendAll 0x0122 1 0 2 0 (modTim (fun t => { t with refclkLost := false, refOk := ok, tpllLock := true }) s) else s

/-- The sample clock is lost: FAULT_N is driven and no words are formed (R508). -/
def sclkLost (s : State) : State :=
  if s.hedge.sclkLost then s
  else
    let s0 := if s.tim.sclkIn || s.tim.refclkLost then s else lostBegins 3 s
    let s1 := modTim (fun t => { t with sclkLock := false }) { s0 with hedge := { s0.hedge with sclkLost := true } }
    freezeRecorder 4 (sendAll 0x0122 2 0 1 0 s1)

/-- The sample clock is back: as after a retune (R508). -/
def sclkRestored (offset : Nat) (s : State) : State :=
  if s.hedge.sclkLost then relock offset (sendAll 0x0122 2 0 2 0 { s with hedge := { s.hedge with sclkLost := false } }) else s

/-- Every 800,000th tick each context's heartbeat location is written (R392). -/
def heartbeatWrite (s : State) : State :=
  if s.tim.running then heartbeat s.hedge.safe (advanceToTick ((nowTick s / 800000 + 1) * 800000) s) else s

/-- Nothing is commanded: one coarse tick passes, with a wrap marker where the count wraps. -/
def idleTick (s : State) : State :=
  let s1 := tick s
  if s.tim.running && decide (nowTick s1 % 2 ^ 40 = 0) then tdcMarkAll 0 s1 else s1

/-! ### The commands -/

/-- TIME_WAIT_RELEASE (R409). -/
def execTimeWaitRelease (s : State) : Host.Outcome State Fault Refusal := .next (releaseTimeWait s)

/-- SET_TIME_PPS_TIMEOUT (R58). -/
def execSetTimePpsTimeout (s : State) : Host.Outcome State Fault Refusal := .next (settle (setTimePpsTimeout s))

/-- PPS_IN_EDGE (R59). -/
def execPpsInEdge (tick : BitVec 64) (sub : Nat) (rising : Bool) (taken : Nat) (s : State) : Host.Outcome State Fault Refusal :=
  .next (settle (edgeArrives 0 tick.toNat sub rising taken s))

/-- PPS_LOST (R59). -/
def execPpsLost (s : State) : Host.Outcome State Fault Refusal := .next (settle (ppsLost s))

/-- PPS_OUT_RISE (R62). -/
def execPpsOutRise (s : State) : Host.Outcome State Fault Refusal := .next (settle (ppsOutRise s))

/-- PPS_OUT_FALL (R62). -/
def execPpsOutFall (s : State) : Host.Outcome State Fault Refusal := .next (settle (ppsOutFall s))

/-- TIME_ANCHOR (R64). -/
def execTimeAnchor (meas : Option (Nat × Nat)) (s : State) : Host.Outcome State Fault Refusal := .next (settle (timeAnchor meas s))

/-- TDC_WRAP (R75). -/
def execTdcWrap (s : State) : Host.Outcome State Fault Refusal := .next (settle (tdcWrap s))

/-- TDC_EDGE (R71). -/
def execTdcEdge (ch : BitVec 3) (tick : BitVec 64) (sub : Nat) (rising : Bool) (taken : Nat) (s : State) : Host.Outcome State Fault Refusal :=
  .next (settle (edgeArrives ch.toNat tick.toNat sub rising taken s))

/-- TDC_STAMPS_CLOSE (R74). -/
def execTdcStampsClose (ch : BitVec 3) (taken : Nat) (s : State) : Host.Outcome State Fault Refusal :=
  .next (settle (stampsClose ch.toNat taken s))

/-- TDC_CALIBRATION (R77). -/
def execTdcCalibration (ch : BitVec 3) (tick : BitVec 64) (rawOne rawTwo : BitVec 32) (temp : BitVec 16) (s : State) :
    Host.Outcome State Fault Refusal := .next (settle (calibrationDue ch.toNat tick.toNat rawOne.toNat rawTwo.toNat temp.toNat s))

/-- GATE_EDGE (R79). -/
def execGateEdge (gate : BitVec 1) (level : Bool) (tick : BitVec 64) (s : State) : Host.Outcome State Fault Refusal :=
  .next (settle (gateEdge gate.toNat level tick.toNat s))

/-- GATE_OPEN (R79). -/
def execGateOpen (gate : BitVec 1) (s : State) : Host.Outcome State Fault Refusal := .next (settle (gateStep gate.toNat Gate.opening s))

/-- GATE_CLOSE (R79). -/
def execGateClose (gate : BitVec 1) (s : State) : Host.Outcome State Fault Refusal := .next (settle (gateStep gate.toNat Gate.isClosing s))

/-- GATE_MAX_DURATION (R85). -/
def execGateMaxDuration (gate : BitVec 1) (s : State) : Host.Outcome State Fault Refusal :=
  .next (settle (gateStep gate.toNat (fun g => !g.opening) s))

/-- REFCLK_LOST (R508). -/
def execRefclkLost (s : State) : Host.Outcome State Fault Refusal := .next (settle (refclkLost s))

/-- REFCLK_RESTORED (R68). -/
def execRefclkRestored (ok : Bool) (s : State) : Host.Outcome State Fault Refusal := .next (settle (refclkRestored ok s))

/-- REF_OK_CHANGE (R55). -/
def execRefOkChange (ok : Bool) (s : State) : Host.Outcome State Fault Refusal :=
  .next (if s.tim.refclkLost then s else modTim (fun t => { t with refOk := ok }) s)

/-- SCLK_LOST (R508). -/
def execSclkLost (s : State) : Host.Outcome State Fault Refusal := .next (settle (sclkLost s))

/-- SCLK_RESTORED (R508). -/
def execSclkRestored (offset : BitVec 32) (s : State) : Host.Outcome State Fault Refusal := .next (settle (sclkRestored offset.toNat s))

/-- SPLL_RELOCK (R51). -/
def execSpllRelock (offset : BitVec 32) (s : State) : Host.Outcome State Fault Refusal := .next (settle (spllRelock offset.toNat s))

/-- HEARTBEAT_WRITE (R392). -/
def execHeartbeatWrite (s : State) : Host.Outcome State Fault Refusal := .next (settle (heartbeatWrite s))

end Sys2Proof.Machine
end

