-- ==== Sys2Proof/Machine/HostEvents.lean ====
section
/-!
DEFINITION. What reaches the Host and Display islands by itself: mode-change steps, teardown, doorbells, function and port events, the
lanes, drives and panels (R45, R274-R278, R372-R392, R434-R437, R471-R485, R531).
-/

namespace Sys2Proof.Machine

/-! ### Mode change (R45, R455) -/

/-- A step of the change under way, once the one before it is done. -/
def changeStep (ph : ChangePhase) (f : State → State) (s : State) : State := if inPhase ph s then f s else s

/-- The change completes, and with it a channel loss (R540); a channel that failed meanwhile begins the next one. -/
def changeEnds (s : State) : State :=
  let s1 := changeDone s
  if s1.dram.chans.any (·.failed.isSome) then beginRebuild s1 else lostEnds 2 s1

/-- MODE_CHANGE_DRAIN. -/
def execModeChangeDrain (s : State) : Host.Outcome State Fault Refusal := .next (settle (changeStep .accepted changeDrain s))

/-- MODE_CHANGE_FLUSH. -/
def execModeChangeFlush (s : State) : Host.Outcome State Fault Refusal := .next (settle (changeStep .drained changeFlush s))

/-- MODE_CHANGE_REPARTITION. -/
def execModeChangeRepartition (s : State) : Host.Outcome State Fault Refusal :=
  .next (settle (changeStep .flushed (fun s => retireChannels (changeRepartition s)) s))

/-- MODE_CHANGE_RECHECK. -/
def execModeChangeRecheck (s : State) : Host.Outcome State Fault Refusal := .next (settle (changeStep .repartitioned changeRecheck s))

/-- MODE_CHANGED. -/
def execModeChanged (s : State) : Host.Outcome State Fault Refusal := .next (settle (changeStep .rechecked changeEnds s))

/-! ### Contexts and functions -/

/-- CONTEXT_TEARDOWN_COMPLETE. -/
def execContextTeardownComplete (ctx : BitVec 10) (s : State) : Host.Outcome State Fault Refusal :=
  .next (settle (finishTeardown ctx.toNat s))

/-- SPU_STOP_TAKES_EFFECT. -/
def execSpuStopTakesEffect (n : BitVec 4) (s : State) : Host.Outcome State Fault Refusal := .next (settle (stopTakes n.toNat s))

/-- HST_DB_CMD: a write of a command-tail doorbell of a page by a function. -/
def execHstDbCmd (fn : BitVec 7) (page : BitVec 10) (v : BitVec 32) (s : State) : Host.Outcome State Fault Refusal :=
  .next (settle (dbCmd fn.toNat page.toNat v.toNat s))

/-- HST_DB_CPL. -/
def execHstDbCpl (fn : BitVec 7) (page : BitVec 10) (v : BitVec 32) (s : State) : Host.Outcome State Fault Refusal :=
  .next (settle (dbCpl fn.toNat page.toNat v.toNat s))

/-- HST_DB_EVT. -/
def execHstDbEvt (fn : BitVec 7) (page : BitVec 10) (v : BitVec 32) (s : State) : Host.Outcome State Fault Refusal :=
  .next (settle (dbEvt fn.toNat page.toNat v.toNat s))

/-- HST_DB_DATAr: r counts from 0 for ring 1. -/
def execHstDbData (fn : BitVec 7) (page : BitVec 10) (r : BitVec 3) (v : BitVec 32) (s : State) : Host.Outcome State Fault Refusal :=
  .next (settle (dbData fn.toNat page.toNat (r.toNat + 1) v.toNat s))

/-- Ring that a moderation timer belongs to: 0 completion, 1 event, 2-9 data ring 1-8. -/
def timerRing (n : Nat) : RingSel := if n = 0 then .cpl else if n = 1 then .evt else .data (n - 1)

/-- INTERRUPT_MOD_TIMER. -/
def execInterruptModTimer (ctx : BitVec 10) (ring : BitVec 4) (s : State) : Host.Outcome State Fault Refusal :=
  .next (settle (signalTimer ctx.toNat (timerRing ring.toNat) s))

/-- DESCRIPTOR_FETCH_ERROR. -/
def execDescriptorFetchError (ctx : BitVec 10) (s : State) : Host.Outcome State Fault Refusal :=
  .next (settle (startTeardown ctx.toNat 5 none s))

/-- A function-level reset: the function's contexts, and its latches of 128-bit registers (R370, R377). -/
def functionReset (f : Nat) (s : State) : State :=
  tearFunction f (modHost (fun h => { h with latches := h.latches.filter fun l => decide (l.fn ≠ f) }) s)

/-- FUNCTION_LEVEL_RESET. -/
def execFunctionLevelReset (fn : BitVec 7) (s : State) : Host.Outcome State Fault Refusal := .next (settle (functionReset fn.toNat s))

/-- BUS_MASTER_ENABLE_CLEAR. -/
def execBusMasterEnableClear (fn : BitVec 7) (s : State) : Host.Outcome State Fault Refusal := .next (settle (tearFunction fn.toNat s))

/-- VF_ENABLE_CLEAR. -/
def execVfEnableClear (port : BitVec 1) (s : State) : Host.Outcome State Fault Refusal := .next (settle (tearPort port.toNat 3 s))

/-! ### Ports and lanes -/

/-- PERST of a port (R531): its assertion ends the link and TEST; its release lets the port train. -/
def portReset (p : Nat) (asserted : Bool) (s : State) : State :=
  let s1 := modPort p (fun x => { x with perst := asserted }) s
  if asserted then linkDown p 4 (leaveTest p s1) else s1

/-- LINK_DOWN. A port in TEST has no link. -/
def execLinkDown (port : BitVec 1) (s : State) : Host.Outcome State Fault Refusal :=
  .next (settle (if (getPort port.toNat s).linkUp then linkDown port.toNat 4 s else s))

/-- HOT_RESET. -/
def execHotReset (port : BitVec 1) (s : State) : Host.Outcome State Fault Refusal :=
  .next (settle (if (getPort port.toNat s).linkUp then linkDown port.toNat 4 s else s))

/-- PERST. -/
def execPerst (port : BitVec 1) (asserted : Bool) (s : State) : Host.Outcome State Fault Refusal :=
  .next (settle (portReset port.toNat asserted s))

/-- PCIE_REFCLK_LOSS. -/
def execPcieRefclkLoss (port : BitVec 1) (s : State) : Host.Outcome State Fault Refusal := .next (settle (portClockLoss port.toNat s))

/-- PCIE_REFCLK_RESTORED. -/
def execPcieRefclkRestored (port : BitVec 1) (s : State) : Host.Outcome State Fault Refusal :=
  .next (modPort port.toNat (fun x => { x with refOk := true }) s)

/-- LINK_TRAINING. -/
def execLinkTraining (port : BitVec 1) (rate : BitVec 3) (width : BitVec 5) (recoveries : Nat) (lanes : List LaneTraining) (s : State) :
    Host.Outcome State Fault Refusal := .next (settle (trainLink port.toNat rate.toNat width.toNat recoveries lanes s))

/-- L0S_ENTRY. -/
def execL0sEntry (port : BitVec 1) (s : State) : Host.Outcome State Fault Refusal := .next (enterL0s port.toNat s)

/-- RX_L0S_ENTRY. -/
def execRxL0sEntry (port : BitVec 1) (s : State) : Host.Outcome State Fault Refusal := .next (followL0s port.toNat s)

/-- L1_ENTRY. -/
def execL1Entry (port : BitVec 1) (sub : BitVec 2) (s : State) : Host.Outcome State Fault Refusal := .next (enterL1 port.toNat sub.toNat s)

/-- ELECTRICAL_IDLE_EXIT. -/
def execElectricalIdleExit (lane : BitVec 5) (s : State) : Host.Outcome State Fault Refusal := .next (leaveIdle lane.toNat s)

/-- MARGINING_COMMAND: a partner begins or ends margining a lane. -/
def execMarginingCommand (lane : BitVec 5) (start : Bool) (s : State) : Host.Outcome State Fault Refusal :=
  .next (marginLane lane.toNat start s)

/-- EYE_SCAN_DONE: errors is what the sampler found. -/
def execEyeScanDone (errors : BitVec 48) (s : State) : Host.Outcome State Fault Refusal := .next (scanDone errors.toNat s)

/-- EYE_SCAN_TIMEOUT: bits compared and errors until then. -/
def execEyeScanTimeout (compared errors : BitVec 48) (s : State) : Host.Outcome State Fault Refusal :=
  .next (scanTimeout compared.toNat errors.toNat s)

/-- PRBS_CHECKER_LOCK. -/
def execPrbsCheckerLock (lane : BitVec 5) (s : State) : Host.Outcome State Fault Refusal := .next (checkerLock lane.toNat s)

/-- PRBS_CHECKER_LOCK_LOST: errors counted since the lock. -/
def execPrbsCheckerLockLost (lane : BitVec 5) (errors : BitVec 32) (s : State) : Host.Outcome State Fault Refusal :=
  .next (checkerLost lane.toNat errors.toNat s)

/-! ### Display outputs -/

/-- LATCH_POINT: of a video-mode output. -/
def execLatchPoint (o : BitVec 1) (s : State) : Host.Outcome State Fault Refusal := .next (settle (latchVideo o.toNat s))

/-- TE_EDGE: at a coarse tick, after a low time and with a pulse width in ns. -/
def execTeEdge (o : BitVec 1) (tick : BitVec 64) (lowNs pulseNs : Nat) (s : State) : Host.Outcome State Fault Refusal :=
  .next (settle (teEdge o.toNat lowNs pulseNs (advanceToTick tick.toNat s)))

/-- DISPLAY_TE_TIMEOUT. -/
def execDisplayTeTimeout (o : BitVec 1) (s : State) : Host.Outcome State Fault Refusal := .next (settle (teTimeout o.toNat s))

/-- SELF_TIMED_TRANSFER. -/
def execSelfTimedTransfer (o : BitVec 1) (s : State) : Host.Outcome State Fault Refusal := .next (settle (selfTimed o.toNat s))

/-- BUFFER_RELEASED. -/
def execBufferReleased (o : BitVec 1) (s : State) : Host.Outcome State Fault Refusal := .next (settle (releaseBuffer o.toNat s))

/-- PANEL_READ_RESPONSE. -/
def execPanelReadResponse (o : BitVec 1) (data : Block) (s : State) : Host.Outcome State Fault Refusal :=
  .next (settle (panelResponse o.toNat data s))

/-- PANEL_TIMEOUT. -/
def execPanelTimeout (o : BitVec 1) (s : State) : Host.Outcome State Fault Refusal := .next (settle (panelLate o.toNat s))

/-! ### Drives -/

/-- DISK_ACTIVATE: what the control page of a binding slot holds when activate is written. -/
def execDiskActivate (slot : BitVec 5) (qids : List (BitVec 32)) (maxKb : BitVec 32) (reserved : Bool) (s : State) :
    Host.Outcome State Fault Refusal := .next (settle (activateMember slot.toNat (qids.map (·.toNat)) maxKb.toNat reserved s))

/-- EXTENT_TIMEOUT. -/
def execExtentTimeout (slot : BitVec 5) (s : State) : Host.Outcome State Fault Refusal := .next (settle (closeExtent slot.toNat s))

/-- NVME_COMPLETION. -/
def execNvmeCompletion (slot : BitVec 5) (cid : Nat) (status : BitVec 15) (dnr : Bool) (s : State) : Host.Outcome State Fault Refusal :=
  .next (settle (nvmeDone slot.toNat cid status.toNat dnr s))

/-- No completion of a member's command within 500 ms: it fails. -/
def nvmeTimeout (slot : Nat) (s : State) : State :=
  match getBinding slot s with
  | none => s
  | some b =>
    if b.outstanding.isEmpty then s
    else failMember slot 0 true false (modBinding slot (fun b => { b with timeouts := satInc b.timeouts }) s)

/-- NVME_TIMEOUT. -/
def execNvmeTimeout (slot : BitVec 5) (s : State) : Host.Outcome State Fault Refusal := .next (settle (nvmeTimeout slot.toNat s))

end Sys2Proof.Machine
end

