-- ==== Sys2Proof/Machine/Boot.lean ====
section
/-!
DEFINITION. Start-up and resets: Primer's stages, the levels of reset, and what survives them (R488-R493, R504, R530-R535, R555-R557).
-/

namespace Sys2Proof.Machine

/-- Change Hedge. -/
def modHedge (f : Hedge → Hedge) (s : State) : State := { s with hedge := f s.hedge }

/-- Change Glacor. -/
def modTrust (f : Trust → Trust) (s : State) : State := { s with trust := f s.trust }

/-- An event for context 0, kept until it exists (R362, R443, R493, R507). -/
def sendOnce (code subject detail detail2 : Nat) (s : State) : State :=
  if (getCtx 0 s).isSome then sendAdmin code subject detail detail2 0 s
  else modHedge (fun h => { h with waiting := h.waiting ++ [(code, subject, detail, detail2)] }) s

/-! ### Pins (R510, R535) -/

/-- FAULT_N is driven low (R510), at a stop for want of firmware too (R488). -/
def faultLow (s : State) : Bool :=
  s.hedge.safe || s.hedge.sclkLost || s.hedge.tripped || s.hedge.supplyLatch || s.hedge.stopped

/-- ALIVE_N is driven low (R510): Primer is past stage 2, so the Main domain is out of reset, and the MP runs and kicks. -/
def aliveLow (s : State) : Bool := decide (2 < s.host.stage.toNat) && s.pwr.mpUp

/-- Everything that T0 needs (R530, R555, R557): rails within their windows and RESET_N released, and no trip that holds the Main
domain in reset. -/
def mayStart (s : State) : Bool :=
  s.hedge.resetN && s.hedge.aoOk && s.hedge.mainOk && s.hedge.railsOut.isEmpty && !s.hedge.tripped

/-! ### Reset of the Main domain (R533, R534) -/

/-- MGT_AVAIL's value (R541). -/
def availImage (p : Pwr) : Nat := packBits [(0, 32, p.lostMs.toNat), (32, 16, p.episodes.toNat)]

/-- Availability and ageing are written to the NOR (R541, R568). -/
def saveAvail (s : State) : State :=
  let s1 : State := { s with pwr := { s.pwr with norAvail := BitVec.ofNat 64 (availImage s.pwr) } }
  modHedge (fun h => { h with norShifts := h.shifts, norHours := h.eqHours }) s1

/-- Whether DRAM keeps what R534 names: the reset is orderly, DRAM held contents, and the rails that self-refresh needs, VDD2H and VDDQ,
are within their windows (R464, R507). -/
def keepsDram (orderly : Bool) (s : State) : Bool :=
  orderly && (decide (5 < s.host.stage.toNat) || s.hedge.retained) && !(s.hedge.railsOut.any fun r => decide (22 ≤ r))

/-- Power management after a reset, with the values that Primer restores from the NOR. -/
def Pwr.restored (nor : BitVec 64) : Pwr :=
  { Pwr.reset with norAvail := nor, lostMs := BitVec.ofNat 32 nor.toNat, episodes := BitVec.ofNat 16 (bits nor.toNat 32 16) }

/-- The Timing island where it is kept: every context's channels, gates and pending SET_TIME are gone with the contexts. -/
def Tim.hostGone (t : Tim) : Tim :=
  { t with chans := t.chans.map (fun c => { c with owner := none, stagingKb := 0, queue := [], openRec := [] }), gates := [none, none]
           setPending := none, relocking := false }

/-- The Timing island where it is reset: only what is fused stays. -/
def Tim.restart (t : Tim) : Tim := { Tim.reset with nominalGain := t.nominalGain }

/-- Skim after a reset of the Sample island: what is fused stays, and the learned tables where their shadow is kept (R139). -/
def Skim.restart (keep : Bool) (k : Skim) : Skim :=
  { Skim.reset with factory := k.factory, seeds := k.seeds, learned := if keep then k.learned else [] }

/-- Ports after a reset: their pins and references are as they are. -/
def Port.restart (p : Port) : Port := { Port.reset with perst := p.perst, refOk := p.refOk }

/-- The Main domain is reset (R533). Before an orderly reset the recorder is frozen and consolidated, and the NOR is written. -/
def resetMain (orderly : Bool) (cause : Nat) (keepTime : Bool) (s0 : State) : State :=
  let s1 := ppsOutLow (nowTick s0) (trigoutFall (nowTick s0) s0)
  let s2 := if orderly && decide (5 < s1.host.stage.toNat) then consolidate (freezeRecorder cause s1) else s1
  let s := if orderly && decide (s2.host.stage ≠ 0) then saveAvail s2 else s2
  let keep := keepsDram orderly s
  { s with
    tim := if keepTime then s.tim.hostGone else s.tim.restart
    adc := Adc.reset
    skm := { SkimAll.reset with pairs := s.skm.pairs.map (Skim.restart keep) }
    zdc := Zoom.reset, dsp := Dsp.reset, trg := Trig.reset, dpy := Disp.reset, dram := Dram.reset
    spu := { Spu.reset with record := s.spu.record }
    pwr := Pwr.restored s.pwr.norAvail
    link := { Link.reset with ports := s.link.ports.map Port.restart }
    mode := ModeSt.reset
    host := { HostSt.reset with part := s.host.part }
    disk := Disk.reset
    trust := { s.trust with sessions := [], ide := [], nego := [] }
    fr := if keep && s.fr.frozen then { s.fr with loaded := none, staged := none, feeding := false, ended := false } else Recorder.reset
    plans := [], nextPlan := 1, nextOrder := 1
    hedge := { s.hedge with retained := keep, stopped := false, shifts := s.hedge.norShifts, eqHours := s.hedge.norHours, lostFrom := [] } }

/-! ### Primer begins (R530) -/

/-- T0 of a Primer: stage 1 at a cold start, stage 2 at a warm restart. -/
def startPrimer (s : State) : State :=
  let s1 := modHost (fun h => { h with stage := if s.hedge.cold then 1 else 2 }) s
  modHedge (fun h => { h with t0 := nowTick s, fellBack := false }) s1

/-- Primer begins where everything that T0 needs is there and no Primer runs. -/
def tryStart (s : State) : State := if mayStart s && decide (s.host.stage = 0) then startPrimer s else s

/-- A warm restart (R533): an orderly reset of a Main domain that runs, and Primer from stage 2. -/
def warmRestart (s : State) : State := if s.host.stage = 0 then s else tryStart (resetMain true 8 true s)

/-- Always-on power is lost: every partition resets and only fuses and the NOR keep what they hold (R533, R557). -/
def powerLost (s : State) : State :=
  { State.reset with
    pending := s.pending, out := s.out, fresh := s.fresh
    spu := { Spu.reset with record := s.spu.record }
    pwr := Pwr.restored s.pwr.norAvail
    host := { HostSt.reset with part := s.host.part }
    hedge := { Hedge.reset with resetN := s.hedge.resetN, mainOk := s.hedge.mainOk, aoOk := false, shifts := s.hedge.norShifts
                                eqHours := s.hedge.norHours, norShifts := s.hedge.norShifts, norHours := s.hedge.norHours } }

/-- Always-on power is applied: `released` says that RESET_N is high, `rails` that every Main rail is within its window. -/
def coldStart (released rails : Bool) (s : State) : State :=
  tryStart (modHedge (fun h => { h with aoOk := true, resetN := released, mainOk := rails }) (powerLost s))

/-! ### Triplicated records (R492) -/

/-- What R492 decides on the verified copies (sequence number and content): the content used, if any, and which row decided: 0
agreement, 1 highest sequence number, 2 ROM default. -/
def chooseCopy {α : Type} [DecidableEq α] (l : List (Nat × α)) : Option (Nat × α) × Nat :=
  match l.find? (fun c => decide (2 ≤ (l.filter fun d => decide (d = c)).length)) with
  | some c => (some c, 0)
  | none =>
    let top := l.foldl (fun m c => max m c.1) 0
    match l.filter fun c => decide (c.1 = top) with
    | [c] => (some c, 1)
    | _ => (none, 2)

/-- Copies, by number, that differ from the one used. -/
def copiesToFix {α : Type} [DecidableEq α] (kind : Nat) (used : Option (Nat × α)) (l : List (Option (Nat × α))) : List (Nat × Nat) :=
  if used.isNone then [] else (l.zipIdx.filter fun c => decide (c.1 ≠ used)).map fun c => (kind, c.2)

/-- A record falls back to ROM defaults: SAFE, and RECORD_CONFLICT for context 0 (R493). -/
def fallBack (kind top : Nat) (s : State) : State :=
  sendOnce 0x0124 kind top 0 (modHedge (fun h => { h with safe := true, fellBack := true }) s)

/-! ### Stage 1: fuses (R489, R530) -/

/-- Stage 1 ends. -/
def stageFuses (f : Fuses) (s : State) : State :=
  let s1 := modTrust (fun t => { t with svnFused := f.svn, fuseVotes := satAdd t.fuseVotes f.votes.toNat, devId := f.devId
                                        meas := mapIf (fun m => decide (m.1 = 1)) (fun _ => (1, f.rom)) t.meas }) s
  let s2 := modTim (fun t => { t with nominalGain := f.gain }) s1
  let bin := fun (b : Nat × Nat × Int × Int × List Int) => (⟨b.1, b.2.1, b.2.2.1, b.2.2.2.1, b.2.2.2.2⟩ : TempBin)
  let load := fun (n : Nat) (k : Skim) => match f.skim.drop n with
    | [] => k
    | x :: _ => { k with factory := x.factory, seeds := x.seeds.map bin }
  let s3 : State := { s2 with skm := { s2.skm with pairs := s2.skm.pairs.zipIdx.map fun p => load p.2 p.1 } }
  modHedge (fun h => { h with cold := false }) (modHost (fun h => { h with stage := 2 }) s3)

/-! ### Stage 2: firmware and policy (R488, R504) -/

/-- The slot that the ROM runs (R488): of the slots that verify and are not below the fused counter, the one with the higher
security_version. -/
def chooseSlot (fused : Nat) (slots : List (Option Firmware)) : Option (Nat × Firmware) :=
  let ok := slots.zipIdx.filterMap fun x => match x.1 with
    | some f => if decide (fused ≤ f.svn.toNat) && decide (f.svn.toNat ≤ 64) then some (x.2, f) else none
    | none => none
  ok.foldl (fun best x => match best with
    | none => some x
    | some y => if y.2.svn < x.2.svn then some x else best) none

/-- Bytes that the signature of a policy block covers: all before it. -/
def policyEnd (b : Block) : Nat := 0x42 + blkFld b 0x40 2

/-- A policy block's fields are within the ranges of R504. -/
def policyRanges (b : Block) : Bool :=
  decide (blkFld b 0 4 = 0x48445031) && decide (blkFld b 4 2 = 1) && decide (blkFld b 6 2 = 0) && decide (blkFld b 8 4 ≠ 0)
    && ((List.range 4).all fun i => decide (blkByte b (0x0C + i) ≤ 60))
    && decide (1 ≤ blkByte b 0x10) && decide (blkByte b 0x10 ≤ 40)
    && decide (85 ≤ blkByte b 0x11) && decide (blkByte b 0x11 ≤ 105)
    && decide (100 ≤ blkByte b 0x12) && decide (blkByte b 0x12 ≤ 115) && decide (blkByte b 0x11 + 5 ≤ blkByte b 0x12)
    && decide (blkFld b 0x14 44 = 0)

/-- A stored policy block verifies (R502, R504): its certificate and signature, and its ranges. -/
def policyVerifies (b : Block) : Bool :=
  policyRanges b && decide (policyEnd b + 96 ≤ b.length)
    && Config.chainVerify ((b.drop 0x42).take (blkFld b 0x40 2)) (Config.sha384 (b.take (policyEnd b))) ((b.drop (policyEnd b)).take 96)

/-- The HO fields take a policy block, or the ROM defaults (R493). -/
def Hedge.loadPolicy (b : Option Block) (h : Hedge) : Hedge :=
  match b with
  | some b => { h with rfTrip := BitVec.ofNat 32 (blkFld b 0x0C 4), rfHyst := BitVec.ofNat 8 (blkByte b 0x10)
                       throttleC := BitVec.ofNat 8 (blkByte b 0x11), tripC := BitVec.ofNat 8 (blkByte b 0x12)
                       mboxAllow := BitVec.ofNat 8 (blkByte b 0x13), policySeq := BitVec.ofNat 32 (blkFld b 8 4) }
  | none => { h with rfTrip := 0, rfHyst := 8, throttleC := 95, tripC := 110, mboxAllow := 0x55, policySeq := 0 }

/-- The Hedge Policy Block is selected and loaded. -/
def loadPolicy (copies : List (Option Block)) (s : State) : State :=
  let read := copies.map fun c => (c.filter policyVerifies).map fun b => (blkFld b 8 4, b)
  let good := read.filterMap id
  let c := chooseCopy good
  let s1 := modHedge (Hedge.loadPolicy (c.1.map (·.2))) s
  let s2 := modTrust (fun t => { t with
    hpSource := BitVec.ofNat 2 c.2, hpSeq := BitVec.ofNat 32 ((c.1.map (·.1)).getD 0), norFix := copiesToFix 2 c.1 read
    meas := mapIf (fun m => decide (m.1 = 5)) (fun _ => (5, Config.sha384 ((c.1.map fun x => x.2.take (policyEnd x.2)).getD []))) t.meas }) s1
  if c.2 = 2 then fallBack 2 (good.foldl (fun m x => max m x.1) 0) s2 else s2

/-- Stage 2 ends. Without a firmware slot that verifies, Primer stops there. -/
def stageFirmware (slots : List (Option Firmware)) (policy : List (Option Block)) (s : State) : State :=
  match chooseSlot s.trust.svnFused.toNat slots with
  | none => modHedge (fun h => { h with stopped := true }) s
  | some (n, f) =>
    let d := freshValue 128 s
    let s1 := modTrust (fun t => { t with
      fwSvn := f.svn, fwSlot := BitVec.ofNat 1 n, fwCommit := f.commit, fwMinPatch := f.minPatch, debug := t.udsBlocked
      keysValid := !t.udsBlocked, primers := t.primers + 1, dbgNonce := d.1
      meas := mapIf (fun m => decide (m.1 = 2)) (fun _ => (2, f.digest)) t.meas }) d.2
    let s2 := loadPolicy policy (modHost (fun h => { h with fwVersion := f.version, stage := 3 }) s1)
    { s2 with pwr := { s2.pwr with mpUp := true } }

/-! ### Stage 3: microcode (R358, R360-R362) -/

/-- The match table of a patch's plaintext. -/
def readTable (p : Block) : List (Nat × Nat × Bool) :=
  (List.range 64).map fun k => let e := blkFld p (4 * k) 4; (bits e 0 14, bits e 14 10, bit e 24)

/-- A microword's two parity groups hold an even number of ones each (R351). -/
def parityOk (w : Nat) : Bool :=
  let ones := fun (p : Nat) => ((List.range 88).filter fun i => bit w (2 * i + p)).length
  decide (ones 0 % 2 = 0) && decide (ones 1 % 2 = 0)

/-- The patch words of a plaintext. -/
def readPatch (p : Block) (n : Nat) : List Nat := (List.range n).map fun k => blkFld p (256 + 24 * k) 24

/-- The structure check of R361. -/
def patchStructure (h p : Block) : Bool :=
  let words := blkFld h 0x12 2
  let used := blkFld h 0x10 2
  let t := readTable p
  let on := t.filter (·.2.2)
  decide (blkFld h 0 4 = 0x55435031) && decide (blkFld h 4 2 = 1) && decide (blkFld h 6 2 = 0) && decide (blkFld h 8 4 ≠ 0)
    && decide (blkFld h 0x34 76 = 0) && decide (used ≤ 64) && decide (words ≤ 1024) && decide (blkFld h 0x30 4 = 256 + 24 * words)
    && ((List.range 64).all fun k => decide (bits (blkFld p (4 * k) 4) 25 7 = 0))
    && (t.zipIdx.all fun e => !e.1.2.2 || decide (e.2 < used))
    && decide ((on.map (·.1)).eraseDups.length = on.length)
    && (on.all fun e => decide (e.2.1 < words))
    && ((readPatch p words).all fun w => decide (w < 2 ^ 176) && parityOk w)

/-- The first check of R361 that a patch image fails, or its plaintext. -/
def openPatch (img : Block) (minVersion : Nat) : Except Nat Block :=
  let h := img.take 128
  let n := blkFld h 0x30 4
  if img.length ≠ 128 + n + 96 then .error 1
  else if !Config.patchVerify (Config.sha384 (img.take (128 + n))) (img.drop (128 + n)) then .error 1
  else
    let aad := h.take 0x20 ++ List.replicate 16 0 ++ h.drop 0x30
    match Config.patchOpen ((h.drop 0x14).take 12) aad ((img.drop 128).take n) ((h.drop 0x20).take 16) with
    | none => .error 2
    | some p =>
      if blkFld h 0x0C 4 ≠ Config.romId.toNat || blkFld h 8 4 < minVersion then .error 3
      else if patchStructure h p then .ok p else .error 4

/-- The patch is loaded into every unit, or every unit runs on ROM alone. -/
def loadPatch (image : Option Block) (s : State) : State :=
  let bare := fun (st reject : Nat) (s : State) =>
    let s1 : State := { s with spu := { s.spu with
      patchState := BitVec.ofNat 2 st, patchVersion := 0, patchWords := 0, reject := BitVec.ofNat 3 reject, digest := 0, patch := []
      table := List.replicate 64 (0, 0, false) } }
    modTrust (fun t => { t with meas := mapIf (fun m => decide (m.1 = 3)) (fun _ => (3, Config.sha384 [])) t.meas }) s1
  match image with
  | none => bare 0 0 s
  | some img =>
    match openPatch img s.trust.fwMinPatch.toNat with
    | .error k => sendOnce 0x0042 0 k 0 (bare 2 k s)
    | .ok p =>
      let dig := Config.sha384 img
      let s1 : State := { s with spu := { s.spu with
        patchState := 1, patchVersion := BitVec.ofNat 32 (blkFld img 8 4), patchWords := BitVec.ofNat 11 (blkFld img 0x12 2), reject := 0
        digest := BitVec.ofNat 64 dig.toNat, patch := readPatch p (blkFld img 0x12 2), table := readTable p } }
      modTrust (fun t => { t with meas := mapIf (fun m => decide (m.1 = 3)) (fun _ => (3, dig)) t.meas }) s1

/-- Units take logical numbers around the retired ones (R283, R358): the spare stands in for the first; a further retired unit's number
is not allocated. -/
def Spu.assign (x : Spu) : Spu :=
  let gone := (List.range 16).filter fun n => bit x.retired.toNat n
  let spareOk := !bit x.retired.toNat 16
  let used := spareOk && !gone.isEmpty
  let place := fun (n : Nat) (l : Lsu) =>
    if !bit x.retired.toNat n then l
    else if used && decide (gone.head? = some n) then { l with phys := 16 }
    else { l with state := 4 }
  { x with lsus := x.lsus.zipIdx.map (fun l => place l.2 l.1), spareUsed := used, spare := if spareOk && !used then 16 else 31 }

/-- Stage 3 ends. -/
def stageMicrocode (image : Option Block) (romFails : BitVec 17) (s : State) : State :=
  let rec0 := s.spu.record ||| romFails
  let s1 := loadPatch image s
  let s2 : State := { s1 with spu := ({ s1.spu with record := rec0, retired := rec0 }).assign }
  modHost (fun h => { h with stage := 4 }) s2

/-! ### Stage 4: the board table (R38, R54, R475, R492) -/

/-- The sixty-four AMC slots that a board table gives, in order. -/
def amcSlots (l : List (BitVec 5 × BitVec 13)) : List (BitVec 5 × BitVec 13) := (List.range 64).map fun k => nth l k (0, 0)

/-- What a board table sets in the Timing and Sample islands and the lanes. -/
def applyBoard (b : BoardTable) (s : State) : State :=
  let s1 := modTim (fun t => { t with
    refFreq := b.refFreq, sclkIn := b.sclk.isSome, ppsDelay := b.ppsDelay, ppsFalling := b.ppsFalling
    rateNum := (b.sclk.map (·.1)).getD t.rateNum, rateDen := (b.sclk.map (·.2)).getD t.rateDen }) s
  let s2 := modAdc (fun a => { a with
    pairs := a.pairs.zipIdx.map fun p => let st := nth b.steps p.2 15; { p.1 with defStep := st, fsStep := st }
    amc := match b.amc with | some t => { a.amc with seq := amcSlots t.1, lastSlot := t.2 } | none => a.amc }) s1
  let s3 := modLink (fun l => { l with table := (List.range 96).map fun k => nth b.eq k 0 }) s2
  let mb := b.frMb
  modFr (fun r => if r.frozen then r else { r with windowMb := if mb = 0 then 512 else BitVec.ofNat 16 mb }) s3

/-- What the ROM default board table sets (R493). -/
def defaultBoard (s : State) : State :=
  modTim (fun t => { t with refFreq := 1, sclkIn := false, ppsDelay := 0, ppsFalling := false }) s

/-- The rate in force before any plan has run: the grade's highest (R1). -/
def gradeRate (s : State) : State :=
  if s.tim.sclkIn then s else modTim (fun t => { t with rateNum := topRate s, rateDen := 1 }) s

/-- The Timing island starts (R54); stages 1 to 4 took at most 140 ms from T0, by a time that is a free value. -/
def startTiming (refclk : Bool) (s : State) : State :=
  if s.tim.running then s
  else
    let d := freshValue 32 s
    let s1 := modTim (fun t => { t with running := true, refOk := refclk, tpllLock := refclk, refclkLost := !refclk }) d.2
    modHedge (fun h => { h with t0 := -((d.1.toNat % (140 * 800000 + 1) : Nat) : Int) }) s1

/-- Measurement 7 (R495). -/
def statusMeasure (s : State) : BitVec 384 :=
  Config.sha384 [BitVec.ofNat 8 (b2n s.trust.debug), BitVec.ofNat 8 (b2n s.hedge.safe), BitVec.ofNat 8 s.trust.btSource.toNat
    , BitVec.ofNat 8 s.trust.hpSource.toNat]

/-- DRAM takes the geometry of the board table, if it gives one; its channels wait for stage 5. -/
def boardDram (b : Option BoardDram) (s : State) : State :=
  match b with
  | none => modDram (fun d => { d with geom := { d.geom with ranks := 0 } }) s
  | some g => modDram (fun d => { d with
      geom := ⟨g.ranks, g.dieGb, g.trfcNs, g.rowPerm, g.rowXor, g.bankHash⟩, dieGb := BitVec.ofNat 3 g.dieGb, rfm := g.rfm }) s

/-- Stage 4 ends. -/
def stageBoard (copies : List (Option BoardTable)) (certs : List Byte) (refclk : Bool) (s : State) : State :=
  let read := copies.map fun c => c.map fun b => (b.seq.toNat, b)
  let good := read.filterMap id
  let c := chooseCopy good
  let used := c.1.map (·.2)
  let s1 := boardDram (used.bind (·.dram)) (match used with | some b => applyBoard b s | none => defaultBoard s)
  let s2 := modTrust (fun t => { t with
    btSource := BitVec.ofNat 2 c.2, btSeq := (used.map (·.seq)).getD 0, certs, norFix := t.norFix ++ copiesToFix 1 c.1 read
    meas := mapIf (fun m => decide (m.1 = 4)) (fun _ => (4, (used.map (·.digest)).getD (Config.sha384 []))) t.meas }) s1
  let s3 := if c.2 = 2 then fallBack 1 (good.foldl (fun m x => max m x.1) 0) s2 else s2
  let s4 := setMaxRate 1 (setMaxRate 0 (startTiming refclk (gradeRate (primerMode ((used.map (·.mode)).getD 0) s3))))
  let s5 := modTrust (fun t => { t with meas := mapIf (fun m => decide (m.1 = 7)) (fun _ => (7, statusMeasure s4)) t.meas }) s4
  modHost (fun h => { h with stage := 5 }) s5

/-! ### Stage 5: DRAM (R442, R443, R530) -/

/-- Two-rank channels with 24 Gb or 32 Gb dies are refused (R442), and so is a board table without geometry (R493). -/
def geometryOk (s : State) : Bool :=
  let g := s.dram.geom
  (decide (g.ranks = 1) && decide (2 ≤ g.dieGb) && decide (g.dieGb ≤ 4)) || (decide (g.ranks = 2) && decide (g.dieGb = 2))

/-- The channels come into service, but for those that failed; their ranks' refresh begins (R443, R456). -/
def openChannels (failed mismatch : BitVec 12) (s : State) : State :=
  let t := dramClock s
  let ok := geometryOk s
  let chan := fun (n : Nat) (c : Chan) =>
    { c with online := ok && !bit failed.toNat n && !bit mismatch.toNat n
             ranks := List.replicate s.dram.geom.ranks { Rank.reset with lastDue := t } }
  let s1 := modDram (fun d => { d with chans := d.chans.zipIdx.map fun c => chan c.2 c.1 }) s
  let live := s1.dram.inService.length
  if !ok then s1
  else
    (List.range 12).foldl (fun s n =>
      if bit mismatch.toNat n then sendOnce 0x0111 n 3 live s
      else if bit failed.toNat n then sendOnce 0x0111 n 2 live s else s) s1

/-- The general region is zeroed, and the recorder's window and the Skim shadow are reserved first (R26). -/
def reserveFirst (s : State) : State :=
  (allocateAll [(.recorder, s.fr.windowMb.toNat * 2 ^ 20), (.skimShadow, granule)] s).getD s

/-- A pair's Skim as Primer leaves it (R128): the factory set in force, epoch 0. -/
def Skim.primed (k : Skim) : Skim :=
  { k with start := k.factory, target := k.factory, cur := k.factory, fgSets := List.replicate 16 k.factory, epoch := 0, ramp := false }

/-- The pairs power up at stage 6, and FOREGROUND begins (R63, R92, R140). The first anchor ties sample 0 to device time (R64). -/
def powerPairs (offset : Nat) (s : State) : State :=
  let s1 := modTim (fun t => { t with sclkLock := !s.hedge.sclkLost, base := none, anchor := none }) s
  let s2 : State := { s1 with skm := { s1.skm with pairs := s1.skm.pairs.map Skim.primed } }
  let s3 := (List.range 4).foldl (fun s n => modPair n (fun p => { p.powerUp with running := true, next := 0 }) s) s2
  let a : Anchor := { time := now s3, index := 0, offset := offset, ppsOffset := s3.tim.secOffset.getD 0, rateNum := s3.tim.rateNum
                      rateDen := s3.tim.rateDen, flags := 2 + b2n s3.tim.secOffset.isNone + (if s3.tim.refclkLost then 8 else 0)
                      quality := s3.tim.quality }
  (List.range 4).foldl (fun s n => startForeground n s) (emitAnchor a (modTim (fun t => { t with base := some a }) s3))

/-- Stage 5 ends. -/
def stageMemory (failed mismatch : BitVec 12) (offset : Nat) (s : State) : State :=
  let s1 := openChannels failed mismatch s
  let live := !s1.dram.inService.isEmpty
  let s2 := if live then reserveFirst s1 else modHedge (fun h => { h with fellBack := true }) s1
  let s3 := modHedge (fun h => { h with safe := h.fellBack }) s2
  let s4 := modHost (fun h => { h with adminReady := true, stage := 6 }) s3
  powerPairs offset s4

/-! ### Stage 6 and the end (R140, R488, R492, R540) -/

/-- The end of Primer: the fused counter follows committed firmware, and the NOR's copies are rewritten but under SAFE. -/
def finishPrimer (s : State) : State :=
  let s1 := if s.trust.fwCommit then modTrust (fun t => { t with svnFused := if t.svnFused < t.fwSvn then t.fwSvn else t.svnFused }) s else s
  let s2 := if s1.hedge.safe then s1
    else s1.trust.norFix.foldl (fun s c => emit (.nor "rewrite" [⟨0, 1, c.1⟩, ⟨1, 1, c.2⟩]) s) s1
  modTrust (fun t => { t with norFix := [] }) s2

/-- Stage 6 ends: CAL_READY whatever FOREGROUND found. -/
def stageCalibration (sets : List (List (List Int))) (trims : List Int) (lostMs : Nat) (s : State) : State :=
  let s1 := (List.range 4).foldl (fun s n => foregroundEnd n (nth sets n []) trims s) s
  let s2 := finishPrimer (modHost (fun h => { h with calReady := true, stage := 7 }) s1)
  let s3 := if s2.hedge.countRestart then countLost lostMs s2 else s2
  let s4 : State := { s3 with pwr := { s3.pwr with since := nowTick s3, lastCal := nowTick s3 } }
  modHedge (fun h => { h with countRestart := false, retained := false, supplyLatch := h.supplyLatch && !h.railsOut.isEmpty }) s4

/-- A Primer stage ends with what it found; a stage that does not run, or a stopped Primer, does nothing. -/
def primerEnd (w : PrimerWork) (s : State) : State :=
  if s.hedge.stopped then s
  else match w, s.host.stage.toNat with
  | .fuses f, 1 => stageFuses f s
  | .firmware slots policy, 2 => stageFirmware slots policy s
  | .microcode image romFails, 3 => stageMicrocode image romFails s
  | .board copies certs refclk, 4 => stageBoard copies certs refclk s
  | .memory failed mismatch offset, 5 => stageMemory failed mismatch offset.toNat s
  | .calibration sets trims lostMs, 6 => stageCalibration sets trims lostMs s
  | _, _ => s

/-- IDCODE of the part (R576). -/
def idcode (s : State) : Nat := if s.host.part = 0x4108 then 0xB4108A3F else 0xB4128A3F

/-- A JTAG instruction is loaded (R576): EXTEST is offered only while RESET_N is low, and an instruction that is not offered selects
BYPASS. IDCODE presents the part's code. -/
def loadJtag (i : JtagInstr) (s : State) : State :=
  let j := if decide (i = .extest) && s.hedge.resetN then .bypass else i
  let s1 := modHedge (fun h => { h with jtag := j }) s
  if j = .idcode then emit (.idcode (idcode s)) s1 else s1

/-! ### The commands -/

/-- COLD_START. -/
def execColdStart (released rails : Bool) (s : State) : Host.Outcome State Fault Refusal := .next (coldStart released rails s)

/-- RESET_N_RELEASE: `rails` says that every Main rail is within its window. -/
def execResetNRelease (rails : Bool) (s : State) : Host.Outcome State Fault Refusal :=
  .next (tryStart (modHedge (fun h => { h with
    resetN := true, mainOk := h.mainOk || rails, jtag := if h.jtag = .extest then .bypass else h.jtag }) s))

/-- RESET_N_ASSERT. -/
def execResetNAssert (s : State) : Host.Outcome State Fault Refusal :=
  .next (if s.hedge.resetN then
    modHedge (fun h => { h with resetN := false }) (if s.host.stage = 0 then s else resetMain true 8 true s) else s)

/-- MAIN_RAILS_IN_WINDOW. -/
def execMainRailsInWindow (s : State) : Host.Outcome State Fault Refusal :=
  .next (tryStart (modHedge (fun h => { h with mainOk := true }) s))

/-- ALWAYS_ON_RAIL_LOSS. -/
def execAlwaysOnRailLoss (s : State) : Host.Outcome State Fault Refusal := .next (powerLost s)

/-- WARM_RESTART. -/
def execWarmRestart (s : State) : Host.Outcome State Fault Refusal := .next (warmRestart s)

/-- PRIMER_STAGE_END. -/
def execPrimerStageEnd (w : PrimerWork) (s : State) : Host.Outcome State Fault Refusal := .next (settle (primerEnd w s))

/-- CONFIGURATION_REQUEST: answered with a retry until stage 4 ends, and never where Primer stopped at stage 2. -/
def execConfigurationRequest (port : BitVec 1) (s : State) : Host.Outcome State Fault Refusal :=
  .next (if s.hedge.stopped || decide (s.host.stage.toNat < 2) then s
    else emit (.config port.toNat (decide (s.host.stage.toNat < 5))) s)

/-- JTAG_INSTRUCTION. -/
def execJtagInstruction (i : JtagInstr) (s : State) : Host.Outcome State Fault Refusal :=
  .next (loadJtag i s)

end Sys2Proof.Machine
end

