-- ==== Sys2Proof/Machine/Descriptors.lean ====
section
/-!
DEFINITION. The meanings of the descriptor commands: a context posts a descriptor of the form, with the host blocks it names.
-/

namespace Sys2Proof.Machine

/-- NOOP (R404). -/
def execNoop (d : Sub) (s : State) : Host.Outcome State Fault Refusal :=
  .next (submitDesc .noop d [] s)

/-- BAD_OPCODE (R405). -/
def execBadOpcode (d : Sub) (opcode : BitVec 8) (s : State) : Host.Outcome State Fault Refusal :=
  .next (submitDesc (.bad opcode) d [] s)

/-- FENCE (R408). -/
def execFence (d : Sub) (s : State) : Host.Outcome State Fault Refusal :=
  .next (submitDesc .fence d [] s)

/-- TIME_WAIT (R409). -/
def execTimeWait (d : Sub) (s : State) : Host.Outcome State Fault Refusal :=
  .next (submitDesc .timeWait d [] s)

/-- MODE_SET (R37). -/
def execModeSet (d : Sub) (s : State) : Host.Outcome State Fault Refusal :=
  .next (submitDesc .modeSet d [] s)

/-- CONTEXT_CREATE (R376). -/
def execContextCreate (d : Sub) (s : State) : Host.Outcome State Fault Refusal :=
  .next (submitDesc .contextCreate d [] s)

/-- CONTEXT_DESTROY (R377). -/
def execContextDestroy (d : Sub) (s : State) : Host.Outcome State Fault Refusal :=
  .next (submitDesc .contextDestroy d [] s)

/-- RING_CREATE (R385). -/
def execRingCreate (d : Sub) (s : State) : Host.Outcome State Fault Refusal :=
  .next (submitDesc .ringCreate d [] s)

/-- RING_DESTROY (R386). -/
def execRingDestroy (d : Sub) (s : State) : Host.Outcome State Fault Refusal :=
  .next (submitDesc .ringDestroy d [] s)

/-- PLAN_CREATE (R41). -/
def execPlanCreate (d : Sub) (r : List HostRead) (s : State) : Host.Outcome State Fault Refusal :=
  .next (submitDesc .planCreate d r s)

/-- PLAN_START (R42). -/
def execPlanStart (d : Sub) (r : List HostRead) (s : State) : Host.Outcome State Fault Refusal :=
  .next (submitDesc .planStart d r s)

/-- PLAN_STOP (R415). -/
def execPlanStop (d : Sub) (s : State) : Host.Outcome State Fault Refusal :=
  .next (submitDesc .planStop d [] s)

/-- PLAN_DESTROY (R415). -/
def execPlanDestroy (d : Sub) (s : State) : Host.Outcome State Fault Refusal :=
  .next (submitDesc .planDestroy d [] s)

/-- WINDOW_LOAD_TABLE (R182). -/
def execWindowLoadTable (d : Sub) (r : List HostRead) (s : State) : Host.Outcome State Fault Refusal :=
  .next (submitDesc .windowTable d r s)

/-- WINDOW_LOAD_DROP (R182). -/
def execWindowLoadDrop (d : Sub) (s : State) : Host.Outcome State Fault Refusal :=
  .next (submitDesc .windowDrop d [] s)

/-- WINDOW_LOAD_RECONFIGURE (R195). -/
def execWindowLoadReconfigure (d : Sub) (s : State) : Host.Outcome State Fault Refusal :=
  .next (submitDesc .windowReconfigure d [] s)

/-- MASK_LOAD (R230). -/
def execMaskLoad (d : Sub) (r : List HostRead) (s : State) : Host.Outcome State Fault Refusal :=
  .next (submitDesc .maskLoad d r s)

/-- MASK_DROP (R230). -/
def execMaskDrop (d : Sub) (s : State) : Host.Outcome State Fault Refusal :=
  .next (submitDesc .maskDrop d [] s)

/-- TRIGGER_ARM (R235). -/
def execTriggerArm (d : Sub) (s : State) : Host.Outcome State Fault Refusal :=
  .next (submitDesc .triggerArm d [] s)

/-- TRIGGER_DISARM (R235). -/
def execTriggerDisarm (d : Sub) (s : State) : Host.Outcome State Fault Refusal :=
  .next (submitDesc .triggerDisarm d [] s)

/-- CAPTURE_READ_SEGMENTS (R247). -/
def execCaptureReadSegments (d : Sub) (s : State) : Host.Outcome State Fault Refusal :=
  .next (submitDesc .captureReadSegments d [] s)

/-- CAPTURE_READ_WORDS (R247). -/
def execCaptureReadWords (d : Sub) (s : State) : Host.Outcome State Fault Refusal :=
  .next (submitDesc .captureReadWords d [] s)

/-- CAPTURE_RELEASE (R247). -/
def execCaptureRelease (d : Sub) (s : State) : Host.Outcome State Fault Refusal :=
  .next (submitDesc .captureRelease d [] s)

/-- SPU_LOAD (R308). -/
def execSpuLoad (d : Sub) (r : List HostRead) (s : State) : Host.Outcome State Fault Refusal :=
  .next (submitDesc .spuLoad d r s)

/-- SPU_LAUNCH (R309). -/
def execSpuLaunch (d : Sub) (r : List HostRead) (s : State) : Host.Outcome State Fault Refusal :=
  .next (submitDesc .spuLaunch d r s)

/-- SPU_SIGNAL (R310). -/
def execSpuSignal (d : Sub) (s : State) : Host.Outcome State Fault Refusal :=
  .next (submitDesc .spuSignal d [] s)

/-- SPU_STOP (R310). -/
def execSpuStop (d : Sub) (s : State) : Host.Outcome State Fault Refusal :=
  .next (submitDesc .spuStop d [] s)

/-- STREAM_OPEN_RING (R424). -/
def execStreamOpenRing (d : Sub) (s : State) : Host.Outcome State Fault Refusal :=
  .next (submitDesc .streamOpenRing d [] s)

/-- STREAM_OPEN_DISK (R424). -/
def execStreamOpenDisk (d : Sub) (s : State) : Host.Outcome State Fault Refusal :=
  .next (submitDesc .streamOpenDisk d [] s)

/-- STREAM_CLOSE (R426). -/
def execStreamClose (d : Sub) (s : State) : Host.Outcome State Fault Refusal :=
  .next (submitDesc .streamClose d [] s)

/-- DISK_BIND (R432). -/
def execDiskBind (d : Sub) (r : List HostRead) (s : State) : Host.Outcome State Fault Refusal :=
  .next (submitDesc .diskBind d r s)

/-- DISK_UNBIND (R437). -/
def execDiskUnbind (d : Sub) (s : State) : Host.Outcome State Fault Refusal :=
  .next (submitDesc .diskUnbind d [] s)

/-- DISPLAY_OUTPUT (R269). -/
def execDisplayOutput (d : Sub) (r : List HostRead) (s : State) : Host.Outcome State Fault Refusal :=
  .next (submitDesc .displayOutput d r s)

/-- DISPLAY_LAYER (R270). -/
def execDisplayLayer (d : Sub) (s : State) : Host.Outcome State Fault Refusal :=
  .next (submitDesc .displayLayer d [] s)

/-- DISPLAY_LUT_LOAD (R271). -/
def execDisplayLutLoad (d : Sub) (r : List HostRead) (s : State) : Host.Outcome State Fault Refusal :=
  .next (submitDesc .displayLutLoad d r s)

/-- PANEL_CMD (R274). -/
def execPanelCmd (d : Sub) (r : List HostRead) (s : State) : Host.Outcome State Fault Refusal :=
  .next (submitDesc .panelCmd d r s)

/-- LAYER_OFF (R270). -/
def execLayerOff (d : Sub) (s : State) : Host.Outcome State Fault Refusal :=
  .next (submitDesc .layerOff d [] s)

/-- OUTPUT_OFF (R269). -/
def execOutputOff (d : Sub) (s : State) : Host.Outcome State Fault Refusal :=
  .next (submitDesc .outputOff d [] s)

/-- DISPLAY_FLIP (R276). -/
def execDisplayFlip (d : Sub) (s : State) : Host.Outcome State Fault Refusal :=
  .next (submitDesc .displayFlip d [] s)

/-- TDC_ENABLE (R72). -/
def execTdcEnable (d : Sub) (s : State) : Host.Outcome State Fault Refusal :=
  .next (submitDesc .tdcEnable d [] s)

/-- TDC_RELEASE (R69). -/
def execTdcRelease (d : Sub) (s : State) : Host.Outcome State Fault Refusal :=
  .next (submitDesc .tdcRelease d [] s)

/-- TDC_GATE_INTERVAL (R80). -/
def execTdcGateInterval (d : Sub) (r : List HostRead) (s : State) : Host.Outcome State Fault Refusal :=
  .next (submitDesc .tdcGateInterval d r s)

/-- TDC_GATE_FREQUENCY (R82). -/
def execTdcGateFrequency (d : Sub) (r : List HostRead) (s : State) : Host.Outcome State Fault Refusal :=
  .next (submitDesc .tdcGateFrequency d r s)

/-- CAL_SET_MODE (R144). -/
def execCalSetMode (d : Sub) (s : State) : Host.Outcome State Fault Refusal :=
  .next (submitDesc .calSetMode d [] s)

/-- CAL_MANUAL_LOAD (R144). -/
def execCalManualLoad (d : Sub) (r : List HostRead) (s : State) : Host.Outcome State Fault Refusal :=
  .next (submitDesc .calManualLoad d r s)

/-- CAL_FENCE (R136). -/
def execCalFence (d : Sub) (s : State) : Host.Outcome State Fault Refusal :=
  .next (submitDesc .calFence d [] s)

/-- CAL_RAMP_LENGTH (R133). -/
def execCalRampLength (d : Sub) (s : State) : Host.Outcome State Fault Refusal :=
  .next (submitDesc .calRampLength d [] s)

/-- RUN_FOREGROUND (R140). -/
def execRunForeground (d : Sub) (s : State) : Host.Outcome State Fault Refusal :=
  .next (submitDesc .runForeground d [] s)

/-- TABLE_RESET (R139). -/
def execTableReset (d : Sub) (s : State) : Host.Outcome State Fault Refusal :=
  .next (submitDesc .tableReset d [] s)

/-- SET_TIME_NEXT_PPS (R57). -/
def execSetTimeNextPps (d : Sub) (s : State) : Host.Outcome State Fault Refusal :=
  .next (submitDesc .setTimePps d [] s)

/-- SET_TIME_IMMEDIATE (R57). -/
def execSetTimeImmediate (d : Sub) (s : State) : Host.Outcome State Fault Refusal :=
  .next (submitDesc .setTimeImmediate d [] s)

/-- POWER_HINT_CAP (R526). -/
def execPowerHintCap (d : Sub) (s : State) : Host.Outcome State Fault Refusal :=
  .next (submitDesc .powerHintCap d [] s)

/-- POWER_HINT_NEXT_EVENT (R526). -/
def execPowerHintNextEvent (d : Sub) (s : State) : Host.Outcome State Fault Refusal :=
  .next (submitDesc .powerHintNextEvent d [] s)

/-- POWER_HINT_UNCAP (R526). -/
def execPowerHintUncap (d : Sub) (s : State) : Host.Outcome State Fault Refusal :=
  .next (submitDesc .powerHintUncap d [] s)

/-- FLIGHT_READ (R545). -/
def execFlightRead (d : Sub) (s : State) : Host.Outcome State Fault Refusal :=
  .next (submitDesc .flightRead d [] s)

/-- REPLAY_LOAD_HOST (R548). -/
def execReplayLoadHost (d : Sub) (r : List HostRead) (s : State) : Host.Outcome State Fault Refusal :=
  .next (submitDesc .replayLoadHost d r s)

/-- REPLAY_LOAD_FLIGHT (R548). -/
def execReplayLoadFlight (d : Sub) (s : State) : Host.Outcome State Fault Refusal :=
  .next (submitDesc .replayLoadFlight d [] s)

/-- REPLAY_UNLOAD (R548). -/
def execReplayUnload (d : Sub) (s : State) : Host.Outcome State Fault Refusal :=
  .next (submitDesc .replayUnload d [] s)

/-- ATTEST_BIND (R499). -/
def execAttestBind (d : Sub) (s : State) : Host.Outcome State Fault Refusal :=
  .next (submitDesc .attestBind d [] s)

/-- SELFTEST (R578). -/
def execSelftest (d : Sub) (s : State) : Host.Outcome State Fault Refusal :=
  .next (submitDesc .selftest d [] s)

/-- CLEAR_RETIREMENT (R358). -/
def execClearRetirement (d : Sub) (s : State) : Host.Outcome State Fault Refusal :=
  .next (submitDesc .clearRetirement d [] s)

/-- LANE_TEST_ENTER (R482). -/
def execLaneTestEnter (d : Sub) (s : State) : Host.Outcome State Fault Refusal :=
  .next (submitDesc .laneTestEnter d [] s)

/-- LANE_TEST_EXIT (R482). -/
def execLaneTestExit (d : Sub) (s : State) : Host.Outcome State Fault Refusal :=
  .next (submitDesc .laneTestExit d [] s)

/-- DRAM_TEST (R418). -/
def execDramTest (d : Sub) (s : State) : Host.Outcome State Fault Refusal :=
  .next (submitDesc .dramTest d [] s)

end Sys2Proof.Machine
end

