-- ==== Sys2Proof/Machine/Guard.lean ====
section
/-!
DEFINITION. What Hedge and the management processor do by themselves: input protection, thermal and supply guards, the watchdog,
mailbox requests, the thermal ladder, island resets, ageing (R505-R512, R533, R538-R541, R568).
-/

namespace Sys2Proof.Machine

/-! ### Input protection (R505) -/

/-- Pairs routed from an input. -/
def pairsOfInput (i : Nat) (s : State) : List Nat := (List.range 4).filter fun n => decide ((getPair n s).route.toNat = i)

/-- Context 0, and the owners of running plans that hold a pair routed from an input. -/
def inputContexts (i : Nat) (s : State) : List Nat :=
  let ps := pairsOfInput i s
  let own := (s.plans.filter fun p => decide (p.phase = .running) && ps.any fun n => p.holdsPair n).map (·.ctx)
  (0 :: own).eraseDups

/-- The attenuator of an input engages, or its hold timer restarts; the first trip of an episode is counted and reported. -/
def engage (i reason : Nat) (s : State) : State :=
  let was := bit s.hedge.protect.toNat i
  let s1 := modHedge (fun h => { h with
    protect := h.protect ||| BitVec.ofNat 4 (2 ^ i), holds := modNth h.holds i fun _ => nowTick s + 800000
    protects := if was then h.protects else modNth h.protects i (· + 1) }) s
  if was then s1
  else
    let index := match pairsOfInput i s with | [] => 0 | n :: _ => (getPair n s).next
    (inputContexts i s1).foldl (fun s c => sendEvent c 0x0120 i index reason 0 s) s1

/-- RF_TRIP: the magnitude reaches the trip level, or on an engaged input the level less rf_hyst only. -/
def rfTrip (i : Nat) (tripped : Bool) (s : State) : State :=
  if s.hedge.aoOk && (tripped || bit s.hedge.protect.toNat i) then engage i 1 s else s

/-- The hold timer of an input expires: the attenuator releases, and its pairs settle for 256 words more (R100). -/
def rfRelease (i : Nat) (s0 : State) : State :=
  if !bit s0.hedge.protect.toNat i then s0
  else
    let s := advanceToTick (nth s0.hedge.holds i 0) s0
    let s1 := modHedge (fun h => { h with protect := h.protect &&& ~~~(BitVec.ofNat 4 (2 ^ i)) }) s
    (pairsOfInput i s1).foldl (fun s n => modPair n (Pair.settle 256) s) s1

/-! ### Temperatures (R506, R514) -/

/-- A sensor reads a value: the readings and the peak. -/
def sense (sensor : Nat) (temp : Int) (s : State) : State :=
  modHedge (fun h => { h with temps := modNth h.temps sensor fun _ => temp, tjPeak := max h.tjPeak temp }) s

/-- The hottest reading. -/
def tj (s : State) : Int := s.hedge.temps.foldl (fun m t => max m t) (s.hedge.temps.headD 0)

/-- The first sensor with the hottest reading. -/
def hotSensor (s : State) : Nat := s.hedge.temps.findIdx fun t => decide (t = tj s)

/-! ### The thermal ladder (R538) -/

/-- Every stream has the overlap that the step allows, at a switch point of R196; a switch already asked for keeps its own answer. -/
def ladderStream (plan idx : Nat) (s : State) : State :=
  match getX plan idx s with
  | none => s
  | some x =>
    let ov := ladderOverlap s.pwr.step.toNat x.own
    match x.switch with
    | some w => if w.cfg.overlap = ov then s else modX plan idx (fun x => { x with switch := some { w with cfg := { w.cfg with overlap := ov } } }) s
    | none => if x.cfg.overlap = ov then s else askSwitch x { x.cfg with overlap := ov } (1024, 0) s

/-- Front units one of whose slots runs again: their chains restart as after a GAP (R168). -/
def restoreSlots (before : State) (s : State) : State :=
  (List.range 8).foldl (fun s u =>
    let f := getFront u s
    if f.plan.isSome && ((slotsOf u s).any fun n => slotStopped n before && !slotStopped n s) then
      startChain u (getPair f.pair s).next true s
    else s) s

/-- The ladder takes or undoes a step. -/
def ladderTo (step : Nat) (up : Bool) (s : State) : State :=
  let s1 : State := { s with pwr := { s.pwr with
    step := BitVec.ofNat 3 step, stepTick := nowTick s
    stepsDown := if up then s.pwr.stepsDown else satInc s.pwr.stepsDown
    stepsUp := if up then satInc s.pwr.stepsUp else s.pwr.stepsUp } }
  let s2 := (s1.dsp.streams.map fun x => (x.plan, x.idx)).foldl (fun s x => ladderStream x.1 x.2 s) s1
  let s3 := if up then restoreSlots s s2 else s2
  journalMode (sendAll 0x0130 step (wrapInt 64 (tj s3)) (if up then 2 else 1) 0 s3)

/-- A further step, if there is one and the MP runs. -/
def ladderDown (s : State) : State := if s.pwr.mpUp && decide (s.pwr.step.toNat < 6) then ladderTo (s.pwr.step.toNat + 1) false s else s

/-- THERMAL_THROTTLE: a sensor is at or above throttle_c. THROTTLE is set, and the MP takes a step at once. -/
def throttleSet (sensor : Nat) (temp : Int) (s0 : State) : State :=
  let s := sense sensor temp s0
  if s.hedge.throttle || decide (temp < 64 * s.hedge.throttleC.toNat) then s
  else
    let s1 := modHedge (fun h => { h with throttle := true }) s
    ladderDown (sendAdmin 0x0121 sensor (wrapInt 64 (tj s1)) 1 0 s1)

/-- THROTTLE_CLEAR: a sensor reads a value that leaves every sensor below throttle_c - 3 degrees. -/
def throttleClear (sensor : Nat) (temp : Int) (s0 : State) : State :=
  let s := sense sensor temp s0
  if s.hedge.throttle && decide (tj s < 64 * (s.hedge.throttleC.toNat : Int) - 192) then
    let s1 : State := { s with pwr := { s.pwr with stepTick := nowTick s } }
    let s2 := modHedge (fun h => { h with throttle := false }) s1
    sendAdmin 0x0121 sensor (wrapInt 64 (tj s2)) 2 0 s2
  else s

/-- THERMAL_STEP: 2 s after the last step THROTTLE is still set. -/
def thermalStep (s : State) : State :=
  if s.hedge.throttle then ladderDown (advanceToTick (s.pwr.stepTick + 2 * tickRate) s) else s

/-- THERMAL_STEP_UNDO: 10 s after the last step, or after THROTTLE cleared, one step is undone. -/
def thermalUndo (s : State) : State :=
  if s.hedge.throttle || decide (s.pwr.step = 0) || !s.pwr.mpUp then s
  else ladderTo (s.pwr.step.toNat - 1) true (advanceToTick (s.pwr.stepTick + 10 * tickRate) s)

/-- THERMAL_TRIP: a sensor is at or above trip_c. The Main domain is held in reset, not orderly, until the next cold start; the time of
one Primer counts (R540). -/
def thermalTrip (sensor : Nat) (temp : Int) (s0 : State) : State :=
  let s := sense sensor temp s0
  if s.hedge.tripped || decide (temp < 64 * s.hedge.tripC.toNat) then s
  else
    let nor := availImage (countLost 1100 { s with pwr := Pwr.restored s.pwr.norAvail }).pwr
    let s1 : State := { s with pwr := { s.pwr with norAvail := BitVec.ofNat 64 nor } }
    modHedge (fun h => { h with tripped := true, thermalTrips := h.thermalTrips + 1 }) (resetMain false 0 false s1)

/-! ### Supplies (R507, R557) -/

/-- SUPPLY_FAULT: a monitored rail, AMC channel 16 + `rail`, has been outside its window for 5 µs. Before T0 it is no fault. -/
def supplyFault (rail reading : Nat) (s : State) : State :=
  let ch := 16 + rail
  if !s.hedge.railsOut.isEmpty then
    modHedge (fun h => { h with railsOut := if h.railsOut.contains ch then h.railsOut else h.railsOut ++ [ch] }) s
  else if s.host.stage = 0 then s
  else
    let s1 := modHedge (fun h => { h with
      railsOut := [ch], supplyLatch := true, supplyResets := h.supplyResets + 1, countRestart := true
      waiting := h.waiting ++ [(0x0126, ch, reading, 0)] }) s
    resetMain true 6 false s1

/-- SUPPLY_RECOVERED: every rail has been within its window for 10 ms. -/
def supplyRecovered (s : State) : State :=
  if s.hedge.railsOut.isEmpty then s else tryStart (modHedge (fun h => { h with railsOut := [] }) s)

/-! ### The watchdog (R509) -/

/-- Coarse ticks of the MP resets of the last 10 s. -/
def recentResets (s : State) : List Nat := s.hedge.wdogTicks.filter fun t => decide (nowTick s < t + 10 * tickRate)

/-- The MP island is reset; a third reset within 10 s makes Hedge order a warm restart. -/
def resetMp (s : State) : State :=
  let l := recentResets s ++ [nowTick s]
  let s1 := modHedge (fun h => { h with wdogResets := h.wdogResets + 1, wdogTicks := l }) { s with pwr := { s.pwr with mpUp := false } }
  let s2 := sendAdmin 0x0123 0 l.length 0 0 (freezeRecorder 5 s1)
  if 3 ≤ l.length then warmRestart (modHedge (fun h => { h with wdogTicks := [], countRestart := true }) s2) else s2

/-- WATCHDOG_MISS: a kick of a running MP is missed. -/
def watchdogMiss (s : State) : State := if s.pwr.mpUp then resetMp s else s

/-- MP_RESTART_COMPLETE: the MP runs again from its verified image. -/
def mpRestarted (s : State) : State :=
  if decide (2 < s.host.stage.toNat) then { s with pwr := { s.pwr with mpUp := true } } else s

/-! ### Mailbox requests (R511, R512) -/

/-- Whether mbox_allow lets a function make a request. -/
def requestAllowed (fn code : Nat) (s : State) : Bool :=
  match bits s.hedge.mboxAllow.toNat (2 * (code - 1)) 2 with
  | 0 => false
  | 1 => (getCtx 0 s).any fun c => decide (c.fn = fn)
  | 2 => decide (fnNumber fn = 0)
  | _ => true

/-- Reason for which a request is refused: 1 not allowed, 2 condition persists, 3 bad argument, 4 restart in progress. -/
def requestRefusal (fn code arg : Nat) (s : State) : Option Nat :=
  if !requestAllowed fn code s then some 1
  else if (decide (code = 1) && decide (arg = 0)) || (decide (code ≠ 1) && decide (arg ≠ 0)) then some 3
  else if (decide (code = 4) && decide (s.host.stage ≠ 7)) || (decide (code = 3) && !s.pwr.mpUp) then some 4
  else if decide (code = 2) && !s.hedge.railsOut.isEmpty then some 2
  else none

/-- Effect of a granted request. -/
def granted (code arg : Nat) (s : State) : State :=
  match code with
  | 1 => ((List.range 4).filter (bit arg)).foldl (fun s i => engage i 2 s) s
  | 2 => modHedge (fun h => { h with supplyLatch := false }) s
  | 3 => resetMp s
  | _ => warmRestart s

/-- HST_HEDGE_REQ is written: Hedge decides, and the function's register shows it. -/
def hedgeRequest (fn code arg : Nat) (s : State) : State :=
  let answer := fun (st reason : Nat) => modFn fn (fun r =>
    { r with hedgeState := BitVec.ofNat 2 st, hedgeReason := BitVec.ofNat 4 reason, hedgeSeq := r.hedgeSeq + 1 })
  if code = 0 || decide (4 < code) || (getFn fn s).isNone then s
  else match requestRefusal fn code arg s with
  | some why => answer 3 why s
  | none => granted code arg (answer 2 0 s)

/-! ### Island resets (R533) -/

/-- The SPU island is reset: every instance ends with reason FAULT, code MACHINE_CHECK. -/
def resetSpus (s : State) : State :=
  (List.range 16).foldl (fun s n => if (getLsu n s).kernel ≠ 0 then endInstance n 3 0 3 s else s) s

/-- The Display island is reset: owners hear of every layer, and both outputs are disabled. -/
def resetDisplay (s : State) : State :=
  (List.range 2).foldl (fun s o =>
    let d := getOut o s
    let on := (List.range 4).filter fun l => (getLayer o l s).enabled
    let s1 := on.foldl (fun s l => sendEvent d.owner 0x0031 (getLayer o l s).surface 0 0 (packBits [(0, 1, o), (1, 2, l)]) s) s
    disableOutput o s1) s

/-- The Host island is reset: every context is torn down. -/
def resetHost (s : State) : State := (s.host.ctxs.map (·.num)).foldl (fun s c => startTeardown c 6 none s) s

/-! ### Ageing (R567, R568) -/

/-- LIFE_PERMILLE of a site. -/
def lifePermille (shift : Nat) : Nat := shift / 30

/-- AGEING_MEASURE: the MP has measured the sixteen sites; an hour weighted by R567 is added, in hours as the MP rounds it. -/
def measureAgeing (shifts : List (BitVec 16)) (hours : Nat) (s : State) : State :=
  if !s.pwr.mpUp || shifts.length ≠ 16 then s
  else modHedge (fun h => { h with shifts, eqHours := h.eqHours + BitVec.ofNat 32 hours }) s

/-! ### The commands -/

/-- RF_TRIP. -/
def execRfTrip (input : BitVec 2) (tripped : Bool) (s : State) : Host.Outcome State Fault Refusal := .next (rfTrip input.toNat tripped s)

/-- RF_HOLD_EXPIRY. -/
def execRfHoldExpiry (input : BitVec 2) (s : State) : Host.Outcome State Fault Refusal := .next (settle (rfRelease input.toNat s))

/-- THERMAL_THROTTLE: the sensor's reading in 1/64 degree. -/
def execThermalThrottle (sensor : BitVec 4) (temp : BitVec 16) (s : State) : Host.Outcome State Fault Refusal :=
  .next (settle (throttleSet sensor.toNat temp.toInt s))

/-- THROTTLE_CLEAR. -/
def execThrottleClear (sensor : BitVec 4) (temp : BitVec 16) (s : State) : Host.Outcome State Fault Refusal :=
  .next (settle (throttleClear sensor.toNat temp.toInt s))

/-- THERMAL_TRIP. -/
def execThermalTrip (sensor : BitVec 4) (temp : BitVec 16) (s : State) : Host.Outcome State Fault Refusal :=
  .next (thermalTrip sensor.toNat temp.toInt s)

/-- THERMAL_STEP. -/
def execThermalStep (s : State) : Host.Outcome State Fault Refusal := .next (settle (thermalStep s))

/-- THERMAL_STEP_UNDO. -/
def execThermalStepUndo (s : State) : Host.Outcome State Fault Refusal := .next (settle (thermalUndo s))

/-- SUPPLY_FAULT: the rail, and its reading in 100 µV. -/
def execSupplyFault (rail : BitVec 3) (reading : BitVec 16) (s : State) : Host.Outcome State Fault Refusal :=
  .next (supplyFault rail.toNat reading.toNat s)

/-- SUPPLY_RECOVERED. -/
def execSupplyRecovered (s : State) : Host.Outcome State Fault Refusal := .next (supplyRecovered s)

/-- WATCHDOG_MISS. -/
def execWatchdogMiss (s : State) : Host.Outcome State Fault Refusal := .next (watchdogMiss s)

/-- MP_RESTART_COMPLETE. -/
def execMpRestartComplete (s : State) : Host.Outcome State Fault Refusal := .next (settle (mpRestarted s))

/-- ATTEN: written by a function, with its ARG. -/
def execAtten (fn : BitVec 7) (arg : BitVec 4) (s : State) : Host.Outcome State Fault Refusal := .next (hedgeRequest fn.toNat 1 arg.toNat s)

/-- FAULT_CLEAR. -/
def execFaultClear (fn : BitVec 7) (arg : BitVec 4) (s : State) : Host.Outcome State Fault Refusal :=
  .next (hedgeRequest fn.toNat 2 arg.toNat s)

/-- MP_RESET. -/
def execMpReset (fn : BitVec 7) (arg : BitVec 4) (s : State) : Host.Outcome State Fault Refusal := .next (hedgeRequest fn.toNat 3 arg.toNat s)

/-- HEDGE_REQ_WARM_RESTART. -/
def execHedgeReqWarmRestart (fn : BitVec 7) (arg : BitVec 4) (s : State) : Host.Outcome State Fault Refusal :=
  .next (hedgeRequest fn.toNat 4 arg.toNat s)

/-- SPU_ISLAND_RESET. -/
def execSpuIslandReset (s : State) : Host.Outcome State Fault Refusal := .next (settle (resetSpus s))

/-- DISPLAY_ISLAND_RESET. -/
def execDisplayIslandReset (s : State) : Host.Outcome State Fault Refusal := .next (settle (resetDisplay s))

/-- HOST_ISLAND_RESET. -/
def execHostIslandReset (s : State) : Host.Outcome State Fault Refusal := .next (settle (resetHost s))

/-- AVAILABILITY_SAVE. -/
def execAvailabilitySave (s : State) : Host.Outcome State Fault Refusal := .next (saveAvail s)

/-- AGEING_MEASURE: SHIFT_PPM of the sites, and the weighted hours since the last measurement. -/
def execAgeingMeasure (shifts : List (BitVec 16)) (hours : Nat) (s : State) : Host.Outcome State Fault Refusal :=
  .next (measureAgeing shifts hours s)

/-- POWER_STATE_ENTRY_DONE. -/
def execPowerStateEntryDone (s : State) : Host.Outcome State Fault Refusal := .next (settle (entryDone s))

/-- POWER_STATE_EXIT_START. -/
def execPowerStateExitStart (s : State) : Host.Outcome State Fault Refusal := .next (settle (exitStart s))

/-- POWER_STATE_EXIT_DONE. -/
def execPowerStateExitDone (s : State) : Host.Outcome State Fault Refusal := .next (settle (exitDone s))

end Sys2Proof.Machine
end

