-- ==== Sys2Proof/Machine/Trust.lean ====
section
/-!
DEFINITION. The SPDM responder, PCIe IDE and the debug token (R490, R491, R494-R496). The spec names the requests that are answered; the
codes of requests, responses and errors and the order of negotiation are those of SPDM 1.2.
-/

namespace Sys2Proof.Machine

/-- A response goes out of a port's DOE mailbox. -/
def spdmSend (port code : Nat) (body : List Fld) (s : State) : State := emit (.spdm port code body) s

/-- An ERROR response. -/
def spdmError (port code : Nat) (s : State) : State := spdmSend port 0x7F [⟨0, 1, code⟩] s

/-- How far the negotiation of a port has come: 1 version, 2 capabilities, 3 algorithms. -/
def negoStage (port : Nat) (s : State) : Nat := ((s.trust.nego.find? fun x => decide (x.1 = port)).map (·.2)).getD 0

/-- The negotiation of a port reaches a stage. -/
def setNego (port stage : Nat) (s : State) : State :=
  modTrust (fun t => { t with nego := t.nego.filter (fun x => decide (x.1 ≠ port)) ++ [(port, stage)] }) s

/-- A request reaches the responder only over a link that is up. -/
def spdmReach (port : Nat) (f : State → State) (s : State) : State := if (getPort port s).linkUp then f s else s

/-- A request that needs a stage of the negotiation: an unexpected one is answered with an error. -/
def spdmAfter (port stage : Nat) (f : State → State) (s : State) : State :=
  spdmReach port (fun s => if negoStage port s < stage then spdmError port 0x04 s else f s) s

/-- A request that needs certificates or the alias key: debug unlocked, there are none (R491). -/
def spdmKeyed (port : Nat) (f : State → State) (s : State) : State :=
  spdmAfter port 3 (fun s => if s.trust.debug || !s.trust.keysValid then spdmError port 0x07 s else f s) s

/-- GET_VERSION: negotiation of the port begins again. -/
def getVersion (port : Nat) (s : State) : State := spdmReach port (fun s => spdmSend port 0x04 [⟨0, 1, 0x12⟩] (setNego port 1 s)) s

/-- GET_CAPABILITIES. -/
def getCapabilities (port : Nat) (s : State) : State := spdmAfter port 1 (fun s => spdmSend port 0x61 [] (setNego port 2 s)) s

/-- NEGOTIATE_ALGORITHMS: `offered` says that the request offers ECDSA P-384, SHA-384, secp384r1 and AES-256-GCM. -/
def negotiate (port : Nat) (offered : Bool) (s : State) : State :=
  spdmAfter port 2 (fun s => if offered then spdmSend port 0x63 [] (setNego port 3 s) else spdmError port 0x01 s) s

/-- GET_DIGESTS: slot 0 alone. -/
def getDigests (port : Nat) (s : State) : State :=
  spdmKeyed port (fun s => spdmSend port 0x01 [⟨0, 1, 1⟩, ⟨1, 48, (Config.sha384 (Config.certChain s.trust.certs)).toNat⟩] s) s

/-- GET_CERTIFICATE: a portion of the chain of slot 0. -/
def getCertificate (port slot off len : Nat) (s : State) : State :=
  spdmKeyed port (fun s =>
    let chain := Config.certChain s.trust.certs
    if slot ≠ 0 || (decide (chain.length ≤ off) && decide (off ≠ 0)) then spdmError port 0x01 s
    else
      let part := (chain.drop off).take len
      spdmSend port 0x02 [⟨0, 1, 0⟩, ⟨1, 2, part.length⟩, ⟨3, 2, chain.length - (off + part.length)⟩, ⟨5, part.length, leNat part⟩] s) s

/-- A signature by the alias key over what a response signs (R490); the standard gives the transcript. -/
def spdmSign (kind : Nat) (request : List Byte) (s : State) : Nat :=
  (Config.aliasSign s.trust.primers (Config.sha384 (Config.measForm kind (Config.sha384 request)))).toNat

/-- CHALLENGE. -/
def challenge (port slot : Nat) (request : List Byte) (s : State) : State :=
  spdmKeyed port (fun s =>
    if slot ≠ 0 then spdmError port 0x01 s
    else spdmSend port 0x03 [⟨0, 48, (Config.sha384 (Config.certChain s.trust.certs)).toNat⟩, ⟨0x30, 48, (measDigest s).toNat⟩
      , ⟨0x60, 96, spdmSign 0x03 request s⟩] s) s

/-- GET_MEASUREMENTS (R495): operation 0 asks for the number of blocks, 1-7 for a block, 0xFF for all. -/
def getMeasurements (port op : Nat) (signed : Bool) (request : List Byte) (s : State) : State :=
  spdmAfter port 3 (fun s =>
    let asked := if op = 0xFF then measurements s else (measurements s).filter fun m => decide (m.1 = op)
    if asked.isEmpty && decide (op ≠ 0) then spdmError port 0x01 s
    else if signed && (s.trust.debug || !s.trust.keysValid) then spdmError port 0x07 s
    else
      let blocks := (asked.map fun m => Config.measForm m.1 m.2).flatten
      let sig := if signed then [⟨4 + blocks.length, 96, spdmSign 0x60 request s⟩] else []
      spdmSend port 0x60 ([⟨0, 1, 7⟩, ⟨1, 3, blocks.length⟩, ⟨4, blocks.length, leNat blocks⟩] ++ sig) s) s

/-! ### Sessions (R494) -/

/-- A session of a port. -/
def findSession (port id : Nat) (s : State) : Option Session :=
  s.trust.sessions.find? fun x => decide (x.port = port) && decide (x.id = id)

/-- Change a session. -/
def modSession (port id : Nat) (f : Session → Session) (s : State) : State :=
  modTrust (fun t => { t with sessions := mapIf (fun x => decide (x.port = port) && decide (x.id = id)) f t.sessions }) s

/-- A session ends. -/
def endSession (port id : Nat) (s : State) : State :=
  modTrust (fun t => { t with sessions := t.sessions.filter fun x => !(decide (x.port = port) && decide (x.id = id)) }) s

/-- KEY_EXCHANGE opens a session, at most four per port: `id` joins the requester's half and the half that the device chose. Its export
master secret follows from the exchange. -/
def keyExchange (port id : Nat) (request : List Byte) (s : State) : State :=
  spdmKeyed port (fun s =>
    if 4 ≤ (s.trust.sessions.filter fun x => decide (x.port = port)).length then spdmError port 0x0A s
    else if id = 0 || (s.trust.sessions.any fun x => decide (x.id = id)) then s
    else
      let sec := Config.spdmValue 1 (request ++ leBytes 4 id)
      let x : Session := { port := port, id := id, secret := BitVec.ofNat 384 sec.toNat, finished := false, keyGen := 0 }
      spdmSend port 0x64 [⟨0, 2, id / 65536⟩, ⟨2, 96, spdmSign 0x64 request s⟩] (modTrust (fun t => { t with sessions := t.sessions ++ [x] }) s)) s

/-- A request on a session of a port; another identifier is answered with an error. -/
def onSession (port id : Nat) (f : Session → State → State) (s : State) : State :=
  spdmAfter port 3 (fun s => match findSession port id s with | none => spdmError port 0x02 s | some x => f x s) s

/-- FINISH completes a session, or ends it where the requester's proof is wrong. -/
def finishSession (port id : Nat) (valid : Bool) (s : State) : State :=
  onSession port id (fun x s =>
    if x.finished then spdmError port 0x04 s
    else if valid then spdmSend port 0x65 [] (modSession port id (fun x => { x with finished := true }) s)
    else spdmError port 0x06 (endSession port id s)) s

/-- A request on a session that FINISH has completed. -/
def onFinished (port id : Nat) (f : State → State) (s : State) : State :=
  onSession port id (fun x s => if x.finished then f s else spdmError port 0x04 s) s

/-- KEY_UPDATE: operations 1 and 2 replace keys, and 3 verifies them. -/
def keyUpdate (port id op : Nat) (s : State) : State :=
  onFinished port id (fun s =>
    if op = 0 || decide (3 < op) then spdmError port 0x01 s
    else spdmSend port 0x69 [⟨0, 1, op⟩]
      (if op = 3 then s else modSession port id (fun x => { x with keyGen := x.keyGen + 1 }) s)) s

/-! ### IDE (R496) -/

/-- Change an IDE stream of a port, made where there is none: 0 the link stream, 1-4 the selective streams. -/
def modIde (port id : Nat) (f : IdeStream → IdeStream) (s : State) : State :=
  modTrust (fun t =>
    let here := fun (x : IdeStream) => decide (x.port = port) && decide (x.id = id)
    if t.ide.any here then { t with ide := mapIf here f t.ide } else { t with ide := t.ide ++ [f ⟨port, id, false, false⟩] }) s

/-- IDE_KM over a session of the port: 1 programs a stream's key, 2 makes it secure, 3 stops it. -/
def ideKm (port id stream op : Nat) (s : State) : State :=
  onFinished port id (fun s =>
    let keyed := s.trust.ide.any fun x => decide (x.port = port) && decide (x.id = stream) && x.keySet
    if 4 < stream || op = 0 || decide (3 < op) || (decide (op = 2) && !keyed) then spdmError port 0x01 s
    else
      let f := fun (x : IdeStream) => match op with
        | 1 => { x with keySet := true } | 2 => { x with secure := true } | _ => { x with keySet := false, secure := false }
      spdmSend port 0x7E [⟨0, 1, op⟩, ⟨1, 1, stream⟩] (modIde port stream f s)) s

/-- A TLP fails its integrity check: its stream is insecure, and context 0 hears of it if its port is up. -/
def ideFails (port stream : Nat) (s : State) : State :=
  if s.trust.ide.any fun x => decide (x.port = port) && decide (x.id = stream) && x.secure then
    let s1 := modIde port stream (fun x => { x with secure := false }) (modTrust (fun t => { t with ideFails := satInc t.ideFails }) s)
    match getCtx 0 s1 with
    | some c => if (getPort (fnPort c.fn) s1).linkUp then sendAdmin 0x0125 port stream 0 0 s1 else s1
    | none => s1
  else s

/-! ### Debug unlock (R491) -/

/-- A debug token arrives over SPDM on a port, or through JTAG. If it verifies, every derived key is gone, the UDS is blocked until the
next cold start and a warm restart is ordered; if not, the nonce is renewed. -/
def debugToken (port : Option Nat) (devId : BitVec 384) (nonce : BitVec 128) (sig : List Byte) (s : State) : State :=
  let reach := match port with | some p => (getPort p s).linkUp | none => true
  if !reach || decide (s.host.stage.toNat < 3) then s
  else if decide (devId = s.trust.devId) && decide (nonce = s.trust.dbgNonce) && Config.debugVerify devId nonce sig then
    warmRestart (modTrust (fun t => { t with keysValid := false, udsBlocked := true, sessions := [], ide := [] }) s)
  else
    let d := freshValue 128 s
    modTrust (fun t => { t with dbgNonce := d.1 }) d.2

/-! ### The commands -/

/-- GET_VERSION. -/
def execGetVersion (port : BitVec 1) (s : State) : Host.Outcome State Fault Refusal := .next (getVersion port.toNat s)

/-- GET_CAPABILITIES. -/
def execGetCapabilities (port : BitVec 1) (s : State) : Host.Outcome State Fault Refusal := .next (getCapabilities port.toNat s)

/-- NEGOTIATE_ALGORITHMS. -/
def execNegotiateAlgorithms (port : BitVec 1) (offered : Bool) (s : State) : Host.Outcome State Fault Refusal :=
  .next (negotiate port.toNat offered s)

/-- GET_DIGESTS. -/
def execGetDigests (port : BitVec 1) (s : State) : Host.Outcome State Fault Refusal := .next (getDigests port.toNat s)

/-- GET_CERTIFICATE. -/
def execGetCertificate (port : BitVec 1) (slot : BitVec 4) (off len : BitVec 16) (s : State) : Host.Outcome State Fault Refusal :=
  .next (getCertificate port.toNat slot.toNat off.toNat len.toNat s)

/-- CHALLENGE: the request's bytes enter the transcript. -/
def execChallenge (port : BitVec 1) (slot : BitVec 4) (request : List Byte) (s : State) : Host.Outcome State Fault Refusal :=
  .next (challenge port.toNat slot.toNat request s)

/-- GET_MEASUREMENTS. -/
def execGetMeasurements (port : BitVec 1) (op : BitVec 8) (signed : Bool) (request : List Byte) (s : State) :
    Host.Outcome State Fault Refusal := .next (getMeasurements port.toNat op.toNat signed request s)

/-- KEY_EXCHANGE. -/
def execKeyExchange (port : BitVec 1) (session : BitVec 32) (request : List Byte) (s : State) : Host.Outcome State Fault Refusal :=
  .next (keyExchange port.toNat session.toNat request s)

/-- FINISH. -/
def execFinish (port : BitVec 1) (session : BitVec 32) (valid : Bool) (s : State) : Host.Outcome State Fault Refusal :=
  .next (finishSession port.toNat session.toNat valid s)

/-- HEARTBEAT. -/
def execHeartbeat (port : BitVec 1) (session : BitVec 32) (s : State) : Host.Outcome State Fault Refusal :=
  .next (onFinished port.toNat session.toNat (spdmSend port.toNat 0x68 []) s)

/-- KEY_UPDATE. -/
def execKeyUpdate (port : BitVec 1) (session : BitVec 32) (op : BitVec 8) (s : State) : Host.Outcome State Fault Refusal :=
  .next (keyUpdate port.toNat session.toNat op.toNat s)

/-- END_SESSION. -/
def execEndSession (port : BitVec 1) (session : BitVec 32) (s : State) : Host.Outcome State Fault Refusal :=
  .next (onFinished port.toNat session.toNat (fun s => spdmSend port.toNat 0x6C [] (endSession port.toNat session.toNat s)) s)

/-- IDE_KM. -/
def execIdeKm (port : BitVec 1) (session : BitVec 32) (stream op : BitVec 8) (s : State) : Host.Outcome State Fault Refusal :=
  .next (ideKm port.toNat session.toNat stream.toNat op.toNat s)

/-- IDE_INTEGRITY_FAIL. -/
def execIdeIntegrityFail (port : BitVec 1) (stream : BitVec 8) (s : State) : Host.Outcome State Fault Refusal :=
  .next (ideFails port.toNat stream.toNat s)

/-- DEBUG_UNLOCK_TOKEN. -/
def execDebugUnlockToken (port : Option (BitVec 1)) (devId : BitVec 384) (nonce : BitVec 128) (sig : List Byte) (s : State) :
    Host.Outcome State Fault Refusal := .next (debugToken (port.map (·.toNat)) devId nonce sig s)

end Sys2Proof.Machine
end

