-- ==== Sys2Proof/Machine/SpuCore.lean ====
section
/-!
DEFINITION. How an SPU issues an instruction: words and their legality, reads of registers, results in flight and their retirement,
loops, the issue clock and CYCLE (R285-R298, R315-R324, R346).
-/

namespace Sys2Proof.Machine

/-! ### Rounding and saturation (R319) -/

/-- A value fitted to a signed w-bit value, and whether it was clamped. -/
def fitTo (sat : Bool) (w : Nat) (x : Int) : Int × Bool :=
  let lo : Int := -(2 ^ (w - 1) : Nat)
  let hi : Int := (2 ^ (w - 1) : Nat) - 1
  if sat then
    if x < lo then (lo, true) else if hi < x then (hi, true) else (x, false)
  else (sext w (wrapInt w x), false)

/-- SR's flag of a clamped result. -/
def satFlag (b : Bool) : Nat := if b then 2 else 0

/-- SR's sticky flags of a binary32 operation. -/
def fpFlags (f : FFlags) : Nat := packBits [(2, 1, b2n f.invalid), (3, 1, b2n f.overflow), (4, 1, b2n f.underflow), (5, 1, b2n f.inexact)]

/-! ### Banks and their registers (R285-R289) -/

/-- A bank; true is B1. -/
def Lsu.bank (b1 : Bool) (l : Lsu) : SpuBank := if b1 then l.b1 else l.b0

/-- Change a bank. -/
def Lsu.modBank (b1 : Bool) (f : SpuBank → SpuBank) (l : Lsu) : Lsu := if b1 then { l with b1 := f l.b1 } else { l with b0 := f l.b0 }

/-- The active bank. -/
def Lsu.cur (l : Lsu) : SpuBank := l.bank l.inB1

/-- Fixed-point rounding of the active bank is half up (CTL.RND). -/
def Lsu.up (l : Lsu) : Bool := decide (bits l.cur.ctl.toNat 0 2 = 1)

/-- The bits of the bytes that a byte mask enables. -/
def maskBits (m : BitVec 16) : BitVec 128 :=
  BitVec.ofNat 128 ((List.range 16).foldl (fun a i => if m.getLsbD i then a + 255 * 2 ^ (8 * i) else a) 0)

/-- New contents in the enabled bytes. -/
def mergeBytes (m : BitVec 16) (old new : BitVec 128) : BitVec 128 := (old &&& ~~~(maskBits m)) ||| (new &&& maskBits m)

/-- CTL as a write leaves it (R289). -/
def writeCtl (old v : BitVec 32) : BitVec 32 :=
  let r := bits v.toNat 0 2
  BitVec.ofNat 32 (packBits [(0, 2, if r < 2 then r else bits old.toNat 0 2), (8, 6, bits v.toNat 8 6)])

/-- A control register of a bank as MTC and MTB write it (R331). -/
def SpuBank.writeCtl (b1 : Bool) (n : Nat) (v : BitVec 32) (b : SpuBank) : SpuBank :=
  let noPend := b.sr &&& ~~~(0x40 : BitVec 32)
  match n with
  | 0 => { b with sr := b.sr &&& ~~~(v &&& 0x3E) }
  | 1 => { b with ctl := Sys2Proof.Machine.writeCtl b.ctl v }
  | 3 => { b with prg := BitVec.ofNat 64 (setBits b.prg.toNat 0 32 v.toNat), sr := noPend }
  | 4 => { b with prg := BitVec.ofNat 64 (setBits b.prg.toNat 32 32 v.toNat), sr := noPend }
  | 5 => if b1 then { b with epc := v } else b
  | _ => b

/-- SR as it reads (R288). -/
def SpuBank.readSr (inB1 maint : Bool) (b : SpuBank) : BitVec 32 :=
  BitVec.ofNat 32 (packBits [(0, 1, b2n inB1), (1, 6, bits b.sr.toNat 1 6), (7, 1, b2n maint)])

/-- A control register of a bank as MFC and MFB read it (R331). -/
def SpuBank.readCtl (b1 inB1 maint : Bool) (n : Nat) (b : SpuBank) : BitVec 32 :=
  match n with
  | 0 => b.readSr inB1 maint
  | 1 => b.ctl
  | 2 => b.lc.setWidth 32
  | 3 => BitVec.ofNat 32 b.prg.toNat
  | 4 => BitVec.ofNat 32 (b.prg.toNat / 2 ^ 32)
  | _ => if b1 then b.epc else 0

/-- Part of an accumulator as MFB reads it (R333). -/
def accRead (acc : List (BitVec 40)) (n part : Nat) : BitVec 128 :=
  let lane := fun (i : Nat) => (nth acc (8 * n + i) 0).toNat
  BitVec.ofNat 128 (packBits (if part = 2 then (List.range 8).map fun i => (8 * i, 8, lane i / 2 ^ 32)
    else (List.range 4).map fun i => (32 * i, 32, bits (lane (4 * part + i)) 0 32)))

/-- Part of an accumulator as MTB writes it. -/
def accWrite (n part : Nat) (v : BitVec 128) (acc : List (BitVec 40)) : List (BitVec 40) :=
  if part = 2 then
    (List.range 8).foldl (fun a i => modNth a (8 * n + i) fun x => BitVec.ofNat 40 (setBits x.toNat 32 8 (bits v.toNat (8 * i) 8))) acc
  else
    (List.range 4).foldl (fun a i =>
      modNth a (8 * n + 4 * part + i) fun x => BitVec.ofNat 40 (setBits x.toNat 0 32 (bits v.toNat (32 * i) 32))) acc

/-- A lane of an accumulator after a product, and whether it was clamped (R330). -/
def accLane (op : AccOp) (sat : Bool) (x : BitVec 40) (p : Int) : BitVec 40 × Bool :=
  let r := match op with
    | .add => fitTo sat 40 (x.toInt + p)
    | .sub => fitTo sat 40 (x.toInt - p)
    | .set => (p, false)
  (BitVec.ofInt 40 r.1, r.2)

/-- An accumulator after products in its enabled lanes. -/
def SpuBank.accumulate (n : Nat) (op : AccOp) (sat : Bool) (prod : List (Option Int)) (b : SpuBank) : SpuBank :=
  prod.zipIdx.foldl (fun b x =>
    match x.1 with
    | none => b
    | some p =>
      let i := 8 * n + x.2
      let r := accLane op sat (nth b.acc i 0) p
      { b with acc := b.acc.set i r.1, sr := if r.2 then b.sr ||| 2 else b.sr }) b

/-- A result is written into its destination (R286). -/
def SpuBank.retire (b1 : Bool) (d : SpuDest) (b : SpuBank) : SpuBank :=
  match d with
  | .v n m x => { b with v := modNth b.v n fun y => mergeBytes m y x }
  | .a n x => { b with a := b.a.set n x }
  | .m n x => { b with m := b.m.set n (x &&& 0x7FFFF) }
  | .p n m x => { b with p := modNth b.p n fun y => (y &&& ~~~m) ||| (x &&& m) }
  | .acc n op sat prod => b.accumulate n op sat prod
  | .accPart n part x => { b with acc := accWrite n part x b.acc }
  | .ctl n x => b.writeCtl b1 n x
  | .sr f => { b with sr := b.sr ||| f }

/-- A result retires into the bank that issued it (R287). -/
def Lsu.retire (l : Lsu) (r : Retire) : Lsu := l.modBank r.bank (SpuBank.retire r.bank r.dest)

/-! ### Time -/

/-- Cycles pass: results retire in the order of their cycles, those of one cycle in the order of issue, so that the later-issued
one is kept (R286); CYCLE counts on (R312). -/
def Lsu.pass (cycles : Nat) (l : Lsu) : Lsu :=
  let c := l.clk + cycles
  let l1 := (rangeFrom (l.clk + 1) (min cycles 5)).foldl (fun l k => (l.flight.filter fun r => decide (r.cycle = k)).foldl Lsu.retire l) l
  { l1 with clk := c, cycle := l.cycle + BitVec.ofNat 64 cycles, flight := l.flight.filter fun r => decide (c < r.cycle) }.reachTimer

/-! ### Loops (R293, R294, R322) -/

/-- Address of the last instruction of a body. -/
def SpuLoop.last (r : SpuLoop) : Nat := (r.start + 8 * (r.len - 1)) % 2 ^ 18

/-- Address after a body. -/
def SpuLoop.after (r : SpuLoop) : Nat := (r.start + 8 * r.len) % 2 ^ 18

/-- The LOOPR loop of the active bank. -/
def Lsu.curLoop (l : Lsu) : Option SpuLoop := if l.inB1 then l.loopB1 else l.loop

/-- Set the LOOPR loop of the active bank. -/
def Lsu.setLoop (x : Option SpuLoop) (l : Lsu) : Lsu := if l.inB1 then { l with loopB1 := x } else { l with loop := x }

/-- The iteration of a LOOPR loop ends: B0's names v16-v31 move (R322). -/
def Lsu.rotate (l : Lsu) : Lsu := if l.inB1 then l else { l with rot := (l.rot + 1) % 16 }

/-- The PC after the instruction at address `a`, as the LOOPR loop that runs has it. -/
def Lsu.stepLoop (a : Nat) (l : Lsu) : Lsu :=
  match l.curLoop with
  | none => { l with pc := (a + 8) % 2 ^ 18 }
  | some r =>
    if a = r.last then
      if 1 < r.left then { l.rotate.setLoop (some { r with left := r.left - 1 }) with pc := r.start }
      else { l.rotate.setLoop none with pc := r.after }
    else { l with pc := (a + 8) % 2 ^ 18 }

/-- LC of the active bank. -/
def Lsu.setLc (n : Nat) (l : Lsu) : Lsu := l.modBank l.inB1 fun b => { b with lc := BitVec.ofNat 16 n }

/-- The PC after the instruction that has issued at it, unless that one branches. -/
def Lsu.stepPc (l0 : Lsu) : Lsu :=
  let l := { l0 with afterRep := false, afterReti := false }
  match l.rep with
  | none => l.stepLoop l.pc
  | some r =>
    if l.pc = r.last then
      if 1 < r.left then { l.setLc (r.left - 1) with rep := some { r with left := r.left - 1 }, pc := r.start }
      else { (l.setLc 0).stepLoop l.pc with rep := none, afterRep := true }
    else { l with pc := (l.pc + 8) % 2 ^ 18 }

/-! ### Instruction words (R315-R317) -/

/-- The rules that an instruction's row sets for its word: format G; how many registers each field's class has, 0 where the row names
none; the bits of K and, in format G, of IMM that the row defines; the types listed; predicate; saturation. -/
structure Form where
  g : Bool
  d : Nat
  a : Nat
  b : Nat
  c : Nat
  k : Nat
  imm : Nat
  types : List Nat
  pred : Bool
  sat : Bool
  deriving DecidableEq, Repr

/-- A row of format F. -/
def formF (d a b c k : Nat) : Form := ⟨false, d, a, b, c, k, 0, [], false, false⟩

/-- A row of format G. -/
def formG (d a k imm : Nat) : Form := ⟨true, d, a, 0, 0, k, imm, [], false, false⟩

/-- A row of format F with types, predicate and saturation. -/
def formV (d a b c k : Nat) (types : List Nat) (sat : Bool) : Form := ⟨false, d, a, b, c, k, 0, types, true, sat⟩

/-- All six types. -/
def allTypes : List Nat := [0, 1, 2, 3, 4, 5]

/-- A field holds a register of its class, or 0 where the row names none. -/
def regOk (n v : Nat) : Bool := decide (v < max n 1)

/-- A word obeys its row (R317, R346 at decode). -/
def Form.ok (f : Form) (w : BitVec 56) : Bool :=
  let x := w.toNat
  let unused := if f.g then bits x 0 38 &&& (2 ^ 38 - 1 - (f.k ||| f.imm)) else bits x 0 28 &&& (2 ^ 28 - 1 - f.k)
  (if f.types.isEmpty then decide (bits x 48 3 = 0) else f.types.contains (bits x 48 3))
    && (f.pred || decide (bits x 52 4 = 0)) && (f.sat || decide (bits x 51 1 = 0))
    && regOk f.d (bits x 43 5) && regOk f.a (bits x 38 5)
    && (f.g || (regOk f.b (bits x 33 5) && regOk f.c (bits x 28 5))) && decide (unused = 0)

/-- Field D. -/
def wD (w : BitVec 56) : Nat := bits w.toNat 43 5

/-- Field A. -/
def wA (w : BitVec 56) : Nat := bits w.toNat 38 5

/-- Field B. -/
def wB (w : BitVec 56) : Nat := bits w.toNat 33 5

/-- Field C. -/
def wC (w : BitVec 56) : Nat := bits w.toNat 28 5

/-- TYPE. -/
def wT (w : BitVec 56) : Nat := bits w.toNat 48 3

/-- The saturation bit. -/
def wSat (w : BitVec 56) : Bool := bit w.toNat 51

/-- IMM of format G. -/
def wImm (w : BitVec 56) : Nat := bits w.toNat 0 32

/-! ### Reading registers at issue -/

/-- The physical register that a name stands for in B0 (R322). -/
def Lsu.rotated (n : Nat) (l : Lsu) : Nat := if n < 16 then n else 16 + (n - 16 + (16 - l.rot)) % 16

/-- The physical register that a name stands for in the active bank. -/
def Lsu.vNum (n : Nat) (l : Lsu) : Nat := if l.inB1 then n else l.rotated n

/-- A vector register. -/
def Lsu.vr (n : Nat) (l : Lsu) : BitVec 128 := nth l.cur.v (l.vNum n) 0

/-- An address register. -/
def Lsu.ar (n : Nat) (l : Lsu) : BitVec 32 := nth l.cur.a n 0

/-- A predicate register. -/
def Lsu.pr (n : Nat) (l : Lsu) : BitVec 16 := nth l.cur.p n 0

/-- A result of the instruction at issue, for the issuing bank. -/
def Lsu.out (lat : Nat) (d : SpuDest) (l : Lsu) : Retire := ⟨l.clk + lat, l.inB1, d⟩

/-! ### Lanes (R284, R285, R317) -/

/-- Width of a component of a type. -/
def compW (t : Nat) : Nat := match t with | 0 => 8 | 1 => 16 | 3 => 16 | _ => 32

/-- Bytes of a lane of a type. -/
def laneBytes (t : Nat) : Nat := match t with | 0 => 1 | 1 => 2 | 4 => 8 | _ => 4

/-- The bytes that the predicate enables: a lane by the bit of its lowest byte. -/
def Lsu.mask (t : Nat) (w : BitVec 56) (l : Lsu) : BitVec 16 :=
  if bit w.toNat 55 then
    let p := l.pr (bits w.toNat 52 3)
    BitVec.ofNat 16 ((List.range 16).foldl (fun a i => if p.getLsbD (i - i % laneBytes t) then a + 2 ^ i else a) 0)
  else 0xFFFF

/-- Component i of a vector, w bits, signed. -/
def comp (w i : Nat) (v : BitVec 128) : Int := sext w (bits v.toNat (w * i) w)

/-- Component i of a vector, as it stands. -/
def compN (w i : Nat) (v : BitVec 128) : Nat := bits v.toNat (w * i) w

/-- Components packed into a vector. -/
def packComps (w : Nat) (l : List Int) : BitVec 128 := BitVec.ofNat 128 (packBits (l.zipIdx.map fun x => (w * x.2, w, wrapInt w x.1)))

/-- Results of a vector instruction from its value and flags per component; a disabled lane gives neither (R285). -/
def Lsu.vecOut (t : Nat) (w : BitVec 56) (lat : Nat) (f : Nat → Int × Nat) (l : Lsu) : List Retire :=
  let cw := compW t
  let m := l.mask t w
  let r := (List.range (128 / cw)).map f
  let flags := r.zipIdx.foldl (fun a x => if m.getLsbD (x.2 * (cw / 8)) then a ||| x.1.2 else a) 0
  [l.out lat (.v (l.vNum (wD w)) m (packComps cw (r.map (·.1)))), l.out lat (.sr (BitVec.ofNat 32 flags))]

/-! ### Issue -/

/-- An enabled source is pending (R295): IEN is read from B0's CTL. -/
def Lsu.wanted (l : Lsu) : Bool := decide (l.pend.toNat &&& bits l.b0.ctl.toNat 8 6 ≠ 0)

/-- A unit may issue: its instance runs, is not frozen, halting, waiting or at a safe point of a long instruction. A WAITI inside a REP
body, where no interrupt is taken, ends when an enabled source is pending (R296, R320). -/
def Lsu.mayIssue (l : Lsu) : Bool :=
  decide (l.kernel ≠ 0) && (decide (l.state = 1) || decide (l.state = 2)) && l.recovery.isNone && l.halting.isNone && l.long.isNone
    && (!l.waiting || (l.wanted && l.rep.isSome))

/-- An illegal instruction changes nothing else and ends its instance: FAULT, ILLEGAL, its address as PC (R311, R346). -/
def illegal (n : Nat) (s : State) : State := endInstance n 3 0 1 (modLsu n (fun l => { l with lastPc := l.pc }) s)

/-- An opcode is a branch. -/
def isBranch (opc : Nat) : Bool := decide (8 ≤ opc) && decide (opc ≤ 12)

/-- An opcode is a long instruction. -/
def isLong (opc : Nat) : Bool := decide (0x80 ≤ opc) && decide (opc ≤ 0x89)

/-- An opcode is REP, REPA or LOOPR. -/
def isLoop (opc : Nat) : Bool := decide (4 ≤ opc) && decide (opc ≤ 6)

/-- An opcode may stand in the body that runs (R293, R294). -/
def Lsu.inBody (opc : Nat) (l : Lsu) : Bool :=
  (l.rep.isNone || !(isBranch opc || isLong opc || isLoop opc)) && (l.curLoop.isNone || !(isBranch opc || isLong opc))

/-- A waiting unit goes on: its results have retired, and CYCLE has counted the wait, whose length is a free value (R312, R320). -/
def wakeUnit (n : Nat) (s : State) : State :=
  if (getLsu n s).waiting then
    let r := freshValue 64 s
    modLsu n (fun l => { l.pass 5 with waiting := false, cycle := l.cycle + r.1 }.reachTimer) r.2
  else s

/-- An instruction issues: unless it is illegal, `go` gives the state after it, from the unit at its issue. -/
def issue (opc : Nat) (f : Form) (n : BitVec 4) (w : BitVec 56) (go : Lsu → State → Option State) (s : State) : State :=
  if !(getLsu n.toNat s).mayIssue then s
  else
    let s1 := wakeUnit n.toNat s
    let l := getLsu n.toNat s1
    if f.ok w && l.inBody opc then (go l s1).getD (illegal n.toNat s1) else illegal n.toNat s1

/-- The unit after an instruction that takes one cycle and leaves its results in flight. -/
def Lsu.done (l : Lsu) (rs : List Retire) : Lsu := { l.stepPc with lastPc := l.pc, flight := l.flight ++ rs }.pass 1

/-- The unit goes to an address, the next instruction issuing `lat` cycles after this one (R321). -/
def Lsu.goTo (a lat : Nat) (rs : List Retire) (l : Lsu) : Lsu :=
  { l with pc := a % 2 ^ 18, lastPc := l.pc, flight := l.flight ++ rs, afterRep := false, afterReti := false }.pass lat

/-- An instruction that acts on its unit alone. -/
def issueUnit (opc : Nat) (f : Form) (n : BitVec 4) (w : BitVec 56) (go : State → Lsu → Option Lsu) (s : State) : State :=
  issue opc f n w (fun l s => (go s l).map fun l1 => modLsu n.toNat (fun _ => l1) s) s

/-- An instruction whose only effects are results that retire. -/
def issueRegs (opc : Nat) (f : Form) (n : BitVec 4) (w : BitVec 56) (go : Lsu → Option (List Retire)) (s : State) : State :=
  issueUnit opc f n w (fun _ l => (go l).map l.done) s

end Sys2Proof.Machine
end

