-- ==== Sys2Proof/Machine/SpuScalar.lean ====
section
/-!
DEFINITION. SPU control, memory, address, scalar and predicate instructions and register moves (R292, R320-R325, R331-R333).
-/

namespace Sys2Proof.Machine

/-! ### Control instructions (R320-R322) -/

/-- NOP. -/
def execNop (n : BitVec 4) (w : BitVec 56) (s : State) : Host.Outcome State Fault Refusal :=
  .next (settle (issueRegs 0x00 (formG 0 0 0 0) n w (fun _ => some []) s))

/-- HALT: the instance ends once its DMA queues and its emit queue are empty. -/
def execHalt (n : BitVec 4) (w : BitVec 56) (s : State) : Host.Outcome State Fault Refusal :=
  .next (settle (haltTakes n.toNat (issueUnit 0x01 (formG 0 0 0 0xFFFF) n w (fun _ l => some { l.done [] with halting := some (wImm w) }) s)))

/-- RETI: B0 is active again and its instruction at EPC issues next (R287); legal in B1 only. -/
def execReti (n : BitVec 4) (w : BitVec 56) (s : State) : Host.Outcome State Fault Refusal :=
  .next (settle (issueUnit 0x02 (formG 0 0 0 0) n w (fun _ l =>
    if l.inB1 then some { l.goTo (l.b1.epc.toNat / 8 * 8) 1 [] with inB1 := false, afterReti := true, rep := none, loopB1 := none } else none) s))

/-- WAITI: nothing issues until an enabled source is pending; a NOP with CTL.IEN = 0; legal in B0 only. -/
def execWaiti (n : BitVec 4) (w : BitVec 56) (s : State) : Host.Outcome State Fault Refusal :=
  .next (settle (issueUnit 0x03 (formG 0 0 0 0) n w (fun _ l =>
    if l.inB1 then none else some { l.done [] with waiting := decide (bits l.b0.ctl.toNat 8 6 ≠ 0) }) s))

/-- Opcodes of the `len` instructions from an address on, as local memory holds them. -/
def Lsu.bodyOps (a len : Nat) (l : Lsu) : List Nat := (List.range len).map fun i => (l.byte (a + 8 * i + 7)).toNat

/-- REP and REPA: the body of `len` instructions runs `count` times (R293, R321). -/
def Lsu.startRep (count len : Nat) (l : Lsu) : Option Lsu :=
  let a := (l.pc + 8) % 2 ^ 18
  if 4096 < count * len || ((l.bodyOps a len).any fun o => isBranch o || isLong o || isLoop o) then none
  else if count = 0 then
    let d := l.done []
    some ({ d with pc := (a + 8 * (len - 1)) % 2 ^ 18 }.setLc 0 |> fun d => d.stepLoop d.pc)
  else some ({ l.done [] with rep := some ⟨a, len, count⟩, pc := a }.setLc count)

/-- REP. -/
def execRep (n : BitVec 4) (w : BitVec 56) (s : State) : Host.Outcome State Fault Refusal :=
  .next (settle (issueUnit 0x04 (formG 0 0 (0xF * 2 ^ 32) (2 ^ 32 - 1)) n w (fun _ l => l.startRep (wImm w) (bits w.toNat 32 4 + 1)) s))

/-- REPA: the count is read from aA at issue. -/
def execRepa (n : BitVec 4) (w : BitVec 56) (s : State) : Host.Outcome State Fault Refusal :=
  .next (settle (issueUnit 0x05 (formG 0 16 (0xF * 2 ^ 32) 0) n w (fun _ l => l.startRep (l.ar (wA w)).toNat (bits w.toNat 32 4 + 1)) s))

/-- LOOPR runs its body `count` times, with the names v16-v31 of B0 moving at the end of every iteration (R322). -/
def Lsu.startLoop (count len : Nat) (l : Lsu) : Option Lsu :=
  let a := (l.pc + 8) % 2 ^ 18
  if 2 ^ 24 < count || ((l.bodyOps a len).any fun o => isBranch o || isLong o) then none
  else if count = 0 then some { l.done [] with pc := (a + 8 * len) % 2 ^ 18 }
  else some ({ l.done [] with pc := a }.setLoop (some ⟨a, len, count⟩))

/-- LOOPR: legal only while the device is in MAINTENANCE (R294). -/
def execLoopr (n : BitVec 4) (w : BitVec 56) (s : State) : Host.Outcome State Fault Refusal :=
  .next (settle (issueUnit 0x06 (formG 0 0 (0xF * 2 ^ 32) (2 ^ 32 - 1)) n w (fun s l =>
    if effMode s = 12 then l.startLoop (wImm w) (bits w.toNat 32 4 + 1) else none) s))

/-- The bits of IMM that a branch target has: a multiple of 8 below 2^18. -/
def targetBits : Nat := 0x3FFF8

/-- BR. -/
def execBr (n : BitVec 4) (w : BitVec 56) (s : State) : Host.Outcome State Fault Refusal :=
  .next (settle (issueUnit 0x08 (formG 0 0 0 targetBits) n w (fun _ l => some (l.goTo (wImm w) 3 [])) s))

/-- The conditions of BC, on a signed register. -/
def condMet (c : Nat) (x : Int) : Option Bool :=
  match c with
  | 0 => some (decide (x = 0)) | 1 => some (decide (x ≠ 0)) | 2 => some (decide (x < 0)) | 3 => some (decide (0 ≤ x))
  | 4 => some (decide (0 < x)) | 5 => some (decide (x ≤ 0)) | _ => none

/-- BC. -/
def execBc (n : BitVec 4) (w : BitVec 56) (s : State) : Host.Outcome State Fault Refusal :=
  .next (settle (issueUnit 0x09 (formG 0 16 (7 * 2 ^ 32) targetBits) n w (fun _ l =>
    (condMet (bits w.toNat 32 3) (l.ar (wA w)).toInt).map fun t => if t then l.goTo (wImm w) 3 [] else l.done []) s))

/-- BP: on any bit of pA, or with K[32] on none. -/
def execBp (n : BitVec 4) (w : BitVec 56) (s : State) : Host.Outcome State Fault Refusal :=
  .next (settle (issueUnit 0x0A (formG 0 8 (2 ^ 32) targetBits) n w (fun _ l =>
    let any := decide (l.pr (wA w) ≠ 0)
    some (if any != bit w.toNat 32 then l.goTo (wImm w) 3 [] else l.done [])) s))

/-- CALL: a15 takes the address after it. -/
def execCall (n : BitVec 4) (w : BitVec 56) (s : State) : Host.Outcome State Fault Refusal :=
  .next (settle (issueUnit 0x0B (formG 0 0 0 targetBits) n w (fun _ l =>
    some (l.goTo (wImm w) 3 [l.out 1 (.a 15 (BitVec.ofNat 32 ((l.pc + 8) % 2 ^ 18)))])) s))

/-- JR: to aA[17:0]; bits [2:0] not 0 are illegal (R346). -/
def execJr (n : BitVec 4) (w : BitVec 56) (s : State) : Host.Outcome State Fault Refusal :=
  .next (settle (issueUnit 0x0C (formF 0 16 0 0 0) n w (fun _ l =>
    let a := (l.ar (wA w)).toNat % 2 ^ 18
    if a % 8 = 0 then some (l.goTo a 3 []) else none) s))

/-! ### Address updates (R292, R323) -/

/-- An address after a step, by an m register; none where BREV meets a length that is no power of two. -/
def addrUpdate (a : BitVec 32) (step : Int) (m : BitVec 32) : Option (BitVec 32) :=
  let len := bits m.toNat 0 18
  if len = 0 then some (BitVec.ofInt 32 (a.toNat + step))
  else
    let k := if len = 1 then 0 else (len - 1).log2 + 1
    let base := a.toNat / 2 ^ k * 2 ^ k
    if bit m.toNat 18 then
      if len = 2 ^ k then
        let off := bitrev k (a.toNat - base)
        some (BitVec.ofNat 32 (base + bitrev k ((off + step) % (len : Int)).toNat))
      else none
    else some (BitVec.ofNat 32 (base + (((a.toNat - base : Nat) + step) % (len : Int)).toNat))

/-- The bits of K and IMM in a memory instruction. -/
def memForm (d : Nat) (types : List Nat) (pred : Bool) : Form := ⟨true, d, 16, 0, 0, 0xF * 2 ^ 34, 2 ^ 32 - 1, types, pred, false⟩

/-- The updated address of a memory instruction. -/
def Lsu.updated (w : BitVec 56) (l : Lsu) : Option (BitVec 32) :=
  let m := if bit w.toNat 34 then nth l.cur.m (bits w.toNat 35 3) 0 else 0
  addrUpdate (l.ar (wA w)) (sext 32 (wImm w)) m

/-- A memory instruction: its result, if it has one, and the address register's update, which retires after 1 cycle. -/
def Lsu.memDone (w : BitVec 56) (rs : List Retire) (l : Lsu) : Option Lsu :=
  (l.updated w).map fun a => l.done ([l.out 1 (.a (wA w) a)] ++ rs)

/-- A line of local memory (R291). -/
def Lsu.line (a : Nat) (l : Lsu) : BitVec 128 := BitVec.ofNat 128 (leNat (l.bytes (a / 16 * 16) 16))

/-- A line of local memory is written in its enabled bytes. -/
def Lsu.storeLine (a : Nat) (m : BitVec 16) (v : BitVec 128) (l : Lsu) : Lsu :=
  l.poke (a / 16 * 16) (leBytes 16 (mergeBytes m (l.line a) v).toNat)

/-- A 32-bit word of local memory. -/
def Lsu.word (a : Nat) (l : Lsu) : BitVec 32 := BitVec.ofNat 32 (leNat (l.bytes (a / 4 * 4) 4))

/-- VLD: the line retires after 4 cycles. -/
def execVld (n : BitVec 4) (w : BitVec 56) (s : State) : Host.Outcome State Fault Refusal :=
  .next (settle (issueUnit 0x10 (memForm 32 allTypes true) n w (fun _ l =>
    l.memDone w [l.out 4 (.v (l.vNum (wD w)) (l.mask (wT w) w) (l.line (l.ar (wA w)).toNat))]) s))

/-- VST: the line is written in the cycle after issue, bytes of disabled lanes excepted (R324). -/
def execVst (n : BitVec 4) (w : BitVec 56) (s : State) : Host.Outcome State Fault Refusal :=
  .next (settle (issueUnit 0x11 (memForm 32 allTypes true) n w (fun _ l =>
    (l.memDone w []).map (Lsu.storeLine (l.ar (wA w)).toNat (l.mask (wT w) w) (l.vr (wD w)))) s))

/-- LDW. -/
def execLdw (n : BitVec 4) (w : BitVec 56) (s : State) : Host.Outcome State Fault Refusal :=
  .next (settle (issueUnit 0x12 (memForm 16 [] false) n w (fun _ l =>
    l.memDone w [l.out 4 (.a (wD w) (l.word (l.ar (wA w)).toNat))]) s))

/-- STW. -/
def execStw (n : BitVec 4) (w : BitVec 56) (s : State) : Host.Outcome State Fault Refusal :=
  .next (settle (issueUnit 0x13 (memForm 16 [] false) n w (fun _ l =>
    (l.memDone w []).map (Lsu.poke ((l.ar (wA w)).toNat / 4 * 4) (leBytes 4 (l.ar (wD w)).toNat))) s))

/-- AUPD. -/
def execAupd (n : BitVec 4) (w : BitVec 56) (s : State) : Host.Outcome State Fault Refusal :=
  .next (settle (issueUnit 0x14 (memForm 0 [] false) n w (fun _ l => l.memDone w []) s))

/-! ### Scalar and predicate instructions (R325) -/

/-- A scalar result with its saturation flag, after `lat` cycles. -/
def Lsu.fitOut (w : BitVec 56) (lat : Nat) (x : Int) (l : Lsu) : Option (List Retire) :=
  let r := fitTo (wSat w) 32 x
  some [l.out lat (.a (wD w) (BitVec.ofInt 32 r.1)), l.out lat (.sr (BitVec.ofNat 32 (satFlag r.2)))]

/-- The form of a scalar instruction of format F, with or without saturation. -/
def formA (b : Nat) (sat : Bool) : Form := { formF 16 16 b 0 0 with sat := sat }

/-- AMOVI. -/
def execAmovi (n : BitVec 4) (w : BitVec 56) (s : State) : Host.Outcome State Fault Refusal :=
  .next (settle (issueRegs 0x20 (formG 16 0 0 (2 ^ 32 - 1)) n w (fun l => some [l.out 1 (.a (wD w) (BitVec.ofNat 32 (wImm w)))]) s))

/-- AADDI. -/
def execAaddi (n : BitVec 4) (w : BitVec 56) (s : State) : Host.Outcome State Fault Refusal :=
  .next (settle (issueRegs 0x21 { formG 16 16 0 (2 ^ 32 - 1) with sat := true } n w (fun l =>
    l.fitOut w 1 ((l.ar (wA w)).toInt + sext 32 (wImm w))) s))

/-- AADD. -/
def execAadd (n : BitVec 4) (w : BitVec 56) (s : State) : Host.Outcome State Fault Refusal :=
  .next (settle (issueRegs 0x22 (formA 16 true) n w (fun l => l.fitOut w 1 ((l.ar (wA w)).toInt + (l.ar (wB w)).toInt)) s))

/-- ASUB. -/
def execAsub (n : BitVec 4) (w : BitVec 56) (s : State) : Host.Outcome State Fault Refusal :=
  .next (settle (issueRegs 0x23 (formA 16 true) n w (fun l => l.fitOut w 1 ((l.ar (wA w)).toInt - (l.ar (wB w)).toInt)) s))

/-- AAND. -/
def execAand (n : BitVec 4) (w : BitVec 56) (s : State) : Host.Outcome State Fault Refusal :=
  .next (settle (issueRegs 0x24 (formA 16 false) n w (fun l => some [l.out 1 (.a (wD w) (l.ar (wA w) &&& l.ar (wB w)))]) s))

/-- AOR. -/
def execAor (n : BitVec 4) (w : BitVec 56) (s : State) : Host.Outcome State Fault Refusal :=
  .next (settle (issueRegs 0x25 (formA 16 false) n w (fun l => some [l.out 1 (.a (wD w) (l.ar (wA w) ||| l.ar (wB w)))]) s))

/-- AXOR. -/
def execAxor (n : BitVec 4) (w : BitVec 56) (s : State) : Host.Outcome State Fault Refusal :=
  .next (settle (issueRegs 0x26 (formA 16 false) n w (fun l => some [l.out 1 (.a (wD w) (l.ar (wA w) ^^^ l.ar (wB w)))]) s))

/-- The form of a scalar shift: K[36:32] is the count. -/
def formSh (sat : Bool) : Form := { formG 16 16 (31 * 2 ^ 32) 0 with sat := sat }

/-- The count of a scalar shift. -/
def wSh (w : BitVec 56) : Nat := bits w.toNat 32 5

/-- ASHL. -/
def execAshl (n : BitVec 4) (w : BitVec 56) (s : State) : Host.Outcome State Fault Refusal :=
  .next (settle (issueRegs 0x27 (formSh true) n w (fun l => l.fitOut w 1 ((l.ar (wA w)).toInt * 2 ^ wSh w)) s))

/-- ASHR. -/
def execAshr (n : BitVec 4) (w : BitVec 56) (s : State) : Host.Outcome State Fault Refusal :=
  .next (settle (issueRegs 0x28 (formSh false) n w (fun l => some [l.out 1 (.a (wD w) (l.ar (wA w) >>> wSh w))]) s))

/-- ASRA. -/
def execAsra (n : BitVec 4) (w : BitVec 56) (s : State) : Host.Outcome State Fault Refusal :=
  .next (settle (issueRegs 0x29 (formSh false) n w (fun l => some [l.out 1 (.a (wD w) ((l.ar (wA w)).sshiftRight (wSh w)))]) s))

/-- AMUL: latency 3. -/
def execAmul (n : BitVec 4) (w : BitVec 56) (s : State) : Host.Outcome State Fault Refusal :=
  .next (settle (issueRegs 0x2A (formA 16 true) n w (fun l => l.fitOut w 3 ((l.ar (wA w)).toInt * (l.ar (wB w)).toInt)) s))

/-- MTM: reserved bits are ignored (R292). -/
def execMtm (n : BitVec 4) (w : BitVec 56) (s : State) : Host.Outcome State Fault Refusal :=
  .next (settle (issueRegs 0x2B (formF 8 16 0 0 0) n w (fun l => some [l.out 1 (.m (wD w) (l.ar (wA w)))]) s))

/-- MFM. -/
def execMfm (n : BitVec 4) (w : BitVec 56) (s : State) : Host.Outcome State Fault Refusal :=
  .next (settle (issueRegs 0x2C (formF 16 8 0 0 0) n w (fun l => some [l.out 1 (.a (wD w) (nth l.cur.m (wA w) 0))]) s))

/-- A predicate result. -/
def Lsu.predOut (w : BitVec 56) (x : BitVec 16) (l : Lsu) : Option (List Retire) := some [l.out 1 (.p (wD w) 0xFFFF x)]

/-- PSET. -/
def execPset (n : BitVec 4) (w : BitVec 56) (s : State) : Host.Outcome State Fault Refusal :=
  .next (settle (issueRegs 0x30 (formG 8 0 0 0xFFFF) n w (fun l => l.predOut w (BitVec.ofNat 16 (wImm w))) s))

/-- PAND. -/
def execPand (n : BitVec 4) (w : BitVec 56) (s : State) : Host.Outcome State Fault Refusal :=
  .next (settle (issueRegs 0x31 (formF 8 8 8 0 0) n w (fun l => l.predOut w (l.pr (wA w) &&& l.pr (wB w))) s))

/-- POR. -/
def execPor (n : BitVec 4) (w : BitVec 56) (s : State) : Host.Outcome State Fault Refusal :=
  .next (settle (issueRegs 0x32 (formF 8 8 8 0 0) n w (fun l => l.predOut w (l.pr (wA w) ||| l.pr (wB w))) s))

/-- PXOR. -/
def execPxor (n : BitVec 4) (w : BitVec 56) (s : State) : Host.Outcome State Fault Refusal :=
  .next (settle (issueRegs 0x33 (formF 8 8 8 0 0) n w (fun l => l.predOut w (l.pr (wA w) ^^^ l.pr (wB w))) s))

/-- PNOT. -/
def execPnot (n : BitVec 4) (w : BitVec 56) (s : State) : Host.Outcome State Fault Refusal :=
  .next (settle (issueRegs 0x34 (formF 8 8 0 0 0) n w (fun l => l.predOut w (~~~(l.pr (wA w)))) s))

/-- PFROMA. -/
def execPfroma (n : BitVec 4) (w : BitVec 56) (s : State) : Host.Outcome State Fault Refusal :=
  .next (settle (issueRegs 0x35 (formF 8 16 0 0 0) n w (fun l => l.predOut w ((l.ar (wA w)).setWidth 16)) s))

/-- PTOA. -/
def execPtoa (n : BitVec 4) (w : BitVec 56) (s : State) : Host.Outcome State Fault Refusal :=
  .next (settle (issueRegs 0x36 (formF 16 8 0 0 0) n w (fun l => some [l.out 1 (.a (wD w) ((l.pr (wA w)).setWidth 32))]) s))

/-! ### Register moves (R331-R333) -/

/-- K[21:16]. -/
def wK6 (w : BitVec 56) : Nat := bits w.toNat 16 6

/-- MFC. -/
def execMfc (n : BitVec 4) (w : BitVec 56) (s : State) : Host.Outcome State Fault Refusal :=
  .next (settle (issueUnit 0x18 (formF 16 0 0 0 0x3F0000) n w (fun s l =>
    if wK6 w < 6 then some (l.done [l.out 1 (.a (wD w) (l.cur.readCtl l.inB1 l.inB1 (decide (effMode s = 12)) (wK6 w)))]) else none) s))

/-- MTC. -/
def execMtc (n : BitVec 4) (w : BitVec 56) (s : State) : Host.Outcome State Fault Refusal :=
  .next (settle (issueRegs 0x19 (formF 0 16 0 0 0x3F0000) n w (fun l =>
    if wK6 w < 6 then some [l.out 1 (.ctl (wK6 w) (l.ar (wA w)))] else none) s))

/-- Open taps: TAPST. -/
def Lsu.tapst (l : Lsu) : Nat := l.taps.zipIdx.foldl (fun a t => if t.1.isOpen then a + 2 ^ t.2 else a) 0

/-- A special register as MFS reads it (R312, R332). -/
def Lsu.readSpecial (k : Nat) (l : Lsu) : BitVec 32 :=
  if k = 0 then l.pend.setWidth 32
  else if k = 1 then l.sigq.head?.getD 0
  else if k = 2 then BitVec.ofNat 32 l.sigq.length
  else if k = 3 then BitVec.ofNat 32 l.tapst
  else if k = 4 then BitVec.ofNat 32 (8 - l.emits.length)
  else if k < 16 then ((l.taps[k - 8]?).map (·.head)).getD 0
  else if k < 24 then ((l.taps[k - 16]?).map (·.tail)).getD 0
  else if k < 28 then nth l.dmaDone (k - 24) 0
  else if k = 28 then BitVec.ofNat 32 l.cycle.toNat
  else if k = 29 then l.cycleHi
  else BitVec.ofNat 32 (l.timerCmp.toNat / 2 ^ (32 * (k - 30)))

/-- What a read changes: SIGQ pops, and CYCLE's low half latches the high half. -/
def Lsu.onRead (k : Nat) (l : Lsu) : Lsu :=
  if k = 1 then { l with sigq := l.sigq.tail } else if k = 28 then { l with cycleHi := BitVec.ofNat 32 (l.cycle.toNat / 2 ^ 32) } else l

/-- A special register as MTS writes it; a write to one that is read-only is ignored. -/
def Lsu.writeSpecial (k : Nat) (v : BitVec 32) (l : Lsu) : Lsu :=
  if k = 0 then
    let left := l.pend &&& ~~~(v.setWidth 6)
    { l with pend := if l.sigq.isEmpty then left else left ||| 1 }
  else if 16 ≤ k ∧ k < 24 then { l with taps := modNth l.taps (k - 16) fun t => { t with tail := v } }
  else if k = 30 then { l with timerLo := v }
  else if k = 31 then
    let c := BitVec.ofNat 64 (v.toNat * 2 ^ 32 + l.timerLo.toNat)
    { l with timerCmp := c, timerArmed := decide (c ≠ 0) }
  else l

/-- A special register number exists. -/
def specialOk (k : Nat) : Bool := !(decide (5 ≤ k) && decide (k ≤ 7))

/-- K[20:16]. -/
def wK5 (w : BitVec 56) : Nat := bits w.toNat 16 5

/-- MFS. -/
def execMfs (n : BitVec 4) (w : BitVec 56) (s : State) : Host.Outcome State Fault Refusal :=
  .next (settle (issueUnit 0x1A (formF 16 0 0 0 0x1F0000) n w (fun _ l =>
    if specialOk (wK5 w) then some ((l.onRead (wK5 w)).done [l.out 1 (.a (wD w) (l.readSpecial (wK5 w)))]) else none) s))

/-- MTS. -/
def execMts (n : BitVec 4) (w : BitVec 56) (s : State) : Host.Outcome State Fault Refusal :=
  .next (settle (issueUnit 0x1B (formF 0 16 0 0 0x1F0000) n w (fun _ l =>
    if specialOk (wK5 w) then some (((l.done []).writeSpecial (wK5 w) (l.ar (wA w))).reachTimer) else none) s))

/-- The class of a cross-bank move. -/
def wClass (w : BitVec 56) : Nat := bits w.toNat 25 3

/-- A B0 register number is one of its class (R317, R333). -/
def b0Ok (cls r : Nat) : Bool :=
  match cls with
  | 0 => true | 1 => decide (r < 16) | 2 => decide (r < 8) | 3 => !bit r 2 && decide (r / 8 < 3) | 4 => decide (r < 8) | 5 => decide (r < 6)
  | _ => false

/-- A B1 register number is one of its class: v for classes 0 and 3, else a. -/
def b1Ok (cls r : Nat) : Bool := if cls = 0 || cls = 3 then true else decide (r < 16)

/-- What MFB reads from B0, as a destination of B1. -/
def Lsu.crossRead (maint : Bool) (cls r d : Nat) (l : Lsu) : SpuDest :=
  match cls with
  | 0 => .v d 0xFFFF (nth l.b0.v (l.rotated r) 0)
  | 1 => .a d (nth l.b0.a r 0)
  | 2 => .a d (nth l.b0.m r 0)
  | 3 => .v d 0xFFFF (accRead l.b0.acc (r % 4) (r / 8))
  | 4 => .a d ((nth l.b0.p r 0).setWidth 32)
  | _ => .a d (l.b0.readCtl false l.inB1 maint r)

/-- What MTB writes into B0. -/
def Lsu.crossWrite (cls r a : Nat) (l : Lsu) : SpuDest :=
  match cls with
  | 0 => .v (l.rotated r) 0xFFFF (nth l.b1.v a 0)
  | 1 => .a r (nth l.b1.a a 0)
  | 2 => .m r (nth l.b1.a a 0)
  | 3 => .accPart (r % 4) (r / 8) (nth l.b1.v a 0)
  | 4 => .p r 0xFFFF ((nth l.b1.a a 0).setWidth 16)
  | _ => .ctl r (nth l.b1.a a 0)

/-- MFB: legal in B1 only. -/
def execMfb (n : BitVec 4) (w : BitVec 56) (s : State) : Host.Outcome State Fault Refusal :=
  .next (settle (issueUnit 0x1C (formF 32 32 0 0 0xE000000) n w (fun s l =>
    if l.inB1 && b0Ok (wClass w) (wA w) && b1Ok (wClass w) (wD w) then
      some (l.done [l.out 1 (l.crossRead (decide (effMode s = 12)) (wClass w) (wA w) (wD w))])
    else none) s))

/-- MTB: legal in B1 only; the write retires into B0 in the cycle after issue. -/
def execMtb (n : BitVec 4) (w : BitVec 56) (s : State) : Host.Outcome State Fault Refusal :=
  .next (settle (issueUnit 0x1D (formF 32 32 0 0 0xE000000) n w (fun _ l =>
    if l.inB1 && b0Ok (wClass w) (wD w) && b1Ok (wClass w) (wA w) then
      some (l.done [⟨l.clk + 1, false, l.crossWrite (wClass w) (wD w) (wA w)⟩])
    else none) s))

end Sys2Proof.Machine
end

