-- ==== Sys2Proof/Machine/SpuVector.lean ====
section
/-!
DEFINITION. SPU vector, multiply and accumulate instructions (R326-R330).
-/

namespace Sys2Proof.Machine

/-! ### Binary32 lanes (R290, R327) -/

/-- A binary32 result with its flags; which quiet NaN a NaN result is stays free. -/
def f32Lane (r : Nat × FFlags) (a b c : Nat) : Int × Nat :=
  let free := (Config.nanBits (BitVec.ofNat 32 a) (BitVec.ofNat 32 b) (BitVec.ofNat 32 c)).toNat
  ((if (FV.decode f32 r.1).isNan then packBits [(0, 22, bits free 0 22), (22, 9, 0x1FF), (31, 1, bits free 22 1)] else r.1 : Nat), fpFlags r.2)

/-- FINV when a word is a signalling NaN. -/
def signalFlag (l : List Nat) : Nat := if l.any fun w => decide (FV.decode f32 w = .nan true) then 4 else 0

/-- A key that orders binary32 words as IEEE 754 totalOrder does; for words that are not NaN it is the order of the values, with -0
below +0. -/
def keyF (w : Nat) : Int := if w < 2 ^ 31 then (w : Int) else -((w - 2 ^ 31 : Nat) : Int) - 1

/-- A binary32 word is a NaN. -/
def isNan32 (w : Nat) : Bool := (FV.decode f32 w).isNan

/-- VMIN and VMAX on binary32 (R327). -/
def minMaxF (max : Bool) (a b : Nat) : Int × Nat :=
  let x := if isNan32 a then (if isNan32 b then 0x7FC00000 else b) else if isNan32 b then a
    else if decide (keyF a < keyF b) != max then a else b
  ((x : Nat), signalFlag [a, b])

/-- An integer lane fitted, with its flag. -/
def fitLane (w : BitVec 56) (t : Nat) (x : Int) : Int × Nat := let r := fitTo (wSat w) (compW t) x; (r.1, satFlag r.2)

/-- A vector instruction: values and flags per component, from the words of a and b. -/
def vecOp (opc : Nat) (f : Form) (n : BitVec 4) (w : BitVec 56) (lat : Nat) (go : Lsu → Nat → Option (Int × Nat)) (s : State) : State :=
  issueRegs opc f n w (fun l =>
    let cw := compW (wT w)
    if (List.range (128 / cw)).all fun i => (go l i).isSome then some (l.vecOut (wT w) w lat fun i => (go l i).getD (0, 0)) else none) s

/-- Latency of an operation that computes a binary32 result with TYPE f32. -/
def fLat (w : BitVec 56) : Nat := if wT w = 5 then 3 else 1

/-- Component i of vA as a word. -/
def Lsu.aN (w : BitVec 56) (i : Nat) (l : Lsu) : Nat := compN (compW (wT w)) i (l.vr (wA w))

/-- Component i of vB as a word. -/
def Lsu.bN (w : BitVec 56) (i : Nat) (l : Lsu) : Nat := compN (compW (wT w)) i (l.vr (wB w))

/-- Component i of vA, signed. -/
def Lsu.aI (w : BitVec 56) (i : Nat) (l : Lsu) : Int := comp (compW (wT w)) i (l.vr (wA w))

/-- Component i of vB, signed. -/
def Lsu.bI (w : BitVec 56) (i : Nat) (l : Lsu) : Int := comp (compW (wT w)) i (l.vr (wB w))

/-- VADD. -/
def execVadd (n : BitVec 4) (w : BitVec 56) (s : State) : Host.Outcome State Fault Refusal :=
  .next (settle (vecOp 0x40 (formV 32 32 32 0 0 allTypes true) n w (fLat w) (fun l i => some (
    if wT w = 5 then f32Lane (addF f32 (FV.decode f32 (l.aN w i)) (FV.decode f32 (l.bN w i))) (l.aN w i) (l.bN w i) 0
    else fitLane w (wT w) (l.aI w i + l.bI w i))) s))

/-- VSUB. -/
def execVsub (n : BitVec 4) (w : BitVec 56) (s : State) : Host.Outcome State Fault Refusal :=
  .next (settle (vecOp 0x41 (formV 32 32 32 0 0 allTypes true) n w (fLat w) (fun l i => some (
    if wT w = 5 then f32Lane (addF f32 (FV.decode f32 (l.aN w i)) (FV.decode f32 (l.bN w i)).neg) (l.aN w i) (l.bN w i) 0
    else fitLane w (wT w) (l.aI w i - l.bI w i))) s))

/-- VNEG. -/
def execVneg (n : BitVec 4) (w : BitVec 56) (s : State) : Host.Outcome State Fault Refusal :=
  .next (settle (vecOp 0x42 (formV 32 32 0 0 0 allTypes true) n w (fLat w) (fun l i => some (
    if wT w = 5 then (((l.aN w i) ^^^ 0x80000000 : Nat), 0) else fitLane w (wT w) (-(l.aI w i)))) s))

/-- VABS. -/
def execVabs (n : BitVec 4) (w : BitVec 56) (s : State) : Host.Outcome State Fault Refusal :=
  .next (settle (vecOp 0x43 (formV 32 32 0 0 0 [0, 1, 2, 5] true) n w (fLat w) (fun l i => some (
    if wT w = 5 then ((l.aN w i % 2 ^ 31 : Nat), 0) else fitLane w (wT w) (l.aI w i).natAbs)) s))

/-- VMIN. -/
def execVmin (n : BitVec 4) (w : BitVec 56) (s : State) : Host.Outcome State Fault Refusal :=
  .next (settle (vecOp 0x44 (formV 32 32 32 0 0 [0, 1, 2, 5] false) n w (fLat w) (fun l i => some (
    if wT w = 5 then minMaxF false (l.aN w i) (l.bN w i) else (min (l.aI w i) (l.bI w i), 0))) s))

/-- VMAX. -/
def execVmax (n : BitVec 4) (w : BitVec 56) (s : State) : Host.Outcome State Fault Refusal :=
  .next (settle (vecOp 0x45 (formV 32 32 32 0 0 [0, 1, 2, 5] false) n w (fLat w) (fun l i => some (
    if wT w = 5 then minMaxF true (l.aN w i) (l.bN w i) else (max (l.aI w i) (l.bI w i), 0))) s))

/-- A bitwise vector result: TYPE sets the predicate's width only. -/
def vecBits (opc : Nat) (f : Form) (n : BitVec 4) (w : BitVec 56) (go : Lsu → BitVec 128) (s : State) : State :=
  issueRegs opc f n w (fun l => some [l.out 1 (.v (l.vNum (wD w)) (l.mask (wT w) w) (go l))]) s

/-- VAND. -/
def execVand (n : BitVec 4) (w : BitVec 56) (s : State) : Host.Outcome State Fault Refusal :=
  .next (settle (vecBits 0x46 (formV 32 32 32 0 0 allTypes false) n w (fun l => l.vr (wA w) &&& l.vr (wB w)) s))

/-- VOR. -/
def execVor (n : BitVec 4) (w : BitVec 56) (s : State) : Host.Outcome State Fault Refusal :=
  .next (settle (vecBits 0x47 (formV 32 32 32 0 0 allTypes false) n w (fun l => l.vr (wA w) ||| l.vr (wB w)) s))

/-- VXOR. -/
def execVxor (n : BitVec 4) (w : BitVec 56) (s : State) : Host.Outcome State Fault Refusal :=
  .next (settle (vecBits 0x48 (formV 32 32 32 0 0 allTypes false) n w (fun l => l.vr (wA w) ^^^ l.vr (wB w)) s))

/-- VNOT. -/
def execVnot (n : BitVec 4) (w : BitVec 56) (s : State) : Host.Outcome State Fault Refusal :=
  .next (settle (vecBits 0x49 (formV 32 32 0 0 0 allTypes false) n w (fun l => ~~~(l.vr (wA w))) s))

/-- The bits of a shift count, K[20:16]. -/
def shBits : Nat := 0x1F0000

/-- A shift by K[20:16], which is below the lane's width (R326). -/
def vecShift (opc : Nat) (sat : Bool) (n : BitVec 4) (w : BitVec 56) (go : Lsu → Nat → Int × Nat) (s : State) : State :=
  vecOp opc (formV 32 32 0 0 shBits [0, 1, 2, 3, 4] sat) n w 1 (fun l i => if wK5 w < compW (wT w) then some (go l i) else none) s

/-- VSHL. -/
def execVshl (n : BitVec 4) (w : BitVec 56) (s : State) : Host.Outcome State Fault Refusal :=
  .next (settle (vecShift 0x4A true n w (fun l i => fitLane w (wT w) (l.aI w i * 2 ^ wK5 w)) s))

/-- VSHR: with one rounding. -/
def execVshr (n : BitVec 4) (w : BitVec 56) (s : State) : Host.Outcome State Fault Refusal :=
  .next (settle (vecShift 0x4B false n w (fun l i => (rnd l.up (wK5 w) (l.aI w i), 0)) s))

/-- VASR. -/
def execVasr (n : BitVec 4) (w : BitVec 56) (s : State) : Host.Outcome State Fault Refusal :=
  .next (settle (vecShift 0x4C false n w (fun l i => (l.aI w i / 2 ^ wK5 w, 0)) s))

/-- VLSR. -/
def execVlsr (n : BitVec 4) (w : BitVec 56) (s : State) : Host.Outcome State Fault Refusal :=
  .next (settle (vecShift 0x4D false n w (fun l i => ((l.aN w i / 2 ^ wK5 w : Nat), 0)) s))

/-- The conditions of VCMP on "equal" and "less". -/
def cmpMet (c : Nat) (eq lt gt : Bool) : Option Bool :=
  match c with
  | 0 => some eq | 1 => some !eq | 2 => some lt | 3 => some (lt || eq) | 4 => some gt | 5 => some (gt || eq) | _ => none

/-- VCMP of one lane; -0 equals +0, and with a NaN only NE holds (R327). -/
def Lsu.vcmp (w : BitVec 56) (i : Nat) (l : Lsu) : Option Bool :=
  let c := bits w.toNat 16 3
  if wT w = 5 then
    let a := FV.decode f32 (l.aN w i)
    let b := FV.decode f32 (l.bN w i)
    cmpMet c (a.eqv b) (a.lt b) (b.lt a)
  else cmpMet c (decide (l.aI w i = l.bI w i)) (decide (l.aI w i < l.bI w i)) (decide (l.bI w i < l.aI w i))

/-- VCMP: a lane's predicate bits become all 1 or all 0. -/
def execVcmp (n : BitVec 4) (w : BitVec 56) (s : State) : Host.Outcome State Fault Refusal :=
  .next (settle (issueRegs 0x4E (formV 8 32 32 0 0x70000 [0, 1, 2, 5] false) n w (fun l =>
    let t := wT w
    let m := l.mask t w
    if bits w.toNat 16 3 < 6 then
      let set := BitVec.ofNat 16 ((List.range 16).foldl (fun a i => if l.vcmp w (i / laneBytes t) = some true then a + 2 ^ i else a) 0)
      let fl := (List.range (16 / laneBytes t)).foldl (fun a i =>
        if decide (t = 5) && m.getLsbD (i * laneBytes t) then a ||| signalFlag [l.aN w i, l.bN w i] else a) 0
      some [l.out 1 (.p (wD w) m set), l.out 1 (.sr (BitVec.ofNat 32 fl))]
    else none) s))

/-- VMOV. -/
def execVmov (n : BitVec 4) (w : BitVec 56) (s : State) : Host.Outcome State Fault Refusal :=
  .next (settle (vecBits 0x4F (formV 32 32 0 0 0 allTypes false) n w (fun l => l.vr (wA w)) s))

/-- VSPLAT: aA truncated to each component; c32 lanes take aA and aB. -/
def execVsplat (n : BitVec 4) (w : BitVec 56) (s : State) : Host.Outcome State Fault Refusal :=
  .next (settle (vecBits 0x50 (formV 32 16 (if wT w = 4 then 16 else 0) 0 0 allTypes false) n w (fun l =>
    packComps (compW (wT w)) ((List.range (128 / compW (wT w))).map fun i =>
      ((l.ar (if wT w = 4 ∧ i % 2 = 1 then wB w else wA w)).toNat : Int))) s))

/-- K[19:16]. -/
def wK4 (w : BitVec 56) : Nat := bits w.toNat 16 4

/-- VEXT: the lane exists. -/
def execVext (n : BitVec 4) (w : BitVec 56) (s : State) : Host.Outcome State Fault Refusal :=
  .next (settle (issueRegs 0x51 { formV 16 32 0 0 0xF0000 [0, 1, 2] false with pred := false } n w (fun l =>
    if wK4 w < 128 / compW (wT w) then some [l.out 1 (.a (wD w) (BitVec.ofInt 32 (l.aI w (wK4 w))))] else none) s))

/-- VINS: the other lanes are unchanged. -/
def execVins (n : BitVec 4) (w : BitVec 56) (s : State) : Host.Outcome State Fault Refusal :=
  .next (settle (issueRegs 0x52 { formV 32 16 0 0 0xF0000 [0, 1, 2] false with pred := false } n w (fun l =>
    let cw := compW (wT w)
    let k := wK4 w
    if k < 128 / cw then
      let m := BitVec.ofNat 16 ((2 ^ (cw / 8) - 1) * 2 ^ (k * (cw / 8)))
      some [l.out 1 (.v (l.vNum (wD w)) m (BitVec.ofNat 128 ((l.ar (wA w)).toNat % 2 ^ cw * 2 ^ (cw * k))))]
    else none) s))

/-- VPERM: byte j takes the byte of vA that vB's byte names, or 0. -/
def execVperm (n : BitVec 4) (w : BitVec 56) (s : State) : Host.Outcome State Fault Refusal :=
  .next (settle (vecBits 0x53 (formV 32 32 32 0 0 [] false) n w (fun l =>
    packComps 8 ((List.range 16).map fun j =>
      let k := compN 8 j (l.vr (wB w))
      if bit k 7 then 0 else comp 8 (k % 16) (l.vr (wA w)))) s))

/-- VCONJ. -/
def execVconj (n : BitVec 4) (w : BitVec 56) (s : State) : Host.Outcome State Fault Refusal :=
  .next (settle (vecOp 0x54 (formV 32 32 0 0 0 [3, 4] true) n w 1 (fun l i => some (
    if i % 2 = 1 then fitLane w (wT w) (-(l.aI w i)) else (l.aI w i, 0))) s))

/-- VNARROW: i32 lanes of vA, then of vB, shifted with one rounding and fitted to 16 bits. -/
def execVnarrow (n : BitVec 4) (w : BitVec 56) (s : State) : Host.Outcome State Fault Refusal :=
  .next (settle (vecOp 0x55 (formV 32 32 32 0 shBits [1, 3] true) n w 1 (fun l i =>
    let x := if i < 4 then comp 32 i (l.vr (wA w)) else comp 32 (i - 4) (l.vr (wB w))
    some (fitLane w 1 (rnd l.up (wK5 w) x))) s))

/-- VWIDEN. -/
def execVwiden (n : BitVec 4) (w : BitVec 56) (s : State) : Host.Outcome State Fault Refusal :=
  .next (settle (vecOp 0x56 (formV 32 32 0 0 0x10000 [2, 4] false) n w 1 (fun l i =>
    some (comp 16 (i + 4 * bits w.toNat 16 1) (l.vr (wA w)), 0)) s))

/-- An i32 value times 2^-s as binary32 (R328). -/
def cvtToF (x : Int) (k : Nat) : Int × Nat :=
  let r := roundDyad f32 x (-(k : Int)) false
  ((r.1 : Nat), if r.2.inexact then 32 else 0)

/-- A binary32 value times 2^s rounded to i32 (R328). -/
def cvtToI (up sat : Bool) (x k : Nat) : Int × Nat :=
  let lo : Int := -(2 ^ 31 : Nat)
  let hi : Int := (2 ^ 31 : Nat) - 1
  let fail := fun (v : Int) (f : Nat) => if sat then (v, 2 ||| f) else (lo, 4)
  match FV.decode f32 x with
  | .nan _ => fail 0 4
  | .inf sg => fail (if sg then lo else hi) 0
  | .fin sg m e =>
    let q := e + k
    let y := if 0 ≤ q then signed sg m * 2 ^ q.toNat else rnd up (-q).toNat (signed sg m)
    if y < lo then fail lo 0 else if hi < y then fail hi 0 else (y, 0)

/-- VCVT. -/
def execVcvt (n : BitVec 4) (w : BitVec 56) (s : State) : Host.Outcome State Fault Refusal :=
  .next (settle (vecOp 0x57 (formV 32 32 0 0 0xC1F0000 [5] true) n w 3 (fun l i =>
    match bits w.toNat 26 2 with
    | 0 => some (cvtToF (l.aI w i) (wK5 w))
    | 1 => some (cvtToI l.up (wSat w) (l.aN w i) (wK5 w))
    | _ => none) s))

/-! ### Multiplication (R329) -/

/-- VMUL. -/
def execVmul (n : BitVec 4) (w : BitVec 56) (s : State) : Host.Outcome State Fault Refusal :=
  .next (settle (vecOp 0x60 (formV 32 32 32 0 0 [0, 1, 2, 5] true) n w 3 (fun l i => some (
    if wT w = 5 then f32Lane (mulF f32 (FV.decode f32 (l.aN w i)) (FV.decode f32 (l.bN w i))) (l.aN w i) (l.bN w i) 0
    else fitLane w (wT w) (l.aI w i * l.bI w i))) s))

/-- VMULQ. -/
def execVmulq (n : BitVec 4) (w : BitVec 56) (s : State) : Host.Outcome State Fault Refusal :=
  .next (settle (vecOp 0x61 (formV 32 32 32 0 0 [0, 1, 2] true) n w 3 (fun l i => some (
    fitLane w (wT w) (rnd l.up (compW (wT w) - 1) (l.aI w i * l.bI w i)))) s))

/-- Component i of a complex product a * b, or a * conj (b), formed exactly. -/
def Lsu.cprod (w : BitVec 56) (conj : Bool) (i : Nat) (l : Lsu) : Int :=
  let j := i / 2 * 2
  let b := if conj then (l.bI w j, -(l.bI w (j + 1))) else (l.bI w j, l.bI w (j + 1))
  let p := cmul (l.aI w j, l.aI w (j + 1)) b
  if i % 2 = 0 then p.1 else p.2

/-- VCMULQ. -/
def execVcmulq (n : BitVec 4) (w : BitVec 56) (s : State) : Host.Outcome State Fault Refusal :=
  .next (settle (vecOp 0x62 (formV 32 32 32 0 0x10000 [3, 4] true) n w 3 (fun l i => some (
    fitLane w (wT w) (rnd l.up (compW (wT w) - 1) (l.cprod w (bit w.toNat 16) i)))) s))

/-- VFMA: one rounding. -/
def execVfma (n : BitVec 4) (w : BitVec 56) (s : State) : Host.Outcome State Fault Refusal :=
  .next (settle (vecOp 0x63 (formV 32 32 32 32 0 [5] false) n w 3 (fun l i =>
    let c := compN 32 i (l.vr (wC w))
    some (f32Lane (fmaF f32 (FV.decode f32 (l.aN w i)) (FV.decode f32 (l.bN w i)) (FV.decode f32 c)) (l.aN w i) (l.bN w i) c)) s))

/-! ### Accumulators (R329, R330) -/

/-- The product for accumulator lane L, none where the type has no such lane. -/
def Lsu.laneProd (w : BitVec 56) (conj : Bool) (L : Nat) (l : Lsu) : Option Int :=
  match wT w with
  | 0 => some (l.aI w (2 * L) * l.bI w (2 * L) + l.aI w (2 * L + 1) * l.bI w (2 * L + 1))
  | 1 => some (l.aI w L * l.bI w L)
  | 2 => if L < 4 then some (rnd l.up 31 (l.aI w L * l.bI w L)) else none
  | 3 => some (l.cprod w conj L)
  | _ => if L < 4 then some (rnd l.up 31 (l.cprod w conj L)) else none

/-- Accumulator lane L is enabled: by predicate bit 2L. -/
def Lsu.laneOn (w : BitVec 56) (L : Nat) (l : Lsu) : Bool := !bit w.toNat 55 || (l.pr (bits w.toNat 52 3)).getLsbD (2 * L)

/-- An accumulating instruction: its products retire after 3 cycles, and it reads the accumulator then. -/
def accOp (opc : Nat) (types : List Nat) (op : AccOp) (conj : Bool) (n : BitVec 4) (w : BitVec 56) (s : State) : State :=
  issueRegs opc (formV 4 32 32 0 0 types true) n w (fun l =>
    some [l.out 3 (.acc (wD w) op (wSat w) ((List.range 8).map fun L => if l.laneOn w L then l.laneProd w conj L else none))]) s

/-- VMAC. -/
def execVmac (n : BitVec 4) (w : BitVec 56) (s : State) : Host.Outcome State Fault Refusal :=
  .next (settle (accOp 0x68 [0, 1, 2, 3, 4] .add false n w s))

/-- VMSU. -/
def execVmsu (n : BitVec 4) (w : BitVec 56) (s : State) : Host.Outcome State Fault Refusal :=
  .next (settle (accOp 0x69 [0, 1, 2, 3, 4] .sub false n w s))

/-- VMPY. -/
def execVmpy (n : BitVec 4) (w : BitVec 56) (s : State) : Host.Outcome State Fault Refusal :=
  .next (settle (accOp 0x6A [0, 1, 2, 3, 4] .set false n w s))

/-- VCMACJ. -/
def execVcmacj (n : BitVec 4) (w : BitVec 56) (s : State) : Host.Outcome State Fault Refusal :=
  .next (settle (accOp 0x6B [3, 4] .add true n w s))

/-- ACCX: reads the accumulator at issue. -/
def execAccx (n : BitVec 4) (w : BitVec 56) (s : State) : Host.Outcome State Fault Refusal :=
  .next (settle (vecOp 0x6C (formV 32 4 0 0 0x3F0000 [1, 2, 3, 4] true) n w 3 (fun l i =>
    if wK6 w ≤ 39 then some (fitLane w (wT w) (rnd l.up (wK6 w) (nth l.cur.acc (8 * wA w + i) 0).toInt)) else none) s))

/-- ACCLR: its zeros retire after 1 cycle. -/
def execAcclr (n : BitVec 4) (w : BitVec 56) (s : State) : Host.Outcome State Fault Refusal :=
  .next (settle (issueRegs 0x6D (formV 4 0 0 0 0 [] false) n w (fun l =>
    some [l.out 1 (.acc (wD w) .set false ((List.range 8).map fun L => if l.laneOn w L then some 0 else none))]) s))

end Sys2Proof.Machine
end

