-- ==== Sys2Proof/Machine/SpuActions.lean ====
section
/-!
DEFINITION. SPU instructions that act outside their unit: DMAQ, TRIGP, TUNE and EMIT (R303, R305, R306, R334).
-/

namespace Sys2Proof.Machine

/-- DMAQ: the descriptor is copied to its queue, unless the queue holds 16. -/
def execDmaq (n : BitVec 4) (w : BitVec 56) (s : State) : Host.Outcome State Fault Refusal :=
  .next (settle (issueUnit 0x70 (formF 16 16 0 0 0x30000) n w (fun _ l =>
    let q := bits w.toNat 16 2
    let d := BitVec.ofNat 256 (leNat (l.bytes ((l.ar (wA w)).toNat / 16 * 16) 32))
    let room := decide ((nth l.dma q []).length < 16)
    let l1 := l.done [l.out 1 (.a (wD w) (if room then 1 else 0))]
    some (if room then { l1 with dma := modNth l1.dma q (fun x => x ++ [(l1.dmaPosted, d)]), dmaPosted := l1.dmaPosted + 1 } else l1)) s))

/-- The plan on which a unit's kernel may act: its bound plan, while that runs (R305) and the device does not replay (R551). -/
def boundPlan (l : Lsu) (s : State) : Option Plan :=
  match getKernel l.kernel s with
  | none => none
  | some k => if k.plan = 0 || replaying s then none else (getPlan k.plan s).bind fun (p : Plan) => if p.takes s then some p else none

/-- A request that does not qualify is discarded and counted (R305). -/
def Lsu.reject (l : Lsu) : Lsu := { l with rejected := satInc l.rejected }

/-- TRIGP: a trigger post to a unit of the bound plan with an SPU source (R228). -/
def postTrigger (w : BitVec 56) (l : Lsu) (s : State) : Option State :=
  let v := l.vr (wA w)
  (boundPlan l s).bind fun (p : Plan) => (unitFor p.id (bits w.toNat 16 3) s).bind fun u =>
    if (unitBlk u s).source false = 7 || (unitBlk u s).source true = 7 then
      some (trigSpu u (if v.getLsbD 80 then none else some (v.toNat % 2 ^ 80 % 2 ^ 64 * 65536 + bits v.toNat 64 16)) s)
    else none

/-- TUNE: a retune request to the front NCO or the sub-channel NCO of a channel of the bound plan (R159). The journal holds it. -/
def postRetune (w : BitVec 56) (l : Lsu) (s : State) : Option State :=
  let v := (l.vr (wA w)).toNat
  let ftw := bits v 0 48
  let r := bits v 64 64
  (boundPlan l s).bind fun (p : Plan) => (slotOf p.id (wK5 w) s).map fun k =>
    let u := (getSlot k s).front
    let next := pairNext (getFront u s).pair s
    let s1 := if bit w.toNat 21 then modSlot k (fun sl => { sl with nco := sl.nco.post next ftw r }) s
      else modFront u (fun f => { f with nco := f.nco.post next ftw r }) s
    journal 8 [⟨0x10, 2, bits w.toNat 16 6⟩, ⟨0x18, 8, r⟩, ⟨0x20, 8, ftw⟩] 24 s1

/-- An instruction that posts a request: it issues, and the request is made or counted as rejected. -/
def issuePost (opc : Nat) (f : Form) (n : BitVec 4) (w : BitVec 56) (post : Lsu → State → Option State) (s : State) : State :=
  issue opc f n w (fun l s =>
    some (modLsu n.toNat (fun l => l.done []) ((post l s).getD (modLsu n.toNat Lsu.reject s)))) s

/-- TRIGP. -/
def execTrigp (n : BitVec 4) (w : BitVec 56) (s : State) : Host.Outcome State Fault Refusal :=
  .next (settle (issuePost 0x71 (formF 0 32 0 0 0x70000) n w (postTrigger w) s))

/-- TUNE. -/
def execTune (n : BitVec 4) (w : BitVec 56) (s : State) : Host.Outcome State Fault Refusal :=
  .next (settle (issuePost 0x72 (formF 0 32 0 0 0x3F0000) n w (postRetune w) s))

/-- EMIT: an entry joins the emit queue of 8. -/
def execEmit (n : BitVec 4) (w : BitVec 56) (s : State) : Host.Outcome State Fault Refusal :=
  .next (settle (issueUnit 0x73 (formF 16 16 16 32 0x70000) n w (fun s l =>
    let len := (l.ar (wB w)).toNat
    let ring := bits w.toNat 16 3 + 1
    let known := (getKernel l.kernel s).any fun k => hasRing k.ctx ring s
    let queued := known && decide (l.emits.length < 8)
    if len % 16 = 0 && decide (16 ≤ len) && decide (len ≤ 65536) then
      let l1 := l.done [l.out 1 (.a (wD w) (if queued then 1 else 0))]
      let e : EmitEntry := ⟨(l.ar (wA w)).toNat % 2 ^ 18, len, ring, (l.vr (wC w)).setWidth 64⟩
      some (if !known then l1.reject
        else if queued then { l1 with emits := l1.emits ++ [e], outqFull := l1.outqFull || decide (l1.emits.length = 7) } else l1)
    else none) s))

end Sys2Proof.Machine
end

