-- ==== Sys2Proof/Machine/SpuLong.lean ====
section
/-!
DEFINITION. SPU long instructions, chunk by chunk (R335-R345).
-/

namespace Sys2Proof.Machine

/-! ### Operands and local memory -/

/-- Operand A as read at issue or re-issue. -/
def LongRun.a (r : LongRun) : Nat := nth r.regs 0 0
/-- Operand B. -/
def LongRun.b (r : LongRun) : Nat := nth r.regs 1 0
/-- Operand C. -/
def LongRun.c (r : LongRun) : Nat := nth r.regs 2 0
/-- Operand D. -/
def LongRun.d (r : LongRun) : Nat := nth r.regs 3 0
/-- The fourth register, named by K[19:16]. -/
def LongRun.e (r : LongRun) : Nat := nth r.regs 4 0

/-- TYPE of a long instruction. -/
def LongRun.t (r : LongRun) : Nat := wT r.word

/-- A value of `n` bytes of local memory. -/
def Lsu.fetch (a n : Nat) (l : Lsu) : Nat := leNat (l.bytes a n)

/-- The base of a buffer that is read or written by lines: address bits [3:0] are ignored (R291). -/
def lineBase (a : Nat) : Nat := a / 16 * 16

/-- What a chunk does: the unit with the partial results in its memory, the run with its new progress, the results that the bank's
registers take, the cycles, and whether the instruction is complete. -/
structure ChunkOut where
  l : Lsu
  r : LongRun
  results : List SpuDest
  cycles : Nat
  last : Bool

/-- An element of a buffer, i16 values sign-extended to 32 bits. -/
def Lsu.elem (t base i : Nat) (l : Lsu) : Nat :=
  if t = 1 then wrapInt 32 (sext 16 (l.fetch (base + 2 * i) 2)) else l.fetch (base + 4 * i) 4

/-- A value in 32 bits is a binary32 NaN where the type is f32. -/
def elemNan (t v : Nat) : Bool := decide (t = 5) && isNan32 v

/-- x < y for values of 32 bits of a type; -0 equals +0. -/
def elemLt (t x y : Nat) : Bool :=
  if t = 5 then (FV.decode f32 x).lt (FV.decode f32 y) else decide (sext 32 x < sext 32 y)

/-- x <= y for values of a type, neither a NaN. -/
def elemLe (t x y : Nat) : Bool := !elemNan t x && !elemNan t y && !elemLt t y x

/-! ### VPEAKS (R337) -/

/-- k of VPEAKS. -/
def peakK (w : BitVec 56) : Nat := bits w.toNat 22 6 + 1

/-- Value i is a peak. -/
def isPeak (t base n thr i : Nat) (l : Lsu) : Bool :=
  let x := l.elem t base i
  elemLe t thr x && (decide (i = 0) || elemLt t (l.elem t base (i - 1)) x) && (decide (n ≤ i + 1) || elemLe t (l.elem t base (i + 1)) x)

/-- A peak joins the list after the entries that are not below it; the k largest stay. -/
def insertPeak (t k : Nat) (p : Nat × Nat) (l : List (Nat × Nat)) : List (Nat × Nat) :=
  ((l.takeWhile fun e => !elemLt t e.1 p.1) ++ [p] ++ (l.dropWhile fun e => !elemLt t e.1 p.1)).take k

/-- The list as it lies in memory. -/
def peakBytes (t k : Nat) (l : List (Nat × Nat)) : List Byte :=
  ((List.range k).map fun i =>
    let e := nth l i (if t = 5 then 0xFF800000 else 0xFFFF8000, 0xFFFFFFFF)
    leBytes 8 (e.1 + e.2 * 2 ^ 32)).flatten

/-- A chunk of VPEAKS. -/
def peaksChunk (l : Lsu) (r : LongRun) : ChunkOut :=
  let t := r.t
  let k := peakK r.word
  let next := bits r.prog 0 32
  let found := bits r.prog 39 17
  let n := r.b
  let take := min 512 (n - next)
  let thr := if t = 1 then wrapInt 32 (sext 16 (r.e % 65536)) else r.e
  let peaks := (rangeFrom next take).filter fun i => isPeak t (lineBase r.a) n thr i l
  let keep := peaks.foldl (fun acc i => insertPeak t k (l.elem t (lineBase r.a) i, i) acc) r.keep
  let total := found + peaks.length
  { l := l.poke (r.c / 4 * 4) (peakBytes t k keep)
    r := { r with prog := packBits [(0, 32, next + take), (32, 7, keep.length), (39, 17, total)], keep := keep }
    results := if next + take < n then [] else [.a (wD r.word) (BitVec.ofNat 32 total)]
    cycles := 192, last := decide (n ≤ next + take) }

/-- The entries that VPEAKS reads back when it resumes. -/
def peaksBack (l : Lsu) (r : LongRun) : List (Nat × Nat) :=
  (List.range (min (bits r.prog 32 7) (peakK r.word))).map fun i => let e := l.fetch (r.c / 4 * 4 + 8 * i) 8; (e % 2 ^ 32, e / 2 ^ 32)

/-! ### VMAXIDX and VMINIDX (R338) -/

/-- A value ranks above the extreme so far. -/
def beats (max : Bool) (t x y : Nat) : Bool :=
  let key := fun (v : Nat) => if t = 5 then keyF v else sext 32 v
  if max then decide (key y < key x) else decide (key x < key y)

/-- One element of the search; an index of all ones stands for "none yet". -/
def searchStep (max : Bool) (t : Nat) (best : Nat × Nat) (i x : Nat) : Nat × Nat :=
  if elemNan t x then best
  else if best.2 = 0xFFFFFFFF || elemNan t best.1 || beats max t x best.1 then (x, i) else best

/-- A chunk of VMAXIDX or VMINIDX: 256 lines. -/
def searchChunk (max : Bool) (l : Lsu) (r : LongRun) : ChunkOut :=
  let t := r.t
  let es := if t = 1 then 2 else 4
  let next := bits r.prog 0 32
  let n := r.b
  let take := min (4096 / es) (n - next)
  let best := (rangeFrom next take).foldl (fun b i => searchStep max t b i (l.elem t (lineBase r.a) i)) (nth r.keep 0 (0, 0xFFFFFFFF))
  let done := decide (n ≤ next + take)
  { l := l, r := { r with prog := packBits [(0, 32, next + take)], keep := [best] }
    results := [.v (nth r.regs 3 0) 0xFFFF (BitVec.ofNat 128 (best.1 + best.2 * 2 ^ 32))]
    cycles := cdiv (take * es) 16 + (if done then 4 else 0), last := done }

/-! ### VSORTK (R339) -/

/-- Passes of a sort of n entries. -/
def sortPasses (n : Nat) : Nat := if n ≤ 1 then 0 else (n - 1).log2 + 1

/-- The order of keys. -/
def sortKey (t e : Nat) : Int := if t = 5 then keyF (e % 2 ^ 32) else sext 32 (e % 2 ^ 32)

/-- A stable merge of two runs. -/
def mergeRuns (t : Nat) : List Nat → List Nat → Nat → List Nat
  | xs, ys, 0 => xs ++ ys
  | [], ys, _ => ys
  | xs, [], _ => xs
  | x :: xs, y :: ys, f + 1 =>
    if sortKey t x ≤ sortKey t y then x :: mergeRuns t xs (y :: ys) f else y :: mergeRuns t (x :: xs) ys f

/-- Output entries `lo` to `lo + m - 1` of the merge of one pair of runs of `run` entries that begins at `at0`. -/
def mergedPart (t src n run at0 lo m : Nat) (l : Lsu) : List Nat :=
  let entry := fun (i : Nat) => l.fetch (src + 8 * i) 8
  let xs := (rangeFrom at0 (min run (n - at0))).map entry
  let ys := (rangeFrom (at0 + run) (min run (n - at0 - run))).map entry
  ((mergeRuns t xs ys (xs.length + ys.length)).drop lo).take m

/-- Cycles `pos` to `pos + k - 1` of the merge passes: outputs of the pass that `pos` lies in, entry by entry. -/
def sortMerge (t a c n : Nat) : Nat → Nat → Nat → Lsu → Lsu
  | _, _, 0, l => l
  | pos, k, fuel + 1, l =>
    if k = 0 then l
    else
      let q := pos / n
      let o := pos % n
      let run := 2 ^ q
      let at0 := o / (2 * run) * (2 * run)
      let m := min (min k (n - o)) (at0 + 2 * run - o)
      let src := if q % 2 = 0 then a else c
      let dst := if q % 2 = 0 then c else a
      let out := mergedPart t src n run at0 (o - at0) m l
      sortMerge t a c n (pos + m) (k - m) fuel (l.poke (dst + 8 * o) (out.map (leBytes 8)).flatten)

/-- The position in the sort's work, in cycles, that a progress value stands for. -/
def sortPos (n prog : Nat) : Nat :=
  if bit prog 37 then sortPasses n * n + bits prog 0 32 / 2 else bits prog 32 5 * n + bits prog 0 32

/-- A chunk of VSORTK: 256 cycles of the passes and the copy. -/
def sortChunk (l : Lsu) (r : LongRun) : ChunkOut :=
  let n := r.b
  let a := lineBase r.a
  let c := lineBase r.c
  let merge := sortPasses n * n
  let total := merge + if sortPasses n % 2 = 1 then cdiv n 2 else 0
  let pos := min (sortPos n r.prog) total
  let take := min 256 (total - pos)
  let m := min take (merge - pos)
  let l1 := sortMerge r.t a c n pos m 256 l
  let from0 := 2 * (pos + m - merge)
  let copied := min (2 * (take - m)) (n - from0)
  let l2 := if copied = 0 then l1 else l1.poke (a + 8 * from0) (l1.bytes (c + 8 * from0) (8 * copied))
  let p := pos + take
  let prog := if p < merge then packBits [(0, 32, p % max n 1), (32, 5, p / max n 1)]
    else packBits [(0, 32, min n (2 * (p - merge))), (32, 5, sortPasses n), (37, 1, 1)]
  { l := l2, r := { r with prog := prog }, results := [], cycles := max take 1, last := decide (total ≤ p) }

/-! ### VLOG2 (R340) -/

/-- log2 of a positive finite binary32 value, correctly rounded, and whether it is exact. -/
def log2Exact (m : Nat) (e : Int) : Nat × Bool :=
  let k := m.log2
  let x : Int := e + k
  if m = 2 ^ k then ((roundDyad f32 x 0 false).1, true)
  else
    -- 100 fraction bits, and one more that stands for all that follow
    let f := log2Bits (m * fx / 2 ^ k) 0 100
    ((roundDyad f32 (2 * (x * 2 ^ 100 + f) + 1) (-101) false).1, false)

/-- VLOG2 of a value with TYPE 5: result and flags. -/
def log2Value (x : Nat) : Nat × Nat :=
  match FV.decode f32 x with
  | .nan _ => (0x7FC00000, 4)
  | .inf sg => if sg then (0x7FC00000, 4) else (0x7F800000, 0)
  | .fin sg m e =>
    if m = 0 then (0xFF800000, 0)
    else if sg then (0x7FC00000, 4)
    else let r := log2Exact m e; (r.1, if r.2 then 0 else 32)

/-- VLOG2 of a value with TYPE 1: the LOGPWR code of R189. -/
def logCode (x : Nat) : Nat :=
  match FV.decode f32 x with
  | .inf false => 0x7FFF
  | .fin sg m _ => if m = 0 then 0x8000 else if sg then (Config.logOpen (BitVec.ofNat 32 x)).toNat else wrapInt 16 (logpwr x)
  | _ => (Config.logOpen (BitVec.ofNat 32 x)).toNat

/-- A chunk of VLOG2: outputs are written as they are computed. -/
def logChunk (l : Lsu) (r : LongRun) : ChunkOut :=
  let next := bits r.prog 0 32
  let take := min 256 (r.b - next)
  let one := fun (s : Lsu × Nat) (i : Nat) =>
    let x := s.1.fetch (lineBase r.a + 4 * i) 4
    if r.t = 5 then (s.1.poke (lineBase r.d + 4 * i) (leBytes 4 (log2Value x).1), s.2 ||| (log2Value x).2)
    else (s.1.poke (lineBase r.d + 2 * i) (leBytes 2 (logCode x)), s.2)
  let out := (rangeFrom next take).foldl one (l, 0)
  let done := decide (r.b ≤ next + take)
  { l := out.1, r := { r with prog := packBits [(0, 32, next + take)] }, results := [.sr (BitVec.ofNat 32 out.2)]
    cycles := take + (if done then 4 else 0), last := done }

/-! ### CRC32C (R341) -/

/-- A chunk of CRC32C: 4,096 bytes. -/
def crcChunk (l : Lsu) (r : LongRun) : ChunkOut :=
  let next := bits r.prog 0 32
  let take := min 4096 (r.b - next)
  let crc := (l.bytes (r.a + next) take).foldl crcByte r.d
  let done := decide (r.b ≤ next + take)
  { l := l, r := { r with prog := packBits [(0, 32, next + take)], regs := r.regs.set 3 crc }
    results := [.a (wD r.word) (BitVec.ofNat 32 crc)], cycles := cdiv take 16 + (if done then 4 else 0), last := done }

/-! ### VSK (R342) -/

/-- m of VSK. -/
def skM (w : BitVec 56) : Nat := bits w.toNat 22 6

/-- A chunk of VSK: 128 bins, 16 bytes of the bitmap. -/
def skChunk (l : Lsu) (r : LongRun) : ChunkOut :=
  let next := bits r.prog 0 32
  let take := min 128 (r.b - next)
  let lower := l.fetch (r.c / 4 * 4) 4
  let upper := l.fetch (r.c / 4 * 4 + 4) 4
  let flags := (rangeFrom next take).map fun i =>
    skFlagged lower upper (2 ^ skM r.word) (l.fetch (lineBase r.a + 16 * i) 8) (l.fetch (lineBase r.a + 16 * i + 8) 8)
  let map := flags.zipIdx.foldl (fun a f => if f.1 then a + 2 ^ f.2 else a) 0
  let total := bits r.prog 32 24 + (flags.filter id).length
  let done := decide (r.b ≤ next + take)
  { l := l.poke (lineBase r.d + next / 8) (leBytes (cdiv take 8) map)
    r := { r with prog := packBits [(0, 32, next + take), (32, 24, total)] }
    results := if done then [.a (wK4 r.word) (BitVec.ofNat 32 total)] else [], cycles := 2 * take + (if done then 4 else 0), last := done }

/-! ### HISTO (R343) -/

/-- The bin of a value, if it counts. -/
def histoBin (w : BitVec 56) (base nb x : Nat) : Option Nat :=
  let b := (sext 32 x - sext 32 base) / 2 ^ bits w.toNat 23 5
  if 0 ≤ b ∧ b < (nb : Int) then some b.toNat
  else if bit w.toNat 22 then some (if b < 0 then 0 else nb - 1) else none

/-- Increments are added to memory at the chunk's end: the unit, and whether a count stopped at its top. -/
def histoAdd (sat : Bool) (base : Nat) (bins : List Nat) (l : Lsu) : Lsu × Bool :=
  bins.foldl (fun s b =>
    let a := base / 4 * 4 + 4 * b
    let v := s.1.fetch a 4
    if sat && decide (v = 0xFFFFFFFF) then (s.1, true) else (s.1.poke a (leBytes 4 ((v + 1) % 2 ^ 32)), s.2)) (l, false)

/-- A chunk of HISTO. -/
def histoChunk (l : Lsu) (r : LongRun) : ChunkOut :=
  let next := bits r.prog 0 32
  let take := min 256 (r.b - next)
  let bins := (rangeFrom next take).map fun i => histoBin r.word r.c r.e (l.elem r.t (lineBase r.a) i)
  let out := histoAdd (wSat r.word) r.d (bins.filterMap id) l
  let gone := bits r.prog 32 24 + (bins.filter (·.isNone)).length
  let done := decide (r.b ≤ next + take)
  { l := out.1, r := { r with prog := packBits [(0, 32, next + take), (32, 24, gone)] }
    results := [.sr (BitVec.ofNat 32 (satFlag out.2))] ++ (if done then [.a (wK4 r.word) (BitVec.ofNat 32 gone)] else [])
    cycles := take + (if done then 4 else 0), last := done }

/-! ### RCOPY and RFILL (R344) -/

/-- RCOPY copies from the highest line down. -/
def copyBack (r : LongRun) : Bool :=
  let gap := (r.d + 2 ^ 32 - r.a) % 2 ^ 18
  decide (0 < gap) && decide (gap < r.b)

/-- Lines of a copy from byte `done` on, one after the other. -/
def copyLines (r : LongRun) (back : Bool) (done count : Nat) (l : Lsu) : Lsu :=
  (List.range count).foldl (fun l k =>
    let off := if back then r.b - done - 16 * (k + 1) else done + 16 * k
    l.poke (lineBase r.d + off) (l.bytes (lineBase r.a + off) 16)) l

/-- A chunk of RCOPY: 4,096 bytes. -/
def copyChunk (l : Lsu) (r : LongRun) : ChunkOut :=
  let next := bits r.prog 0 32
  let back := bit r.prog 32
  let take := min 4096 (r.b - next)
  let done := decide (r.b ≤ next + take)
  { l := copyLines r back next (take / 16) l, r := { r with prog := packBits [(0, 32, next + take), (32, 1, b2n back)] }
    results := [], cycles := take / 16 + (if done then 2 else 0), last := done }

/-- A chunk of RFILL: 4,096 bytes. -/
def fillChunk (l : Lsu) (r : LongRun) : ChunkOut :=
  let next := bits r.prog 0 32
  let take := min 4096 (r.b - next)
  let done := decide (r.b ≤ next + take)
  { l := (List.range (take / 16)).foldl (fun l k => l.poke (lineBase r.d + next + 16 * k) (leBytes 16 r.a)) l
    r := { r with prog := packBits [(0, 32, next + take)] }, results := [], cycles := take / 16 + (if done then 2 else 0), last := done }

/-! ### Issue, chunks and completion (R335, R336, R345) -/

/-- A chunk of the instruction that runs. -/
def longChunk (l : Lsu) (r : LongRun) : ChunkOut :=
  match r.opc with
  | 0x80 => peaksChunk l r
  | 0x81 => searchChunk true l r
  | 0x82 => searchChunk false l r
  | 0x83 => sortChunk l r
  | 0x84 => logChunk l r
  | 0x85 => crcChunk l r
  | 0x86 => skChunk l r
  | 0x87 => histoChunk l r
  | 0x88 => copyChunk l r
  | _ => fillChunk l r

/-- Results of a chunk are written into the bank at its end. -/
def Lsu.take (b1 : Bool) (ds : List SpuDest) (l : Lsu) : Lsu := ds.foldl (fun l d => l.modBank b1 (SpuBank.retire b1 d)) l

/-- The instruction runs up to its next safe point, where PRG holds its progress, or to its completion, which clears LONG_PEND. -/
def Lsu.runChunk (r : LongRun) (l : Lsu) : Lsu :=
  let o := longChunk l r
  let l1 := (o.l.pass o.cycles).take r.bank o.results
  if o.last then
    { (l1.modBank r.bank fun b => { b with sr := b.sr &&& ~~~(0x40 : BitVec 32) }) with long := none }
  else
    { (l1.modBank r.bank fun b => { b with prg := BitVec.ofNat 64 (packBits [(0, 56, o.r.prog), (56, 8, r.opc)]) }) with long := some o.r }

/-- Results that a count of 0 gives: it completes in 1 cycle and touches no memory. -/
def emptyResults (r : LongRun) : List SpuDest :=
  match r.opc with
  | 0x80 => [.a (wD r.word) 0]
  | 0x81 | 0x82 => [.v (nth r.regs 3 0) 0xFFFF (BitVec.ofNat 128 (0xFFFFFFFF * 2 ^ 32))]
  | 0x86 | 0x87 => [.a (wK4 r.word) 0]
  | _ => []

/-- A long instruction as it issues: from PRG when B0 resumes it, else from its beginning. -/
def Lsu.longRun (opc : Nat) (w : BitVec 56) (regs : List Nat) (l : Lsu) : LongRun × Bool :=
  let resume := !l.inB1 && l.b0.sr.getLsbD 6 && decide (bits l.b0.prg.toNat 56 8 = opc)
  let r0 : LongRun := ⟨l.inB1, opc, w, if resume then bits l.b0.prg.toNat 0 56 else 0, regs, []⟩
  let r := if resume || opc ≠ 0x88 then r0 else { r0 with prog := if copyBack r0 then 2 ^ 32 else 0 }
  let keep := if !resume then []
    else if opc = 0x80 then peaksBack l r
    else if opc = 0x81 ∨ opc = 0x82 then let v := (nth l.b0.v (nth regs 3 0) 0).toNat; [(bits v 0 32, bits v 32 32)] else []
  ({ r with keep := keep }, resume)

/-- A long instruction issues with its operands and runs its first chunk; operands beyond their limits are illegal. -/
def issueLong (opc : Nat) (f : Form) (n : BitVec 4) (w : BitVec 56) (regs : Lsu → List Nat) (ok : LongRun → Bool) (s : State) : State :=
  issueUnit opc f n w (fun _ l =>
    let r := (l.longRun opc w (regs l)).1
    if !ok r then none
    else
      let l1 := { l.stepPc with lastPc := l.pc }
      let nothing := decide (r.b = 0) || (decide (opc = 0x83) && decide (r.b ≤ 1))
      some (if nothing then
          let l2 := (l1.pass 1).take r.bank (emptyResults r)
          l2.modBank r.bank fun b => { b with sr := b.sr &&& ~~~(0x40 : BitVec 32) }
        else l1.runChunk r)) s

/-- Operands A, B, C, D and the register that K[19:16] names, all address registers. -/
def Lsu.operands (w : BitVec 56) (l : Lsu) : List Nat :=
  [(l.ar (wA w)).toNat, (l.ar (wB w)).toNat, (l.ar (wC w)).toNat, (l.ar (wD w)).toNat, (l.ar (wK4 w)).toNat]

/-- The form of a long instruction. -/
def formL (d a b c k : Nat) (types : List Nat) (sat : Bool) : Form := ⟨false, d, a, b, c, k, 0, types, false, sat⟩

/-- VPEAKS. -/
def execVpeaks (n : BitVec 4) (w : BitVec 56) (s : State) : Host.Outcome State Fault Refusal :=
  .next (settle (issueLong 0x80 (formL 16 16 16 16 0xFCF0000 [1, 5] false) n w (Lsu.operands w) (fun r => decide (r.b ≤ 65536)) s))

/-- The operands of a search, with the physical vector register in the place of D. -/
def Lsu.searchOperands (w : BitVec 56) (l : Lsu) : List Nat := [(l.ar (wA w)).toNat, (l.ar (wB w)).toNat, 0, l.vNum (wD w), 0]

/-- VMAXIDX. -/
def execVmaxidx (n : BitVec 4) (w : BitVec 56) (s : State) : Host.Outcome State Fault Refusal :=
  .next (settle (issueLong 0x81 (formL 32 16 16 0 0 [1, 2, 5] false) n w (Lsu.searchOperands w) (fun _ => true) s))

/-- VMINIDX. -/
def execVminidx (n : BitVec 4) (w : BitVec 56) (s : State) : Host.Outcome State Fault Refusal :=
  .next (settle (issueLong 0x82 (formL 32 16 16 0 0 [1, 2, 5] false) n w (Lsu.searchOperands w) (fun _ => true) s))

/-- VSORTK. -/
def execVsortk (n : BitVec 4) (w : BitVec 56) (s : State) : Host.Outcome State Fault Refusal :=
  .next (settle (issueLong 0x83 (formL 0 16 16 16 0 [2, 5] false) n w (Lsu.operands w) (fun r => decide (r.b ≤ 16384)) s))

/-- VLOG2. -/
def execVlog2 (n : BitVec 4) (w : BitVec 56) (s : State) : Host.Outcome State Fault Refusal :=
  .next (settle (issueLong 0x84 (formL 16 16 16 0 0 [1, 5] false) n w (Lsu.operands w) (fun _ => true) s))

/-- CRC32C. -/
def execCrc32c (n : BitVec 4) (w : BitVec 56) (s : State) : Host.Outcome State Fault Refusal :=
  .next (settle (issueLong 0x85 (formL 16 16 16 0 0 [] false) n w (Lsu.operands w) (fun _ => true) s))

/-- VSK: m from 1 to 24. -/
def execVsk (n : BitVec 4) (w : BitVec 56) (s : State) : Host.Outcome State Fault Refusal :=
  .next (settle (issueLong 0x86 (formL 16 16 16 16 0xFCF0000 [] false) n w (Lsu.operands w)
    (fun r => decide (r.b ≤ 16384) && decide (1 ≤ skM r.word) && decide (skM r.word ≤ 24)) s))

/-- HISTO: 1 to 65,536 bins. -/
def execHisto (n : BitVec 4) (w : BitVec 56) (s : State) : Host.Outcome State Fault Refusal :=
  .next (settle (issueLong 0x87 (formL 16 16 16 16 0xFCF0000 [1, 2] true) n w (Lsu.operands w)
    (fun r => decide (1 ≤ r.e) && decide (r.e ≤ 65536)) s))

/-- RCOPY: a multiple of 16 bytes. -/
def execRcopy (n : BitVec 4) (w : BitVec 56) (s : State) : Host.Outcome State Fault Refusal :=
  .next (settle (issueLong 0x88 (formL 16 16 16 0 0 [] false) n w (Lsu.operands w) (fun r => decide (r.b % 16 = 0)) s))

/-- RFILL writes the line that vA holds. -/
def execRfill (n : BitVec 4) (w : BitVec 56) (s : State) : Host.Outcome State Fault Refusal :=
  .next (settle (issueLong 0x89 (formL 16 32 16 0 0 [] false) n w (fun l => [(l.vr (wA w)).toNat, (l.ar (wB w)).toNat, 0, (l.ar (wD w)).toNat, 0])
    (fun r => decide (r.b % 16 = 0)) s))

end Sys2Proof.Machine
end

