-- ==== Sys2Proof/Machine/SpuEvents.lean ====
section
/-!
DEFINITION. Events of the SPUs: interrupts, chunk ends, taps, DMA, emits, the timer, machine checks, scrubs and scans
(R287, R295-R298, R301, R303, R306, R312, R335, R350-R359).
-/

namespace Sys2Proof.Machine

/-! ### Interrupts and chunks -/

/-- The unit stands at an interrupt point where an interrupt is taken (R296): at a safe point of a long instruction, or at a boundary
outside a REP body that does not just follow one, between iterations of a LOOPR loop, and not right after RETI. -/
def Lsu.interruptPoint (l : Lsu) : Bool :=
  l.long.isSome || (l.rep.isNone && !l.afterRep && !l.afterReti && l.loop.all fun r => decide (r.start = l.pc))

/-- An enabled pending source is taken now. -/
def Lsu.interrupts (l : Lsu) : Bool :=
  decide (l.kernel ≠ 0) && (decide (l.state = 1) || decide (l.state = 2)) && l.recovery.isNone && l.halting.isNone && !l.inB1 && l.wanted
    && l.interruptPoint

/-- The bank switch (R287, R296, R298): EPC takes the interrupted instruction's address, LONG_PEND tells of a long one. -/
def Lsu.toB1 (entry : Nat) (l : Lsu) : Lsu :=
  let epc := if l.long.isSome then l.lastPc else l.pc
  let b0 := if l.long.isSome then { l.b0 with sr := l.b0.sr ||| 0x40 } else l.b0
  { l with b0 := b0, b1 := { l.b1 with epc := BitVec.ofNat 32 epc }, inB1 := true, pc := entry, long := none }.pass 1

/-- INTERRUPT_TAKEN. -/
def execInterruptTaken (n : BitVec 4) (s : State) : Host.Outcome State Fault Refusal :=
  .next (settle (
    if (getLsu n.toNat s).interrupts then
      let s1 := wakeUnit n.toNat s
      modLsu n.toNat (Lsu.toB1 (((getKernel (getLsu n.toNat s).kernel s).map (·.irqEntry)).getD 0)) s1
    else s))

/-- LONG_CHUNK_END: the long instruction runs its next chunk. -/
def execLongChunkEnd (n : BitVec 4) (s : State) : Host.Outcome State Fault Refusal :=
  let l := getLsu n.toNat s
  .next (settle (match l.long with
    | some r => if l.recovery.isNone then modLsu n.toNat (Lsu.runChunk r) s else s
    | none => s))

/-- SPU_DMA_COMPLETE. -/
def execSpuDmaComplete (n : BitVec 4) (q : BitVec 2) (s : State) : Host.Outcome State Fault Refusal :=
  .next (settle (dmaComplete n.toNat q.toNat s))

/-- TAP_ITEM. -/
def execTapItem (n : BitVec 4) (s : State) : Host.Outcome State Fault Refusal := .next (settle (modLsu n.toNat Lsu.deliver s))

/-- SPU_TIMER: in a unit that waits, or whose instance halts or is frozen, CYCLE reaches TIMER_CMP. -/
def execSpuTimer (n : BitVec 4) (s : State) : Host.Outcome State Fault Refusal :=
  .next (settle (modLsu n.toNat (fun l =>
    if decide (l.kernel ≠ 0) && l.timerArmed && (l.waiting || l.halting.isSome || l.recovery.isSome) then
      { l with cycle := if l.cycle < l.timerCmp then l.timerCmp else l.cycle }.reachTimer
    else l) s))

/-- EMIT_READOUT. -/
def execEmitReadout (n : BitVec 4) (s : State) : Host.Outcome State Fault Refusal := .next (settle (emitReadout n.toNat s))

/-! ### The machine-check log (R359) -/

/-- The bytes of a log entry, from an offset on. -/
def McLog.fields (o : Nat) (e : McLog) : List Fld :=
  [⟨o, 8, e.seq⟩, ⟨o + 8, 16, e.time⟩, ⟨o + 0x18, 1, e.phys⟩, ⟨o + 0x19, 1, e.logical⟩, ⟨o + 0x1A, 1, e.source⟩, ⟨o + 0x1B, 1, e.outcome⟩
   , ⟨o + 0x1C, 2, e.romAddr⟩, ⟨o + 0x1E, 2, e.patchAddr⟩, ⟨o + 0x20, 22, e.word⟩, ⟨o + 0x36, 1, e.parity⟩, ⟨o + 0x37, 1, e.flags⟩
   , ⟨o + 0x38, 4, e.pc⟩, ⟨o + 0x3C, 4, e.recoveryNs⟩]

/-- The parity groups of a microword that fail (R351): even in bit 0, odd in bit 1. -/
def wordParity (w : BitVec 176) : Nat :=
  let ones := fun (r : Nat) => ((List.range 88).filter fun i => w.getLsbD (2 * i + r)).length % 2
  ones 0 + 2 * ones 1

/-- A new entry of the log ring of 64; its mc_seq. -/
def openMc (e : McLog) (s : State) : State :=
  modSpu (fun x =>
    let l := x.mcLog ++ [{ e with seq := x.mcSeq + 1, time := now s }]
    { x with mcSeq := x.mcSeq + 1, mcLog := l.drop (l.length - 64) }) s

/-- An entry is closed with its outcome and goes to the journal; an instance's end or a retirement freezes the flight recorder (R544). -/
def closeMc (seq outcome flags ns : Nat) (s : State) : State :=
  let close := fun (e : McLog) => { e with outcome := outcome, flags := e.flags ||| flags, recoveryNs := ns }
  let s1 := modSpu (fun x => { x with mcLog := mapIf (fun e => decide (e.seq = seq)) close x.mcLog }) s
  let s2 := match s1.spu.mcLog.find? fun e => decide (e.seq = seq) with
    | some e => journal 9 (e.fields 0x10) 64 s1
    | none => s1
  if outcome = 4 || bit flags 3 then freezeRecorder 2 s2 else s2

/-- The logical number of a physical unit, 0xFF for one that carries no kernel (R359). -/
def logicalOf (phys : Nat) (s : State) : Nat :=
  ((List.range 16).find? fun n => decide ((getLsu n s).phys = phys) && decide ((getLsu n s).kernel ≠ 0)).getD 0xFF

/-! ### Machine checks (R352-R357) -/

/-- The long instruction that a unit runs or is about to issue, from the word in local memory. -/
def Lsu.longNow (l : Lsu) : Option LongRun :=
  match l.long with
  | some r => some r
  | none =>
    let opc := (l.byte (l.pc + 7)).toNat
    if isLong opc then
      let w := BitVec.ofNat 56 (l.fetch l.pc 7)
      some (l.longRun opc w (l.operands w)).1
    else none

/-- RCOPY's chunk writes onto its own source: source and destination lie less than a chunk apart (R353). -/
def copyInexact (r : LongRun) : Bool :=
  let gap := (r.d + 2 ^ 32 - r.a) % 2 ^ 18
  let dist := min gap (2 ^ 18 - gap)
  decide (r.opc = 0x88) && decide (0 < dist) && decide (dist < 4096) && decide (dist < r.b)

/-- The word that fails is the one that UCS_INJECT arms (R365). -/
def injects (f : WordFailure) (l : Lsu) (x : Spu) : Bool :=
  x.injArm && decide (x.injUnit.toNat = l.phys) && decide (x.injPatch = f.patch)
    && decide (x.injAddr.toNat = if f.patch then f.addr.toNat else f.rom.toNat)

/-- The log entry of a machine check as it opens. -/
def mcEntry (n : Nat) (f : WordFailure) (inj vis long : Bool) (l : Lsu) : McLog :=
  { seq := 0, time := 0, phys := l.phys, logical := n, source := b2n f.patch, outcome := 0, romAddr := f.rom.toNat
    patchAddr := if f.patch then f.addr.toNat else 0, word := f.word.toNat, parity := if inj then 2 else wordParity f.word
    flags := packBits [(0, 1, b2n vis), (1, 1, b2n long), (2, 1, b2n l.inB1), (4, 1, b2n inj)]
    pc := if l.long.isSome then l.lastPc else l.pc, recoveryNs := 0 }

/-- A word fails parity (R352): the unit freezes, with what an RCOPY had copied of its chunk in memory. A second failure before the
release ends the instance (R357). -/
def machineCheck (n : Nat) (f : WordFailure) (s : State) : State :=
  let l := getLsu n s
  let inj := injects f l s.spu
  let s0 := if inj then modSpu (fun x => { x with injArm := false }) s else s
  if !(decide (l.kernel ≠ 0) && decide (l.state ≠ 0)) || !(inj || decide (wordParity f.word ≠ 0)) then s
  else if inj && !f.patch && s.spu.spareUsed then s0
  else
    let run := l.longNow
    let vis := f.visible && run.isSome
    let s1 := openMc (mcEntry n f inj vis run.isSome l) (modSpu (fun x => { x with mcCount := satInc x.mcCount }) s0)
    let seq := s1.spu.mcSeq
    let owner := ((getKernel l.kernel s).map (·.ctx)).getD 0
    match l.recovery with
    | some r =>
      endInstance n 3 0 3 (modLsu n (fun l =>
        { l with recovery := some { r with seqs := r.seqs ++ [seq], rom := r.rom || !f.patch, injected := r.injected && inj } }) s1)
    | none =>
      modLsu n (fun l =>
        let put := match run with
          | some r => if vis && decide (r.opc = 0x88) then copyLines r (bit r.prog 32) (bits r.prog 0 32)
              (min f.lines.toNat (min 4096 (r.b - bits r.prog 0 32) / 16)) l else l
          | none => l
        { put with state := 3, recovery := some ⟨[seq], owner, !f.patch, vis, inj, run.any copyInexact⟩ }) s1

/-- MACHINE_CHECK. -/
def execMachineCheck (n : BitVec 4) (f : WordFailure) (s : State) : Host.Outcome State Fault Refusal :=
  .next (settle (machineCheck n.toNat f s))

/-- The outcome at release: RETRY, RESUME or RESUME_INEXACT (R353), or ENDED where the instance has ended. -/
def Lsu.mcOutcome (r : Recovery) (l : Lsu) : Nat := if l.kernel = 0 then 4 else if r.visible then (if r.inexact then 3 else 2) else 1

/-- The log entries of a recovery are closed, and SPU_MACHINE_CHECK goes to the owning context and to context 0 (R356). -/
def mcEvents (n : Nat) (r : Recovery) (outcome flags ns : Nat) (s : State) : State :=
  r.seqs.foldl (fun s q =>
    let s1 := closeMc q outcome flags ns s
    let s2 := if r.owner = 0 then s1 else sendEvent r.owner 0x0041 n q 0 outcome s1
    sendEvent 0 0x0041 n q 0 outcome s2) s

/-- A unit is released (R353): its instance goes on from the recovery point, CYCLE having run on at 2.0 GHz (R355); without an instance it
is free. The time counts against availability where a kernel ran (R540). -/
def releaseUnit (n ns : Nat) (s : State) : State :=
  let l := getLsu n s
  let s1 := modLsu n (fun l =>
    if l.kernel = 0 then { l with state := l.back, recovery := none }
    else { l with state := if l.ending.isSome then 2 else 1, recovery := none }.pass (2 * ns)) s
  if l.kernel = 0 then s1 else countLost (ns / 1000000) s1

/-- PATCH_RELOAD_DONE: the patch RAM is reloaded and every word checked, or the verified copy fails its own check (R354, R357). -/
def patchReloadDone (n ns : Nat) (ok : Bool) (s : State) : State :=
  let l := getLsu n s
  match l.recovery with
  | none => s
  | some r =>
    if r.rom then s
    else if ok then mcEvents n r (l.mcOutcome r) 0 ns (releaseUnit n ns s)
    else
      let s1 := if l.kernel = 0 then s else endInstance n 3 0 3 s
      modLsu n (fun l => { l with recovery := some { r with seqs := [] } }) (mcEvents n r 4 0 ns s1)

/-- PATCH_RELOAD_DONE. -/
def execPatchReloadDone (n : BitVec 4) (ns : BitVec 32) (ok : Bool) (s : State) : Host.Outcome State Fault Refusal :=
  .next (settle (patchReloadDone n.toNat ns.toNat ok s))

/-- A physical unit is retired (R355, R358): RETIRED, and the retirement record in the NOR. -/
def retireUnit (phys : Nat) (s : State) : State :=
  let b := BitVec.ofNat 17 (2 ^ phys)
  let s1 := modSpu (fun x => { x with retired := x.retired ||| b, record := x.record ||| b }) s
  emit (.nor "retirement record" [⟨0, 3, s1.spu.record.toNat⟩]) s1

/-- The spare may take a logical number. -/
def Spu.hasSpare (x : Spu) : Bool := !x.spareUsed && decide (x.spare ≠ 31)

/-- The spare takes the place of logical unit n's physical unit. -/
def useSpare (n : Nat) (s : State) : State :=
  let p := s.spu.spare.toNat
  modSpu (fun x => { x with spareUsed := true, spare := 31 }) (modLsu n (fun l => { l with phys := p }) s)

/-- SPARE_TAKEOVER (R355): the failed unit is retired and the spare carries its number and its instance on, or, with the spare in use,
the instance ends and the number is no longer allocated. After an injected failure the unit becomes the spare (R365). -/
def spareTakeover (n ns : Nat) (s : State) : State :=
  let l := getLsu n s
  match l.recovery with
  | none => s
  | some r =>
    if !r.rom then s
    else if r.injected && s.spu.hasSpare then
      let p := s.spu.spare.toNat
      let s1 := modSpu (fun x => { x with spare := BitVec.ofNat 5 l.phys }) (modLsu n (fun l => { l with phys := p }) s)
      mcEvents n r (l.mcOutcome r) 0 ns (releaseUnit n ns s1)
    else if s.spu.hasSpare then mcEvents n r (l.mcOutcome r) 8 ns (releaseUnit n ns (useSpare n (retireUnit l.phys s)))
    else
      let s1 := modLsu n (fun l => { l with back := 4 }) (retireUnit l.phys s)
      let s2 := if l.kernel = 0 then s1 else endInstance n 3 0 3 s1
      mcEvents n r 4 0x28 ns (releaseUnit n ns s2)

/-- SPARE_TAKEOVER. -/
def execSpareTakeover (n : BitVec 4) (ns : BitVec 32) (s : State) : Host.Outcome State Fault Refusal :=
  .next (settle (spareTakeover n.toNat ns.toNat s))

/-- The log entry of a scrub repair or a scan failure. -/
def findEntry (phys source rom pat flags : Nat) (w : BitVec 176) (s : State) : McLog :=
  { seq := 0, time := 0, phys := phys, logical := logicalOf phys s, source := source, outcome := 5, romAddr := rom, patchAddr := pat
    word := w.toNat, parity := wordParity w, flags := flags, pc := 0, recoveryNs := 0 }

/-- PATCH_SCRUB (R358): each word that fails parity is rewritten from the verified copy and logged as REPAIRED. -/
def patchScrub (found : List (BitVec 5 × BitVec 10 × BitVec 176)) (s : State) : State :=
  found.foldl (fun s x =>
    if wordParity x.2.2 = 0 || s.spu.patchState ≠ 1 || 16 < x.1.toNat then s
    else
      let rom := ((s.spu.table.find? fun e => e.2.2 && decide (e.2.1 = x.2.1.toNat)).map (·.1)).getD 0
      let s1 := openMc (findEntry x.1.toNat 2 rom x.2.1.toNat 0 x.2.2 s) (modSpu (fun y => { y with scrubFixes := satInc y.scrubFixes }) s)
      closeMc s1.spu.mcSeq 5 0 0 s1) s

/-- PATCH_SCRUB. -/
def execPatchScrub (found : List (BitVec 5 × BitVec 10 × BitVec 176)) (s : State) : Host.Outcome State Fault Refusal :=
  .next (settle (patchScrub found s))

/-- ROM_SCAN of a free unit, the spare included (R358): a failure retires it at once. -/
def romScan (unit : Nat) (rom : BitVec 14) (w : BitVec 176) (s : State) : State :=
  let holder := (List.range 16).find? fun n => decide ((getLsu n s).phys = unit) && decide ((getLsu n s).state = 0)
  let isSpare := s.spu.hasSpare && decide (s.spu.spare.toNat = unit)
  if wordParity w = 0 || (holder.isNone && !isSpare) then s
  else
    let s1 := retireUnit unit s
    let s2 := match holder with
      | none => modSpu (fun x => { x with spare := 31 }) s1
      | some n => if s1.spu.hasSpare then useSpare n s1 else modLsu n (fun l => { l with state := 4, back := 4 }) s1
    let s3 := openMc (findEntry unit 3 rom.toNat 0 0 w s) s2
    closeMc s3.spu.mcSeq 5 8 0 s3

/-- ROM_SCAN. -/
def execRomScan (unit : BitVec 5) (fails : Option (BitVec 14 × BitVec 176)) (s : State) : Host.Outcome State Fault Refusal :=
  .next (settle (match fails with
    | none => s
    | some f => romScan unit.toNat f.1 f.2 s))

end Sys2Proof.Machine
end

