-- ==== Sys2Proof/Machine/RegMap.lean ====
section
/-!
DEFINITION. The register map: the value that each register of BAR0 and of the doorbell pages of BAR2 reads, by the tables of the
spec (R39-R569). A reserved field reads 0 (R10), and so does an offset that no table defines (R370).
-/

namespace Sys2Proof.Machine

/-- A register: byte offset, bytes, and the value it reads. -/
structure Reg where
  off : Nat
  bytes : Nat
  val : Nat
  deriving DecidableEq, Repr

/-- A register with its fields (low bit, width, value). -/
def reg (off bytes : Nat) (f : List (Nat × Nat × Nat)) : Option Reg := some ⟨off, bytes, packBits f⟩

/-- The element of an array of register blocks that an offset lies in, and the offset within it. -/
def block (base stride n o : Nat) : Option (Nat × Nat) :=
  if decide (base ≤ o) && decide (o < base + stride * n) then some ((o - base) / stride, (o - base) % stride) else none

/-- The number that a list of byte-addressed fields makes, its first byte lowest (R8). -/
def imageOf (l : List Fld) : Nat := packBits (l.map fun f => (8 * f.off, 8 * f.len, f.val))

/-- A 128-bit part of an image at an offset that is a multiple of 16 (R108). -/
def part16 (off rel : Nat) (l : List Fld) : Option Reg := reg off 16 [(0, 128, imageOf l >>> (8 * rel))]

/-- A 64-bit register with one field of 64 bits. -/
def reg64 (off v : Nat) : Option Reg := reg off 8 [(0, 64, v)]

/-! ### Operating mode, Timing island (R39, R40, R52, R56, R60-R62, R86) -/

/-- MGT_MODE_STATUS and MGT_MODE_PARTITION (R39, R40). -/
def modeReg (o : Nat) (s : State) : Option Reg :=
  let m := s.mode
  if o < 0x144 then
    reg 0x140 4 [(0, 4, m.mode.toNat), (4, 4, m.target.toNat), (8, 4, if m.mode = 11 then m.replayed.toNat else 0)
      , (12, 1, b2n m.change.isSome), (13, 1, b2n m.defaulted), (16, 16, m.gen.toNat)]
  else if decide (0x148 ≤ o) && decide (o < 0x150) then reg 0x148 8 (m.part.zipIdx.map fun x => (8 * x.2, 8, x.1))
  else none

/-- The Timing island's registers (R52, R56, R60-R62, R86). -/
def timReg (o : Nat) (s : State) : Option Reg :=
  let t := s.tim
  if o < 0x404 then
    reg 0x400 4 [(0, 2, t.refFreq.toNat), (2, 1, b2n t.sclkIn), (3, 1, b2n (t.refOk && !t.refclkLost)), (4, 1, b2n t.tpllLock)
      , (5, 1, b2n t.sclkLock), (6, 1, b2n t.ppsPresent), (7, 2, t.quality), (9, 1, b2n t.setPending.isSome), (16, 16, t.stepGen.toNat)]
  else if o < 0x410 then none
  else if o < 0x420 then reg 0x410 16 [(0, 128, now s)]
  else if o < 0x424 then reg 0x420 4 [(0, 16, t.ppsDelay.toNat), (16, 1, b2n t.ppsFalling), (24, 8, t.ppsWindow.toNat)]
  else if o < 0x428 then none
  else if o < 0x430 then reg 0x428 8 [(0, 32, wrapInt 32 t.ppsOffset), (32, 16, t.outliers.toNat), (48, 16, t.missed.toNat)]
  else if o < 0x434 then reg 0x430 4 [(0, 1, b2n t.ppsOutEnable), (1, 9, t.ppsOutWidth.toNat), (16, 16, t.ppsOutOffset.toNat)]
  else
    match block 0x440 8 8 o with
    | none => none
    | some (n, _) =>
      let c := getTdc n s
      let gated := t.gates.any fun g => g.any fun g => decide (g.startCh = n) || (g.interval && decide (g.stopCh = n))
      reg (0x440 + 8 * n) 8 [(0, 13, c.queue.length), (13, 1, b2n (c.owner.isSome || decide (n = 0))), (14, 1, b2n gated)
        , (16, 16, c.deadLost.toNat), (32, 16, c.queueLost.toNat), (48, 16, c.calSeq)]

/-! ### Converters, CSU, AMC, Skim (R103-R105, R109-R111, R117-R121, R145-R148) -/

/-- The converter pairs (R103-R105). -/
def pairReg (o : Nat) (s : State) : Option Reg :=
  match block 0x800 0x20 3 o with
  | none => none
  | some (k, rel) =>
    let n := rel / 8
    let p := getPair n s
    let off := o / 8 * 8
    match k with
    | 0 =>
      let route := if p.foreground then 4 else p.route.toNat
      reg off 8 [(0, 3, route), (3, 1, b2n (pairHeld n s)), (4, 4, p.fsStep.toNat), (8, 1, b2n p.settling)
        , (9, 1, b2n (p.running && decide (p.invalidLeft = 0))), (10, 1, b2n (decide (route < 4) && bit s.hedge.protect.toNat route))
        , (11, 1, b2n p.foreground), (16, 16, p.routeGen.toNat)]
    | 1 => reg off 8 [(0, 32, p.xovf.toNat)]
    | _ => reg off 8 [(0, 32, p.evenOvr.toNat), (32, 32, p.oddOvr.toNat)]

/-- The Converter Statistics Unit (R109-R111). -/
def csuReg (o : Nat) (s : State) : Option Reg :=
  let c := s.adc.csu
  if o < 0xA04 then reg 0xA00 4 [(0, 6, c.windowLog2), (6, 1, b2n c.run), (7, 1, b2n c.freeze)]
  else if o < 0xA08 then none
  else if o < 0xA10 then reg 0xA08 8 [(0, 32, c.pubSeq.toNat), (32, 32, c.doneSeq.toNat)]
  else if o < 0xA18 then reg64 0xA10 c.pubIndex.toNat
  else
    match block 0xA40 0x40 8 o with
    | none => none
    | some (n, rel) =>
      let x := nth c.snap n CoreStat.empty
      let at0 := 0xA40 + 0x40 * n
      if rel < 0x10 then reg at0 16 [(0, 128, wrapInt 128 x.sum)]
      else if rel < 0x20 then reg (at0 + 0x10) 16 [(0, 128, x.sq)]
      else if rel < 0x28 then reg64 (at0 + 0x20) x.cnt
      else if rel < 0x30 then reg (at0 + 0x28) 8 [(0, 16, wrapInt 16 x.min), (16, 16, wrapInt 16 x.max), (32, 32, x.ovr.toNat)]
      else none

/-- The Auxiliary Measurement Converter (R117-R121). -/
def amcReg (o : Nat) (s : State) : Option Reg :=
  let a := s.adc.amc
  if o < 0xE04 then reg 0xE00 4 [(0, 1, b2n a.run), (1, 6, a.lastSlot.toNat), (8, 5, a.trimSel.toNat)]
  else if o < 0xE08 then none
  else if o < 0xE10 then
    reg 0xE08 8 [(0, 6, a.slot.toNat), (6, 1, b2n a.urgent.isSome), (7, 1, b2n (a.cur.isNone && a.urgent.isNone)), (8, 24, a.passes.toNat)
      , (32, 16, a.aborts.toNat), (48, 16, a.urgents.toNat)]
  else if o < 0xE14 then reg 0xE10 4 []
  else
    match block 0xE40 4 64 o, block 0xF40 16 32 o with
    | some (k, _), _ =>
      let e := nth a.seq k (0, 0)
      reg (0xE40 + 4 * k) 4 [(0, 5, e.1.toNat), (8, 13, e.2.toNat)]
    | none, some (k, _) =>
      let x := nth a.acc k AmcAcc.empty
      reg (0xF40 + 16 * k) 16 [(0, 64, wrapInt 64 x.sum), (64, 32, x.count.toNat), (96, 16, wrapInt 16 x.min), (112, 16, wrapInt 16 x.max)]
    | none, none => none

/-- Skim (R145-R148). -/
def skimReg (o : Nat) (s : State) : Option Reg :=
  match block 0x1200 8 4 o, block 0x1220 8 4 o, block 0x1400 0x400 4 o with
  | some (n, _), _, _ =>
    let p := getSkim n s
    reg (0x1200 + 8 * n) 8 [(0, 3, p.mode.toNat), (3, 1, b2n p.ramp), (4, 1, b2n (decide (pairNext n s < p.fenceEnd))), (5, 1, b2n p.held.isSome)
      , (6, 1, b2n p.lacking), (7, 1, b2n p.fallback), (8, 1, b2n p.fgFault), (9, 5, p.lg), (16, 32, p.epoch.toNat), (48, 8, p.retargets.toNat)
      , (56, 8, p.stale.toNat)]
  | none, some (n, _), _ =>
    let p := getSkim n s
    let next := pairNext n s
    let age := match p.held with | none => 0 | some h => (next - h.since) / 8 / 256
    reg (0x1220 + 8 * n) 8 [(0, 23, if p.ramp then p.k else 0), (32, 16, min 0xFFFF (cdiv (cdiv (p.fenceEnd - next) 8) 256)), (48, 16, min 0xFFFF age)]
  | none, none, some (n, rel) =>
    let v := rel / 0x100
    if decide (v < 3) && decide (rel % 0x100 < 0xC0) then
      part16 (o / 16 * 16) (rel % 0x100 / 16 * 16) (nth (shownViews n s) v [])
    else none
  | none, none, none =>
    if decide (0x1240 ≤ o) && decide (o < 0x1244) then
      reg 0x1240 4 [(0, 4, (List.range 4).foldl (fun m n => m + if (getSkim n s).frozen.isSome then 2 ^ n else 0) 0)]
    else none

/-! ### Zoom, transforms, integrations (R171-R173, R201, R202, R223, R224) -/

/-- The latest word of a slot carries a tag bit. -/
def Slot.shows (b : Nat) (x : Slot) : Bool := x.last.any fun w => w.has b

/-- Two bits per stage from a list of design codes (R171, R172). -/
def designBits (l : List Nat) : Nat := packBits (l.zipIdx.map fun x => (2 * x.2, 2, x.1))

/-- The zoom channels (R171-R173). -/
def zoomReg (o : Nat) (s : State) : Option Reg :=
  match block 0x2800 0x20 8 o, block 0x2A00 0x20 32 o with
  | some (u, rel), _ =>
    let f := getFront u s
    let on := f.plan.isSome
    let shows := fun b => b2n ((slotsOf u s).any fun n => (getSlot n s).shows b)
    let at0 := 0x2800 + 0x20 * u
    if rel < 8 then
      reg at0 8 [(0, 1, b2n (f.plan.any fun p => planRuns p s)), (1, 1, shows tagSettle), (2, 1, shows tagRetune), (3, 2, f.subs - 1)
        , (5, 3, if on then f.dec else 0), (8, 12, if on then designBits f.design else 0), (20, 4, f.nco.hopIdx), (32, 16, f.nco.count.toNat)
        , (48, 16, f.nco.late.toNat)]
    else if rel < 0x10 then reg (at0 + 8) 8 [(0, 48, f.nco.ftw)]
    else if rel < 0x18 then reg64 (at0 + 0x10) f.i0
    else none
  | none, some (n, rel) =>
    let x := getSlot n s
    let at0 := 0x2A00 + 0x20 * n
    if rel < 8 then
      reg at0 8 [(0, 1, b2n x.plan.isSome), (1, 1, b2n (x.shows tagSettle)), (2, 1, b2n (x.shows tagRetune)), (3, 1, b2n (x.plan.isSome && decide (x.ratio = 0)))
        , (4, 3, x.front), (7, 2, x.sub), (9, 4, x.backDec), (13, 3, x.gain), (32, 16, x.nco.late.toNat), (48, 16, x.sat.toNat)]
    else if rel < 0x10 then reg (at0 + 8) 8 [(0, 42, if x.plan.isSome then zoomStep x.ratio else 0)]
    else if rel < 0x18 then reg (at0 + 0x10) 8 [(0, 48, x.nco.ftw)]
    else reg (at0 + 0x18) 8 [(0, 26, designBits x.backDesign)]
  | none, none =>
    if decide (0x2E00 ≤ o) && decide (o < 0x2E08) then
      reg 0x2E00 8 [(0, 16, cdiv (slotRate (reservedPlans s)) (10 ^ 6)), (16, 6, (s.zdc.slots.filter fun x => x.plan.isSome).length)
        , (22, 4, (s.zdc.fronts.filter fun x => x.plan.isSome).length)]
    else none

/-- The streams of running plans on an engine. -/
def engStreams (e : Nat) (s : State) : List XStream := s.dsp.streams.filter fun x => decide (x.engine = e) && planRuns x.plan s

/-- The transform engines and user windows (R201, R202). -/
def xfmReg (o : Nat) (s : State) : Option Reg :=
  match block 0x3000 0x40 5 o with
  | some (e, rel) =>
    let g := nth s.dsp.engines e XEng.reset
    let l := engStreams e s
    let x := if e = 4 then none else l.head?
    let cfg := fun (f : XStream → Nat) => (x.map f).getD 0
    let at0 := 0x3000 + 0x40 * e
    let pts := if e = 4 then xezRate (reservedPlans s)
      else sumBy (fun p => sumBy (fun b => if b.f 0x08 1 = e then p.pointRate b else 0) (p.kindSubs 3)) (reservedPlans s)
    if rel < 8 then
      reg at0 8 [(0, 1, b2n !l.isEmpty), (1, 1, cfg fun x => b2n !(x.arith s).schedule), (2, 1, cfg fun x => b2n (x.arith s).up)
        , (3, 1, cfg fun x => b2n x.switch.isSome), (4, 1, cfg fun x => b2n x.filling), (5, 1, cfg fun x => b2n (decide ((x.sub s).f 0x13 1 = 2)))
        , (6, 2, cfg fun x => x.cfg.overlap), (8, 5, cfg fun x => x.cfg.lg), (13, 5, cfg fun x => x.cfg.taps), (18, 6, cfg fun x => x.cfg.window)]
    else if rel < 0x10 then reg64 (at0 + 8) g.frames.toNat
    else if rel < 0x18 then reg (at0 + 0x10) 8 [(0, 16, g.overflows.toNat), (16, 16, g.lost.toNat), (32, 16, g.switches.toNat)]
    else if rel < 0x20 then reg (at0 + 0x18) 8 [(0, 8, g.lastExp.toNat), (8, 8, g.maxExp.toNat)]
    else if rel < 0x28 then reg (at0 + 0x20) 8 [(0, 16, cdiv pts (10 ^ 6))]
    else none
  | none =>
    if decide (0x3180 ≤ o) && decide (o < 0x3188) then
      reg 0x3180 8 [(0, 16, sumBy (fun c => c.windows.length) s.host.ctxs), (16, 16, (heldRegions s).t / granule), (32, 16, s.dsp.swaps.toNat)]
    else none

/-- The cross pairs of running plans. -/
def crossRunning (s : State) : List CrossPair := (s.dsp.cross.filter fun c => planRuns c.plan s).flatMap (·.pairs)

/-- Integrations and cross-spectra (R223, R224). -/
def intReg (o : Nat) (s : State) : Option Reg :=
  match block 0x3400 0x20 5 o with
  | some (e, rel) =>
    let g := nth s.dsp.engines e XEng.reset
    let l := (engStreams e s).filter fun x => x.integ.isSome
    let x := if e = 4 then none else l.head?
    let blk := fun (x : XStream) => (x.integ.map (·.blk)).getD AccBlock.fresh
    let sub := fun (x : XStream) => planSub x.plan 4 x.idx s
    let cfg := fun (f : XStream → Nat) => (x.map f).getD 0
    let kurt := fun (x : XStream) => decide ((sub x).f 0x08 1 = 2)
    let at0 := 0x3400 + 0x20 * e
    if rel < 8 then
      reg at0 8 [(0, 1, b2n !l.isEmpty), (1, 1, cfg fun x => b2n (kurt x)), (2, 1, b2n (s.dsp.drain.any fun d => decide (d.engine = e)))
        , (3, 1, cfg fun x => b2n (blk x).due), (4, 6, cfg fun x => (blk x).exp), (10, 4, cfg fun x => if kurt x then (sub x).f 0x0A 1 - 4 else 0)]
    else if rel < 0x10 then reg64 (at0 + 8) g.dumps.toNat
    else if rel < 0x18 then
      reg (at0 + 0x10) 8 [(0, 16, g.saturated.toNat), (16, 16, g.short.toNat), (32, 16, g.drained.toNat), (48, 16, g.drops.toNat)]
    else none
  | none =>
    match block 0x34A0 8 3 o with
    | none => none
    | some (0, _) =>
      reg 0x34A0 8 [(0, 6, (crossRunning s).foldl (fun m p => m ||| 2 ^ p.pair) 0), (6, 1, b2n (s.dsp.drain.any fun d => decide (d.engine = 5)))]
    | some (1, _) => reg 0x34A8 8 ((crossRunning s).map fun p => (6 * p.pair, 6, p.blk.exp))
    | some _ => reg 0x34B0 8 [(0, 16, s.dsp.unpaired.toNat), (16, 16, s.dsp.crossSat.toNat), (32, 16, s.dsp.crossDrops.toNat)]

/-! ### Triggers and captures (R240, R250-R252) -/

/-- The trigger units, TRIGOUT and the masks (R240, R250, R251). -/
def trgReg (o : Nat) (s : State) : Option Reg :=
  match block 0x3800 0x40 8 o with
  | some (n, rel) =>
    let u := getUnit n s
    let b := unitBlk n s
    let at0 := 0x3800 + 0x40 * n
    let own := u.plan.isSome
    if rel < 8 then
      reg at0 8 [(0, 1, b2n (u.plan.any fun p => planRuns p s)), (1, 1, b2n u.armed), (2, 1, b2n u.waitB), (3, 1, b2n u.frozen)
        , (4, 4, if own then b.source false else 0), (8, 4, if own then b.source true else 0), (12, 2, if own then b.f 0x0A 1 else 0)
        , (16, 10, (u.plan.map fun p => planCtx p s).getD 0)]
    else if rel < 0x10 then reg64 (at0 + 8) u.fires.toNat
    else if rel < 0x18 then
      reg (at0 + 0x10) 8 [(0, 16, u.errMissed.toNat), (16, 16, u.errLost.toNat), (32, 16, u.errHeldOff.toNat), (48, 16, u.errBTimeouts.toNat)]
    else if rel < 0x20 then
      reg (at0 + 0x18) 8 [(0, 16, u.errPre.toNat), (16, 16, u.errNoSpace.toNat), (32, 16, u.errForced.toNat), (48, 16, u.errLate.toNat)]
    else if rel < 0x30 then reg (at0 + 0x20) 16 [(0, 64, u.lastIndex.toNat), (64, 16, u.lastFrac.toNat)]
    else none
  | none =>
    if o < 0x3A00 then none
    else if o < 0x3A08 then
      let l := trigoutUnits s
      let owner := (l.head?.bind fun n => (getUnit n s).plan).map fun p => planCtx p s
      reg 0x3A00 8 [(0, 1, b2n !l.isEmpty), (1, 1, b2n s.trg.out.high), (2, 8, l.foldl (fun m n => m + 2 ^ n) 0), (16, 10, owner.getD 0)
        , (32, 16, s.trg.out.rises.toNat), (48, 16, s.trg.out.merged.toNat)]
    else if o < 0x3A10 then none
    else if o < 0x3A18 then
      reg 0x3A10 8 [(0, 7, s.trg.masks.length), (16, 16, (heldRegions s).m / granule), (32, 16, s.trg.swaps.toNat)]
    else none

/-- The capture rings (R252). -/
def capReg (o : Nat) (s : State) : Option Reg :=
  match block 0x3C00 0x40 8 o with
  | none => none
  | some (r, rel) =>
    let x := getCap r s
    let f := fun (g : CapRing → Nat) => (x.map g).getD 0
    let at0 := 0x3C00 + 0x40 * r
    if rel < 8 then reg at0 8 [(0, 1, b2n x.isSome), (1, 1, f fun x => b2n x.writing), (2, 6, f (·.source)), (32, 32, f (·.blocks))]
    else if rel < 0x10 then reg (at0 + 8) 8 [(0, 32, f fun x => x.blocks - x.held), (32, 32, f (·.held))]
    else if rel < 0x18 then reg64 (at0 + 0x10) (f (·.oldest))
    else if rel < 0x20 then
      reg (at0 + 0x18) 8 [(0, 16, f (·.overwritten.toNat)), (16, 16, f (·.logOvf.toNat)), (32, 16, f (·.spillDrops.toNat))]
    else none

/-! ### Density and display (R279-R282) -/

/-- The density surfaces (R279, R280). -/
def denReg (o : Nat) (s : State) : Option Reg :=
  match block 0x4000 0x40 8 o with
  | some (n, rel) =>
    let d := nth s.dpy.den n ⟨0, 0, 0, 0, 0, 0⟩
    let x := getSurf n s
    let f := fun (g : Surf → SubBlk → Nat) => (x.map fun x => g x (x.sub s)).getD 0
    let buf := fun (st : BufState) => x.bind fun x => x.bufIn st
    let at0 := 0x4000 + 0x40 * n
    if rel < 8 then
      reg at0 8 [(0, 1, f fun x _ => b2n (planRuns x.plan s)), (1, 1, f fun _ b => b2n (decide (b.f 0x0A 1 = 1)))
        , (2, 1, f fun _ b => b2n (decide (b.f 0x0B 1 = 0))), (3, 1, f fun _ b => b2n (decide (b.f 0x0C 1 ≠ 0))), (4, 1, f fun _ b => b2n (decide (b.f 0x1E 1 ≠ 0)))
        , (5, 1, f fun x b => b2n (decide (0 < x.swept) && decide (x.swept < b.f 0x10 2))), (8, 13, f fun _ b => b.f 0x10 2), (21, 11, f fun _ b => b.f 0x12 2)
        , (32, 10, f fun x _ => planCtx x.plan s), (42, 3, f fun x _ => (planSub x.plan 3 x.stream s).f 0x08 1)]
    else if rel < 0x10 then reg64 (at0 + 8) d.frames.toNat
    else if rel < 0x18 then
      reg (at0 + 0x10) 8 [(0, 16, d.outOfRange.toNat), (16, 16, d.satCells.toNat), (32, 16, d.renderSkips.toNat), (48, 16, d.rawDrops.toNat)]
    else if rel < 0x20 then
      reg (at0 + 0x18) 8 [(0, 2, (buf .ready).getD 0), (2, 1, b2n (buf .ready).isSome), (3, 2, (buf .rendering).getD 0), (5, 1, b2n (buf .rendering).isSome)
        , (32, 32, d.skipped.toNat)]
    else if rel < 0x28 then reg64 (at0 + 0x20) (f fun x _ => x.base)
    else if rel < 0x30 then reg (at0 + 0x28) 8 [(0, 32, f fun x b => if b.f 0x0C 1 = 0 then 0 else x.stride)]
    else none
  | none =>
    if decide (0x4200 ≤ o) && decide (o < 0x4208) then
      reg 0x4200 8 [(0, 16, cdiv (cellRates (reservedPlans s)) (10 ^ 8)), (16, 4, (s.dpy.surfs.filter (·.isSome)).length)]
    else none

/-- The outputs and their layers (R281, R282). -/
def dpyReg (o : Nat) (s : State) : Option Reg :=
  match block 0x4400 0x100 2 o with
  | none => none
  | some (k, rel) =>
    let d := getOut k s
    let at0 := 0x4400 + 0x100 * k
    if rel < 8 then
      reg at0 8 [(0, 1, b2n d.enabled), (1, 1, b2n d.lockstep), (2, 1, b2n d.cmdMode), (3, 1, b2n (decide (d.format = 3)))
        , (4, 1, b2n (d.enabled && d.cmdMode && !d.inFallback && decide (d.busyUntil ≤ nowTick s))), (5, 1, b2n d.inFallback), (8, 10, d.owner)
        , (32, 16, d.lineNow (nowTick s))]
    else if rel < 0x10 then reg64 (at0 + 8) d.frame.toNat
    else if rel < 0x18 then
      reg (at0 + 0x10) 8 [(0, 16, d.teTimeouts.toNat), (16, 16, d.teSkips.toNat), (32, 16, d.ptcFails.toNat), (48, 16, d.underruns.toNat)]
    else if rel < 0x20 then reg (at0 + 0x18) 8 [(0, 30, d.fallback.toNat), (32, 30, d.background.toNat)]
    else if rel < 0x30 then reg (at0 + 0x20) 16 [(0, 128, d.latch.toNat)]
    else if rel < 0x38 then reg64 (at0 + 0x30) d.areaBase
    else if rel < 0x40 then reg (at0 + 0x38) 8 [(0, 11, d.areaMb)]
    else
      match block 0x40 0x20 4 rel with
      | none => none
      | some (l, r) =>
        let y := getLayer k l s
        let at1 := at0 + 0x40 + 0x20 * l
        if r < 8 then
          reg at1 8 [(0, 1, b2n y.enabled), (1, 2, y.source), (3, 2, y.format), (5, 1, b2n y.argb), (6, 1, b2n y.pend.isSome), (16, 8, y.alpha)
            , (32, 16, y.x), (48, 16, y.y)]
        else if r < 0x10 then reg64 (at1 + 8) (if y.source = 1 then y.cur.base else y.surface)
        else if r < 0x18 then reg (at1 + 0x10) 8 [(0, 32, y.cur.flip)]
        else none

/-! ### SPU cluster and control store (R313, R314, R363-R365) -/

/-- Logical SPUs in service (R314): numbers that are allocated. -/
def logicalUnits (s : State) : Nat := (s.spu.lsus.filter fun l => decide (l.state ≠ 4)).length

/-- The SPUs (R313, R314). -/
def spuReg (o : Nat) (s : State) : Option Reg :=
  match block 0x4800 0x40 16 o with
  | some (n, rel) =>
    let l := getLsu n s
    let k := getKernel l.kernel s
    let at0 := 0x4800 + 0x40 * n
    if rel < 8 then
      reg at0 8 [(0, 3, l.state), (3, 1, b2n l.inB1), (4, 1, bits l.b0.sr.toNat 6 1), (5, 5, l.phys), (16, 10, (k.map (·.ctx)).getD 0)
        , (32, 4, l.inst), (36, 8, l.tapst)]
    else if rel < 0x10 then reg (at0 + 8) 8 [(0, 32, l.kernel)]
    else if rel < 0x18 then reg (at0 + 0x10) 8 [(0, 16, l.tapDrops.toNat), (16, 16, l.emitDrops.toNat), (32, 16, l.rejected.toNat)]
    else if rel < 0x20 then reg (at0 + 0x18) 8 [(0, 32, l.lastPc)]
    else if rel < 0x28 then reg64 (at0 + 0x20) l.cycle.toNat
    else none
  | none =>
    if decide (0x4C00 ≤ o) && decide (o < 0x4C08) then
      let x := s.spu
      reg 0x4C00 8 [(0, 5, logicalUnits s), (5, 1, b2n x.spareUsed), (6, 17, x.retired.toNat)
        , (23, 5, if x.spareUsed || bit x.retired.toNat x.spare.toNat then 31 else x.spare.toNat)
        , (32, 5, (x.lsus.filter fun l => decide (l.state = 0)).length)]
    else none

/-- The control store and its log (R363-R365). -/
def ucsReg (o : Nat) (s : State) : Option Reg :=
  let x := s.spu
  match o / 8 with
  | 0xA00 => reg 0x5000 8 [(0, 2, x.patchState.toNat), (2, 7, (x.table.filter fun t => t.2.2).length), (9, 11, x.patchWords.toNat)
      , (32, 32, x.patchVersion.toNat)]
  | 0xA01 => reg 0x5008 8 [(0, 32, Config.romId.toNat), (32, 3, x.reject.toNat)]
  | 0xA02 => reg64 0x5010 x.digest.toNat
  | 0xA03 => reg 0x5018 8 [(0, 16, x.mcCount.toNat), (16, 6, x.mcSeq % 64), (32, 16, x.scrubFixes.toNat)
      , (48, 5, (maskIdx x.retired.toNat 17).length)]
  | 0xA04 => if o < 0x5024 then
      reg 0x5020 4 [(0, 14, x.injAddr.toNat), (14, 1, b2n x.injPatch), (15, 5, x.injUnit.toNat), (20, 1, b2n x.injArm)] else none
  | _ =>
    match block 0x5100 8 64 o, block 0xA000 0x40 64 o with
    | some (k, _), _ =>
      let t := nth x.table k (0, 0, false)
      reg (0x5100 + 8 * k) 8 [(0, 14, t.1), (14, 10, t.2.1), (24, 1, b2n t.2.2)]
    | none, some (k, rel) =>
      let e := x.mcLog.find? fun e => decide ((e.seq - 1) % 64 = k)
      part16 (o / 16 * 16) (rel / 16 * 16) ((e.map (McLog.fields 0)).getD [])
    | none, none => none

/-! ### Exports, disks, capture memory (R438-R440, R467-R469) -/

/-- Exports, bindings and port rates (R438-R440). -/
def diskReg (o : Nat) (s : State) : Option Reg :=
  match block 0x6000 0x40 8 o, block 0x6400 0x40 32 o with
  | some (n, rel), _ =>
    let x := getExport n s
    let f := fun (g : Export → Nat) => (x.map g).getD 0
    let at0 := 0x6000 + 0x40 * n
    let rate := fun (e : Export) => ((getPlan e.plan s).map fun p => cdiv (sampleRateOf p e + headerRateOf p e) (10 ^ 6)).getD 0
    if rel < 8 then
      reg at0 8 [(0, 1, b2n x.isSome), (1, 1, f fun e => b2n (planRuns e.plan s)), (2, 1, f fun e => b2n e.disk), (3, 1, f fun e => b2n (decide (e.form = 2)))
        , (4, 4, f (·.sourceMask)), (8, 10, f (·.ctx)), (18, 4, f (·.target)), (32, 32, f (·.streamId))]
    else if rel < 0x10 then reg (at0 + 8) 8 [(0, 32, f (·.zoomMask))]
    else if rel < 0x18 then reg64 (at0 + 0x10) ((x.bind fun e => (getStream e.streamId s).map (·.seq)).getD 0)
    else if rel < 0x20 then reg (at0 + 0x18) 8 [(0, 32, f (·.drops.toNat)), (32, 16, f (·.gaps.toNat))]
    else if rel < 0x28 then reg (at0 + 0x20) 8 [(0, 32, f rate)]
    else none
  | none, some (n, rel) =>
    let x := getBinding n s
    let f := fun (g : Binding → Nat) => (x.map g).getD 0
    let st := fun (b : Binding) => match b.state with | .awaiting => 1 | .active => 2 | .failed => 3 | .unbinding => 4
    let at0 := 0x6400 + 0x40 * n
    if rel < 8 then
      reg at0 8 [(0, 3, f st), (3, 3, f (·.set)), (6, 6, f (·.queuePairs)), (12, 1, f (·.port)), (13, 10, f (·.ctx)), (32, 32, f (·.id))]
    else if rel < 0x10 then reg64 (at0 + 8) (f (·.window))
    else if rel < 0x18 then reg64 (at0 + 0x10) (f (·.nextLba))
    else if rel < 0x20 then
      reg (at0 + 0x18) 8 [(0, 16, f (·.cmdErrors.toNat)), (16, 16, f (·.retries.toNat)), (32, 16, f (·.timeouts.toNat)), (48, 16, f (·.outstanding.length))]
    else if rel < 0x28 then reg (at0 + 0x20) 8 [(0, 32, f (·.recordsLost.toNat))]
    else none
  | none, none =>
    if decide (0x6C00 ≤ o) && decide (o < 0x6C08) then
      let r := portRates (reservedPlans s) s
      reg 0x6C00 8 [(0, 16, cdiv r.1 (10 ^ 7)), (16, 16, cdiv r.2 (10 ^ 7)), (32, 16, cdiv (sampleRates (reservedPlans s) s) (10 ^ 7))]
    else none

/-- Segments of the data space that a range touches (R446). -/
def Dram.segments (base bytes : Nat) (d : Dram) : Nat :=
  if bytes = 0 then 0 else (rangeFrom (d.segment base) (d.segment (base + bytes - 1) + 1 - d.segment base)).foldl (fun m k => m + 2 ^ k) 0

/-- An entry of the controller's log (R453). -/
def DramLog.fields (e : DramLog) : List Fld :=
  [⟨0, 4, e.seq⟩, ⟨4, 1, e.kind⟩, ⟨5, 1, e.consumer⟩, ⟨6, 1, e.channel⟩, ⟨7, 1, e.bankRank⟩, ⟨8, 8, e.address⟩, ⟨0x10, 8, e.time⟩, ⟨0x18, 4, e.row⟩
   , ⟨0x1C, 1, e.slot⟩, ⟨0x1D, 1, e.symbol⟩, ⟨0x1E, 2, e.count⟩]

/-- A channel of capture memory (R468). -/
def chanReg (n rel : Nat) (s : State) : Option Reg :=
  let c := getChan n s
  let r0 := getRank n 0 s
  let two := decide (1 < c.ranks.length)
  let r1 := if two then getRank n 1 s else Rank.reset
  let at0 := 0x7100 + 0x40 * n
  if rel < 8 then
    reg at0 8 [(0, 1, b2n c.online), (1, 1, b2n c.selfRefresh), (2, 1, b2n c.urgent), (3, 1, b2n c.retrain), (4, 5, wrapInt 5 r0.debt)
      , (9, 5, wrapInt 5 r1.debt), (14, 3, r0.mult.toNat), (17, 3, r1.mult.toNat), (32, 8, r0.mr4.toNat), (40, 8, r1.mr4.toNat)]
  else if rel < 0x10 then
    reg (at0 + 8) 8 [(0, 16, c.corrected.toNat), (16, 16, c.uncorrected.toNat), (32, 16, c.linkCorr.toNat), (48, 16, c.cmdParity.toNat)]
  else if rel < 0x18 then
    reg (at0 + 0x10) 8 [(0, 16, c.postponed.toNat), (16, 16, c.bursts.toNat), (32, 16, c.late.toNat), (48, 16, c.retrains.toNat)]
  else if rel < 0x20 then reg (at0 + 0x18) 8 [(0, 32, c.neighbour.toNat)]
  else none

/-- Capture memory (R467-R469). -/
def drcReg (o : Nat) (s : State) : Option Reg :=
  let d := s.dram
  let off := (List.range d.chans.length).foldl (fun m n => if (getChan n s).online then m else m + 2 ^ n) 0
  match block 0x7100 0x40 12 o, block 0x7440 8 8 o, block 0x7800 0x20 64 o with
  | some (n, rel), _, _ => chanReg n rel s
  | none, some (r, _), _ =>
    let x := getCap r s
    reg (0x7440 + 8 * r) 8 [(0, 32, (x.map fun x => x.addr / 2 ^ 20).getD 0), (32, 8, (x.map fun x => d.segments x.addr (x.blocks * 2 ^ 18)).getD 0)]
  | none, none, some (k, rel) =>
    part16 (o / 16 * 16) (rel / 16 * 16) (((d.log.find? fun e => decide ((e.seq - 1) % 64 = k)).map DramLog.fields).getD [])
  | none, none, none =>
    match o / 8 with
    | 0xE00 => reg 0x7000 8 [(0, 4, d.inService.length), (4, 2, d.geom.ranks), (6, 3, d.dieGb.toNat), (9, 1, b2n d.rfm), (16, 16, d.dataSpace / 2 ^ 26)
        , (32, 16, d.ringLimit / 2 ^ 26), (48, 12, off)]
    | 0xE80 => reg 0x7400 8 [(16, 16, d.peakKb.toNat), (32, 32, d.lostWords.toNat)]
    | 0xE81 => if o < 0x740C then
        reg 0x7408 4 [(0, 8, d.keep.toNat), (8, 8, if d.inService.isEmpty then 0 else d.always), (16, 8, d.retained.toNat)] else none
    | 0xE82 => if o < 0x7414 then reg 0x7410 4 [(0, 5, d.log2p.toNat), (5, 1, b2n d.nbrEn)] else none
    | 0xE83 => reg 0x7418 8 [(0, 6, d.logSeq.toNat % 64), (16, 16, d.suppressed.toNat), (32, 32, d.logSeq.toNat)]
    | _ => none

/-! ### Lanes and ports (R481, R485, R486) -/

/-- The ports, the lanes and the eye scan. -/
def lnkReg (o : Nat) (s : State) : Option Reg :=
  match block 0x8000 0x80 2 o, block 0x8200 0x40 32 o, block 0x8C00 8 4 o with
  | some (p, rel), _, _ =>
    let x := getPort p s
    let at0 := 0x8000 + 0x80 * p
    if rel < 8 then
      reg at0 8 [(0, 1, b2n x.linkUp), (1, 1, b2n x.test), (2, 3, x.rate.toNat), (5, 5, x.width.toNat), (10, 4, x.state.toNat), (14, 1, b2n x.txL0s)
        , (15, 1, b2n x.rxL0s), (16, 2, x.l1Sub.toNat), (18, 1, b2n x.refOk), (19, 3, x.maxRate.toNat), (32, 16, x.recoveries.toNat)
        , (48, 16, x.l1Entries.toNat)]
    else if rel < 0xC then reg (at0 + 8) 4 [(0, 8, x.l0sIdle.toNat), (8, 16, x.l1Idle.toNat)]
    else none
  | none, some (l, rel), _ =>
    let x := getLane l s
    let at0 := 0x8200 + 0x40 * l
    if rel < 8 then
      reg at0 8 [(0, 1, b2n x.active), (1, 1, b2n x.cdrLock), (2, 1, b2n x.elecIdle), (3, 1, b2n x.frozen), (4, 3, x.rate.toNat)
        , (7, 4, x.txPreset.toNat), (11, 4, x.reqPreset.toNat), (15, 1, b2n x.rejected), (16, 1, b2n x.fallback), (32, 16, x.relocks.toNat)]
    else if rel < 0x10 then reg64 (at0 + 8) x.entry.toNat
    else if rel < 0x14 then
      reg (at0 + 0x10) 4 [(0, 3, x.pattern.toNat), (3, 1, b2n x.genEn), (4, 1, b2n x.chkEn), (5, 2, x.injMode.toNat), (7, 6, x.injLen.toNat)
        , (13, 6, x.injLog2.toNat)]
    else if rel < 0x18 then none
    else if rel < 0x20 then reg64 (at0 + 0x18) x.pat.toNat
    else if rel < 0x28 then reg (at0 + 0x20) 8 [(0, 48, x.bitsNow (nowTick s))]
    else if rel < 0x30 then
      reg (at0 + 0x28) 8 [(0, 32, x.errors.toNat), (32, 16, x.prbsRelocks.toNat), (48, 15, x.injectedNow (nowTick s)), (63, 1, b2n x.locked)]
    else none
  | none, none, some (k, _) =>
    let e := s.link.scan
    match k with
    | 0 => if o < 0x8C04 then reg 0x8C00 4 [(0, 5, e.lane.toNat), (5, 7, e.toff.toNat), (12, 7, e.voff.toNat), (19, 6, e.dwell.toNat)] else none
    | 1 => reg 0x8C08 8 [(0, 2, e.state.toNat), (2, 3, if e.state = 3 then e.fin.toNat else 0)]
    | 2 => reg 0x8C10 8 [(0, 48, e.bits.toNat)]
    | _ => reg 0x8C18 8 [(0, 48, e.errors.toNat)]
  | none, none, none => none

/-! ### Glacor, Hedge, power, recorder, ageing (R513, R514, R529, R537-R547, R568) -/

/-- Glacor (R513). -/
def glcReg (o : Nat) (s : State) : Option Reg :=
  let t := s.trust
  let sess := fun p => (t.sessions.filter fun x => decide (x.port = p)).length
  let ide := fun p => (t.ide.filter fun x => decide (x.port = p) && x.secure).length
  match o / 8 with
  | 0x190 => reg 0xC80 8 [(0, 7, t.svnFused.toNat), (7, 7, t.fwSvn.toNat), (14, 1, t.fwSlot.toNat), (15, 1, b2n t.debug), (16, 1, b2n t.keysValid)
      , (17, 2, t.btSource.toNat), (19, 2, t.hpSource.toNat), (32, 16, t.fuseVotes.toNat)]
  | 0x191 => reg 0xC88 8 [(0, 32, t.btSeq.toNat), (32, 32, t.hpSeq.toNat)]
  | 0x192 => reg 0xC90 8 [(0, 3, sess 0), (3, 3, sess 1), (6, 3, ide 0), (9, 3, ide 1), (32, 16, t.ideFails.toNat)]
  | _ =>
    match block 0xCA0 16 3 o with
    | some (k, _) => reg (0xCA0 + 16 * k) 16 [(0, 128, t.devId.toNat >>> (128 * k))]
    | none => if decide (0xCD0 ≤ o) && decide (o < 0xCE0) then reg 0xCD0 16 [(0, 128, t.dbgNonce.toNat)] else none

/-- Hedge (R514). WDOG_AGE_MS is open (see `openFields`). -/
def hdgReg (o : Nat) (s : State) : Option Reg :=
  let h := s.hedge
  match o / 8 with
  | 0x1A0 => reg 0xD00 8 [(0, 4, h.protect.toNat), (4, 1, b2n h.throttle), (5, 1, b2n s.tim.refclkLost), (6, 1, b2n h.sclkLost), (7, 1, b2n (faultLow s))
      , (8, 1, b2n (aliveLow s)), (9, 1, b2n h.safe), (10, 1, b2n h.supplyLatch)]
  | 0x1A1 => reg 0xD08 8 [(0, 16, wrapInt 16 (tj s)), (16, 4, hotSensor s), (32, 16, wrapInt 16 h.tjPeak)]
  | 0x1A2 => reg 0xD10 8 [(0, 32, h.rfTrip.toNat), (32, 8, h.rfHyst.toNat), (40, 8, h.throttleC.toNat), (48, 8, h.tripC.toNat), (56, 8, h.mboxAllow.toNat)]
  | 0x1A3 => reg 0xD18 8 [(0, 32, h.policySeq.toNat)]
  | 0x1A4 => reg 0xD20 8 ((h.protects.zipIdx.map fun x => (8 * x.2, 8, x.1.toNat)) ++ [(32, 8, h.wdogResets.toNat), (40, 8, h.supplyResets.toNat)
      , (48, 8, h.thermalTrips.toNat)])
  | _ => none

/-- Power management (R529). -/
def pwrReg (o : Nat) (s : State) : Option Reg :=
  let p := s.pwr
  let lim := powerLimit s
  let run := s.plans.filter fun p => decide (p.phase = .running)
  let next := match nextEvent s with | none => 0xFFFFFFFF | some t => min 0xFFFFFFFF (nsUntil t s / 10 ^ 6)
  match block 0x9010 8 6 o with
  | some (k, _) => reg64 (0x9010 + 8 * k) (nth (p.account (nowTick s)).spent k 0 / 800)
  | none =>
    match o / 8 with
    | 0x1200 => reg 0x9000 8 [(0, 3, p.state.toNat), (3, 3, p.target.toNat), (6, 3, p.cap.toNat), (9, 3, lim.1), (12, 5, lim.2)
        , (17, 1, b2n (!run.isEmpty && run.all fun p => p.duty.any (·.paused))), (32, 32, next)]
    | 0x1201 => if o < 0x900C then reg 0x9008 4 [(0, 12, p.calPeriod.toNat)] else none
    | 0x1208 => reg 0x9040 8 [(0, 32, p.entries.toNat), (32, 16, p.early.toNat), (48, 16, p.late.toNat)]
    | _ => none

/-- The management processor, the flight recorder and ageing (R537, R539, R541, R547, R568). LOAD_PCT is open. -/
def mgtReg (o : Nat) (s : State) : Option Reg :=
  let p := s.pwr
  let r := s.fr
  let lives := s.hedge.shifts.map fun x => lifePermille x.toNat
  let worst := lives.foldl max 0
  match block 0x9508 8 16 o with
  | some (k, _) => let x := (nth s.hedge.shifts k 0).toNat; reg (0x9508 + 8 * k) 8 [(0, 16, x), (16, 16, lifePermille x)]
  | none =>
    match o / 8 with
    | 0x1280 => reg 0x9400 8 [(8, 3, p.shed.toNat), (32, 16, p.deferred.toNat), (48, 16, p.logDrops.toNat)]
    | 0x1281 => reg 0x9408 8 [(0, 3, p.step.toNat), (16, 16, p.stepsDown.toNat), (32, 16, p.stepsUp.toNat)]
    | 0x1282 => reg 0x9410 8 [(0, 32, p.lostMs.toNat), (32, 16, p.episodes.toNat)]
    | 0x1284 => reg 0x9420 8 [(0, 1, b2n r.frozen), (1, 1, b2n r.consolidated), (8, 8, r.cause.toNat), (16, 16, r.windowMb.toNat), (32, 16, r.lateFaults.toNat)]
    | 0x1286 => reg 0x9430 16 [(0, 128, r.freezeTime.toNat)]
    | 0x1287 => reg 0x9430 16 [(0, 128, r.freezeTime.toNat)]
    | 0x1288 =>
      let b := fun (g : Bundle → Nat) => (r.loaded.map g).getD 0
      reg 0x9440 8 [(0, 1, b2n r.loaded.isSome), (1, 1, b2n r.staged.isSome), (2, 1, b2n r.feeding), (3, 1, b2n r.ended), (4, 4, b (·.mode))
        , (32, 32, b fun x => cdiv x.bytes (2 ^ 20))]
    | 0x1289 =>
      let used := (List.range 4).filter fun n => bit ((r.loaded.map (·.pairs)).getD 0) n
      reg64 0x9448 ((used.map fun n => nth r.pos n 0).foldl (fun m x => match m with | none => some x | some y => some (min x y)) (none : Option Nat) |>.getD 0)
    | 0x12A0 => reg 0x9500 8 [(0, 16, worst), (16, 4, lives.findIdx fun x => decide (x = worst)), (20, 1, b2n (decide (900 ≤ worst)))
        , (32, 32, s.hedge.eqHours.toNat)]
    | _ => none

/-! ### Host island (R372, R374, R389, R512) -/

/-- Whole seconds since T0 of the Primer in force (R372). -/
def uptime (s : State) : Nat := (((nowTick s : Int) - s.hedge.t0) / (tickRate : Int)).toNat

/-- Identification and device registers, the function's own block, and the quotas (R372, R374, R512). -/
def hostReg (f o : Nat) (s : State) : Option Reg :=
  let h := s.host
  let r := (getFn f s).getD (FnRegs.reset f)
  match o / 8 with
  | 0 => reg 0 8 [(0, 16, h.part.toNat), (16, 8, 0xB0), (32, 32, h.fwVersion.toNat)]
  | 1 => reg 8 8 [(0, 11, 1024), (16, 6, 63), (22, 4, 8), (32, 8, s.dram.rawGb)]
  | 2 => reg 0x10 8 [(0, 1, b2n h.adminReady), (1, 1, b2n h.calReady), (2, 1, b2n s.hedge.safe), (3, 3, h.stage.toNat), (32, 32, uptime s)]
  | 3 => reg 0x18 8 [(0, 1, fnPort f), (1, 6, fnNumber f), (7, 7, f), (14, 11, (fnContexts f s).length)]
  | 4 => reg 0x20 8 [(0, 16, r.dbErrors.toNat), (16, 16, r.barViolations.toNat)]
  | 5 => reg 0x28 8 [(0, 11, h.ctxs.length), (11, 1, b2n (getCtx 0 s).isSome), (12, 1, ((getCtx 0 s).map fun c => fnPort c.fn).getD 0)
      , (16, 16, h.refusals.toNat)]
  | 8 => reg64 0x40 r.cmdBase.toNat
  | 9 => reg64 0x48 r.cplBase.toNat
  | 10 => reg64 0x50 r.evtBase.toNat
  | 11 => reg64 0x58 r.hbBase.toNat
  | 12 => reg 0x60 8 [(0, 16, r.cfg.toNat)]
  | 13 => reg 0x68 8 [(0, 24, r.irq.toNat)]
  | 14 => reg 0x70 8 [(0, 28, r.mod.toNat), (32, 28, r.mod.toNat / 2 ^ 32)]
  | 15 => if o < 0x7C then reg 0x78 4 [(16, 10, r.ctlContext.toNat)] else none
  | 16 => reg 0x80 8 [(0, 2, r.attState.toNat), (2, 10, r.attContext.toNat), (12, 8, r.attReason.toNat), (32, 32, r.attSeq.toNat)]
  | 17 => reg 0x88 8 [(32, 2, r.hedgeState.toNat), (40, 4, r.hedgeReason.toNat), (48, 16, r.hedgeSeq.toNat)]
  | _ =>
    match block 0x200 4 128 o with
    | some (g, _) => reg (0x200 + 4 * g) 4 [(0, 11, ((getFn g s).map (·.quota.toNat)).getD 0)]
    | none => none

/-- The register of BAR0 at an offset, as function f sees it. The debug window is not described: it reads 0 (R369). -/
def bar0Reg (f o : Nat) (s : State) : Option Reg :=
  if decide (fnNumber f ≠ 0) && decide (0x2000 ≤ o) then none
  else if decide (o < 0x90) || (decide (0x200 ≤ o) && decide (o < 0x400)) then hostReg f o s
  else if decide (0x140 ≤ o) && decide (o < 0x200) then modeReg o s
  else if o < 0x400 then none
  else if o < 0x800 then timReg o s
  else if o < 0xA00 then pairReg o s
  else if o < 0xC80 then csuReg o s
  else if o < 0xD00 then glcReg o s
  else if o < 0xE00 then hdgReg o s
  else if o < 0x1200 then amcReg o s
  else if o < 0x2800 then skimReg o s
  else if o < 0x3000 then zoomReg o s
  else if o < 0x3400 then xfmReg o s
  else if o < 0x3800 then intReg o s
  else if o < 0x3C00 then trgReg o s
  else if o < 0x4000 then capReg o s
  else if o < 0x4400 then denReg o s
  else if o < 0x4800 then dpyReg o s
  else if o < 0x5000 then spuReg o s
  else if o < 0x6000 then ucsReg o s
  else if o < 0x7000 then diskReg o s
  else if o < 0x8000 then drcReg o s
  else if o < 0x9000 then lnkReg o s
  else if o < 0x9400 then pwrReg o s
  else if o < 0xA000 then mgtReg o s
  else ucsReg o s

/-- Offset of the MSI-X table in BAR2, and of its PBA (R367). -/
def msixTable (f : Nat) : Nat := if fnNumber f = 0 then 0x400000 else 0x10000
@[inherit_doc msixTable] def msixPba (f : Nat) : Nat := if fnNumber f = 0 then 0x408000 else 0x10400

/-- Doorbell pages of a function (R367). -/
def doorPages (f : Nat) : Nat := if fnNumber f = 0 then 1024 else 16

/-- A doorbell page's registers (R389): a doorbell reads the last value accepted. -/
def pageReg (f page rel : Nat) (s : State) : Option Reg :=
  let at0 := 4096 * page
  match pageCtx f page s with
  | none => none
  | some c =>
    if rel < 4 then reg at0 4 [(0, 16, c.cmdTail)]
    else if rel < 8 then reg (at0 + 4) 4 [(0, 16, c.cpl.head)]
    else if rel < 0xC then reg (at0 + 8) 4 [(0, 16, c.evt.head)]
    else
      match block 0x10 4 8 rel, block 0x810 8 8 rel with
      | some (k, _), _ => reg (at0 + 0x10 + 4 * k) 4 [(0, 16, ((c.ring (k + 1)).map (·.head)).getD 0)]
      | none, some (k, _) =>
        let r := c.ring (k + 1)
        let g := fun (v : DataRing → Nat) => (r.map v).getD 0
        reg (at0 + 0x810 + 8 * k) 8 [(0, 16, g (·.w)), (16, 1, g fun r => b2n r.phase), (17, 1, b2n r.isSome), (32, 32, g (·.drops.toNat))]
      | none, none =>
        if decide (0x800 ≤ rel) && decide (rel < 0x808) then
          reg (at0 + 0x800) 8 [(0, 16, c.cmdHead), (16, 16, c.cpl.tail), (32, 16, c.evt.tail), (48, 1, b2n c.cpl.phase), (49, 1, b2n c.evt.phase)]
        else if decide (0x808 ≤ rel) && decide (rel < 0x810) then
          reg (at0 + 0x808) 8 [(0, 2, if c.state = .live then 1 else 2), (2, 10, c.num), (12, 1, b2n (decide (c.num = 0)))
            , (32, 16, c.eventsLost.toNat), (48, 16, c.dbErrors.toNat)]
        else none

/-- The register of BAR2 at an offset (R367, R389): a doorbell page, a word of the MSI-X table, or 64 pending bits. -/
def bar2Reg (f o : Nat) (s : State) : Option Reg :=
  let t := msixTable f
  let r := (getFn f s).getD (FnRegs.reset f)
  if o < 4096 * doorPages f then pageReg f (o / 4096) (o % 4096) s
  else match block t 4 (4 * fnVectors f) o, block (msixPba f) 8 (cdiv (fnVectors f) 64) o with
  | some (w, _), _ =>
    reg (t + 4 * w) 4 [(0, 32, if w % 4 = 3 then b2n !(r.unmasked.contains (w / 4)) else ((r.msix.find? fun x => decide (x.1 = w)).map (·.2)).getD 0)]
  | none, some (k, _) => reg (msixPba f + 8 * k) 8 [(0, 64, r.pba.foldl (fun m v => if v / 64 = k then m + 2 ^ (v % 64) else m) 0)]
  | none, none => none

/-- The register of a BAR at an offset. -/
def regAt (f bar o : Nat) (s : State) : Option Reg := if bar = 0 then bar0Reg f o s else bar2Reg f o s

end Sys2Proof.Machine
end

