-- ==== Sys2Proof/Machine/Regs.lean ====
section
/-!
DEFINITION. Reads and writes of BAR0 and BAR2 (R14, R15, R108, R369, R370), accesses to BAR4 (R371), and the commands that make them.
-/

namespace Sys2Proof.Machine

/-! ### Reading -/

/-- Fields of a register of BAR0 whose value the model does not hold: low bit, width, and what a free value becomes there. -/
def openFields (o : Nat) (s : State) : List (Nat × Nat × (Nat → Nat)) :=
  let upTo := fun (n v : Nat) => v % (n + 1)
  if o = 0x7400 then (0, 16, upTo 16384) :: (if s.dram.peakKb = 16384 then [] else [(16, 16, upTo 16384)])
  else if o = 0xD00 then [(16, 16, if s.pwr.mpUp then upTo 100 else id)]
  else if o = 0x9400 then [(0, 8, upTo 100)]
  else match block 0x8200 0x40 32 o, block 0x7100 0x40 12 o, block 0x8C10 8 2 o with
    | some (l, rel), _, _ =>
      if rel = 0 then [(48, 16, id)]
      else if decide (rel = 0x28) && (getLane l s).locked then [(0, 32, fun v => min 0xFFFFFFFF ((getLane l s).errors.toNat + v))] else []
    | none, some (_, rel), _ => if decide (rel = 0x18) && s.dram.rfm then [(32, 16, id)] else []
    | none, none, some _ => if s.link.scan.state = 1 then [(0, 48, upTo (2 ^ s.link.scan.runDwell.toNat))] else []
    | none, none, none => []

/-- The value that a register reads now. -/
def readReg (bar : Nat) (r : Reg) (s : State) : Nat × State :=
  if bar ≠ 0 then (r.val, s)
  else (openFields r.off s).foldl (fun x f =>
    let d := freshValue f.2.1 x.2
    (setBits x.1 f.1 f.2.1 (f.2.2 d.1.toNat), d.2)) (r.val, s)

/-- The RC fields of the register of BAR0 at an offset clear (R14, R370). -/
def clearRc0 (f o : Nat) (s : State) : State :=
  match o with
  | 0x20 => modFn f (fun r => { r with dbErrors := 0, barViolations := 0 }) s
  | 0x28 => modHost (fun h => { h with refusals := 0 }) s
  | 0x428 => modTim (fun t => { t with outliers := 0, missed := 0 }) s
  | 0xC90 => modTrust (fun t => { t with ideFails := 0 }) s
  | 0xE08 => modAmc (fun a => { a with aborts := 0, urgents := 0 }) s
  | 0x3180 => modDsp (fun d => { d with swaps := 0 }) s
  | 0x34B0 => modDsp (fun d => { d with unpaired := 0, crossSat := 0, crossDrops := 0 }) s
  | 0x3A00 => { s with trg := { s.trg with out := { s.trg.out with rises := 0, merged := 0 } } }
  | 0x3A10 => { s with trg := { s.trg with swaps := 0 } }
  | 0x5018 => modSpu (fun x => { x with mcCount := 0, scrubFixes := 0 }) s
  | 0x7400 => modDram (fun d => { d with peakKb := 0, lostWords := 0 }) s
  | 0x7418 => modDram (fun d => { d with suppressed := 0 }) s
  | 0x9040 => modPwr (fun p => { p with early := 0, late := 0 }) s
  | 0x9400 => modPwr (fun p => { p with deferred := 0, logDrops := 0 }) s
  | 0x9408 => modPwr (fun p => { p with stepsDown := 0, stepsUp := 0 }) s
  | 0x9420 => modFr (fun r => { r with lateFaults := 0 }) s
  | _ => s

/-- The RC fields of a register in an array of BAR0 clear: array base, stride, elements, and what clears in an element at an offset. -/
def clearTables : List (Nat × Nat × Nat × (Nat → Nat → State → State)) :=
  [(0x440, 8, 8, fun n _ => modTdc n fun c => { c with deadLost := 0, queueLost := 0 })
   , (0x820, 8, 4, fun n _ => modPair n fun p => { p with xovf := 0 })
   , (0x840, 8, 4, fun n _ => modPair n fun p => { p with evenOvr := 0, oddOvr := 0 })
   , (0x1200, 8, 4, fun n _ => modSkim n fun p => { p with retargets := 0, stale := 0 })
   , (0x2800, 0x20, 8, fun u r => if r = 0 then modFront u fun f => { f with nco := { f.nco with count := 0, late := 0 } } else id)
   , (0x2A00, 0x20, 32, fun n r => if r = 0 then modSlot n fun x => { x with sat := 0, nco := { x.nco with late := 0 } } else id)
   , (0x3000, 0x40, 5, fun e r => if r = 0x10 then modEng e fun g => { g with overflows := 0, lost := 0, switches := 0 } else id)
   , (0x3400, 0x20, 5, fun e r => if r = 0x10 then modEng e fun g => { g with saturated := 0, short := 0, drained := 0, drops := 0 } else id)
   , (0x3800, 0x40, 8, fun n r =>
       if r = 0x10 then modUnit n fun u => { u with errMissed := 0, errLost := 0, errHeldOff := 0, errBTimeouts := 0 }
       else if r = 0x18 then modUnit n fun u => { u with errPre := 0, errNoSpace := 0, errForced := 0, errLate := 0 } else id)
   , (0x3C00, 0x40, 8, fun n r => if r = 0x18 then modCap n fun c => { c with overwritten := 0, logOvf := 0, spillDrops := 0 } else id)
   , (0x4000, 0x40, 8, fun n r =>
       if r = 0x10 then modDen n fun d => { d with outOfRange := 0, satCells := 0, renderSkips := 0, rawDrops := 0 }
       else if r = 0x18 then modDen n fun d => { d with skipped := 0 } else id)
   , (0x4400, 0x100, 2, fun o r => if r = 0x10 then modOut o fun d => { d with teTimeouts := 0, teSkips := 0, ptcFails := 0, underruns := 0 } else id)
   , (0x4800, 0x40, 16, fun n r => if r = 0x10 then modLsu n fun l => { l with tapDrops := 0, emitDrops := 0, rejected := 0 } else id)
   , (0x6000, 0x40, 8, fun n r => if r = 0x18 then modExport n fun e => { e with drops := 0, gaps := 0 } else id)
   , (0x6400, 0x40, 32, fun n r =>
       if r = 0x18 then modBinding n fun b => { b with cmdErrors := 0, retries := 0, timeouts := 0 }
       else if r = 0x20 then modBinding n fun b => { b with recordsLost := 0 } else id)
   , (0x7100, 0x40, 12, fun n r =>
       if r = 8 then modChan n fun c => { c with corrected := 0, uncorrected := 0, linkCorr := 0, cmdParity := 0 }
       else if r = 0x10 then modChan n fun c => { c with postponed := 0, bursts := 0, late := 0, retrains := 0 }
       else if r = 0x18 then modChan n fun c => { c with neighbour := 0 } else id)
   , (0x8000, 0x80, 2, fun p r => if r = 0 then modPort p fun x => { x with recoveries := 0, l1Entries := 0 } else id)
   , (0x8200, 0x40, 32, fun l r => if r = 0 then modLane l fun x => { x with relocks := 0 } else id)]

/-- The RC fields of the register at an offset clear (R14, R370). -/
def clearRc (f bar o : Nat) (s : State) : State :=
  if bar = 0 then
    match clearTables.find? fun t => (block t.1 t.2.1 t.2.2.1 o).isSome with
    | some t => let k := (block t.1 t.2.1 t.2.2.1 o).getD (0, 0); t.2.2.2 k.1 k.2 s
    | none => clearRc0 f o s
  else if o < 4096 * doorPages f then
    match pageCtx f (o / 4096) s with
    | none => s
    | some c =>
      let r := o % 4096
      if r = 0x808 then modCtx c.num (fun c => { c with eventsLost := 0, dbErrors := 0, dbRaised := false }) s
      else match block 0x810 8 8 r with
        | some (k, _) => modRing c.num (k + 1) (fun y => { y with drops := 0 }) s
        | none => s
  else s

/-- The registers that an access reaches, lowest first. -/
def regsIn (f bar off width : Nat) (s : State) : List Reg :=
  ((List.range (width / 4)).filterMap fun k => regAt f bar (off + 4 * k) s).eraseDups

/-- The latched high half of a 128-bit register, 0 if the function has not read its low half (R108). -/
def latchOf (f bar o : Nat) (s : State) : Nat :=
  ((s.host.latches.find? fun l => decide (l.fn = f) && decide (l.bar = bar) && decide (l.off = o)).map (·.val)).getD 0

/-- A half-register value is kept for a function and register (R108, R370). -/
def keepHalf (x : HalfLatch) (l : List HalfLatch) : List HalfLatch :=
  x :: l.filter fun y => !(decide (y.fn = x.fn) && decide (y.bar = x.bar) && decide (y.off = x.off))

/-- What an access reads of one register, placed at its bit position in the access; its RC fields clear. A 128-bit register is read
whole, or by its low half, which latches the high half, or from that latch (R108). -/
def readPart (f bar off width : Nat) (r : Reg) (s : State) : Nat × State :=
  let v := readReg bar r s
  let s1 := clearRc f bar r.off v.2
  if decide (r.bytes = 16) && decide (width < 16) then
    if off < r.off + 8 then
      let hi := bits v.1 64 64
      let s2 := if width = 8 then modHost (fun h => { h with latches := keepHalf ⟨f, bar, r.off, hi⟩ h.latches }) s1 else s1
      (v.1 >>> (8 * (off - r.off)), s2)
    else (latchOf f bar r.off s >>> (8 * (off - r.off - 8)), s1)
  else if r.off < off then (v.1 >>> (8 * (off - r.off)), s1)
  else (v.1 <<< (8 * (r.off - off)), s1)

/-- An access whose width or alignment no BAR accepts (R370). -/
def accessBad (off width : Nat) : Bool := !([4, 8, 16].contains width) || decide (off % max width 1 ≠ 0)

/-- A refused access is counted (R369, R370). -/
def violation (f : Nat) (s : State) : State := modFn f (fun r => { r with barViolations := satInc r.barViolations }) s

/-- The debug window is open to an access: its registers are not described (R369). -/
def debugOpen (f bar off : Nat) (s : State) : Bool :=
  decide (bar = 0) && decide (fnNumber f = 0) && decide (0x80000 ≤ off) && s.trust.debug

/-- A read by a function: the value goes back to it. -/
def readAccess (f bar off width : Nat) (s : State) : State :=
  if accessBad off width then emit (.readData f width 0) (violation f s)
  else if debugOpen f bar off s then
    let d := freshValue (8 * width) s
    emit (.readData f width d.1.toNat) d.2
  else
    let r := (regsIn f bar off width s).foldl (fun x r =>
      let y := readPart f bar off width r x.2
      (x.1 ||| y.1 % 2 ^ (8 * width), y.2)) (0, s)
    emit (.readData f width r.1) r.2

/-! ### Writing -/

/-- LK fields take writes until the end of Primer (R14). -/
def unlocked (s : State) : Bool := decide (s.host.stage ≠ 7)

/-- TIM_CLK_STATUS and TIM_PPS_CFG are written (R52, R60). -/
def writeClk (v : Nat) (s : State) : State :=
  if unlocked s then modTim (fun t => { t with refFreq := BitVec.ofNat 2 v, sclkIn := bit v 2 }) s else s
@[inherit_doc writeClk] def writePpsCfg (v : Nat) (s : State) : State :=
  let s1 := if unlocked s then modTim (fun t => { t with ppsDelay := BitVec.ofNat 16 v, ppsFalling := bit v 16 }) s else s
  modTim (fun t => { t with ppsWindow := BitVec.ofNat 8 (bits v 24 8) }) s1

/-- TIM_PPSOUT_CFG is written (R62): WIDTH_MS outside 1-500 stays, and PPS_OUT is held low while ENABLE is 0. -/
def writePpsOut (v : Nat) (s : State) : State :=
  let w := bits v 1 9
  let s1 := modTim (fun t => { t with
    ppsOutEnable := bit v 0, ppsOutOffset := BitVec.ofNat 16 (bits v 16 16)
    ppsOutWidth := if decide (1 ≤ w) && decide (w ≤ 500) then BitVec.ofNat 9 w else t.ppsOutWidth }) s
  if bit v 0 then s1 else ppsOutLow (nowTick s1) s1

/-- HST_ATT_CTL is written (R374): the context number, then ATTACH and DETACH. -/
def writeAttach (f v : Nat) (s : State) : State :=
  let s1 := modFn f (fun r => { r with ctlContext := BitVec.ofNat 10 (bits v 16 10) }) s
  let s2 := if bit v 0 then attach f s1 else s1
  if bit v 1 then detach f s2 else s2

/-- HST_FN_QUOTA of a function is written (R372): a value above the function's limit leaves it. -/
def writeQuota (g v : Nat) (s : State) : State :=
  let n := bits v 0 11
  if n ≤ (if fnNumber g = 0 then 1024 else 16) then modFn g (fun r => { r with quota := BitVec.ofNat 11 n }) s else s

/-- UCS_INJECT is written (R365): in MAINTENANCE, and from context 0's function. -/
def writeInject (f v : Nat) (s : State) : State :=
  if decide (effMode s = 12) && (getCtx 0 s).any fun c => decide (c.fn = f) then
    modSpu (fun x => { x with
      injAddr := BitVec.ofNat 14 v, injPatch := bit v 14, injArm := bit v 20
      injUnit := if bits v 15 5 ≤ 16 then BitVec.ofNat 5 (bits v 15 5) else x.injUnit }) s
  else s

/-- DRC_NBR_CFG and PWR_CFG are written: a value out of range leaves its field (R469, R529). -/
def writeNbr (v : Nat) (s : State) : State :=
  let p := bits v 0 5
  modDram (fun d => { d with nbrEn := bit v 5, log2p := if decide (8 ≤ p) && decide (p ≤ 16) then BitVec.ofNat 5 p else d.log2p }) s
@[inherit_doc writeNbr] def writePwrCfg (v : Nat) (s : State) : State :=
  let p := bits v 0 12
  if decide (1 ≤ p) && decide (p ≤ 3600) then modPwr (fun x => { x with calPeriod := BitVec.ofNat 12 p }) s else s

/-- The low or high 32 bits of a 64-bit image are replaced. -/
def setHalf (hi : Bool) (v : Nat) (x : BitVec 64) : BitVec 64 := BitVec.ofNat 64 (setBits x.toNat (if hi then 32 else 0) 32 v)

/-- A 32-bit write reaches a word of BAR0 that belongs to no field across bits 31 and 32. -/
def write0 (f o v : Nat) (s : State) : State :=
  match o with
  | 0x60 => modFn f (fun r => { r with cfg := setHalf false v r.cfg }) s
  | 0x64 => modFn f (fun r => { r with cfg := setHalf true v r.cfg }) s
  | 0x68 => modFn f (fun r => { r with irq := setHalf false v r.irq }) s
  | 0x6C => modFn f (fun r => { r with irq := setHalf true v r.irq }) s
  | 0x70 => modFn f (fun r => { r with mod := setHalf false v r.mod }) s
  | 0x74 => modFn f (fun r => { r with mod := setHalf true v r.mod }) s
  | 0x78 => writeAttach f v s
  | 0x88 => hedgeRequest f (bits v 0 3) (bits v 8 4) s
  | 0x400 => writeClk v s
  | 0x420 => writePpsCfg v s
  | 0x430 => writePpsOut v s
  | 0xA00 => modCsu (Csu.write v (nextIndex s)) s
  | 0xE00 => modAmc (Amc.write v) s
  | 0xE10 => modAmc (Amc.clear v) s
  | 0x1240 => writeViewCtl v s
  | 0x5020 => writeInject f v s
  | 0x7408 => modDram (fun d => { d with keep := BitVec.ofNat 8 v }) s
  | 0x7410 => writeNbr v s
  | 0x8C00 => writeScanCtl v s
  | 0x9008 => writePwrCfg v s
  | _ =>
    match block 0x200 4 128 o, block 0xE40 4 64 o, block 0x8000 0x80 2 o, block 0x8200 0x40 32 o with
    | some (g, _), _, _, _ => writeQuota g v s
    | none, some (k, _), _, _ => modAmc (Amc.writeSeq k v) s
    | none, none, some (p, rel), _ =>
      if rel = 8 then modPort p (fun x => { x with l0sIdle := BitVec.ofNat 8 v, l1Idle := BitVec.ofNat 16 (bits v 8 16) }) s else s
    | none, none, none, some (l, rel) => if rel = 0x10 then writePrbsCfg l v s else s
    | none, none, none, none => s

/-- A writable field that spans bits 31 and 32 of the 64-bit register at an offset (R370): its value, and whether it takes writes. -/
def wideReg (f o : Nat) (s : State) : Option (BitVec 64 × Bool) :=
  let r := (getFn f s).getD (FnRegs.reset f)
  match o with
  | 0x40 => some (r.cmdBase, true)
  | 0x48 => some (r.cplBase, true)
  | 0x50 => some (r.evtBase, true)
  | 0x58 => some (r.hbBase, true)
  | _ => match block 0x8200 0x40 32 o with
    | some (l, 0x18) => some ((getLane l s).pat, testLane l s)
    | _ => none

/-- Such a field takes a value. -/
def setWide (f o : Nat) (v : BitVec 64) (s : State) : State :=
  match o with
  | 0x40 => modFn f (fun r => { r with cmdBase := v }) s
  | 0x48 => modFn f (fun r => { r with cplBase := v }) s
  | 0x50 => modFn f (fun r => { r with evtBase := v }) s
  | 0x58 => modFn f (fun r => { r with hbBase := v }) s
  | _ => match block 0x8200 0x40 32 o with
    | some (l, _) => modLane l (fun x => { x with pat := v }) s
    | none => s

/-- Forget a staged half. -/
def dropStaged (f o : Nat) (s : State) : State :=
  modHost (fun h => { h with staged := h.staged.filter fun y => !(decide (y.fn = f) && decide (y.bar = 0) && decide (y.off = o)) }) s

/-- A write reaches a spanning field by its low half, its high half or both (R370): a low half waits for the high one. -/
def writeWide (f o : Nat) (lo hi : Option Nat) (s : State) : State :=
  match wideReg f o s with
  | none => s
  | some (_, false) => s
  | some (cur, true) =>
    match lo, hi with
    | some l, some h => dropStaged f o (setWide f o (BitVec.ofNat 64 (l + 2 ^ 32 * h)) s)
    | some l, none => modHost (fun x => { x with staged := keepHalf ⟨f, 0, o, l⟩ x.staged }) s
    | none, some h =>
      let l := ((s.host.staged.find? fun y => decide (y.fn = f) && decide (y.bar = 0) && decide (y.off = o)).map (·.val)).getD (bits cur.toNat 0 32)
      dropStaged f o (setWide f o (BitVec.ofNat 64 (l + 2 ^ 32 * h)) s)
    | none, none => s

/-- A vector is masked or unmasked; unmasking sends the message that its PBA bit holds (R391). -/
def setMask (f v : Nat) (masked : Bool) (s : State) : State :=
  match getFn f s with
  | none => s
  | some r =>
    if fnVectors f ≤ v then s
    else if masked then modFn f (fun r => { r with unmasked := r.unmasked.filter fun x => decide (x ≠ v) }) s
    else
      let s1 := modFn f (fun r => { r with unmasked := insertVec v r.unmasked, pba := r.pba.filter fun x => decide (x ≠ v) }) s
      if r.pba.contains v then emit (.msix f v) s1 else s1

/-- A 32-bit write reaches a word of BAR2 (R367, R389, R391): a doorbell, or the MSI-X table. -/
def write2 (f o v : Nat) (s : State) : State :=
  if o < 4096 * doorPages f then
    let page := o / 4096
    match o % 4096 with
    | 0 => dbCmd f page v s
    | 4 => dbCpl f page v s
    | 8 => dbEvt f page v s
    | rel => match block 0x10 4 8 rel with
      | some (k, _) => dbData f page (k + 1) v s
      | none => s
  else match block (msixTable f) 4 (4 * fnVectors f) o with
    | some (w, _) =>
      if w % 4 = 3 then setMask f (w / 4) (bit v 0) s
      else modFn f (fun r => { r with msix := (r.msix.filter fun x => decide (x.1 ≠ w)) ++ (if v = 0 then [] else [(w, v)]) }) s
    | none => s

/-- The part of a write that falls in one 8-byte unit: its low word, its high word or both. -/
def writeUnit (f bar o : Nat) (lo hi : Option Nat) (s : State) : State :=
  if decide (bar = 0) && (wideReg f o s).isSome then writeWide f o lo hi s
  else
    let put := fun (o : Nat) (x : Option Nat) (s : State) => match x with
      | none => s
      | some v => if bar = 0 then write0 f o v s else write2 f o v s
    put (o + 4) hi (put o lo s)

/-- A VF may write only its own block of BAR0 (R369). -/
def vfForbidden (f bar off : Nat) : Bool :=
  decide (bar = 0) && decide (fnNumber f ≠ 0) && !(decide (0x18 ≤ off) && decide (off < 0x90))

/-- A write by a function. -/
def writeAccess (f bar off width v : Nat) (s : State) : State :=
  if accessBad off width || vfForbidden f bar off then violation f s
  else if decide (bar = 0) && decide (fnNumber f ≠ 0) && decide (0x2000 ≤ off) then s
  else if width = 4 then
    if off % 8 = 0 then writeUnit f bar off (some (bits v 0 32)) none s else writeUnit f bar (off - 4) none (some (bits v 0 32)) s
  else
    (List.range (width / 8)).foldl (fun s k =>
      writeUnit f bar (off + 8 * k) (some (bits v (64 * k) 32)) (some (bits v (64 * k + 32) 32)) s) s

/-! ### BAR4 (R371, R451, R452) -/

/-- The context that owns the window an address lies in. -/
def windowOwner (a : Nat) (s : State) : Option Nat :=
  (s.dram.allocs.find? fun x => decide (x.base ≤ a) && decide (a < x.base + x.bytes)).bind fun x =>
    match x.kind with
    | .display o => some (getOut o s).owner
    | .render n => (getSurf n s).map fun f => planCtx f.plan s
    | _ => none

/-- Free bytes. -/
def freshBytes : Nat → State → List Byte × State
  | 0, s => ([], s)
  | n + 1, s =>
    let d := freshValue 8 s
    let r := freshBytes n d.2
    (d.1 :: r.1, r.2)

/-- A host or peer reads BAR4. What the Staging window holds is not described, and reads as free bytes. -/
def bar4Read (port a n : Nat) (s : State) : State :=
  if !inWindow a n s then emit (.bar4Data port none false) s
  else if stagingBase ≤ a then
    let r := freshBytes n s
    emit (.bar4Data port (some r.1) false) r.2
  else
    let bad := !(s.dram.poisonIn a n).isEmpty
    let r := dramRead 1 (windowOwner a s) a n s
    emit (.bar4Data port (some r.1) bad) r.2

/-- A host or peer writes BAR4, poisoned or not. -/
def bar4Write (port a : Nat) (data : List Byte) (poisoned : Bool) (s : State) : State :=
  if !inWindow a data.length s then violation (64 * port) s
  else if stagingBase ≤ a then s
  else dramWrite a data poisoned s

/-! ### The commands -/

/-- REGISTER_WRITE. -/
def execRegisterWrite (fn : BitVec 7) (bar : BitVec 2) (off : BitVec 23) (width : BitVec 5) (v : BitVec 128) (s : State) : Host.Outcome State Fault Refusal :=
  .next (settle (writeAccess fn.toNat bar.toNat off.toNat width.toNat v.toNat s))

/-- RC_READ. -/
def execRcRead (fn : BitVec 7) (bar : BitVec 2) (off : BitVec 23) (width : BitVec 5) (s : State) : Host.Outcome State Fault Refusal :=
  .next (settle (readAccess fn.toNat bar.toNat off.toNat width.toNat s))

/-- SPLIT_READ_LOW. -/
def execSplitReadLow (fn : BitVec 7) (off : BitVec 23) (s : State) : Host.Outcome State Fault Refusal :=
  .next (settle (readAccess fn.toNat 0 (off.toNat / 16 * 16) 8 s))

/-- SPLIT_WRITE_LOW. -/
def execSplitWriteLow (fn : BitVec 7) (off : BitVec 23) (v : BitVec 32) (s : State) : Host.Outcome State Fault Refusal :=
  .next (settle (writeAccess fn.toNat 0 (off.toNat / 8 * 8) 4 v.toNat s))

/-- BAR_ACCESS_INVALID. -/
def execBarAccessInvalid (fn : BitVec 7) (bar : BitVec 2) (off : BitVec 23) (width : BitVec 5) (write : Bool) (s : State) : Host.Outcome State Fault Refusal :=
  .next (if accessBad off.toNat width.toNat || (write && vfForbidden fn.toNat bar.toNat off.toNat) then
      (if write then violation fn.toNat s else emit (.readData fn.toNat width.toNat 0) (violation fn.toNat s))
    else s)

/-- BAR4_ACCESS: a read of `n` bytes, or a write of `data`. -/
def execBar4Access (port : BitVec 1) (a : BitVec 36) (n : BitVec 13) (data : Option (List Byte)) (poisoned : Bool) (s : State) :
    Host.Outcome State Fault Refusal :=
  .next (settle (match data with
    | none => bar4Read port.toNat a.toNat n.toNat s
    | some d => bar4Write port.toNat a.toNat d poisoned s))

/-- MSIX_UNMASK. -/
def execMsixUnmask (fn : BitVec 7) (vec : BitVec 11) (s : State) : Host.Outcome State Fault Refusal := .next (setMask fn.toNat vec.toNat false s)

/-- ATTACH. -/
def execAttach (fn : BitVec 7) (v : BitVec 32) (s : State) : Host.Outcome State Fault Refusal :=
  .next (settle (writeAccess fn.toNat 0 0x78 4 (v ||| 1).toNat s))

/-- DETACH. -/
def execDetach (fn : BitVec 7) (v : BitVec 32) (s : State) : Host.Outcome State Fault Refusal :=
  .next (settle (writeAccess fn.toNat 0 0x78 4 (v ||| 2).toNat s))

/-- CSU_RESTART. -/
def execCsuRestart (fn : BitVec 7) (v : BitVec 32) (s : State) : Host.Outcome State Fault Refusal :=
  .next (writeAccess fn.toNat 0 0xA00 4 (v ||| 0x100).toNat s)

/-- CSU_CFG_WRITE. -/
def execCsuCfgWrite (fn : BitVec 7) (v : BitVec 32) (s : State) : Host.Outcome State Fault Refusal :=
  .next (writeAccess fn.toNat 0 0xA00 4 v.toNat s)

/-- AMC_CLR. -/
def execAmcClr (fn : BitVec 7) (v : BitVec 32) (s : State) : Host.Outcome State Fault Refusal := .next (writeAccess fn.toNat 0 0xE10 4 v.toNat s)

/-- AMC_CFG_WRITE. -/
def execAmcCfgWrite (fn : BitVec 7) (v : BitVec 32) (s : State) : Host.Outcome State Fault Refusal := .next (writeAccess fn.toNat 0 0xE00 4 v.toNat s)

/-- UCS_INJECT. -/
def execUcsInject (fn : BitVec 7) (v : BitVec 32) (s : State) : Host.Outcome State Fault Refusal :=
  .next (writeAccess fn.toNat 0 0x5020 4 (v ||| 0x100000).toNat s)

/-- ES_START. -/
def execEsStart (fn : BitVec 7) (v : BitVec 32) (s : State) : Host.Outcome State Fault Refusal :=
  .next (writeAccess fn.toNat 0 0x8C00 4 (v ||| 0x2000000).toNat s)

/-- ES_ABORT. -/
def execEsAbort (fn : BitVec 7) (v : BitVec 32) (s : State) : Host.Outcome State Fault Refusal :=
  .next (writeAccess fn.toNat 0 0x8C00 4 (v ||| 0x4000000).toNat s)

/-- INJ_GO. -/
def execInjGo (fn : BitVec 7) (lane : BitVec 5) (v : BitVec 32) (s : State) : Host.Outcome State Fault Refusal :=
  .next (writeAccess fn.toNat 0 (0x8210 + 0x40 * lane.toNat) 4 (v ||| 0x80000).toNat s)

/-- PRBS_CLEAR. -/
def execPrbsClear (fn : BitVec 7) (lane : BitVec 5) (v : BitVec 32) (s : State) : Host.Outcome State Fault Refusal :=
  .next (writeAccess fn.toNat 0 (0x8210 + 0x40 * lane.toNat) 4 (v ||| 0x100000).toNat s)

end Sys2Proof.Machine
end

