-- ==== Sys2Proof/Machine/Dispatch.lean ====
section
/-!
DEFINITION. What each command does: one call of its meaning per constructor.
-/

namespace Sys2Proof.Machine

def exec (i : Instr) (s : State) : Host.Outcome State Fault Refusal :=
  match i with
  | .noop d => Sys2Proof.Machine.execNoop d s
  | .badOpcode d opcode => Sys2Proof.Machine.execBadOpcode d opcode s
  | .fence d => Sys2Proof.Machine.execFence d s
  | .timeWait d => Sys2Proof.Machine.execTimeWait d s
  | .timeWaitRelease => Sys2Proof.Machine.execTimeWaitRelease s
  | .modeSet d => Sys2Proof.Machine.execModeSet d s
  | .modeChangeDrain => Sys2Proof.Machine.execModeChangeDrain s
  | .modeChangeFlush => Sys2Proof.Machine.execModeChangeFlush s
  | .modeChangeRepartition => Sys2Proof.Machine.execModeChangeRepartition s
  | .modeChangeRecheck => Sys2Proof.Machine.execModeChangeRecheck s
  | .modeChanged => Sys2Proof.Machine.execModeChanged s
  | .contextCreate d => Sys2Proof.Machine.execContextCreate d s
  | .contextDestroy d => Sys2Proof.Machine.execContextDestroy d s
  | .contextTeardownComplete ctx => Sys2Proof.Machine.execContextTeardownComplete ctx s
  | .ringCreate d => Sys2Proof.Machine.execRingCreate d s
  | .ringDestroy d => Sys2Proof.Machine.execRingDestroy d s
  | .planCreate d r => Sys2Proof.Machine.execPlanCreate d r s
  | .planStart d r => Sys2Proof.Machine.execPlanStart d r s
  | .planFirstWord plan => Sys2Proof.Machine.execPlanFirstWord plan s
  | .planStop d => Sys2Proof.Machine.execPlanStop d s
  | .planStopComplete plan => Sys2Proof.Machine.execPlanStopComplete plan s
  | .planDestroy d => Sys2Proof.Machine.execPlanDestroy d s
  | .windowLoadTable d r => Sys2Proof.Machine.execWindowLoadTable d r s
  | .windowLoadDrop d => Sys2Proof.Machine.execWindowLoadDrop d s
  | .windowLoadReconfigure d => Sys2Proof.Machine.execWindowLoadReconfigure d s
  | .transformSwitch plan stream => Sys2Proof.Machine.execTransformSwitch plan stream s
  | .maskLoad d r => Sys2Proof.Machine.execMaskLoad d r s
  | .maskDrop d => Sys2Proof.Machine.execMaskDrop d s
  | .triggerArm d => Sys2Proof.Machine.execTriggerArm d s
  | .triggerDisarm d => Sys2Proof.Machine.execTriggerDisarm d s
  | .captureReadSegments d => Sys2Proof.Machine.execCaptureReadSegments d s
  | .captureReadWords d => Sys2Proof.Machine.execCaptureReadWords d s
  | .captureRelease d => Sys2Proof.Machine.execCaptureRelease d s
  | .spuLoad d r => Sys2Proof.Machine.execSpuLoad d r s
  | .spuLaunch d r => Sys2Proof.Machine.execSpuLaunch d r s
  | .spuSignal d => Sys2Proof.Machine.execSpuSignal d s
  | .spuStop d => Sys2Proof.Machine.execSpuStop d s
  | .spuStopTakesEffect n => Sys2Proof.Machine.execSpuStopTakesEffect n s
  | .streamOpenRing d => Sys2Proof.Machine.execStreamOpenRing d s
  | .streamOpenDisk d => Sys2Proof.Machine.execStreamOpenDisk d s
  | .streamClose d => Sys2Proof.Machine.execStreamClose d s
  | .diskBind d r => Sys2Proof.Machine.execDiskBind d r s
  | .diskUnbind d => Sys2Proof.Machine.execDiskUnbind d s
  | .diskActivate slot qids maxKb reserved => Sys2Proof.Machine.execDiskActivate slot qids maxKb reserved s
  | .displayOutput d r => Sys2Proof.Machine.execDisplayOutput d r s
  | .displayLayer d => Sys2Proof.Machine.execDisplayLayer d s
  | .displayLutLoad d r => Sys2Proof.Machine.execDisplayLutLoad d r s
  | .panelCmd d r => Sys2Proof.Machine.execPanelCmd d r s
  | .layerOff d => Sys2Proof.Machine.execLayerOff d s
  | .outputOff d => Sys2Proof.Machine.execOutputOff d s
  | .displayFlip d => Sys2Proof.Machine.execDisplayFlip d s
  | .tdcEnable d => Sys2Proof.Machine.execTdcEnable d s
  | .tdcRelease d => Sys2Proof.Machine.execTdcRelease d s
  | .tdcGateInterval d r => Sys2Proof.Machine.execTdcGateInterval d r s
  | .tdcGateFrequency d r => Sys2Proof.Machine.execTdcGateFrequency d r s
  | .calSetMode d => Sys2Proof.Machine.execCalSetMode d s
  | .calManualLoad d r => Sys2Proof.Machine.execCalManualLoad d r s
  | .calFence d => Sys2Proof.Machine.execCalFence d s
  | .calRampLength d => Sys2Proof.Machine.execCalRampLength d s
  | .runForeground d => Sys2Proof.Machine.execRunForeground d s
  | .tableReset d => Sys2Proof.Machine.execTableReset d s
  | .setTimeNextPps d => Sys2Proof.Machine.execSetTimeNextPps d s
  | .setTimeImmediate d => Sys2Proof.Machine.execSetTimeImmediate d s
  | .setTimePpsTimeout => Sys2Proof.Machine.execSetTimePpsTimeout s
  | .powerHintCap d => Sys2Proof.Machine.execPowerHintCap d s
  | .powerHintNextEvent d => Sys2Proof.Machine.execPowerHintNextEvent d s
  | .powerHintUncap d => Sys2Proof.Machine.execPowerHintUncap d s
  | .flightRead d => Sys2Proof.Machine.execFlightRead d s
  | .replayLoadHost d r => Sys2Proof.Machine.execReplayLoadHost d r s
  | .replayLoadFlight d => Sys2Proof.Machine.execReplayLoadFlight d s
  | .replayUnload d => Sys2Proof.Machine.execReplayUnload d s
  | .attestBind d => Sys2Proof.Machine.execAttestBind d s
  | .selftest d => Sys2Proof.Machine.execSelftest d s
  | .clearRetirement d => Sys2Proof.Machine.execClearRetirement d s
  | .laneTestEnter d => Sys2Proof.Machine.execLaneTestEnter d s
  | .laneTestExit d => Sys2Proof.Machine.execLaneTestExit d s
  | .dramTest d => Sys2Proof.Machine.execDramTest d s
  | .hstDbCmd fn page v => Sys2Proof.Machine.execHstDbCmd fn page v s
  | .hstDbCpl fn page v => Sys2Proof.Machine.execHstDbCpl fn page v s
  | .hstDbEvt fn page v => Sys2Proof.Machine.execHstDbEvt fn page v s
  | .hstDbData fn page r v => Sys2Proof.Machine.execHstDbData fn page r v s
  | .attach fn v => Sys2Proof.Machine.execAttach fn v s
  | .detach fn v => Sys2Proof.Machine.execDetach fn v s
  | .atten fn arg => Sys2Proof.Machine.execAtten fn arg s
  | .faultClear fn arg => Sys2Proof.Machine.execFaultClear fn arg s
  | .mpReset fn arg => Sys2Proof.Machine.execMpReset fn arg s
  | .hedgeReqWarmRestart fn arg => Sys2Proof.Machine.execHedgeReqWarmRestart fn arg s
  | .csuRestart fn v => Sys2Proof.Machine.execCsuRestart fn v s
  | .csuCfgWrite fn v => Sys2Proof.Machine.execCsuCfgWrite fn v s
  | .amcClr fn v => Sys2Proof.Machine.execAmcClr fn v s
  | .amcCfgWrite fn v => Sys2Proof.Machine.execAmcCfgWrite fn v s
  | .ucsInject fn v => Sys2Proof.Machine.execUcsInject fn v s
  | .esStart fn v => Sys2Proof.Machine.execEsStart fn v s
  | .esAbort fn v => Sys2Proof.Machine.execEsAbort fn v s
  | .injGo fn lane v => Sys2Proof.Machine.execInjGo fn lane v s
  | .prbsClear fn lane v => Sys2Proof.Machine.execPrbsClear fn lane v s
  | .rcRead fn bar off width => Sys2Proof.Machine.execRcRead fn bar off width s
  | .splitReadLow fn off => Sys2Proof.Machine.execSplitReadLow fn off s
  | .splitWriteLow fn off v => Sys2Proof.Machine.execSplitWriteLow fn off v s
  | .registerWrite fn bar off width v => Sys2Proof.Machine.execRegisterWrite fn bar off width v s
  | .barAccessInvalid fn bar off width write => Sys2Proof.Machine.execBarAccessInvalid fn bar off width write s
  | .bar4Access port a n data poisoned => Sys2Proof.Machine.execBar4Access port a n data poisoned s
  | .msixUnmask fn vec => Sys2Proof.Machine.execMsixUnmask fn vec s
  | .ppsInEdge tick sub rising taken => Sys2Proof.Machine.execPpsInEdge tick sub rising taken s
  | .ppsLost => Sys2Proof.Machine.execPpsLost s
  | .ppsOutRise => Sys2Proof.Machine.execPpsOutRise s
  | .ppsOutFall => Sys2Proof.Machine.execPpsOutFall s
  | .timeAnchor meas => Sys2Proof.Machine.execTimeAnchor meas s
  | .tdcWrap => Sys2Proof.Machine.execTdcWrap s
  | .tdcEdge ch tick sub rising taken => Sys2Proof.Machine.execTdcEdge ch tick sub rising taken s
  | .tdcStampsClose ch taken => Sys2Proof.Machine.execTdcStampsClose ch taken s
  | .tdcCalibration ch tick rawOne rawTwo temp => Sys2Proof.Machine.execTdcCalibration ch tick rawOne rawTwo temp s
  | .gateEdge gate level tick => Sys2Proof.Machine.execGateEdge gate level tick s
  | .gateOpen gate => Sys2Proof.Machine.execGateOpen gate s
  | .gateClose gate => Sys2Proof.Machine.execGateClose gate s
  | .gateMaxDuration gate => Sys2Proof.Machine.execGateMaxDuration gate s
  | .refclkLost => Sys2Proof.Machine.execRefclkLost s
  | .refclkRestored ok => Sys2Proof.Machine.execRefclkRestored ok s
  | .sclkLost => Sys2Proof.Machine.execSclkLost s
  | .sclkRestored offset => Sys2Proof.Machine.execSclkRestored offset s
  | .spllRelock offset => Sys2Proof.Machine.execSpllRelock offset s
  | .heartbeatWrite => Sys2Proof.Machine.execHeartbeatWrite s
  | .sampleWord pair vals eor fifoFull absorbFull => Sys2Proof.Machine.execSampleWord pair vals eor fifoFull absorbFull s
  | .csuWindowEnd => Sys2Proof.Machine.execCsuWindowEnd s
  | .amcSlotComplete sum => Sys2Proof.Machine.execAmcSlotComplete sum s
  | .amcUrgentRequest hedge channel trim => Sys2Proof.Machine.execAmcUrgentRequest hedge channel trim s
  | .skimBlock pair temp rms => Sys2Proof.Machine.execSkimBlock pair temp rms s
  | .skimSolve pair cand offered => Sys2Proof.Machine.execSkimSolve pair cand offered s
  | .skimFenceEnd pair => Sys2Proof.Machine.execSkimFenceEnd pair s
  | .skimFenceExpired pair => Sys2Proof.Machine.execSkimFenceExpired pair s
  | .foregroundEnd pair sets trims => Sys2Proof.Machine.execForegroundEnd pair sets trims s
  | .zoomHop sub u => Sys2Proof.Machine.execZoomHop sub u s
  | .zoomRetune sub u => Sys2Proof.Machine.execZoomRetune sub u s
  | .zoomWord slot => Sys2Proof.Machine.execZoomWord slot s
  | .spectrumFormed plan stream => Sys2Proof.Machine.execSpectrumFormed plan stream s
  | .intDrainEnd plan => Sys2Proof.Machine.execIntDrainEnd plan s
  | .triggerEventRelease u => Sys2Proof.Machine.execTriggerEventRelease u s
  | .autoForce u => Sys2Proof.Machine.execAutoForce u s
  | .captureSegmentClose plan slot => Sys2Proof.Machine.execCaptureSegmentClose plan slot s
  | .captureRearm plan slot => Sys2Proof.Machine.execCaptureRearm plan slot s
  | .missedTriggerDelivery u => Sys2Proof.Machine.execMissedTriggerDelivery u s
  | .trigoutRise => Sys2Proof.Machine.execTrigoutRise s
  | .trigoutFall => Sys2Proof.Machine.execTrigoutFall s
  | .latchPoint o => Sys2Proof.Machine.execLatchPoint o s
  | .teEdge o tick lowNs pulseNs => Sys2Proof.Machine.execTeEdge o tick lowNs pulseNs s
  | .displayTeTimeout o => Sys2Proof.Machine.execDisplayTeTimeout o s
  | .selfTimedTransfer o => Sys2Proof.Machine.execSelfTimedTransfer o s
  | .bufferReleased o => Sys2Proof.Machine.execBufferReleased o s
  | .panelTimeout o => Sys2Proof.Machine.execPanelTimeout o s
  | .interruptModTimer ctx ring => Sys2Proof.Machine.execInterruptModTimer ctx ring s
  | .descriptorFetchError ctx => Sys2Proof.Machine.execDescriptorFetchError ctx s
  | .functionLevelReset fn => Sys2Proof.Machine.execFunctionLevelReset fn s
  | .busMasterEnableClear fn => Sys2Proof.Machine.execBusMasterEnableClear fn s
  | .vfEnableClear port => Sys2Proof.Machine.execVfEnableClear port s
  | .linkDown port => Sys2Proof.Machine.execLinkDown port s
  | .hotReset port => Sys2Proof.Machine.execHotReset port s
  | .perst port asserted => Sys2Proof.Machine.execPerst port asserted s
  | .pcieRefclkLoss port => Sys2Proof.Machine.execPcieRefclkLoss port s
  | .linkTraining port rate width recoveries lanes => Sys2Proof.Machine.execLinkTraining port rate width recoveries lanes s
  | .l0sEntry port => Sys2Proof.Machine.execL0sEntry port s
  | .l1Entry port sub => Sys2Proof.Machine.execL1Entry port sub s
  | .marginingCommand lane start => Sys2Proof.Machine.execMarginingCommand lane start s
  | .eyeScanDone errors => Sys2Proof.Machine.execEyeScanDone errors s
  | .eyeScanTimeout compared errors => Sys2Proof.Machine.execEyeScanTimeout compared errors s
  | .ideIntegrityFail port stream => Sys2Proof.Machine.execIdeIntegrityFail port stream s
  | .getVersion port => Sys2Proof.Machine.execGetVersion port s
  | .getCapabilities port => Sys2Proof.Machine.execGetCapabilities port s
  | .negotiateAlgorithms port offered => Sys2Proof.Machine.execNegotiateAlgorithms port offered s
  | .getDigests port => Sys2Proof.Machine.execGetDigests port s
  | .getCertificate port slot off len => Sys2Proof.Machine.execGetCertificate port slot off len s
  | .challenge port slot request => Sys2Proof.Machine.execChallenge port slot request s
  | .getMeasurements port op signed request => Sys2Proof.Machine.execGetMeasurements port op signed request s
  | .keyExchange port session request => Sys2Proof.Machine.execKeyExchange port session request s
  | .finish port session valid => Sys2Proof.Machine.execFinish port session valid s
  | .heartbeat port session => Sys2Proof.Machine.execHeartbeat port session s
  | .keyUpdate port session op => Sys2Proof.Machine.execKeyUpdate port session op s
  | .endSession port session => Sys2Proof.Machine.execEndSession port session s
  | .ideKm port session stream op => Sys2Proof.Machine.execIdeKm port session stream op s
  | .debugUnlockToken port devId nonce sig => Sys2Proof.Machine.execDebugUnlockToken port devId nonce sig s
  | .interruptTaken n => Sys2Proof.Machine.execInterruptTaken n s
  | .longChunkEnd n => Sys2Proof.Machine.execLongChunkEnd n s
  | .spuDmaComplete n q => Sys2Proof.Machine.execSpuDmaComplete n q s
  | .tapItem n => Sys2Proof.Machine.execTapItem n s
  | .spuTimer n => Sys2Proof.Machine.execSpuTimer n s
  | .emitReadout n => Sys2Proof.Machine.execEmitReadout n s
  | .machineCheck n f => Sys2Proof.Machine.execMachineCheck n f s
  | .patchReloadDone n ns ok => Sys2Proof.Machine.execPatchReloadDone n ns ok s
  | .spareTakeover n ns => Sys2Proof.Machine.execSpareTakeover n ns s
  | .patchScrub found => Sys2Proof.Machine.execPatchScrub found s
  | .romScan unit fails => Sys2Proof.Machine.execRomScan unit fails s
  | .nop n w => Sys2Proof.Machine.execNop n w s
  | .halt n w => Sys2Proof.Machine.execHalt n w s
  | .reti n w => Sys2Proof.Machine.execReti n w s
  | .waiti n w => Sys2Proof.Machine.execWaiti n w s
  | .rep n w => Sys2Proof.Machine.execRep n w s
  | .repa n w => Sys2Proof.Machine.execRepa n w s
  | .loopr n w => Sys2Proof.Machine.execLoopr n w s
  | .br n w => Sys2Proof.Machine.execBr n w s
  | .bc n w => Sys2Proof.Machine.execBc n w s
  | .bp n w => Sys2Proof.Machine.execBp n w s
  | .call n w => Sys2Proof.Machine.execCall n w s
  | .jr n w => Sys2Proof.Machine.execJr n w s
  | .vld n w => Sys2Proof.Machine.execVld n w s
  | .vst n w => Sys2Proof.Machine.execVst n w s
  | .ldw n w => Sys2Proof.Machine.execLdw n w s
  | .stw n w => Sys2Proof.Machine.execStw n w s
  | .aupd n w => Sys2Proof.Machine.execAupd n w s
  | .amovi n w => Sys2Proof.Machine.execAmovi n w s
  | .aaddi n w => Sys2Proof.Machine.execAaddi n w s
  | .aadd n w => Sys2Proof.Machine.execAadd n w s
  | .asub n w => Sys2Proof.Machine.execAsub n w s
  | .aand n w => Sys2Proof.Machine.execAand n w s
  | .aor n w => Sys2Proof.Machine.execAor n w s
  | .axor n w => Sys2Proof.Machine.execAxor n w s
  | .ashl n w => Sys2Proof.Machine.execAshl n w s
  | .ashr n w => Sys2Proof.Machine.execAshr n w s
  | .asra n w => Sys2Proof.Machine.execAsra n w s
  | .amul n w => Sys2Proof.Machine.execAmul n w s
  | .mtm n w => Sys2Proof.Machine.execMtm n w s
  | .mfm n w => Sys2Proof.Machine.execMfm n w s
  | .pset n w => Sys2Proof.Machine.execPset n w s
  | .pand n w => Sys2Proof.Machine.execPand n w s
  | .por n w => Sys2Proof.Machine.execPor n w s
  | .pxor n w => Sys2Proof.Machine.execPxor n w s
  | .pnot n w => Sys2Proof.Machine.execPnot n w s
  | .pfroma n w => Sys2Proof.Machine.execPfroma n w s
  | .ptoa n w => Sys2Proof.Machine.execPtoa n w s
  | .vadd n w => Sys2Proof.Machine.execVadd n w s
  | .vsub n w => Sys2Proof.Machine.execVsub n w s
  | .vneg n w => Sys2Proof.Machine.execVneg n w s
  | .vabs n w => Sys2Proof.Machine.execVabs n w s
  | .vmin n w => Sys2Proof.Machine.execVmin n w s
  | .vmax n w => Sys2Proof.Machine.execVmax n w s
  | .vand n w => Sys2Proof.Machine.execVand n w s
  | .vor n w => Sys2Proof.Machine.execVor n w s
  | .vxor n w => Sys2Proof.Machine.execVxor n w s
  | .vnot n w => Sys2Proof.Machine.execVnot n w s
  | .vshl n w => Sys2Proof.Machine.execVshl n w s
  | .vshr n w => Sys2Proof.Machine.execVshr n w s
  | .vasr n w => Sys2Proof.Machine.execVasr n w s
  | .vlsr n w => Sys2Proof.Machine.execVlsr n w s
  | .vcmp n w => Sys2Proof.Machine.execVcmp n w s
  | .vmov n w => Sys2Proof.Machine.execVmov n w s
  | .vsplat n w => Sys2Proof.Machine.execVsplat n w s
  | .vext n w => Sys2Proof.Machine.execVext n w s
  | .vins n w => Sys2Proof.Machine.execVins n w s
  | .vperm n w => Sys2Proof.Machine.execVperm n w s
  | .vconj n w => Sys2Proof.Machine.execVconj n w s
  | .vnarrow n w => Sys2Proof.Machine.execVnarrow n w s
  | .vwiden n w => Sys2Proof.Machine.execVwiden n w s
  | .vcvt n w => Sys2Proof.Machine.execVcvt n w s
  | .vmul n w => Sys2Proof.Machine.execVmul n w s
  | .vmulq n w => Sys2Proof.Machine.execVmulq n w s
  | .vcmulq n w => Sys2Proof.Machine.execVcmulq n w s
  | .vfma n w => Sys2Proof.Machine.execVfma n w s
  | .vmac n w => Sys2Proof.Machine.execVmac n w s
  | .vmsu n w => Sys2Proof.Machine.execVmsu n w s
  | .vmpy n w => Sys2Proof.Machine.execVmpy n w s
  | .vcmacj n w => Sys2Proof.Machine.execVcmacj n w s
  | .accx n w => Sys2Proof.Machine.execAccx n w s
  | .acclr n w => Sys2Proof.Machine.execAcclr n w s
  | .mfc n w => Sys2Proof.Machine.execMfc n w s
  | .mtc n w => Sys2Proof.Machine.execMtc n w s
  | .mfs n w => Sys2Proof.Machine.execMfs n w s
  | .mts n w => Sys2Proof.Machine.execMts n w s
  | .mfb n w => Sys2Proof.Machine.execMfb n w s
  | .mtb n w => Sys2Proof.Machine.execMtb n w s
  | .dmaq n w => Sys2Proof.Machine.execDmaq n w s
  | .trigp n w => Sys2Proof.Machine.execTrigp n w s
  | .tune n w => Sys2Proof.Machine.execTune n w s
  | .emit n w => Sys2Proof.Machine.execEmit n w s
  | .vpeaks n w => Sys2Proof.Machine.execVpeaks n w s
  | .vmaxidx n w => Sys2Proof.Machine.execVmaxidx n w s
  | .vminidx n w => Sys2Proof.Machine.execVminidx n w s
  | .vsortk n w => Sys2Proof.Machine.execVsortk n w s
  | .vlog2 n w => Sys2Proof.Machine.execVlog2 n w s
  | .crc32c n w => Sys2Proof.Machine.execCrc32c n w s
  | .vsk n w => Sys2Proof.Machine.execVsk n w s
  | .histo n w => Sys2Proof.Machine.execHisto n w s
  | .rcopy n w => Sys2Proof.Machine.execRcopy n w s
  | .rfill n w => Sys2Proof.Machine.execRfill n w s
  | .extentTimeout slot => Sys2Proof.Machine.execExtentTimeout slot s
  | .nvmeCompletion slot cid status dnr => Sys2Proof.Machine.execNvmeCompletion slot cid status dnr s
  | .nvmeTimeout slot => Sys2Proof.Machine.execNvmeTimeout slot s
  | .refreshDue ch rank writer mr4 => Sys2Proof.Machine.execRefreshDue ch rank writer mr4 s
  | .refreshIdlePullin ch count => Sys2Proof.Machine.execRefreshIdlePullin ch count s
  | .mr4Poll => Sys2Proof.Machine.execMr4Poll s
  | .mr4Result ch rank mr4 => Sys2Proof.Machine.execMr4Result ch rank mr4 s
  | .patrolScrub codeword found => Sys2Proof.Machine.execPatrolScrub codeword found s
  | .wckTracking ch atRefresh errors drift fails => Sys2Proof.Machine.execWckTracking ch atRefresh errors drift fails s
  | .commandParityError ch again => Sys2Proof.Machine.execCommandParityError ch again s
  | .neighbourRefresh ch rank bank draw => Sys2Proof.Machine.execNeighbourRefresh ch rank bank draw s
  | .rfTrip input tripped => Sys2Proof.Machine.execRfTrip input tripped s
  | .rfHoldExpiry input => Sys2Proof.Machine.execRfHoldExpiry input s
  | .thermalThrottle sensor temp => Sys2Proof.Machine.execThermalThrottle sensor temp s
  | .throttleClear sensor temp => Sys2Proof.Machine.execThrottleClear sensor temp s
  | .thermalTrip sensor temp => Sys2Proof.Machine.execThermalTrip sensor temp s
  | .supplyFault rail reading => Sys2Proof.Machine.execSupplyFault rail reading s
  | .supplyRecovered => Sys2Proof.Machine.execSupplyRecovered s
  | .watchdogMiss => Sys2Proof.Machine.execWatchdogMiss s
  | .powerStateEntryDone => Sys2Proof.Machine.execPowerStateEntryDone s
  | .powerStateExitStart => Sys2Proof.Machine.execPowerStateExitStart s
  | .powerStateExitDone => Sys2Proof.Machine.execPowerStateExitDone s
  | .dutyWindowEnd plan => Sys2Proof.Machine.execDutyWindowEnd plan s
  | .dutyWindowStart plan => Sys2Proof.Machine.execDutyWindowStart plan s
  | .thermalStep => Sys2Proof.Machine.execThermalStep s
  | .thermalStepUndo => Sys2Proof.Machine.execThermalStepUndo s
  | .availabilitySave => Sys2Proof.Machine.execAvailabilitySave s
  | .ageingMeasure shifts hours => Sys2Proof.Machine.execAgeingMeasure shifts hours s
  | .coldStart released rails => Sys2Proof.Machine.execColdStart released rails s
  | .resetNRelease rails => Sys2Proof.Machine.execResetNRelease rails s
  | .resetNAssert => Sys2Proof.Machine.execResetNAssert s
  | .primerStageEnd w => Sys2Proof.Machine.execPrimerStageEnd w s
  | .warmRestart => Sys2Proof.Machine.execWarmRestart s
  | .alwaysOnRailLoss => Sys2Proof.Machine.execAlwaysOnRailLoss s
  | .spuIslandReset => Sys2Proof.Machine.execSpuIslandReset s
  | .displayIslandReset => Sys2Proof.Machine.execDisplayIslandReset s
  | .hostIslandReset => Sys2Proof.Machine.execHostIslandReset s
  | .replayWord => Sys2Proof.Machine.execReplayWord s
  | .replayEnd => Sys2Proof.Machine.execReplayEnd s
  | .configurationRequest port => Sys2Proof.Machine.execConfigurationRequest port s
  | .panelReadResponse o data => Sys2Proof.Machine.execPanelReadResponse o data s
  | .electricalIdleExit lane => Sys2Proof.Machine.execElectricalIdleExit lane s
  | .rxL0sEntry port => Sys2Proof.Machine.execRxL0sEntry port s
  | .prbsCheckerLock lane => Sys2Proof.Machine.execPrbsCheckerLock lane s
  | .prbsCheckerLockLost lane errors => Sys2Proof.Machine.execPrbsCheckerLockLost lane errors s
  | .pcieRefclkRestored port => Sys2Proof.Machine.execPcieRefclkRestored port s
  | .mainRailsInWindow => Sys2Proof.Machine.execMainRailsInWindow s
  | .refOkChange ok => Sys2Proof.Machine.execRefOkChange ok s
  | .mpRestartComplete => Sys2Proof.Machine.execMpRestartComplete s
  | .jtagInstruction j => Sys2Proof.Machine.execJtagInstruction j s

end Sys2Proof.Machine
end

