-- ==== Sys2Proof/Safety.lean ====
section
/-!
DEFINITION. What counts as a safe run, in the terms that the statements use: the fields that have a range keep to it, capture memory
keeps its canonical form, and the block always answers with a next state.
-/

namespace Sys2Proof.Machine

/-- Every register field that a value out of range leaves as it was holds a value in its range: WIDTH_MS (R62), WINDOW_LOG2 (R109), TRIM_SEL
(R117), the eye scan's offsets and dwell (R481), the neighbour refresh draw (R469), CAL_PERIOD_S (R529) and the injected unit (R365); and
capture memory is in its canonical form. -/
def State.Legal (s : State) : Prop :=
  Memory.wf s.dram.mem = true
  ∧ (1 ≤ s.tim.ppsOutWidth.toNat ∧ s.tim.ppsOutWidth.toNat ≤ 500)
  ∧ (10 ≤ s.adc.csu.windowLog2 ∧ s.adc.csu.windowLog2 ≤ 40)
  ∧ s.adc.amc.trimSel.toNat < 16
  ∧ (-32 ≤ s.link.scan.toff.toInt ∧ s.link.scan.toff.toInt ≤ 32)
  ∧ (-60 ≤ s.link.scan.voff.toInt ∧ s.link.scan.voff.toInt ≤ 60)
  ∧ (20 ≤ s.link.scan.dwell.toNat ∧ s.link.scan.dwell.toNat ≤ 40)
  ∧ (8 ≤ s.dram.log2p.toNat ∧ s.dram.log2p.toNat ≤ 16)
  ∧ (1 ≤ s.pwr.calPeriod.toNat ∧ s.pwr.calPeriod.toNat ≤ 3600)
  ∧ s.spu.injUnit.toNat ≤ 16

/-- The block goes on: a step answers a next state. -/
def State.goesOn (s : State) : Prop := ∃ t, step s = .next t

end Sys2Proof.Machine
end

