-- ==== Sys2Proof/Certificates/Slice0/Obligations.lean ====
section
/-!
DEFINITION. The statements for the provers, from the numbered rules of the spec. Each completion statement says, command by command, in
which state the command leaves the block; `settle` is what follows every command (descriptors are fetched, begin and complete, and
what they wait for moves on).
-/

namespace Sys2Proof.Machine

/-- The answer of a command whose own effect leaves the block in a state. -/
def answers (t : State) : Host.Outcome State Fault Refusal := .next (settle t)

end Sys2Proof.Machine

open Sys2Proof Sys2Proof.Machine

/-! ### SPU instructions -/

namespace Sys2Proof.Machine

/-- The word's row in the tables of R320-R344, read from the spec: unit, word, opcode and what R317 asks of the word. -/
def spuRow : Instr → Option (BitVec 4 × BitVec 56 × Nat × Form)
  | .nop n w => some (n, w, 0x00, formG 0 0 0 0) | .halt n w => some (n, w, 0x01, formG 0 0 0 0xFFFF)
  | .reti n w => some (n, w, 0x02, formG 0 0 0 0) | .waiti n w => some (n, w, 0x03, formG 0 0 0 0)
  | .rep n w => some (n, w, 0x04, formG 0 0 0xF00000000 0xFFFFFFFF) | .repa n w => some (n, w, 0x05, formG 0 16 0xF00000000 0)
  | .loopr n w => some (n, w, 0x06, formG 0 0 0xF00000000 0xFFFFFFFF) | .br n w => some (n, w, 0x08, formG 0 0 0 0x3FFF8)
  | .bc n w => some (n, w, 0x09, formG 0 16 0x700000000 0x3FFF8) | .bp n w => some (n, w, 0x0A, formG 0 8 0x100000000 0x3FFF8)
  | .call n w => some (n, w, 0x0B, formG 0 0 0 0x3FFF8) | .jr n w => some (n, w, 0x0C, formF 0 16 0 0 0)
  | .vld n w => some (n, w, 0x10, { formG 32 16 0x3C00000000 0xFFFFFFFF with types := allTypes, pred := true })
  | .vst n w => some (n, w, 0x11, { formG 32 16 0x3C00000000 0xFFFFFFFF with types := allTypes, pred := true })
  | .ldw n w => some (n, w, 0x12, formG 16 16 0x3C00000000 0xFFFFFFFF) | .stw n w => some (n, w, 0x13, formG 16 16 0x3C00000000 0xFFFFFFFF)
  | .aupd n w => some (n, w, 0x14, formG 0 16 0x3C00000000 0xFFFFFFFF)
  | .mfc n w => some (n, w, 0x18, formF 16 0 0 0 0x3F0000) | .mtc n w => some (n, w, 0x19, formF 0 16 0 0 0x3F0000)
  | .mfs n w => some (n, w, 0x1A, formF 16 0 0 0 0x1F0000) | .mts n w => some (n, w, 0x1B, formF 0 16 0 0 0x1F0000)
  | .mfb n w => some (n, w, 0x1C, formF 32 32 0 0 0xE000000) | .mtb n w => some (n, w, 0x1D, formF 32 32 0 0 0xE000000)
  | .amovi n w => some (n, w, 0x20, formG 16 0 0 0xFFFFFFFF)
  | .aaddi n w => some (n, w, 0x21, { formG 16 16 0 0xFFFFFFFF with sat := true })
  | .aadd n w => some (n, w, 0x22, { formF 16 16 16 0 0 with sat := true }) | .asub n w => some (n, w, 0x23, { formF 16 16 16 0 0 with sat := true })
  | .aand n w => some (n, w, 0x24, formF 16 16 16 0 0) | .aor n w => some (n, w, 0x25, formF 16 16 16 0 0)
  | .axor n w => some (n, w, 0x26, formF 16 16 16 0 0)
  | .ashl n w => some (n, w, 0x27, { formG 16 16 0x1F00000000 0 with sat := true }) | .ashr n w => some (n, w, 0x28, formG 16 16 0x1F00000000 0)
  | .asra n w => some (n, w, 0x29, formG 16 16 0x1F00000000 0) | .amul n w => some (n, w, 0x2A, { formF 16 16 16 0 0 with sat := true })
  | .mtm n w => some (n, w, 0x2B, formF 8 16 0 0 0) | .mfm n w => some (n, w, 0x2C, formF 16 8 0 0 0)
  | .pset n w => some (n, w, 0x30, formG 8 0 0 0xFFFF) | .pand n w => some (n, w, 0x31, formF 8 8 8 0 0) | .por n w => some (n, w, 0x32, formF 8 8 8 0 0)
  | .pxor n w => some (n, w, 0x33, formF 8 8 8 0 0) | .pnot n w => some (n, w, 0x34, formF 8 8 0 0 0)
  | .pfroma n w => some (n, w, 0x35, formF 8 16 0 0 0) | .ptoa n w => some (n, w, 0x36, formF 16 8 0 0 0)
  | .vadd n w => some (n, w, 0x40, formV 32 32 32 0 0 allTypes true) | .vsub n w => some (n, w, 0x41, formV 32 32 32 0 0 allTypes true)
  | .vneg n w => some (n, w, 0x42, formV 32 32 0 0 0 allTypes true) | .vabs n w => some (n, w, 0x43, formV 32 32 0 0 0 [0, 1, 2, 5] true)
  | .vmin n w => some (n, w, 0x44, formV 32 32 32 0 0 [0, 1, 2, 5] false) | .vmax n w => some (n, w, 0x45, formV 32 32 32 0 0 [0, 1, 2, 5] false)
  | .vand n w => some (n, w, 0x46, formV 32 32 32 0 0 allTypes false) | .vor n w => some (n, w, 0x47, formV 32 32 32 0 0 allTypes false)
  | .vxor n w => some (n, w, 0x48, formV 32 32 32 0 0 allTypes false) | .vnot n w => some (n, w, 0x49, formV 32 32 0 0 0 allTypes false)
  | .vshl n w => some (n, w, 0x4A, formV 32 32 0 0 0x1F0000 [0, 1, 2, 3, 4] true) | .vshr n w => some (n, w, 0x4B, formV 32 32 0 0 0x1F0000 [0, 1, 2, 3, 4] false)
  | .vasr n w => some (n, w, 0x4C, formV 32 32 0 0 0x1F0000 [0, 1, 2, 3, 4] false) | .vlsr n w => some (n, w, 0x4D, formV 32 32 0 0 0x1F0000 [0, 1, 2, 3, 4] false)
  | .vcmp n w => some (n, w, 0x4E, formV 8 32 32 0 0x70000 [0, 1, 2, 5] false) | .vmov n w => some (n, w, 0x4F, formV 32 32 0 0 0 allTypes false)
  | .vsplat n w => some (n, w, 0x50, formV 32 16 (if wT w = 4 then 16 else 0) 0 0 allTypes false)
  | .vext n w => some (n, w, 0x51, { formF 16 32 0 0 0xF0000 with types := [0, 1, 2] })
  | .vins n w => some (n, w, 0x52, { formF 32 16 0 0 0xF0000 with types := [0, 1, 2] })
  | .vperm n w => some (n, w, 0x53, { formF 32 32 32 0 0 with pred := true }) | .vconj n w => some (n, w, 0x54, formV 32 32 0 0 0 [3, 4] true)
  | .vnarrow n w => some (n, w, 0x55, formV 32 32 32 0 0x1F0000 [1, 3] true) | .vwiden n w => some (n, w, 0x56, formV 32 32 0 0 0x10000 [2, 4] false)
  | .vcvt n w => some (n, w, 0x57, formV 32 32 0 0 0xC1F0000 [5] true)
  | .vmul n w => some (n, w, 0x60, formV 32 32 32 0 0 [0, 1, 2, 5] true) | .vmulq n w => some (n, w, 0x61, formV 32 32 32 0 0 [0, 1, 2] true)
  | .vcmulq n w => some (n, w, 0x62, formV 32 32 32 0 0x10000 [3, 4] true) | .vfma n w => some (n, w, 0x63, formV 32 32 32 32 0 [5] false)
  | .vmac n w => some (n, w, 0x68, formV 4 32 32 0 0 [0, 1, 2, 3, 4] true) | .vmsu n w => some (n, w, 0x69, formV 4 32 32 0 0 [0, 1, 2, 3, 4] true)
  | .vmpy n w => some (n, w, 0x6A, formV 4 32 32 0 0 [0, 1, 2, 3, 4] true) | .vcmacj n w => some (n, w, 0x6B, formV 4 32 32 0 0 [3, 4] true)
  | .accx n w => some (n, w, 0x6C, formV 32 4 0 0 0x3F0000 [1, 2, 3, 4] true) | .acclr n w => some (n, w, 0x6D, { formF 4 0 0 0 0 with pred := true })
  | .dmaq n w => some (n, w, 0x70, formF 16 16 0 0 0x30000) | .trigp n w => some (n, w, 0x71, formF 0 32 0 0 0x70000)
  | .tune n w => some (n, w, 0x72, formF 0 32 0 0 0x3F0000) | .emit n w => some (n, w, 0x73, formF 16 16 16 32 0x70000)
  | .vpeaks n w => some (n, w, 0x80, { formF 16 16 16 16 0xFCF0000 with types := [1, 5] })
  | .vmaxidx n w => some (n, w, 0x81, { formF 32 16 16 0 0 with types := [1, 2, 5] }) | .vminidx n w => some (n, w, 0x82, { formF 32 16 16 0 0 with types := [1, 2, 5] })
  | .vsortk n w => some (n, w, 0x83, { formF 0 16 16 16 0 with types := [2, 5] }) | .vlog2 n w => some (n, w, 0x84, { formF 16 16 16 0 0 with types := [1, 5] })
  | .crc32c n w => some (n, w, 0x85, formF 16 16 16 0 0) | .vsk n w => some (n, w, 0x86, formF 16 16 16 16 0xFCF0000)
  | .histo n w => some (n, w, 0x87, { formF 16 16 16 16 0xFCF0000 with types := [1, 2], sat := true })
  | .rcopy n w => some (n, w, 0x88, formF 16 16 16 0 0) | .rfill n w => some (n, w, 0x89, formF 16 32 16 0 0)
  | _ => none

/-- An SPU instruction may issue (R296, R315-R317, R346): its unit's instance runs and does not wait, the word obeys its row, and the
opcode may stand in the body that runs. -/
def Issues (i : Instr) (s : State) : Prop :=
  ∃ r, spuRow i = some r ∧ (getLsu r.1.toNat s).mayIssue = true ∧ (getLsu r.1.toNat s).waiting = false
    ∧ r.2.2.2.ok r.2.1 = true ∧ (getLsu r.1.toNat s).inBody r.2.2.1 = true

/-- The unit is as `l` says, and nothing else of the block has changed. -/
def unitIs (n : BitVec 4) (l : Lsu) (s : State) : Host.Outcome State Fault Refusal := answers (modLsu n.toNat (fun _ => l) s)

/-- The unit has issued an instruction whose results are in flight. -/
def inFlight (n : BitVec 4) (rs : Lsu → List Retire) (s : State) : Host.Outcome State Fault Refusal :=
  unitIs n ((getLsu n.toNat s).done (rs (getLsu n.toNat s))) s

/-- A value brought to 32 bits by `fit` of R319: clamped with the saturation bit, wrapped without. -/
def fit32 (w : BitVec 56) (x : Int) : BitVec 32 :=
  if wSat w then BitVec.ofInt 32 (clampInt (-2147483648) 2147483647 x) else BitVec.ofInt 32 x

/-- SR.SAT of `fit`: set by a clamp. -/
def sat32 (w : BitVec 56) (x : Int) : BitVec 32 := if wSat w = true ∧ (x < -2147483648 ∨ 2147483647 < x) then 2 else 0

/-- Results of a scalar instruction with saturation: aD, and SR's flag. -/
def fitted (w : BitVec 56) (lat : Nat) (x : Int) (l : Lsu) : List Retire := [l.out lat (.a (wD w) (fit32 w x)), l.out lat (.sr (sat32 w x))]

/-- Opcodes of the body of `len` instructions after the unit's instruction. -/
def Lsu.follows (len : Nat) (l : Lsu) : List Nat := (List.range len).map fun k => (l.byte ((l.pc + 8) % 2 ^ 18 + 8 * k + 7)).toNat

/-- A REP body that R293 allows: at most 4,096 issue cycles, no branch, no long instruction, no other loop. -/
def Lsu.repOk (count len : Nat) (l : Lsu) : Prop :=
  count * len ≤ 4096 ∧ ∀ o ∈ l.follows len, isBranch o = false ∧ isLong o = false ∧ isLoop o = false

/-- The unit after a REP of R293: the body begins with the next instruction, and LC counts it. -/
def Lsu.inRep (count len : Nat) (l : Lsu) : Lsu :=
  { l.done [] with rep := some ⟨(l.pc + 8) % 2 ^ 18, len, count⟩, pc := (l.pc + 8) % 2 ^ 18 }.setLc count

/-- The unit after a REP of count 0 outside a LOOPR loop: the instruction after the body is next (R321). -/
def Lsu.pastRep (len : Nat) (l : Lsu) : Lsu := { { l.done [] with pc := ((l.pc + 8) % 2 ^ 18 + 8 * (len - 1)) % 2 ^ 18 }.setLc 0 with
  pc := (((l.pc + 8) % 2 ^ 18 + 8 * (len - 1)) % 2 ^ 18 + 8) % 2 ^ 18 }

/-- Results per component of a lane-wise instruction: values and SR flags in the lanes that the predicate enables (R285, R317). -/
def lanes (n : BitVec 4) (w : BitVec 56) (lat : Nat) (f : Lsu → Nat → Int × Nat) (s : State) : Host.Outcome State Fault Refusal :=
  inFlight n (fun l => l.vecOut (wT w) w lat (f l)) s

/-- `fit` of R319 to the lane's width, and SR.SAT's flag. -/
def fitC (w : BitVec 56) (t : Nat) (x : Int) : Int × Nat :=
  let lo : Int := -(2 ^ (compW t - 1) : Nat)
  let hi : Int := (2 ^ (compW t - 1) : Nat) - 1
  if wSat w then (clampInt lo hi x, if x < lo ∨ hi < x then 2 else 0) else (sext (compW t) (wrapInt (compW t) x), 0)

/-- `rnd_shift` of R319 with the unit's CTL.RND. -/
def shiftC (l : Lsu) (k : Nat) (x : Int) : Int := rnd l.up k x

end Sys2Proof.Machine

/-- The scalar and predicate instructions (R292, R319, R325): the register they write takes the value of their row; with saturation, aD takes
`fit` of the exact result, and a clamp sets SR.SAT. -/
def Obligations.ScalarAndPredicateResults : Prop :=
  ∀ (n : BitVec 4) (w : BitVec 56) (s : State),
    (Issues (.aaddi n w) s → Machine.exec (.aaddi n w) s =
      inFlight n (fun l => fitted w 1 ((l.ar (wA w)).toInt + (BitVec.ofNat 32 (wImm w)).toInt) l) s)
    ∧ (Issues (.aadd n w) s → Machine.exec (.aadd n w) s = inFlight n (fun l => fitted w 1 ((l.ar (wA w)).toInt + (l.ar (wB w)).toInt) l) s)
    ∧ (Issues (.asub n w) s → Machine.exec (.asub n w) s = inFlight n (fun l => fitted w 1 ((l.ar (wA w)).toInt - (l.ar (wB w)).toInt) l) s)
    ∧ (Issues (.ashl n w) s → Machine.exec (.ashl n w) s = inFlight n (fun l => fitted w 1 ((l.ar (wA w)).toInt * 2 ^ bits w.toNat 32 5) l) s)
    ∧ (Issues (.amul n w) s → Machine.exec (.amul n w) s = inFlight n (fun l => fitted w 3 ((l.ar (wA w)).toInt * (l.ar (wB w)).toInt) l) s)
    ∧ (Issues (.amovi n w) s → Machine.exec (.amovi n w) s = inFlight n (fun l => [l.out 1 (.a (wD w) (BitVec.ofNat 32 (bits w.toNat 0 32)))]) s)
    ∧ (Issues (.aand n w) s → Machine.exec (.aand n w) s = inFlight n (fun l => [l.out 1 (.a (wD w) (l.ar (wA w) &&& l.ar (wB w)))]) s)
    ∧ (Issues (.aor n w) s → Machine.exec (.aor n w) s = inFlight n (fun l => [l.out 1 (.a (wD w) (l.ar (wA w) ||| l.ar (wB w)))]) s)
    ∧ (Issues (.axor n w) s → Machine.exec (.axor n w) s = inFlight n (fun l => [l.out 1 (.a (wD w) (l.ar (wA w) ^^^ l.ar (wB w)))]) s)
    ∧ (Issues (.ashr n w) s → Machine.exec (.ashr n w) s = inFlight n (fun l => [l.out 1 (.a (wD w) (l.ar (wA w) >>> bits w.toNat 32 5))]) s)
    ∧ (Issues (.asra n w) s → Machine.exec (.asra n w) s =
      inFlight n (fun l => [l.out 1 (.a (wD w) (BitVec.ofInt 32 ((l.ar (wA w)).toInt / 2 ^ bits w.toNat 32 5)))]) s)
    ∧ (Issues (.mtm n w) s → Machine.exec (.mtm n w) s = inFlight n (fun l => [l.out 1 (.m (wD w) (l.ar (wA w)))]) s)
    ∧ (Issues (.mfm n w) s → Machine.exec (.mfm n w) s = inFlight n (fun l => [l.out 1 (.a (wD w) (nth l.cur.m (wA w) 0))]) s)
    ∧ (Issues (.pset n w) s → Machine.exec (.pset n w) s = inFlight n (fun l => [l.out 1 (.p (wD w) 0xFFFF (BitVec.ofNat 16 (bits w.toNat 0 16)))]) s)
    ∧ (Issues (.pand n w) s → Machine.exec (.pand n w) s = inFlight n (fun l => [l.out 1 (.p (wD w) 0xFFFF (l.pr (wA w) &&& l.pr (wB w)))]) s)
    ∧ (Issues (.por n w) s → Machine.exec (.por n w) s = inFlight n (fun l => [l.out 1 (.p (wD w) 0xFFFF (l.pr (wA w) ||| l.pr (wB w)))]) s)
    ∧ (Issues (.pxor n w) s → Machine.exec (.pxor n w) s = inFlight n (fun l => [l.out 1 (.p (wD w) 0xFFFF (l.pr (wA w) ^^^ l.pr (wB w)))]) s)
    ∧ (Issues (.pnot n w) s → Machine.exec (.pnot n w) s = inFlight n (fun l => [l.out 1 (.p (wD w) 0xFFFF (~~~(l.pr (wA w))))]) s)
    ∧ (Issues (.pfroma n w) s → Machine.exec (.pfroma n w) s =
      inFlight n (fun l => [l.out 1 (.p (wD w) 0xFFFF (BitVec.ofNat 16 (l.ar (wA w)).toNat))]) s)
    ∧ (Issues (.ptoa n w) s → Machine.exec (.ptoa n w) s = inFlight n (fun l => [l.out 1 (.a (wD w) (BitVec.ofNat 32 (l.pr (wA w)).toNat))]) s)

/-- The control instructions (R287, R293, R294, R320, R321): where the unit goes, and when its next instruction issues. -/
def Obligations.ControlInstructions : Prop :=
  ∀ (n : BitVec 4) (w : BitVec 56) (s : State), let l := getLsu n.toNat s
    (Issues (.nop n w) s → Machine.exec (.nop n w) s = unitIs n (l.done []) s)
    ∧ (Issues (.halt n w) s → Machine.exec (.halt n w) s =
      answers (haltTakes n.toNat (modLsu n.toNat (fun _ => { l.done [] with halting := some (wImm w) }) s)))
    ∧ (Issues (.reti n w) s → l.inB1 = true → Machine.exec (.reti n w) s =
      unitIs n { l.goTo (l.b1.epc.toNat / 8 * 8) 1 [] with inB1 := false, afterReti := true, rep := none, loopB1 := none } s)
    ∧ (Issues (.waiti n w) s → l.inB1 = false → Machine.exec (.waiti n w) s =
      unitIs n { l.done [] with waiting := decide (bits l.b0.ctl.toNat 8 6 ≠ 0) } s)
    ∧ (Issues (.rep n w) s → l.repOk (wImm w) (bits w.toNat 32 4 + 1) →
      (0 < wImm w → Machine.exec (.rep n w) s = unitIs n (l.inRep (wImm w) (bits w.toNat 32 4 + 1)) s)
      ∧ (wImm w = 0 → l.curLoop = none → Machine.exec (.rep n w) s = unitIs n (l.pastRep (bits w.toNat 32 4 + 1)) s))
    ∧ (Issues (.repa n w) s → l.repOk (l.ar (wA w)).toNat (bits w.toNat 32 4 + 1) →
      (0 < (l.ar (wA w)).toNat → Machine.exec (.repa n w) s = unitIs n (l.inRep (l.ar (wA w)).toNat (bits w.toNat 32 4 + 1)) s)
      ∧ ((l.ar (wA w)).toNat = 0 → l.curLoop = none → Machine.exec (.repa n w) s = unitIs n (l.pastRep (bits w.toNat 32 4 + 1)) s))
    ∧ (Issues (.loopr n w) s → effMode s = 12 → wImm w ≤ 2 ^ 24 → (∀ o ∈ l.follows (bits w.toNat 32 4 + 1), isBranch o = false ∧ isLong o = false) →
      (0 < wImm w → Machine.exec (.loopr n w) s = unitIs n ({ l.done [] with pc := (l.pc + 8) % 2 ^ 18 }.setLoop
        (some ⟨(l.pc + 8) % 2 ^ 18, bits w.toNat 32 4 + 1, wImm w⟩)) s)
      ∧ (wImm w = 0 → Machine.exec (.loopr n w) s =
        unitIs n { l.done [] with pc := ((l.pc + 8) % 2 ^ 18 + 8 * (bits w.toNat 32 4 + 1)) % 2 ^ 18 } s))
    ∧ (Issues (.br n w) s → Machine.exec (.br n w) s = unitIs n (l.goTo (wImm w) 3 []) s)
    ∧ (Issues (.bc n w) s → bits w.toNat 32 3 < 6 → Machine.exec (.bc n w) s =
      unitIs n (if (let x := (l.ar (wA w)).toInt
        nth [decide (x = 0), decide (x ≠ 0), decide (x < 0), decide (0 ≤ x), decide (0 < x), decide (x ≤ 0)] (bits w.toNat 32 3) false)
        then l.goTo (wImm w) 3 [] else l.done []) s)
    ∧ (Issues (.bp n w) s → Machine.exec (.bp n w) s =
      unitIs n (if (bit w.toNat 32 = true ↔ l.pr (wA w) = 0) then l.goTo (wImm w) 3 [] else l.done []) s)
    ∧ (Issues (.call n w) s → Machine.exec (.call n w) s =
      unitIs n (l.goTo (wImm w) 3 [l.out 1 (.a 15 (BitVec.ofNat 32 ((l.pc + 8) % 2 ^ 18)))]) s)
    ∧ (Issues (.jr n w) s → (l.ar (wA w)).toNat % 8 = 0 → Machine.exec (.jr n w) s = unitIs n (l.goTo (l.ar (wA w)).toNat 3 []) s)

/-- Loads, stores and address updates (R291, R292, R323, R324): the access takes the address before the update, a vector access its
aligned line, a 32-bit access its aligned word, and a store leaves the bytes of disabled lanes. -/
def Obligations.MemoryInstructions : Prop :=
  ∀ (n : BitVec 4) (w : BitVec 56) (s : State), let l := getLsu n.toNat s
    let a := l.ar (wA w)
    ∀ b, addrUpdate a (BitVec.ofNat 32 (wImm w)).toInt (if bit w.toNat 34 then nth l.cur.m (bits w.toNat 35 3) 0 else 0) = some b →
      let upd := l.out 1 (.a (wA w) b)
      (Issues (.vld n w) s → Machine.exec (.vld n w) s = unitIs n (l.done [upd,
        l.out 4 (.v (l.vNum (wD w)) (l.mask (wT w) w) (BitVec.ofNat 128 (leNat (l.bytes (a.toNat / 16 * 16) 16))))]) s)
      ∧ (Issues (.vst n w) s → Machine.exec (.vst n w) s = unitIs n ((l.done [upd]).poke (a.toNat / 16 * 16)
        (leBytes 16 (mergeBytes (l.mask (wT w) w) (BitVec.ofNat 128 (leNat (l.bytes (a.toNat / 16 * 16) 16))) (l.vr (wD w))).toNat)) s)
      ∧ (Issues (.ldw n w) s → Machine.exec (.ldw n w) s = unitIs n (l.done [upd,
        l.out 4 (.a (wD w) (BitVec.ofNat 32 (leNat (l.bytes (a.toNat / 4 * 4) 4))))]) s)
      ∧ (Issues (.stw n w) s → Machine.exec (.stw n w) s =
        unitIs n ((l.done [upd]).poke (a.toNat / 4 * 4) (leBytes 4 (l.ar (wD w)).toNat)) s)
      ∧ (Issues (.aupd n w) s → Machine.exec (.aupd n w) s = unitIs n (l.done [upd]) s)

/-- Moves to and from control, special and other bank's registers (R288, R289, R312, R331-R333). -/
def Obligations.RegisterMoves : Prop :=
  ∀ (n : BitVec 4) (w : BitVec 56) (s : State), let l := getLsu n.toNat s
    let c := bits w.toNat 16 6
    let k := bits w.toNat 16 5
    let cls := bits w.toNat 25 3
    (Issues (.mfc n w) s → c < 6 → Machine.exec (.mfc n w) s = unitIs n (l.done [l.out 1 (.a (wD w)
      (nth [l.cur.readSr l.inB1 (decide (effMode s = 12)), l.cur.ctl, l.cur.lc.setWidth 32, BitVec.ofNat 32 l.cur.prg.toNat,
        BitVec.ofNat 32 (l.cur.prg.toNat / 2 ^ 32), if l.inB1 then l.b1.epc else 0] c 0))]) s)
    ∧ (Issues (.mtc n w) s → c < 6 → Machine.exec (.mtc n w) s = unitIs n (l.done [l.out 1 (.ctl c (l.ar (wA w)))]) s)
    ∧ (Issues (.mfs n w) s → k < 5 ∨ 8 ≤ k → Machine.exec (.mfs n w) s =
      unitIs n ((if k = 1 then { l with sigq := l.sigq.tail }
        else if k = 28 then { l with cycleHi := BitVec.ofNat 32 (l.cycle.toNat / 2 ^ 32) } else l).done [l.out 1 (.a (wD w) (l.readSpecial k))]) s)
    ∧ (Issues (.mts n w) s → k < 5 ∨ 8 ≤ k → Machine.exec (.mts n w) s =
      unitIs n ((l.done []).writeSpecial k (l.ar (wA w))).reachTimer s)
    ∧ (Issues (.mfb n w) s → l.inB1 = true → b0Ok cls (wA w) = true → b1Ok cls (wD w) = true → Machine.exec (.mfb n w) s =
      unitIs n (l.done [l.out 1 (l.crossRead (decide (effMode s = 12)) cls (wA w) (wD w))]) s)
    ∧ (Issues (.mtb n w) s → l.inB1 = true → b0Ok cls (wD w) = true → b1Ok cls (wA w) = true → Machine.exec (.mtb n w) s =
      unitIs n (l.done [⟨l.clk + 1, false, l.crossWrite cls (wD w) (wA w)⟩]) s)

/-- The lane-wise integer instructions and their binary32 forms (R319, R326-R328): the value and the flags of each component;
the shifts by a count below the lane's width, of which VSHR alone rounds. -/
def Obligations.VectorArithmetic : Prop :=
  ∀ (n : BitVec 4) (w : BitVec 56) (s : State), let t := wT w
    let k := bits w.toNat 16 5
    let f := fun (x : Nat) => FV.decode f32 x
    let lat := if t = 5 then 3 else 1
    (Issues (.vadd n w) s → Machine.exec (.vadd n w) s = lanes n w lat (fun l i =>
      if t = 5 then f32Lane (addF f32 (f (l.aN w i)) (f (l.bN w i))) (l.aN w i) (l.bN w i) 0 else fitC w t (l.aI w i + l.bI w i)) s)
    ∧ (Issues (.vsub n w) s → Machine.exec (.vsub n w) s = lanes n w lat (fun l i =>
      if t = 5 then f32Lane (addF f32 (f (l.aN w i)) (f (l.bN w i)).neg) (l.aN w i) (l.bN w i) 0 else fitC w t (l.aI w i - l.bI w i)) s)
    ∧ (Issues (.vneg n w) s → Machine.exec (.vneg n w) s = lanes n w lat (fun l i =>
      if t = 5 then (((l.aN w i) ^^^ 0x80000000 : Nat), 0) else fitC w t (-(l.aI w i))) s)
    ∧ (Issues (.vabs n w) s → Machine.exec (.vabs n w) s = lanes n w lat (fun l i =>
      if t = 5 then ((l.aN w i % 2 ^ 31 : Nat), 0) else fitC w t (l.aI w i).natAbs) s)
    ∧ (Issues (.vmin n w) s → Machine.exec (.vmin n w) s = lanes n w lat (fun l i =>
      if t = 5 then minMaxF false (l.aN w i) (l.bN w i) else (min (l.aI w i) (l.bI w i), 0)) s)
    ∧ (Issues (.vmax n w) s → Machine.exec (.vmax n w) s = lanes n w lat (fun l i =>
      if t = 5 then minMaxF true (l.aN w i) (l.bN w i) else (max (l.aI w i) (l.bI w i), 0)) s)
    ∧ (Issues (.vconj n w) s → Machine.exec (.vconj n w) s = lanes n w 1 (fun l i =>
      if i % 2 = 1 then fitC w t (-(l.aI w i)) else (l.aI w i, 0)) s)
    ∧ (Issues (.vnarrow n w) s → Machine.exec (.vnarrow n w) s = lanes n w 1 (fun l i =>
      fitC w 1 (shiftC l k (if i < 4 then comp 32 i (l.vr (wA w)) else comp 32 (i - 4) (l.vr (wB w))))) s)
    ∧ (Issues (.vwiden n w) s → Machine.exec (.vwiden n w) s = lanes n w 1 (fun l i => (comp 16 (i + 4 * bits w.toNat 16 1) (l.vr (wA w)), 0)) s)
    ∧ (Issues (.vcvt n w) s → bits w.toNat 26 2 < 2 → Machine.exec (.vcvt n w) s = lanes n w 3 (fun l i =>
      if bits w.toNat 26 2 = 0 then cvtToF (l.aI w i) k else cvtToI l.up (wSat w) (l.aN w i) k) s)
    ∧ (k < compW t →
      (Issues (.vshl n w) s → Machine.exec (.vshl n w) s = lanes n w 1 (fun l i => fitC w t (l.aI w i * 2 ^ k)) s)
      ∧ (Issues (.vshr n w) s → Machine.exec (.vshr n w) s = lanes n w 1 (fun l i => (shiftC l k (l.aI w i), 0)) s)
      ∧ (Issues (.vasr n w) s → Machine.exec (.vasr n w) s = lanes n w 1 (fun l i => (l.aI w i / 2 ^ k, 0)) s)
      ∧ (Issues (.vlsr n w) s → Machine.exec (.vlsr n w) s = lanes n w 1 (fun l i => ((l.aN w i / 2 ^ k : Nat), 0)) s))

/-- The vector instructions that move and compare bits (R326, R327): TYPE sets the predicate's width; VCMP gives a lane all its
predicate bits 1 or all 0, and a signalling NaN sets FINV. -/
def Obligations.VectorBitsAndMoves : Prop :=
  ∀ (n : BitVec 4) (w : BitVec 56) (s : State), let t := wT w
    let cw := compW t
    let k := bits w.toNat 16 4
    let put := fun (g : Lsu → BitVec 128) => inFlight n (fun l => [l.out 1 (.v (l.vNum (wD w)) (l.mask t w) (g l))]) s
    (Issues (.vand n w) s → Machine.exec (.vand n w) s = put fun l => l.vr (wA w) &&& l.vr (wB w))
    ∧ (Issues (.vor n w) s → Machine.exec (.vor n w) s = put fun l => l.vr (wA w) ||| l.vr (wB w))
    ∧ (Issues (.vxor n w) s → Machine.exec (.vxor n w) s = put fun l => l.vr (wA w) ^^^ l.vr (wB w))
    ∧ (Issues (.vnot n w) s → Machine.exec (.vnot n w) s = put fun l => ~~~(l.vr (wA w)))
    ∧ (Issues (.vmov n w) s → Machine.exec (.vmov n w) s = put fun l => l.vr (wA w))
    ∧ (Issues (.vsplat n w) s → Machine.exec (.vsplat n w) s = put fun l => packComps cw ((List.range (128 / cw)).map fun i =>
      ((l.ar (if t = 4 ∧ i % 2 = 1 then wB w else wA w)).toNat : Int)))
    ∧ (Issues (.vperm n w) s → Machine.exec (.vperm n w) s = put fun l => packComps 8 ((List.range 16).map fun j =>
      if bit (compN 8 j (l.vr (wB w))) 7 then 0 else comp 8 (compN 8 j (l.vr (wB w)) % 16) (l.vr (wA w))))
    ∧ (Issues (.vext n w) s → k < 128 / cw → Machine.exec (.vext n w) s =
      inFlight n (fun l => [l.out 1 (.a (wD w) (BitVec.ofInt 32 (comp cw k (l.vr (wA w)))))]) s)
    ∧ (Issues (.vins n w) s → k < 128 / cw → Machine.exec (.vins n w) s =
      inFlight n (fun l => [l.out 1 (.v (l.vNum (wD w)) (BitVec.ofNat 16 ((2 ^ (cw / 8) - 1) * 2 ^ (k * (cw / 8))))
        (BitVec.ofNat 128 ((l.ar (wA w)).toNat % 2 ^ cw * 2 ^ (cw * k))))]) s)
    ∧ (Issues (.vcmp n w) s → bits w.toNat 16 3 < 6 → Machine.exec (.vcmp n w) s = inFlight n (fun l =>
      [l.out 1 (.p (wD w) (l.mask t w) (BitVec.ofNat 16 ((List.range 16).foldl (fun a i =>
        if l.vcmp w (i / laneBytes t) = some true then a + 2 ^ i else a) 0))),
       l.out 1 (.sr (BitVec.ofNat 32 ((List.range (16 / laneBytes t)).foldl (fun a i =>
        if decide (t = 5) && (l.mask t w).getLsbD (i * laneBytes t) then a ||| signalFlag [l.aN w i, l.bN w i] else a) 0)))]) s)

/-- The multiply instructions and the accumulator instructions (R319, R329, R330): products formed exactly, one rounding, results
after 3 cycles; an accumulator takes its products when they retire, and ACCX reads it at issue. -/
def Obligations.MultiplyAndAccumulate : Prop :=
  ∀ (n : BitVec 4) (w : BitVec 56) (s : State), let t := wT w
    let f := fun (x : Nat) => FV.decode f32 x
    let acc := fun (op : AccOp) (conj : Bool) => inFlight n (fun l =>
      [l.out 3 (.acc (wD w) op (wSat w) ((List.range 8).map fun L => if l.laneOn w L then l.laneProd w conj L else none))]) s
    (Issues (.vmul n w) s → Machine.exec (.vmul n w) s = lanes n w 3 (fun l i =>
      if t = 5 then f32Lane (mulF f32 (f (l.aN w i)) (f (l.bN w i))) (l.aN w i) (l.bN w i) 0 else fitC w t (l.aI w i * l.bI w i)) s)
    ∧ (Issues (.vmulq n w) s → Machine.exec (.vmulq n w) s = lanes n w 3 (fun l i =>
      fitC w t (shiftC l (compW t - 1) (l.aI w i * l.bI w i))) s)
    ∧ (Issues (.vcmulq n w) s → Machine.exec (.vcmulq n w) s = lanes n w 3 (fun l i =>
      let a := (l.aI w (i / 2 * 2), l.aI w (i / 2 * 2 + 1))
      let b := (l.bI w (i / 2 * 2), if bit w.toNat 16 then -(l.bI w (i / 2 * 2 + 1)) else l.bI w (i / 2 * 2 + 1))
      fitC w t (shiftC l (compW t - 1) (if i % 2 = 0 then a.1 * b.1 - a.2 * b.2 else a.1 * b.2 + a.2 * b.1))) s)
    ∧ (Issues (.vfma n w) s → Machine.exec (.vfma n w) s = lanes n w 3 (fun l i => let c := compN 32 i (l.vr (wC w))
      f32Lane (fmaF f32 (f (l.aN w i)) (f (l.bN w i)) (f c)) (l.aN w i) (l.bN w i) c) s)
    ∧ (Issues (.vmac n w) s → Machine.exec (.vmac n w) s = acc .add false)
    ∧ (Issues (.vmsu n w) s → Machine.exec (.vmsu n w) s = acc .sub false)
    ∧ (Issues (.vmpy n w) s → Machine.exec (.vmpy n w) s = acc .set false)
    ∧ (Issues (.vcmacj n w) s → Machine.exec (.vcmacj n w) s = acc .add true)
    ∧ (Issues (.accx n w) s → bits w.toNat 16 6 ≤ 39 → Machine.exec (.accx n w) s = lanes n w 3 (fun l i =>
      fitC w t (shiftC l (bits w.toNat 16 6) (nth l.cur.acc (8 * wA w + i) 0).toInt)) s)
    ∧ (Issues (.acclr n w) s → Machine.exec (.acclr n w) s = inFlight n (fun l =>
      [l.out 1 (.acc (wD w) .set false ((List.range 8).map fun L => if l.laneOn w L then some 0 else none))]) s)

/-- The instructions that act outside the unit (R303, R305, R306, R334): DMAQ queues a descriptor of 32 bytes while its queue holds
fewer than 16, EMIT an entry while its queue holds fewer than 8 and the context has the ring; TRIGP and TUNE make their request or
count it in REJECTED. -/
def Obligations.ActionInstructions : Prop :=
  ∀ (n : BitVec 4) (w : BitVec 56) (s : State), let l := getLsu n.toNat s
    let q := bits w.toNat 16 2
    let len := (l.ar (wB w)).toNat
    let known := (getKernel l.kernel s).any fun k => hasRing k.ctx (bits w.toNat 16 3 + 1) s
    (Issues (.dmaq n w) s → (nth l.dma q []).length < 16 → Machine.exec (.dmaq n w) s =
      unitIs n (let l1 := l.done [l.out 1 (.a (wD w) 1)]
        { l1 with dmaPosted := l.dmaPosted + 1
                  dma := modNth l.dma q fun x => x ++ [(l.dmaPosted, BitVec.ofNat 256 (leNat (l.bytes ((l.ar (wA w)).toNat / 16 * 16) 32)))] }) s)
    ∧ (Issues (.dmaq n w) s → 16 ≤ (nth l.dma q []).length → Machine.exec (.dmaq n w) s = unitIs n (l.done [l.out 1 (.a (wD w) 0)]) s)
    ∧ (Issues (.trigp n w) s → ∀ t, postTrigger w l s = some t → Machine.exec (.trigp n w) s = answers (modLsu n.toNat (fun l => l.done []) t))
    ∧ (Issues (.trigp n w) s → postTrigger w l s = none → Machine.exec (.trigp n w) s =
      answers (modLsu n.toNat (fun l => { l with rejected := satInc l.rejected }.done []) s))
    ∧ (Issues (.tune n w) s → ∀ t, postRetune w l s = some t → Machine.exec (.tune n w) s = answers (modLsu n.toNat (fun l => l.done []) t))
    ∧ (Issues (.tune n w) s → postRetune w l s = none → Machine.exec (.tune n w) s =
      answers (modLsu n.toNat (fun l => { l with rejected := satInc l.rejected }.done []) s))
    ∧ (Issues (.emit n w) s → len % 16 = 0 → 16 ≤ len → len ≤ 65536 → known = true → l.emits.length < 8 → Machine.exec (.emit n w) s =
      unitIs n (let l1 := l.done [l.out 1 (.a (wD w) 1)]
        { l1 with emits := l.emits ++ [⟨(l.ar (wA w)).toNat % 2 ^ 18, len, bits w.toNat 16 3 + 1, BitVec.ofNat 64 (l.vr (wC w)).toNat⟩]
                  outqFull := l.outqFull || decide (l.emits.length = 7) }) s)
    ∧ (Issues (.emit n w) s → len % 16 = 0 → 16 ≤ len → len ≤ 65536 → known = true → 8 ≤ l.emits.length → Machine.exec (.emit n w) s =
      unitIs n (l.done [l.out 1 (.a (wD w) 0)]) s)
    ∧ (Issues (.emit n w) s → len % 16 = 0 → 16 ≤ len → len ≤ 65536 → known = false → Machine.exec (.emit n w) s =
      unitIs n (l.done [l.out 1 (.a (wD w) 0)]).reject s)

/-- The long instructions (R335-R345): each reads its operands at issue and runs its first chunk, or with nothing to do completes in
1 cycle with the results of an empty count; operands beyond R345's limits are illegal. -/
def Obligations.LongInstructions : Prop :=
  ∀ (n : BitVec 4) (w : BitVec 56) (s : State), let l := getLsu n.toNat s
    let a := fun (r : Nat) => (l.ar r).toNat
    let ops := [a (wA w), a (wB w), a (wC w), a (wD w), a (bits w.toNat 16 4)]
    let find := [a (wA w), a (wB w), 0, l.vNum (wD w), 0]
    let l1 := { l.stepPc with lastPc := l.pc }
    let count := a (wB w)
    let chunk := fun (opc : Nat) (regs : List Nat) => unitIs n (l1.runChunk (l.longRun opc w regs).1) s
    let empty := fun (ds : List SpuDest) =>
      unitIs n (((l1.pass 1).take l.inB1 ds).modBank l.inB1 fun b => { b with sr := b.sr &&& ~~~(0x40 : BitVec 32) }) s
    let none32 : BitVec 128 := BitVec.ofNat 128 (0xFFFFFFFF * 2 ^ 32)
    (Issues (.vpeaks n w) s → count ≤ 65536 → Machine.exec (.vpeaks n w) s = if count = 0 then empty [.a (wD w) 0] else chunk 0x80 ops)
    ∧ (Issues (.vmaxidx n w) s → Machine.exec (.vmaxidx n w) s = if count = 0 then empty [.v (l.vNum (wD w)) 0xFFFF none32] else chunk 0x81 find)
    ∧ (Issues (.vminidx n w) s → Machine.exec (.vminidx n w) s = if count = 0 then empty [.v (l.vNum (wD w)) 0xFFFF none32] else chunk 0x82 find)
    ∧ (Issues (.vsortk n w) s → count ≤ 16384 → Machine.exec (.vsortk n w) s = if count ≤ 1 then empty [] else chunk 0x83 ops)
    ∧ (Issues (.vlog2 n w) s → Machine.exec (.vlog2 n w) s = if count = 0 then empty [] else chunk 0x84 ops)
    ∧ (Issues (.crc32c n w) s → Machine.exec (.crc32c n w) s = if count = 0 then empty [] else chunk 0x85 ops)
    ∧ (Issues (.vsk n w) s → count ≤ 16384 → 1 ≤ bits w.toNat 22 6 → bits w.toNat 22 6 ≤ 24 → Machine.exec (.vsk n w) s =
      if count = 0 then empty [.a (bits w.toNat 16 4) 0] else chunk 0x86 ops)
    ∧ (Issues (.histo n w) s → 1 ≤ a (bits w.toNat 16 4) → a (bits w.toNat 16 4) ≤ 65536 → Machine.exec (.histo n w) s =
      if count = 0 then empty [.a (bits w.toNat 16 4) 0] else chunk 0x87 ops)
    ∧ (Issues (.rcopy n w) s → count % 16 = 0 → Machine.exec (.rcopy n w) s = if count = 0 then empty [] else chunk 0x88 ops)
    ∧ (Issues (.rfill n w) s → count % 16 = 0 → Machine.exec (.rfill n w) s =
      if count = 0 then empty [] else chunk 0x89 [(l.vr (wA w)).toNat, a (wB w), 0, a (wD w), 0])

namespace Sys2Proof.Machine

/-- An enabled source is pending on a unit that stands at an interrupt point (R287, R295, R296): at a safe point of a long instruction,
or at a boundary outside every body that is not just after a REP body and not just after RETI. -/
def Lsu.takesInterrupt (l : Lsu) : Prop :=
  l.kernel ≠ 0 ∧ (l.state = 1 ∨ l.state = 2) ∧ l.recovery = none ∧ l.halting = none ∧ l.inB1 = false
    ∧ l.pend.toNat &&& bits l.b0.ctl.toNat 8 6 ≠ 0
    ∧ (l.long.isSome = true ∨ (l.rep = none ∧ l.afterRep = false ∧ l.afterReti = false ∧ l.loop = none))

end Sys2Proof.Machine

/-- Events of a unit (R287, R295, R296, R298, R301, R303, R304, R306, R310-R312, R335): the bank switch, the next chunk of a long
instruction, an item delivered or dropped, a descriptor done or faulting, the timer, an emitted record, and an end asked for. -/
def Obligations.UnitEvents : Prop :=
  ∀ (n : BitVec 4) (s : State), let l := getLsu n.toNat s
    (∀ k, l.takesInterrupt → l.waiting = false → getKernel l.kernel s = some k → Machine.exec (.interruptTaken n) s = unitIs n ({ l with
      b0 := if l.long.isSome then { l.b0 with sr := l.b0.sr ||| 0x40 } else l.b0
      b1 := { l.b1 with epc := BitVec.ofNat 32 (if l.long.isSome then l.lastPc else l.pc) }
      inB1 := true, pc := k.irqEntry, long := none }.pass 1) s)
    ∧ (∀ r, l.long = some r → l.recovery = none → Machine.exec (.longChunkEnd n) s = unitIs n (l.runChunk r) s)
    ∧ (∀ o rest t, l.offers = o :: rest → l.taps[o.tap]? = some t → t.ringBytes < (t.head - t.tail).toNat + (32 + roundUp o.bytes 16) →
      Machine.exec (.tapItem n) s = unitIs n { l with
        offers := rest, tapDrops := satInc l.tapDrops, taps := modNth l.taps o.tap fun t => { t with dropped := t.dropped + 1 } } s)
    ∧ (∀ o rest t, l.offers = o :: rest → l.taps[o.tap]? = some t → (t.head - t.tail).toNat + (32 + roundUp o.bytes 16) ≤ t.ringBytes →
      ∃ m, Machine.exec (.tapItem n) s = unitIs n { l with
        offers := rest, mem := m, pend := l.pend ||| 2
        taps := modNth l.taps o.tap fun t => { t with head := t.head + BitVec.ofNat 32 (32 + roundUp o.bytes 16), dropped := 0 } } s)
    ∧ (∀ q p d, l.dmaNext q.toNat = some (p, d) → dmaLegal l d s = false → Machine.exec (.spuDmaComplete n q) s = answers (endInstance n.toNat 3 0 2 s))
    ∧ (∀ q p d win, l.dmaNext q.toNat = some (p, d) → dmaLegal l d s = true → dmaWindow l d s = some win → d.f 0x10 4 ≠ 0 →
      Machine.exec (.spuDmaComplete n q) s = answers (haltTakes n.toNat (modLsu n.toNat (fun l =>
        { l with
          dma := modNth l.dma q.toNat List.tail, dmaDone := modNth l.dmaDone q.toNat (· + 1)
          pend := if bit (d.f 2 1) 0 then l.pend ||| 8 else l.pend })
        ((List.range (d.f 0x14 4)).foldl (fun s i => dmaRow n.toNat d win i s) s))))
    ∧ (l.kernel ≠ 0 → l.timerArmed = true → l.waiting = true → l.cycle ≤ l.timerCmp → Machine.exec (.spuTimer n) s =
      unitIs n { l with cycle := l.timerCmp, timerArmed := false, pend := l.pend ||| 0x10 } s)
    ∧ (∀ e rest k, l.emits = e :: rest → getKernel l.kernel s = some k → ∃ t drop, recordOn k.ctx e.ring ⟨0x0070, recBytes (0x60 + e.len),
        [⟨0x40, 4, k.id⟩, ⟨0x44, 1, l.inst⟩, ⟨0x48, 8, e.tag.toNat⟩, ⟨0x50, 4, e.len⟩, ⟨0x60, e.len, leNat (l.bytes e.addr e.len)⟩],
        now s, now s + 1⟩ s = (t, drop)
      ∧ Machine.exec (.emitReadout n) s = answers (haltTakes n.toNat (modLsu n.toNat (fun l =>
        { l with
          emits := rest, emitDrops := if drop then satInc l.emitDrops else l.emitDrops, outqFull := false
          pend := if l.outqFull then l.pend ||| 0x20 else l.pend }) t)))
    ∧ (∀ r, l.ending = some r → l.kernel ≠ 0 → l.mayEnd = true → Machine.exec (.spuStopTakesEffect n) s = answers (endInstance n.toNat r 0 0 s))

/-- The control store's recovery (R352-R355, R358, R359): a word from patch RAM that fails parity freezes its unit with an open log
entry; a good reload releases it by retry or resume; a ROM failure retires the unit and the spare takes its number; a scrub repairs a
word without a machine check; a scan that fails retires a free unit, whose number the spare takes. -/
def Obligations.ControlStoreRecovery : Prop :=
  ∀ (n : BitVec 4) (s : State), let l := getLsu n.toNat s
    (∀ f : WordFailure, l.kernel ≠ 0 → l.state = 1 → l.recovery = none → s.spu.injArm = false → f.visible = false → f.patch = true →
      wordParity f.word ≠ 0 → ∃ e : McLog, e.seq = s.spu.mcSeq + 1 ∧ e.time = now s ∧ e.phys = l.phys ∧ e.logical = n.toNat ∧ e.outcome = 0
      ∧ e.word = f.word.toNat ∧ e.parity = wordParity f.word ∧ Machine.exec (.machineCheck n f) s =
      answers (modLsu n.toNat (fun l => { l with
          state := 3, recovery := some ⟨[s.spu.mcSeq + 1], ((getKernel l.kernel s).map (·.ctx)).getD 0, false, false, false, l.longNow.any copyInexact⟩ })
        (modSpu (fun x => { x with
          mcCount := satInc x.mcCount, mcSeq := x.mcSeq + 1, mcLog := (x.mcLog ++ [e]).drop (x.mcLog.length + 1 - 64) }) s)))
    ∧ (∀ ns r, l.recovery = some r → r.rom = false → Machine.exec (.patchReloadDone n ns true) s =
      answers (mcEvents n.toNat r (if l.kernel = 0 then 4 else if r.visible then (if r.inexact then 3 else 2) else 1) 0 ns.toNat
        (releaseUnit n.toNat ns.toNat s)))
    ∧ (∀ ns r, l.recovery = some r → r.rom = true → r.injected = false → s.spu.spareUsed = false → s.spu.spare ≠ 31 →
      Machine.exec (.spareTakeover n ns) s = answers (mcEvents n.toNat r (l.mcOutcome r) 8 ns.toNat (releaseUnit n.toNat ns.toNat
        (modSpu (fun x => { x with spareUsed := true, spare := 31 }) (modLsu n.toNat (fun l => { l with phys := s.spu.spare.toNat })
          (retireUnit l.phys s))))))
    ∧ (∀ u a w, wordParity w ≠ 0 → s.spu.patchState = 1 → u.toNat ≤ 16 → ∃ e, Machine.exec (.patchScrub [(u, a, w)]) s =
      answers (closeMc (s.spu.mcSeq + 1) 5 0 0 (openMc e (modSpu (fun x => { x with scrubFixes := satInc x.scrubFixes }) s))))
    ∧ (∀ (u : BitVec 5) rom w, wordParity w ≠ 0 → l.phys = u.toNat → l.state = 0 → (∀ m < n.toNat, (getLsu m s).phys ≠ u.toNat) →
      s.spu.spareUsed = false → s.spu.spare ≠ 31 → ∃ e, Machine.exec (.romScan u (some (rom, w))) s =
      answers (closeMc (s.spu.mcSeq + 1) 5 8 0 (openMc e
        (modSpu (fun x => { x with spareUsed := true, spare := 31 }) (modLsu n.toNat (fun l => { l with phys := s.spu.spare.toNat })
          (retireUnit u.toNat s))))))

/-- An SPU instruction whose word breaks its row, or whose opcode may not stand in the body that runs, ends its instance with reason
FAULT, code ILLEGAL and its own address, and does nothing else (R311, R317, R346). -/
def Obligations.IllegalInstructions : Prop :=
  ∀ (i : Instr) (n : BitVec 4) (w : BitVec 56) (opc : Nat) (f : Form) (s : State),
    spuRow i = some (n, w, opc, f) → (getLsu n.toNat s).mayIssue = true → (getLsu n.toNat s).waiting = false →
    f.ok w = false ∨ (getLsu n.toNat s).inBody opc = false →
    let t := endInstance n.toNat 3 0 1 (modLsu n.toNat (fun l => { l with lastPc := l.pc }) s)
    (opc ≠ 0x01 → Machine.exec i s = answers t) ∧ (opc = 0x01 → Machine.exec i s = answers (haltTakes n.toNat t))

/-- Results in flight (R286): the next cycle retires what falls due, later cycles what falls due then; a result of latency 1 is in its
register for the next instruction, and nothing else of its bank changes. -/
def Obligations.ResultsRetire : Prop :=
  ∀ (l : Lsu) (d : Nat) (x : BitVec 32), l.flight = [] → l.timerArmed = false → d < 16 → l.cur.a.length = 16 →
    let l1 := l.done [l.out 1 (.a d x)]
    let l4 := l.done [l.out 4 (.a d x)]
    l1.ar d = x ∧ (∀ e, e ≠ d → l1.ar e = l.ar e) ∧ l1.flight = [] ∧ l1.mem = l.mem ∧ l1.cycle = l.cycle + 1
    ∧ l1.cur.v = l.cur.v ∧ l1.cur.m = l.cur.m ∧ l1.cur.acc = l.cur.acc ∧ l1.cur.p = l.cur.p ∧ l1.cur.sr = l.cur.sr ∧ l1.cur.ctl = l.cur.ctl
    ∧ l1.cur.lc = l.cur.lc ∧ l1.cur.prg = l.cur.prg ∧ l1.cur.epc = l.cur.epc
    ∧ l4.ar d = l.ar d ∧ (l4.pass 2).ar d = l.ar d ∧ (l4.pass 3).ar d = x

/-- The stores write their bytes and no others (R291, R323): VST the enabled bytes of its aligned line, STW its aligned word. -/
def Obligations.StoresWriteTheirBytesOnly : Prop :=
  ∀ (n : BitVec 4) (w : BitVec 56) (s : State) (b : BitVec 32), n.toNat < s.spu.lsus.length →
    let l := getLsu n.toNat s
    let a := (l.ar (wA w)).toNat % 2 ^ 18
    l.updated w = some b →
    (Issues (.vst n w) s → ∃ t, Machine.exec (.vst n w) s = answers t ∧
      (∀ k < 16, (getLsu n.toNat t).byte (a / 16 * 16 + k) =
        if (l.mask (wT w) w).getLsbD k then (l.vr (wD w)).extractLsb' (8 * k) 8 else l.byte (a / 16 * 16 + k))
      ∧ ∀ x < 2 ^ 18, x / 16 ≠ a / 16 → (getLsu n.toNat t).byte x = l.byte x)
    ∧ (Issues (.stw n w) s → ∃ t, Machine.exec (.stw n w) s = answers t ∧
      (∀ k < 4, (getLsu n.toNat t).byte (a / 4 * 4 + k) = (l.ar (wD w)).extractLsb' (8 * k) 8)
      ∧ ∀ x < 2 ^ 18, x / 4 ≠ a / 4 → (getLsu n.toNat t).byte x = l.byte x)

/-! ### Descriptors -/

namespace Sys2Proof.Machine

/-- The descriptor that a command posts (R404): its form, its bytes, and the host blocks it names as their reads return them. -/
def descOf : Instr → Option Desc
  | .noop d => some ⟨.noop, d, []⟩ | .badOpcode d o => some ⟨.bad o, d, []⟩ | .fence d => some ⟨.fence, d, []⟩
  | .timeWait d => some ⟨.timeWait, d, []⟩ | .modeSet d => some ⟨.modeSet, d, []⟩ | .contextCreate d => some ⟨.contextCreate, d, []⟩
  | .contextDestroy d => some ⟨.contextDestroy, d, []⟩ | .ringCreate d => some ⟨.ringCreate, d, []⟩ | .ringDestroy d => some ⟨.ringDestroy, d, []⟩
  | .planCreate d r => some ⟨.planCreate, d, r⟩ | .planStart d r => some ⟨.planStart, d, r⟩ | .planStop d => some ⟨.planStop, d, []⟩
  | .planDestroy d => some ⟨.planDestroy, d, []⟩ | .windowLoadTable d r => some ⟨.windowTable, d, r⟩ | .windowLoadDrop d => some ⟨.windowDrop, d, []⟩
  | .windowLoadReconfigure d => some ⟨.windowReconfigure, d, []⟩ | .maskLoad d r => some ⟨.maskLoad, d, r⟩ | .maskDrop d => some ⟨.maskDrop, d, []⟩
  | .triggerArm d => some ⟨.triggerArm, d, []⟩ | .triggerDisarm d => some ⟨.triggerDisarm, d, []⟩
  | .captureReadSegments d => some ⟨.captureReadSegments, d, []⟩ | .captureReadWords d => some ⟨.captureReadWords, d, []⟩
  | .captureRelease d => some ⟨.captureRelease, d, []⟩ | .spuLoad d r => some ⟨.spuLoad, d, r⟩ | .spuLaunch d r => some ⟨.spuLaunch, d, r⟩
  | .spuSignal d => some ⟨.spuSignal, d, []⟩ | .spuStop d => some ⟨.spuStop, d, []⟩ | .streamOpenRing d => some ⟨.streamOpenRing, d, []⟩
  | .streamOpenDisk d => some ⟨.streamOpenDisk, d, []⟩ | .streamClose d => some ⟨.streamClose, d, []⟩ | .diskBind d r => some ⟨.diskBind, d, r⟩
  | .diskUnbind d => some ⟨.diskUnbind, d, []⟩ | .displayOutput d r => some ⟨.displayOutput, d, r⟩ | .displayLayer d => some ⟨.displayLayer, d, []⟩
  | .displayLutLoad d r => some ⟨.displayLutLoad, d, r⟩ | .panelCmd d r => some ⟨.panelCmd, d, r⟩ | .layerOff d => some ⟨.layerOff, d, []⟩
  | .outputOff d => some ⟨.outputOff, d, []⟩ | .displayFlip d => some ⟨.displayFlip, d, []⟩ | .tdcEnable d => some ⟨.tdcEnable, d, []⟩
  | .tdcRelease d => some ⟨.tdcRelease, d, []⟩ | .tdcGateInterval d r => some ⟨.tdcGateInterval, d, r⟩
  | .tdcGateFrequency d r => some ⟨.tdcGateFrequency, d, r⟩ | .calSetMode d => some ⟨.calSetMode, d, []⟩
  | .calManualLoad d r => some ⟨.calManualLoad, d, r⟩ | .calFence d => some ⟨.calFence, d, []⟩ | .calRampLength d => some ⟨.calRampLength, d, []⟩
  | .runForeground d => some ⟨.runForeground, d, []⟩ | .tableReset d => some ⟨.tableReset, d, []⟩ | .setTimeNextPps d => some ⟨.setTimePps, d, []⟩
  | .setTimeImmediate d => some ⟨.setTimeImmediate, d, []⟩ | .powerHintCap d => some ⟨.powerHintCap, d, []⟩
  | .powerHintNextEvent d => some ⟨.powerHintNextEvent, d, []⟩ | .powerHintUncap d => some ⟨.powerHintUncap, d, []⟩
  | .flightRead d => some ⟨.flightRead, d, []⟩ | .replayLoadHost d r => some ⟨.replayLoadHost, d, r⟩
  | .replayLoadFlight d => some ⟨.replayLoadFlight, d, []⟩ | .replayUnload d => some ⟨.replayUnload, d, []⟩ | .attestBind d => some ⟨.attestBind, d, []⟩
  | .selftest d => some ⟨.selftest, d, []⟩ | .clearRetirement d => some ⟨.clearRetirement, d, []⟩ | .laneTestEnter d => some ⟨.laneTestEnter, d, []⟩
  | .laneTestExit d => some ⟨.laneTestExit, d, []⟩ | .dramTest d => some ⟨.dramTest, d, []⟩
  | _ => none

/-- The block as context `x` has posted a descriptor. -/
def postedOn (D : Desc) (s : State) : State := modCtx D.sub.ctx.toNat (fun y => { y with posted := y.posted ++ [D] }) s

/-- The block as context `x` has taken the one descriptor it posted (R382): CMD_HEAD moves on, and the journal holds the descriptor. -/
def takenOn (begun : Bool) (D : Desc) (x : Ctx) (s : State) : State :=
  journal 1 (descFields D.sub.ctx.toNat D) 72 (modCtx D.sub.ctx.toNat (fun y => { y with
    posted := [], cmdHead := (x.cmdHead + 1) % 2 ^ x.cmdLog2, nextSid := x.nextSid + 1
    acc := [{ sid := x.nextSid, index := x.cmdHead, desc := D, begun := begun, marks := [], onWritten := none }] }) s)

/-- A descriptor of context `x` is fetched as it is posted (R382, R383): the context is live, its doorbell allows it, no completion is held,
no descriptor is outstanding anywhere, and the power states stand still. -/
def Fetched (D : Desc) (x : Ctx) (s : State) : Prop :=
  s.host.ctxs.filter (fun y => decide (y.num = D.sub.ctx.toNat)) = [x] ∧ x.state = .live ∧ x.held = [] ∧ x.cmdHead ≠ x.cmdTail
    ∧ (∀ y ∈ s.host.ctxs, y.posted = [] ∧ y.acc = []) ∧ powerStep (postedOn D s) = postedOn D s

/-- A descriptor begins as it is posted (R404-R410, R45, R509, R522): it is fetched, passes the checks of its acceptance, the device has
calibrated data or the form does not need it, the power state and the MP serve it, no mode change holds it, and its capture is complete. -/
def Begins (i : Instr) (s : State) (c sid : Nat) (D : Desc) (b : State) : Prop :=
  ∃ x, descOf i = some D ∧ Fetched D x s ∧ c = D.sub.ctx.toNat ∧ sid = x.nextSid ∧ b = takenOn true D x s
    ∧ acceptCheck D x s = none ∧ (runsUncalibrated D.op = true ∨ s.host.calReady = true) ∧ stateServes D.op s = true
    ∧ (needsMp D.op = true → s.pwr.mpUp = true) ∧ (heldByChange D.op = true → s.mode.change = none) ∧ readWaits c D s = false

/-- The rest of a round of what follows a command, after descriptors have begun. -/
def roundRest (t : State) : State :=
  let s1 := finishAll t
  let s2 := (s1.trg.masks.filter (·.newer.isSome)).foldl (fun s m => settleMask m.ctx m.handle s) s1
  let s3 := stepCloses s2
  decideHeld ((s3.disk.bindings.map (·.slot)).foldl (fun s n => stepUnbind n s) s3)

/-- The answer of a descriptor command that leaves the block as `t` when its descriptor has begun. -/
def ran (t : State) : Host.Outcome State Fault Refusal := .next (settleN 4 (roundRest t))

/-- The answer of a descriptor command whose descriptor completes as it begins, after it has had an effect. -/
def ends (c sid : Nat) (st : Status) (r0 r1 : Nat) (t : State) : Host.Outcome State Fault Refusal := ran (completeDesc c sid st r0 r1 t)

end Sys2Proof.Machine

/-- A descriptor that begins as it is posted has the effect of its form on the block that has taken it (R404, R407); one that fails a check of
its acceptance completes with that status and has no other effect (R405); one of an undefined opcode completes with BAD_OPCODE. -/
def Obligations.DescriptorsBeginOrFail : Prop :=
  (∀ (i : Instr) (s b : State) (c sid : Nat) (D : Desc), Begins i s c sid D b → Machine.exec i s = ran (beginOp c sid D b))
  ∧ (∀ (i : Instr) (s : State) (D : Desc) (x : Ctx) (st : Status) (r1 : Nat), descOf i = some D → Fetched D x s →
    acceptCheck D x s = some (st, r1) → Machine.exec i s = ends D.sub.ctx.toNat x.nextSid st 0 r1 (takenOn false D x s))
  ∧ ∀ (s : State) (d : Sub) (o : BitVec 8) (x : Ctx), selectorOf o.toNat = none → Fetched ⟨.bad o, d, []⟩ x s →
    Machine.exec (.badOpcode d o) s = ends d.ctx.toNat x.nextSid .badOpcode 0 0 (takenOn false ⟨.bad o, d, []⟩ x s)

/-- A completion entry (R380, R383, R393): written at the ring's tail with the ring's PHASE while there is room and none is held, else
held; the descriptor is outstanding no more. -/
def Obligations.CompletionsArePosted : Prop :=
  ∀ (c sid : Nat) (st : Status) (r0 r1 : Nat) (s : State) (x : Ctx) (a : Acc),
    s.host.ctxs.filter (fun y => decide (y.num = c)) = [x] → x.acc.find? (·.sid = sid) = some a →
    let e : Cpl := ⟨a.desc.sub.tag, a.index, st.code, x.cmdHead, opcodeOf a.desc.op, r0 % 2 ^ 64, r1 % 2 ^ 32⟩
    let s1 := modCtx c (fun x => { x with acc := x.acc.filter (·.sid ≠ sid) }) s
    (x.held = [] → x.cpl.hasRoom = true → completeDesc c sid st r0 r1 s = writeCpl c e s1
      ∧ ∃ y, getCtx c (writeCpl c e s1) = some y ∧ y.cpl.tail = (x.cpl.tail + 1) % 2 ^ x.cpl.log2
        ∧ y.cpl.phase = (if x.cpl.tail + 1 = 2 ^ x.cpl.log2 then !x.cpl.phase else x.cpl.phase)
        ∧ Output.completion c x.cpl.tail x.cpl.phase e ∈ (writeCpl c e s1).out)
    ∧ (x.held ≠ [] ∨ x.cpl.hasRoom = false → completeDesc c sid st r0 r1 s = modCtx c (fun x => { x with held := x.held ++ [e] }) s1)

/-- The descriptors of contexts, fences, waits, rings and sessions (R376, R377, R385, R386, R404, R408, R409, R431, R499): a NOOP and a FENCE complete, a
wait stays; a context is admitted or torn down; a ring begins with a stream of its own, or ends with its seal; a stream is bound to a session. -/
def Obligations.ContextAndRingDescriptors : Prop :=
  ∀ (d : Sub) (s b : State) (c sid : Nat) (D : Desc),
    (Begins (.noop d) s c sid D b → Machine.exec (.noop d) s = ends c sid .success 0 0 b)
    ∧ (Begins (.fence d) s c sid D b → Machine.exec (.fence d) s =
      if bit (D.f 0x10 1) 0 then ran (modCtx c (fun x => { x with
        acc := mapIf (fun a => decide (a.sid = sid)) (fun a => { a with marks := fenceMarks c b }) x.acc }) b) else ends c sid .success 0 0 b)
    ∧ (Begins (.timeWait d) s c sid D b → Machine.exec (.timeWait d) s = ran b)
    ∧ (∀ x, Begins (.contextCreate d) s c sid D b → getCtx c b = some x → attachCheck x.fn (createRequest D) b = none →
      Machine.exec (.contextCreate d) s =
        ends c sid .success (admitCtx x.fn (createRequest D) b).1 0 (admitCtx x.fn (createRequest D) b).2)
    ∧ (∀ x y, Begins (.contextDestroy d) s c sid D b → getCtx c b = some x → getCtx (D.f 0x10 2) b = some y → y.state = .live →
      c = 0 ∨ y.fn = x.fn → Machine.exec (.contextDestroy d) s = ran (startTeardown (D.f 0x10 2) 1 (some (c, sid)) b))
    ∧ (Begins (.ringCreate d) s c sid D b → hasRing c (D.f 0x18 1) b = false → D.f 0x24 4 = 0 → Machine.exec (.ringCreate d) s =
      ends c sid .success b.host.nextStream 0 (modHost (fun h => { h with
        streams := h.streams ++ [newStream h.nextStream c [(c, D.f 0x18 1)] 0], nextStream := h.nextStream + 1 })
        (modCtx c (fun x => { x with rings := x.rings ++ [newDataRing D b.host.nextStream] }) b)))
    ∧ (∀ k, Begins (.ringDestroy d) s c sid D b → ringStream c (D.f 0x10 1) b = some k → ringBound c (D.f 0x10 1) b = false →
      let t := nameDrops k (modStream k (fun st => { st with turn := st.rings.findIdx fun p => decide (p = (c, D.f 0x10 1)) }) b)
      Machine.exec (.ringDestroy d) s = ran (onWritten c sid (((getStream k t).map (·.seq)).getD 0) 0 (formSeal k 4 (some (c, sid)) t)))
    ∧ (∀ k x st, Begins (.attestBind d) s c sid D b → ringStream c (D.f 0x10 1) b = some k → b.trust.debug = false →
      b.trust.sessions.find? (fun x => decide (x.id = D.f 0x14 4) && x.finished) = some x → getStream k b = some st → st.seq = 0 → st.bound = none →
      Machine.exec (.attestBind d) s = ends c sid .success 0 0 (modStream k (fun st => { st with bound := some (D.f 0x14 4, x.secret) }) b))

/-- The descriptors of modes and plans (R37, R41, R42, R410, R412, R415): the mode in force completes at once, another starts a change; a plan object that
fits becomes a plan; a plan that fits takes its resources and waits for its first word; a running plan stops, a waiting one is given up. -/
def Obligations.ModeAndPlanDescriptors : Prop :=
  ∀ (d : Sub) (r : List HostRead) (s b : State) (c sid : Nat) (D : Desc),
    (Begins (.modeSet d) s c sid D b → D.f 0x10 1 = b.mode.mode.toNat → D.f 0x10 1 ≠ 11 → Machine.exec (.modeSet d) s =
      ends c sid .success b.mode.gen.toNat 0 b)
    ∧ (Begins (.modeSet d) s c sid D b → D.f 0x10 1 ≠ b.mode.mode.toNat → (D.f 0x10 1 = 11 → b.fr.loaded.isSome = true) → D.f 0x11 1 ≠ 1 →
      Machine.exec (.modeSet d) s = ran (startChange (D.f 0x10 1) (some (c, sid)) b))
    ∧ (∀ o, Begins (.planCreate d r) s c sid D b → D.block 0 (D.f 0x18 4) = some o → planObjectCheck c (D.f 0x18 4) o b = none →
      let p : Plan := { viewPlan c o with id := b.nextPlan, ctx := c }
      fitsNow p b = true → Machine.exec (.planCreate d r) s =
        ends c sid .success b.nextPlan 0 { b with plans := b.plans ++ [p], nextPlan := b.nextPlan + 1 })
    ∧ (∀ p0 l t, Begins (.planStart d r) s c sid D b → ownPlan c (D.f 0x10 4) b = some p0 → p0.phase = .created →
      (∀ k ∈ p0.ringNames, hasRing c k b = true) → handlesHeld p0 b = true → readLuts D 0 p0.lutUses = some l → misfit p0 b = none →
      startFits { p0 with luts := l } b = true → reserve { p0 with luts := l } b = .ok t → Plan.lacksTdc { p0 with luts := l } b = false →
      let first := startIndexOf (D.f 0x20 16) t
      Machine.exec (.planStart d r) s = ran (startFeed first (retune { p0 with luts := l } { modPlan p0.id (fun q => { q with
        phase := .waiting, order := b.nextOrder, startTime := D.f 0x20 16, startIndex := first, starter := some (c, sid) }) t with
        nextOrder := b.nextOrder + 1 })))
    ∧ (∀ p, Begins (.planStop d) s c sid D b → ownPlan c (D.f 0x10 4) b = some p → p.phase = .running → Machine.exec (.planStop d) s =
      ran (stopPlan p.id (some (c, sid)) b))
    ∧ (∀ p, Begins (.planStop d) s c sid D b → ownPlan c (D.f 0x10 4) b = some p → p.phase = .waiting → Machine.exec (.planStop d) s =
      ends c sid .success 0 0 (dropWaiting p.id .superseded 0 b))
    ∧ (∀ p, Begins (.planDestroy d) s c sid D b → ownPlan c (D.f 0x10 4) b = some p → Machine.exec (.planDestroy d) s =
      ends c sid .success 0 0 (destroyPlan p.id true b))

/-- The descriptors of user windows and Topiary masks (R182, R195, R230): a handle that no stream or unit uses takes its table or image
and its backing copy; a handle that is dropped gives them back; a stream of a running plan is asked to switch. -/
def Obligations.WindowAndMaskDescriptors : Prop :=
  ∀ (d : Sub) (r : List HostRead) (s b t : State) (c sid : Nat) (D : Desc), let h := D.f 0x11 1
    (∀ o base, Begins (.windowLoadTable d r) s c sid D b → D.block 0 (4 * 2 ^ D.f 0x12 1) = some o → tableReserved (tableCoefs o (D.f 0x12 1)) = none →
      tableUnbounded (tableCoefs o (D.f 0x12 1)) = false → tableStreams c h b = [] →
      let b1 := freeAllocs (fun k => decide (k = .window c h)) (modCtx c (fun x => { x with windows := x.windows.filter fun w => decide (w.handle ≠ h) }) b)
      roomFor { Regions.zero with t := tableBytes (D.f 0x12 1) } b1 = true → allocate (.window c h) (4 * 2 ^ D.f 0x12 1) b1 = some (base, t) →
      Machine.exec (.windowLoadTable d r) s = ends c sid .success 0 0
        (modCtx c (fun x => { x with windows := x.windows ++ [⟨h, D.f 0x12 1, tableCoefs o (D.f 0x12 1)⟩] }) t))
    ∧ (Begins (.windowLoadDrop d) s c sid D b → tableStreams c h b = [] → Machine.exec (.windowLoadDrop d) s =
      ends c sid .success 0 0 (freeAllocs (fun k => decide (k = .window c h))
        (modCtx c (fun x => { x with windows := x.windows.filter fun w => decide (w.handle ≠ h) }) b)))
    ∧ (∀ p g x, Begins (.windowLoadReconfigure d) s c sid D b → ownPlan c (D.f 0x14 4) b = some p → p.sub? 3 (D.f 0x20 1) = some g →
      D.f 0x21 1 ≤ 32 → reconfigureBad p g D b = none → getX p.id g.idx b = some x →
      let cfg : XCfg := ⟨D.f 0x21 1, D.f 0x22 1, ladderOverlap b.pwr.step.toNat (D.f 0x23 1), D.f 0x24 1, tableOf c (D.f 0x21 1) b⟩
      let b1 := modX p.id g.idx (fun x => { x with own := D.f 0x23 1 }) (supersedeSwitch x b)
      Machine.exec (.windowLoadReconfigure d) s =
        if cfg.window = x.cfg.window ∧ cfg.lg = x.cfg.lg ∧ cfg.overlap = x.cfg.overlap ∧ cfg.taps = x.cfg.taps then ends c sid .success 0 0 b1
        else ran (askSwitch x cfg (c, sid) b1))
    ∧ (∀ o img base, Begins (.maskLoad d r) s c sid D b → D.block 0 (D.f 0x14 4) = some o → maskCheck o (D.f 0x14 4) = .ok img → noMasks b = false →
      maskStages c h b = [] → stagedMasks (dropMask c h b) < 64 → roomFor { Regions.zero with m := maskBytes img.lower.length } (dropMask c h b) = true →
      allocate (.mask c h) (D.f 0x14 4) (dropMask c h b) = some (base, t) → Machine.exec (.maskLoad d r) s =
        ends c sid .success 0 0 (modTrg (fun x => { x with masks := x.masks ++ [⟨c, h, img, none⟩] }) t))
    ∧ (Begins (.maskDrop d) s c sid D b → maskStages c h b = [] → Machine.exec (.maskDrop d) s = ends c sid .success 0 0 (dropMask c h b))

/-- The descriptors of trigger units and captures (R235, R247): the selected units of a running plan arm or disarm; the segments of a
complete capture, or a range of a ring's words, go to a data ring; a released capture's blocks are free. -/
def Obligations.TriggerAndCaptureDescriptors : Prop :=
  ∀ (d : Sub) (s b : State) (c sid : Nat) (D : Desc),
    (∀ p, Begins (.triggerArm d) s c sid D b → ownPlan c (D.f 0x10 4) b = some p → p.phase = .running →
      (∀ u ∈ maskIdx (D.f 0x14 1) 8, (p.sub? 6 u).isSome = true) → Machine.exec (.triggerArm d) s =
        ends c sid .success 0 0 ((maskUnits p.id (D.f 0x14 1) b).foldl (fun s n => armAgain n s) b))
    ∧ (∀ p, Begins (.triggerDisarm d) s c sid D b → ownPlan c (D.f 0x10 4) b = some p → p.phase = .running →
      (∀ u ∈ maskIdx (D.f 0x14 1) 8, (p.sub? 6 u).isSome = true) → Machine.exec (.triggerDisarm d) s =
        ends c sid .success 0 0 ((maskUnits p.id (D.f 0x14 1) b).foldl (fun s n =>
          modUnit n (fun u => { u with armed := false, waitB := false, held := [] }) s) b))
    ∧ (∀ x r, Begins (.captureReadSegments d) s c sid D b → capturePlan c (D.f 0x10 4) b = true → hasRing c (D.f 0x16 1) b = true →
      ownCapture c (D.f 0x10 4) (D.f 0x14 1) (D.f 0x18 8) b = some x → D.f 0x20 4 + D.f 0x24 4 ≤ x.segs.length → getCap x.ring b = some r →
      let gs := (x.segs.drop (D.f 0x20 4)).take (D.f 0x24 4)
      Machine.exec (.captureReadSegments d) s = ran (writeRead c sid (D.f 0x16 1)
        ((gs.map fun g => segmentRecords x g r b.dram.poison (decide (D.f 0x17 1 = 1))).flatten)
        (gs.foldl (fun s g => reportPoison c r g.first ((min g.fin g.spillFrom - g.first) / r.width) s) b)))
    ∧ (∀ p r, Begins (.captureReadWords d) s c sid D b → ownPlan c (D.f 0x10 4) b = some p → hasRing c (D.f 0x16 1) b = true →
      b.trg.rings.find? (fun r => decide (r.r = D.f 0x34 1) && (p.kindSubs 7).any (fun g => decide (g.f 0x08 1 = r.source))
        && (decide (r.r < 4) || decide (r.plan = p.id))) = some r → D.f 0x30 4 ≠ 0 → D.f 0x30 4 ≤ r.length →
      let first := D.f 0x28 8 - D.f 0x28 8 % r.width
      let got := rangeRecords p.id (D.f 0x14 1) first (D.f 0x30 4) r b.dram.poison (decide (D.f 0x17 1 = 1))
      Machine.exec (.captureReadWords d) s = ran (writeRead c sid (D.f 0x16 1) got.1 (reportPoison c r first (D.f 0x30 4)
        (if got.2 then modCap r.r (fun r => { r with overwritten := satInc r.overwritten }) b else b))))
    ∧ (∀ x r, Begins (.captureRelease d) s c sid D b → capturePlan c (D.f 0x10 4) b = true →
      ownCapture c (D.f 0x10 4) (D.f 0x14 1) (D.f 0x18 8) b = some x → x.complete = true → ownCapture c (D.f 0x10 4) x.slot x.num b = some x →
      getCap x.ring b = some r → Machine.exec (.captureRelease d) s =
        ends c sid .success (r.blks.filter fun k => decide (k.holders = [(x.plan, x.slot, x.num)])).length 0 (dropCapture x b))

/-- The descriptors of SPU kernels (R308-R311): an image is kept in its handle; a launch starts its instances; a value joins every
selected signal queue, or none; selected instances are asked to end. -/
def Obligations.KernelDescriptors : Prop :=
  ∀ (d : Sub) (r : List HostRead) (s b t : State) (c sid : Nat) (D : Desc),
    (∀ o base, Begins (.spuLoad d r) s c sid D b → D.block 0 (D.f 0x14 4) = some o →
      layoutCheck true (firstReserved (blkByte o) 0 64 (imageFds (D.f 0x14 4) o)) (imageFds (D.f 0x14 4) o) = none → handleRuns c (D.f 0x10 1) b = false →
      allocate (.kernel c (D.f 0x10 1)) (D.f 0x14 4) (freeAllocs (fun k => decide (k = .kernel c (D.f 0x10 1))) b) = some (base, t) →
      Machine.exec (.spuLoad d r) s = ends c sid .success 0 0 (modCtx c (fun x => { x with
        kernels := (x.kernels.filter fun k => decide (k.handle ≠ D.f 0x10 1)) ++ [⟨D.f 0x10 1, o⟩] }) t))
    ∧ (∀ o img ws, Begins (.spuLaunch d r) s c sid D b → D.block 0 464 = some o → blockCheck o (launchFds c o b) = none →
      ((getCtx c b).bind fun x => x.kernels.find? fun k => decide (k.handle = blkFld o 0 1)) = some img →
      (blkFld o 8 4 ≠ 0 → (ownPlan c (blkFld o 8 4) b).isSome = true) → (blkFld o 4 1 ≠ 0 → hasRing c (blkFld o 4 1) b = true) →
      let taps := (List.range (blkFld o 2 1)).map (tapEntry o)
      let maint := bit (blkFld img.bytes 6 2) 0
      (∀ t ∈ taps, (ownPlan c t.plan b).isSome = true) → (maint = true → effMode b = 12) → (effMode b = 12 → c = 0) →
      launchWindows c o (ownPlan c (blkFld o 8 4) b) b 1 (blkFld o 3 1) = some ws →
      launch { id := b.spu.nextKernel, ctx := c, handle := blkFld o 0 1, instances := blkFld o 1 1, plan := blkFld o 8 4, windows := []
               scratchKb := blkFld o 0x0C 4, scratchInS := false, emitRing := blkFld o 4 1, emitMb := blkFld o 0x14 4, dmaMb := blkFld o 0x10 4
               maintOnly := maint, irqEntry := blkFld img.bytes 0x10 4 % 2 ^ 18, stops := [] } img.bytes o ws
             (taps.map fun t => { t with isOpen := (getPlan t.plan b).any (·.takes b) }) b = .ok t →
      Machine.exec (.spuLaunch d r) s = ends c sid .success b.spu.nextKernel (blkFld o 1 1) t)
    ∧ (∀ k, Begins (.spuSignal d) s c sid D b → ownKernel c (D.f 0x14 4) b = some k →
      (∀ n ∈ selected k.id (D.f 0x12 2) b, (getLsu n b).sigq.length < 16) → Machine.exec (.spuSignal d) s =
        ends c sid .success 0 0 ((selected k.id (D.f 0x12 2) b).foldl (fun s n => modLsu n (fun l => { l with
          sigq := l.sigq ++ [BitVec.ofNat 32 (D.f 0x18 4)], pend := l.pend ||| 1 }) s) b))
    ∧ (∀ k n, Begins (.spuSignal d) s c sid D b → ownKernel c (D.f 0x14 4) b = some k → n ∈ selected k.id (D.f 0x12 2) b →
      16 ≤ (getLsu n b).sigq.length → Machine.exec (.spuSignal d) s = ends c sid .resourceBusy 0 14 b)
    ∧ (∀ k, Begins (.spuStop d) s c sid D b → ownKernel c (D.f 0x14 4) b = some k → selected k.id (D.f 0x12 2) b ≠ [] →
      let l := selected k.id (D.f 0x12 2) b
      Machine.exec (.spuStop d) s = ran (modKernel k.id (fun x => { x with stops := x.stops ++ [(c, sid, l.map fun n => (getLsu n b).inst)] })
        (l.foldl (fun s n => modLsu n (Lsu.askEnd 2) s) b)))

/-- The descriptors of exports and disks (R424, R426, R432, R437): an export begins on a ring or a disk set, and closes; a drive is bound to a staging
window and waits for its activation; a binding is asked to end, and closes its open extent. -/
def Obligations.ExportAndDiskDescriptors : Prop :=
  ∀ (d : Sub) (r : List HostRead) (s b : State) (c sid : Nat) (D : Desc),
    (∀ p n k, Begins (.streamOpenRing d) s c sid D b → ownPlan c (D.f 0x10 4) b = some p → ringStream c (D.f 0x15 1) b = some k →
      hasRing c (D.f 0x15 1) b = true → sourcesBad p D = none → checkMode b = 6 → replaying b = false → sourceTaken D b = false →
      (List.range 8).find? (fun n => (getExport n b).isNone) = some n →
      let e := exportOf c n b.disk.nextExport k false (p.takes b) D
      let t := modDisk (fun x => { x with exports := x.exports ++ [e], nextExport := x.nextExport + 1 }) b
      (p.reserved = true → exportFits (reservedPlans t) t = true ∧ (regionsOf (reservedPlans t) t).within 6 = true) →
      Machine.exec (.streamOpenRing d) s = ends c sid .success e.id 0 t)
    ∧ (∀ p n, Begins (.streamOpenDisk d) s c sid D b → ownPlan c (D.f 0x10 4) b = some p → sourcesBad p D = none →
      checkMode b = 7 → replaying b = false → sourceTaken D b = false →
      (∃ m ∈ b.disk.bindings, m.ctx = c ∧ m.set = D.f 0x15 1 ∧ m.state = .active) →
      (List.range 8).find? (fun n => (getExport n b).isNone) = some n →
      let e := exportOf c n b.disk.nextExport b.host.nextStream true (p.takes b) D
      let t := modHost (fun h => { h with streams := h.streams ++ [newStream h.nextStream c [] (D.f 0x15 1)], nextStream := h.nextStream + 1 })
        (modDisk (fun x => { x with exports := x.exports ++ [e], nextExport := x.nextExport + 1 }) b)
      (p.reserved = true → exportFits (reservedPlans t) t = true ∧ (regionsOf (reservedPlans t) t).within 7 = true) →
      Machine.exec (.streamOpenDisk d) s = ends c sid .success e.id 0 t)
    ∧ (∀ p e, Begins (.streamClose d) s c sid D b → ownPlan c (D.f 0x10 4) b = some p →
      b.disk.exports.find? (fun e => decide (e.id = D.f 0x14 4) && decide (e.plan = p.id) && e.closing.isNone) = some e →
      Machine.exec (.streamClose d) s = ran (beginClose e.slot 2 (some (c, sid)) b))
    ∧ (∀ cap base n, Begins (.diskBind d r) s c sid D b → D.block 0 8 = some cap → checkMode b = 7 → 2 ^ D.f 0x12 1 ≤ blkFld cap 0 2 + 1 →
      b.disk.bindings = [] → D.f 0x11 1 ≤ 32 → roomFor { Regions.zero with s := roundUp (windowSize (D.f 0x11 1) (D.f 0x12 1)) granule } b = true →
      stagingPlace (windowSize (D.f 0x11 1) (D.f 0x12 1)) b = some base →
      (List.range 32).find? (fun k => (getBinding k b).isNone) = some n → ∃ m : Binding, m.slot = n ∧ m.id = b.disk.nextBinding ∧ m.ctx = c
        ∧ m.set = D.f 0x10 1 ∧ m.queuePairs = D.f 0x11 1 ∧ m.queueLog2 = D.f 0x12 1 ∧ m.lbaLog2 = D.f 0x13 1 ∧ m.firstLba = D.f 0x20 8
        ∧ m.lbaCount = D.f 0x28 8 ∧ m.window = base ∧ m.state = .awaiting ∧ Machine.exec (.diskBind d r) s =
        ends c sid .success base b.disk.nextBinding (openWindow base (windowSize (D.f 0x11 1) (D.f 0x12 1))
          (modDisk (fun x => { x with bindings := x.bindings ++ [m], nextBinding := x.nextBinding + 1 }) b)))
    ∧ (∀ m, Begins (.diskUnbind d) s c sid D b → b.disk.bindings.find? (fun m => decide (m.id = D.f 0x10 4) && decide (m.ctx = c)) = some m →
      m.unbinder = none → Machine.exec (.diskUnbind d) s =
        ran (modBinding m.slot (fun m => { m with state := .unbinding, unbinder := some (c, sid) })
          (if m.state = .active then closeExtent m.slot b else b)))

/-- The descriptors of the display (R269-R271, R274, R276): an output takes its area, a layer its source, a surface its next colour table; a panel
command is sent; layers and outputs are turned off; flips wait for a latch point and supersede earlier ones. -/
def Obligations.DisplayDescriptors : Prop :=
  ∀ (d : Sub) (r : List HostRead) (s b t : State) (c sid : Nat) (D : Desc), let o := D.f 0x11 1
    (∀ k base, Begins (.displayOutput d r) s c sid D b → D.block 0 64 = some k → blockCheck k (outputFds o k) = none → (getOut o b).enabled = false →
      (o = 1 → (getOut 0 b).lockstep = false) → blkFld k 0x19 1 ≠ 1 → displayArea o (blkFld k 0x16 2) b = some (base, t) →
      let t1 := modOut o (outputOf c base (nowTick b) k) (supersedeFlips o 1 t)
      dramDemand (reservedPlans t1) t1 ≤ t1.dram.bandwidth → Machine.exec (.displayOutput d r) s =
        ends c sid .success base 0 ((List.range 4).foldl (fun s l => let y := getLayer o l s
          if y.enabled && decide (y.source = 1) && !y.inArea y.cur.base (blkFld k 0x16 2) then stopLayer o l s else s) t1))
    ∧ (Begins (.displayLayer d) s c sid D b → outputDenied c o b = none → (layerOf D).source = 1 →
      (layerOf D).inArea (layerOf D).cur.base (getOut o b).areaMb = true →
      let t1 := modLayer o (D.f 0x12 1) (fun _ => layerOf D) (stopLayer o (D.f 0x12 1) b)
      dramDemand (reservedPlans t1) t1 ≤ t1.dram.bandwidth → Machine.exec (.displayLayer d) s = ends c sid .success 0 0 t1)
    ∧ (∀ p g l n, Begins (.displayLutLoad d r) s c sid D b → ownPlan c (D.f 0x34 4) b = some p → p.sub? 8 (D.f 0x17 1) = some g →
      D.block 0 1024 = some l → surfOf p.id g.idx b = some n → Machine.exec (.displayLutLoad d r) s =
        ends c sid .success 0 0 (modSurf n (fun f => { f with newLut := some (readLut (g.f 0x0E 1) l) }) b))
    ∧ (∀ x, Begins (.panelCmd d r) s c sid D b → outputDenied c o b = none → bit (D.f 0x32 1) 0 = true → getCtx c b = some x →
      Machine.exec (.panelCmd d r) s = ran (modOut o (fun y => { y with panel := some ⟨(c, sid), x.fn, D.f 0x28 8, nowTick b⟩ })
        (emit (.panel o true []) b)))
    ∧ (∀ k, Begins (.panelCmd d r) s c sid D b → outputDenied c o b = none → bit (D.f 0x32 1) 0 = false → D.block 0 (D.f 0x30 2) = some k →
      Machine.exec (.panelCmd d r) s = ends c sid .success 0 0 (emit (.panel o false k) b))
    ∧ (Begins (.layerOff d) s c sid D b → outputDenied c o b = none → Machine.exec (.layerOff d) s =
      ends c sid .success 0 0 (stopLayer o (D.f 0x12 1) b))
    ∧ (Begins (.outputOff d) s c sid D b → outputDenied c o b = none → Machine.exec (.outputOff d) s = ends c sid .success 0 0 (disableOutput o b))
    ∧ (Begins (.displayFlip d) s c sid D b → outputDenied c (D.f 0x10 1) b = none → flipBad (D.f 0x10 1) D b = none → Machine.exec (.displayFlip d) s =
      ran (modOut (D.f 0x10 1) (fun y => { y with flips := y.flips ++ [⟨(c, sid), o⟩] })
        ((maskIdx o 4).foldl (fun s l => modLayer (D.f 0x10 1) l (fun y => { y with pend := some ⟨D.f (0x18 + 8 * l) 8, D.f 0x14 4⟩ }) s)
          (supersedeMask (D.f 0x10 1) o b))))

/-- The descriptors of the time base and the TDC (R57, R69, R72, R76, R80, R82): a channel is taken and its stream begins with a marker,
or given up; a measurement is armed on a free pin; device time is set at the next tick, or waits for an edge. -/
def Obligations.TimeDescriptors : Prop :=
  ∀ (d : Sub) (r : List HostRead) (s b : State) (c sid : Nat) (D : Desc), let ch := D.f 0x10 1
    (Begins (.tdcEnable d) s c sid D b → hasRing c (D.f 0x14 1) b = true → D.f 0x18 4 = 0 → tdcTaken c ch b = false → Machine.exec (.tdcEnable d) s =
      ends c sid .success 0 0 (tdcMarker ch 2 (modTdc ch (fun x => { x with
        owner := some c, edges := D.f 0x12 1, dividerLog2 := D.f 0x13 1, ring := D.f 0x14 1, stagingKb := 0
        deadMark := false, queueMark := false, stampsSinceCal := 0, lastCal := nowTick (flushStamps ch b) }) (flushStamps ch b))))
    ∧ (Begins (.tdcRelease d) s c sid D b → tdcTaken c ch b = false → (getTdc ch b).owner = some c → Machine.exec (.tdcRelease d) s =
      ends c sid .success 0 0 (releaseTdc ch b))
    ∧ (Begins (.tdcGateInterval d r) s c sid D b → hasRing c (D.f 0x15 1) b = true → nth b.tim.gates ch none = none →
      ∃ g : Gate, g.interval = true ∧ g.startCh = D.f 0x13 1 ∧ g.stopCh = D.f 0x14 1 ∧ g.high = decide (D.f 0x12 1 = 1) ∧ g.ring = D.f 0x15 1
      ∧ g.maxUs = D.f 0x20 8 ∧ g.ctx = c ∧ g.phase = .armed ∧ g.n = 0 ∧ Machine.exec (.tdcGateInterval d r) s =
      ends c sid .success 0 0 (modTim (fun t => { t with gates := t.gates.set ch (some g) })
        (armCals c (D.f 0x15 1) (nowTick b) (gateChannels true D) D.reads b)))
    ∧ (Begins (.tdcGateFrequency d r) s c sid D b → hasRing c (D.f 0x15 1) b = true → nth b.tim.gates ch none = none →
      ∃ g : Gate, g.interval = false ∧ g.startCh = D.f 0x13 1 ∧ g.high = decide (D.f 0x12 1 = 1) ∧ g.ring = D.f 0x15 1
      ∧ g.maxUs = D.f 0x20 8 ∧ g.ctx = c ∧ g.phase = .armed ∧ g.n = 0 ∧ Machine.exec (.tdcGateFrequency d r) s =
      ends c sid .success 0 0 (modTim (fun t => { t with gates := t.gates.set ch (some g) })
        (armCals c (D.f 0x15 1) (nowTick b) (gateChannels false D) D.reads b)))
    ∧ (Begins (.setTimeNextPps d) s c sid D b → Machine.exec (.setTimeNextPps d) s =
      ran (modTim (fun t => { t with setPending := some ⟨c, sid, D.f 0x28 8, t.ticks.toNat⟩ }) (supersedeSet b)))
    ∧ (Begins (.setTimeImmediate d) s c sid D b →
      let t := setDeviceTime (D.f 0x28 8 * 2 ^ 64 + D.f 0x20 8) (D.f 0x28 8) false (tick (supersedeSet b))
      Machine.exec (.setTimeImmediate d) s = ends c sid .success t.tim.stepGen.toNat 0 t)

/-- The descriptors of the Skim calibration (R133, R136, R139, R140, R143, R144), on the pairs that the mask selects: the mode, a manual set, a fence, the
ramp length, FOREGROUND in MAINTENANCE alone, and an emptied temperature table. -/
def Obligations.CalibrationDescriptors : Prop :=
  ∀ (d : Sub) (r : List HostRead) (s b : State) (c sid : Nat) (D : Desc),
    (Begins (.calSetMode d) s c sid D b → Machine.exec (.calSetMode d) s = ends c sid .success 0 0 (onCalPairs D (fun _ p =>
      if p.mode = 4 then p else { p with mode := BitVec.ofNat 3 (D.f 0x12 1), held := if D.f 0x12 1 = 2 then none else p.held }) b))
    ∧ (∀ o, Begins (.calManualLoad d r) s c sid D b → D.block 0 160 = some o → setCheck o = none → Machine.exec (.calManualLoad d r) s =
      ends c sid .success 0 0 (onCalPairs D (fun n p => { p with mode := 3 }.offer (getPair n b).next (readSet o) 3 false) b))
    ∧ (Begins (.calFence d) s c sid D b → c = 0 → Machine.exec (.calFence d) s = ends c sid .success 0 0 (onCalPairs D (fun n p =>
      p.placeFence 0 ((getPair n b).next + 8 * cdiv (D.f 0x14 4 * b.tim.rateNum) (b.tim.rateDen * 8000000))) b))
    ∧ (Begins (.calRampLength d) s c sid D b → Machine.exec (.calRampLength d) s =
      ends c sid .success 0 0 (onCalPairs D (fun _ p => { p with lg := D.f 0x13 1 }) b))
    ∧ (Begins (.runForeground d) s c sid D b → effMode b = 12 → (∀ n ∈ calPairs D, pairHeld n b = false ∧ (getSkim n b).mode ≠ 4) →
      let t := (calPairs D).foldl (fun s n => startForeground n s) b
      Machine.exec (.runForeground d) s = ran { t with skm := { t.skm with fgRun := some (c, sid, calPairs D) } })
    ∧ (Begins (.runForeground d) s c sid D b → effMode b ≠ 12 → Machine.exec (.runForeground d) s = ends c sid .modeMismatch 0 0 b)
    ∧ (Begins (.tableReset d) s c sid D b → Machine.exec (.tableReset d) s =
      ends c sid .success 0 0 (onCalPairs D (fun _ p => { p with learned := [] }) b))

/-- The descriptors of power hints, the flight recorder, replay and tests (R358, R418, R482, R526, R545, R548, R578): the cap and the next event, a
bundle read out, loaded and unloaded, the retirement record cleared, a port taken into and out of its lane test. What a self-test and a
DRAM test answer is open: the statement names it through the free value. -/
def Obligations.PowerRecorderAndTestDescriptors : Prop :=
  ∀ (d : Sub) (r : List HostRead) (s b : State) (c sid : Nat) (D : Desc),
    (Begins (.powerHintCap d) s c sid D b → Machine.exec (.powerHintCap d) s =
      ends c sid .success 0 0 (modPwr (fun p => { p with cap := BitVec.ofNat 3 (D.f 0x11 1) }) b))
    ∧ (Begins (.powerHintNextEvent d) s c sid D b → Machine.exec (.powerHintNextEvent d) s = ends c sid .success 0 0
      (modCtx c (fun x => { x with nextEvent := if D.f 0x20 16 ≤ now b then none else some (D.f 0x20 16) }) b))
    ∧ (Begins (.powerHintUncap d) s c sid D b → c = 0 → Machine.exec (.powerHintUncap d) s =
      ends c sid .success 0 0 (modPwr (fun p => { p with cap := 6 }) b))
    ∧ (∀ k, Begins (.flightRead d) s c sid D b → ringStream c (D.f 0x10 1) b = some k →
      let t := consolidate (if b.fr.frozen then b else freezeRecorder 1 b)
      let parts := bundleParts (excerpt (D.f 0x20 16) (some (D.f 0x30 4 * 2 ^ 64 / 1000000)) t) t
      let u := parts.zipIdx.foldl (fun s p => formWaiting k (partRec (bundleId t) p.2 p.1) (some (c, sid)) s) t
      Machine.exec (.flightRead d) s = ran (onWritten c sid parts.length parts.length (if bit (D.f 0x11 1) 0 then unfreezeRecorder u else u)))
    ∧ (∀ o l, Begins (.replayLoadHost d r) s c sid D b → D.block 0 (D.f 0x20 8) = some o → splitRecords (D.f 0x20 8 / 64 + 1) o = some l →
      partsOk l = true → Machine.exec (.replayLoadHost d r) s =
        if endOk l then ran (loadBundle c sid (readBundle l (D.f 0x20 8)) b) else ends c sid .bundleInvalid 0 0 b)
    ∧ (Begins (.replayLoadFlight d) s c sid D b → Machine.exec (.replayLoadFlight d) s =
      if b.fr.frozen then ran (loadBundle c sid (flightBundle b) b) else ends c sid .notFrozen 0 0 b)
    ∧ (∀ x, Begins (.replayUnload d) s c sid D b → b.fr.loaded = some x → replaying b = false →
      let t := modFr (fun f => { f with loaded := none, ended := false }) (freeAllocs (fun k => decide (k = .bundle)) b)
      Machine.exec (.replayUnload d) s = ends c sid .success 0 0 (if x.flight then unfreezeRecorder t else t))
    ∧ (Begins (.selftest d) s c sid D b → effMode b = 12 → Machine.exec (.selftest d) s =
      if roomFor ⟨(Config.selftestMb (D.f 0x11 1) (D.f 0x18 8) (D.f 0x20 8)).toNat * mb, 0, 0, 0, 0⟩ b then
        ends c sid .success (freshValue 64 b).1.toNat 0 (freshValue 64 b).2 else ends c sid .resourceBusy 0 1 b)
    ∧ (Begins (.clearRetirement d) s c sid D b → effMode b = 12 → Machine.exec (.clearRetirement d) s =
      ends c sid .success 0 0 (emit (.nor "retirement record cleared" []) { b with spu := { b.spu with record := 0 } }))
    ∧ (Begins (.laneTestEnter d) s c sid D b →
      let p := D.f 0x11 1 - 1
      let w := (getPort p b).width.toNat
      D.f 0x20 8 ≤ advertised p w b → (∀ x, getCtx 0 b = some x → fnPort x.fn ≠ p) → (getPort p b).test = false →
      let t := linkDown p 4 b
      Machine.exec (.laneTestEnter d) s = ends c sid .success 0 0 (modPort p (fun x => { x with
        test := true, state := 11, linkUp := false, rate := BitVec.ofNat 3 (D.f 0x20 8), width := BitVec.ofNat 5 w })
        (modLanes (rangeFrom (16 * p) w) (fun l x => { x.account (nowTick t) with
          active := true, cdrLock := true, elecIdle := false, frozen := false, rate := BitVec.ofNat 3 (D.f 0x20 8), entry := eqEntry l (D.f 0x20 8) t }) t)))
    ∧ (Begins (.laneTestExit d) s c sid D b → Machine.exec (.laneTestExit d) s = ends c sid .success 0 0 (leaveTest (D.f 0x11 1 - 1) b))
    ∧ (Begins (.dramTest d) s c sid D b → Machine.exec (.dramTest d) s = ends c sid .success (freshValue 64 b).1.toNat 0 (freshValue 64 b).2)

/-! ### Modes, plans and contexts -/

/-- The five steps of a mode change (R45-R47, R72, R91, R437, R455, R552), each once the one before it is done: what runs is drained, its
dump records are written, the regions are resized and zeroed, the plans are checked again in the order of their starts, and the mode and
the generation change, with MODE_CHANGED to every context. -/
def Obligations.ModeChangeSteps : Prop :=
  ∀ s : State,
    (inPhase .accepted s = true →
      let t := setWriters 0 (modMode (fun m => { m with change := m.change.map fun c => { c with phase := .drained, plans := changePlans s } })
        (((changePlans s).filter ((s.plans.filter fun p => decide (p.phase = .running)).map (·.id)).contains).foldl (fun s p => drainOne p s) s))
      Machine.exec .modeChangeDrain s = answers (if t.mode.mode = 11 then modFr (fun r => { r with feeding := false }) t else t))
    ∧ (∀ c, s.mode.change = some c → c.phase = .drained →
      let t := c.plans.foldl (fun s p => drainPlan p s) s
      Machine.exec .modeChangeFlush s = answers (setPhase .flushed (if t.mode.mode = 9 ∧ t.mode.target ≠ 9 then dropStaging t else t)))
    ∧ (inPhase .flushed s = true → s.mode.target ≠ 11 → s.mode.mode ≠ 7 ∨ s.mode.target = 7 →
      Machine.exec .modeChangeRepartition s = answers (retireChannels (modeEndsKernels (zeroScratch (setPhase .repartitioned
        (modMode (fun m => { m with replayed := 0, part := partitionOf (limitsMode s.mode.target.toNat 0) }) s))))))
    ∧ (∀ c, s.mode.change = some c → c.phase = .repartitioned →
      let t := { s with plans := mapIf (fun p => c.plans.contains p.id) (fun p => { p with reserved := false }) s.plans }
      Machine.exec .modeChangeRecheck s = answers (routeDefaults (setPhase .rechecked (c.plans.foldl (fun s id =>
        match getPlan id s with
        | none => s
        | some p => match recheckCode p s with
          | none => restartPlan p p.ran s
          | some why => stopAtRecheck p p.ran why s) t))))
    ∧ (∀ c, s.mode.change = some c → c.phase = .rechecked →
      let t := modMode (fun m => { m with mode := m.target, gen := m.gen + 1, change := none }) s
      let u := completeBy c.asker .success t.mode.gen.toNat 0
        (sendAll 0x0001 t.mode.mode.toNat (partitionImage t.mode) t.mode.gen.toNat 0 (journalMode t))
      Machine.exec .modeChanged s = answers (if u.dram.chans.any (·.failed.isSome) then beginRebuild u else lostEnds 2 u))

/-- What plans and their streams reach by themselves (R215, R216, R196, R415, R434, R527): a waiting plan's first word of a pair starts it,
the drains of a stopping plan end, a stream passes the switch point of its reconfiguration, and a duty cycle pauses and resumes a plan. -/
def Obligations.PlanSteps : Prop :=
  (∀ (plan : BitVec 32) (s : State) (p : Plan) (n : Nat), getPlan plan.toNat s = some p → p.phase = .waiting → drained s = false →
    (if maskIdx (p.h 0x14 1) 4 = [] then [0] else maskIdx (p.h 0x14 1) 4).find?
      (fun n => wordsArrive n s && decide (p.firstTagNow s ≤ pairNext n s)) = some n →
    Machine.exec (.planFirstWord plan) s = answers (beginPlan plan.toNat (pairNext n s) s))
  ∧ (∀ (plan : BitVec 32) (s : State) (p : Plan), getPlan plan.toNat s = some p → p.phase = .stopping →
    Machine.exec (.planStopComplete plan) s =
      answers (completeBy p.stopper .success (p.lastTag.getD 0) 0 (releasePlan plan.toNat (drainPlan plan.toNat s))))
  ∧ (∀ (plan : BitVec 32) (s : State), let mine := s.dsp.drain.filter fun d => decide (d.plan = plan.toNat)
    Machine.exec (.intDrainEnd plan) s = answers ((mine.mergeSort fun a b => decide (a.order ≤ b.order)).foldl (fun s d =>
      let r := recordOn (planCtx plan.toNat s) d.ring ⟨d.recType, d.bytes, d.payload, d.spanStart, d.spanEnd⟩ s
      if r.2 then (if d.engine = 5 then modDsp (fun d => { d with crossDrops := satInc d.crossDrops }) r.1 else engDrop d.engine r.1) else r.1)
      (modDsp (fun d => { d with drain := d.drain.filter fun x => decide (x.plan ≠ plan.toNat) }) s)))
  ∧ (∀ (plan : BitVec 32) (stream : BitVec 8) (s : State) (x : XStream) (w : XSwitch) (h : Nat × HWord),
    4 ≤ x.engine → getX plan.toNat stream.toNat s = some x → x.switch = some w → x.hist.head? = some h → w.point ≤ h.1 + x.width → w.load = false →
    let t := closeForSwitch plan.toNat stream.toNat (formAll plan.toNat stream.toNat s)
    Machine.exec (.transformSwitch plan stream) s = answers (modEng x.engine (fun e => { e with switches := satInc e.switches })
      (modX plan.toNat stream.toNat (fun y => { y with
        cfg := w.cfg, next := w.point, since := if w.cfg.lg ≠ x.cfg.lg ∨ w.cfg.taps ≠ x.cfg.taps then w.point else y.since
        change := true, switch := none, answer := some (w.asker.1, w.asker.2, w.point) }) t)))
  ∧ ∀ (plan : BitVec 32) (s : State) (p : Plan) (d : Duty) (n : Nat), getPlan plan.toNat s = some p → planClock plan.toNat s = some n →
    p.duty = some d → wordsArrive n s = true →
    (d.paused = false → Machine.exec (.dutyWindowEnd plan) s = answers (dutyStep plan.toNat (planNext plan.toNat s) s))
    ∧ (d.paused = true → Machine.exec (.dutyWindowStart plan) s = answers (dutyStep plan.toNat (planNext plan.toNat s) s))

/-- Contexts come and go (R373-R378): a decision on an ATTACH, a DETACH, the causes of a teardown, and its end, after which the number is
free, context 0 is told, and a CONTEXT_DESTROY that named the context completes. -/
def Obligations.ContextEvents : Prop :=
  (∀ (fn : BitVec 7) (v : BitVec 32) (s : State), let f := fn.toNat
    let t := attach f (modFn f (fun r => { r with ctlContext := v.extractLsb' 16 10 }) s)
    Machine.exec (.attach fn v) s = answers (if v.getLsbD 1 then detach f t else t))
  ∧ (∀ (fn : BitVec 7) (v : BitVec 32) (s : State), v.getLsbD 0 = false →
    Machine.exec (.detach fn v) s = answers (detach fn.toNat (modFn fn.toNat (fun r => { r with ctlContext := v.extractLsb' 16 10 }) s)))
  ∧ (∀ (f : Nat) (s : State) (r : FnRegs), getFn f s = some r → r.attHeld = false → s.pwr.state ≠ 6 →
    (attachCheck f r.request s = none → s.mode.change = none →
      attach f s = reportAttach f 2 (admitCtx f r.request s).1 0 (admitCtx f r.request s).2)
    ∧ (∀ st r1, attachCheck f r.request s = some (st, r1) → attach f s =
        reportAttach f 3 0 st.code (modHost (fun h => { h with refusals := satInc h.refusals }) s)))
  ∧ (∀ (f : Nat) (s : State) (r : FnRegs) (x : Ctx), getFn f s = some r → getCtx r.ctlContext.toNat s = some x → x.fn = f → x.state = .live →
    detach f s = startTeardown r.ctlContext.toNat 2 none
      (modFn f (fun q => { q with attHeld := r.attHeld }) (reportAttach f 0 r.ctlContext.toNat 0 s)))
  ∧ (∀ (ctx : BitVec 10) (s : State), Machine.exec (.descriptorFetchError ctx) s = answers (startTeardown ctx.toNat 5 none s))
  ∧ (∀ (fn : BitVec 7) (s : State), Machine.exec (.functionLevelReset fn) s = answers (tearFunction fn.toNat
      (modHost (fun h => { h with latches := h.latches.filter fun l => decide (l.fn ≠ fn.toNat) }) s)))
  ∧ (∀ (fn : BitVec 7) (s : State), Machine.exec (.busMasterEnableClear fn) s = answers
      (((s.host.ctxs.filter fun x => if fnNumber fn.toNat = 0 then decide (fnPort x.fn = fnPort fn.toNat) else decide (x.fn = fn.toNat)).map (·.num)).foldl
        (fun s c => startTeardown c 3 none s) s))
  ∧ (∀ (port : BitVec 1) (s : State), Machine.exec (.vfEnableClear port) s = answers
      (((s.host.ctxs.filter fun x => decide (fnPort x.fn = port.toNat)).map (·.num)).foldl (fun s c => startTeardown c 3 none s) s))
  ∧ (∀ (ctx : BitVec 10) (s : State) (x : Ctx), getCtx ctx.toNat s = some x → x.state = .tearingDown → x.destroyer.map (·.1) ≠ some ctx.toNat →
    ctx ≠ 0 → let t := freeAllRings ctx.toNat (dropHoldings ctx.toNat s)
    Machine.exec (.contextTeardownComplete ctx) s = answers (completeBy x.destroyer .success 0 0 (sendAdmin 0x0051 ctx.toNat x.cause 0 0
      (modHost (fun h => { h with ctxs := h.ctxs.filter fun y => decide (y.num ≠ ctx.toNat) }) t))))

/-- Doorbells and interrupts (R382-R384, R387, R388, R390-R392): a write in range moves its index and arms its ring, one out of range is
counted; an entry that has waited its time signals; unmasking sends what is pending; the heartbeat is written every 800,000th tick. -/
def Obligations.DoorbellsAndInterrupts : Prop :=
  ∀ (fn : BitVec 7) (page : BitVec 10) (v : BitVec 32) (r : BitVec 3) (s : State), let f := fn.toNat; let p := page.toNat; let w := v.toNat
    (pageCtx f p s = none → Machine.exec (.hstDbCmd fn page v) s = answers (modFn f (fun r => { r with dbErrors := satInc r.dbErrors }) s))
    ∧ (∀ x, pageCtx f p s = some x → x.state = .live → w < 2 ^ x.cmdLog2 →
      (w + 2 ^ x.cmdLog2 - x.cmdHead) % 2 ^ x.cmdLog2 ≥ (x.cmdTail + 2 ^ x.cmdLog2 - x.cmdHead) % 2 ^ x.cmdLog2 →
      Machine.exec (.hstDbCmd fn page v) s = answers (modCtx x.num (fun x => { x with cmdTail := w }) s))
    ∧ (∀ x, pageCtx f p s = some x → 2 ^ x.cmdLog2 ≤ w → x.dbRaised = false →
      Machine.exec (.hstDbCmd fn page v) s = answers (sendEvent x.num 0x0053 0 (p * 4096) w 0
        (modFn x.fn (fun r => { r with dbErrors := satInc r.dbErrors })
          (modCtx x.num (fun c => { c with dbErrors := satInc c.dbErrors, dbRaised := true }) s))))
    ∧ (∀ x, pageCtx f p s = some x → x.state = .live → headOk x.cpl.log2 x.cpl.head x.cpl.tail w = true → Machine.exec (.hstDbCpl fn page v) s =
      answers (drainHeld x.num x.held.length (signalIfDue x.num .cpl
        (modCtx x.num (fun c => { c with cpl := { c.cpl with head := w, armed := true } }) s))))
    ∧ (∀ x, pageCtx f p s = some x → x.state = .live → headOk x.evt.log2 x.evt.head x.evt.tail w = true → Machine.exec (.hstDbEvt fn page v) s =
      answers (reportLostEvents x.num (signalIfDue x.num .evt
        (modCtx x.num (fun c => { c with evt := { c.evt with head := w, armed := true } }) s))))
    ∧ (∀ x y, pageCtx f p s = some x → x.ring (r.toNat + 1) = some y → x.state = .live → headOk y.log2 y.head y.w w = true →
      Machine.exec (.hstDbData fn page r v) s = answers (creditStream y.streamId (signalIfDue x.num (.data (r.toNat + 1))
        (modRing x.num (r.toNat + 1) (fun y => { y with head := w, armed := true }) s))))
    ∧ (∀ x ctx, getCtx (BitVec.toNat (w := 10) ctx) s = some x → x.cpl.armed = true → x.cpl.vecEn = true → 0 < x.cpl.count →
      Machine.exec (.interruptModTimer ctx 0) s = answers (signalVector x.fn x.cpl.vec (modCtx ctx.toNat (fun x => { x with cpl := x.cpl.disarm }) s)))
    ∧ (∀ x ctx, getCtx (BitVec.toNat (w := 10) ctx) s = some x → x.evt.armed = true → x.evt.vecEn = true → 0 < x.evt.count →
      Machine.exec (.interruptModTimer ctx 1) s = answers (signalVector x.fn x.evt.vec (modCtx ctx.toNat (fun x => { x with evt := x.evt.disarm }) s)))
    ∧ (∀ g vec, getFn f s = some g → BitVec.toNat (w := 11) vec < fnVectors f →
      let t := modFn f (fun r => { r with unmasked := insertVec vec.toNat r.unmasked, pba := r.pba.filter fun x => decide (x ≠ vec.toNat) }) s
      Machine.exec (.msixUnmask fn vec) s = .next (if g.pba.contains vec.toNat then emit (.msix f vec.toNat) t else t))
    ∧ (s.tim.running = true → Machine.exec .heartbeatWrite s =
      answers (heartbeat s.hedge.safe (advanceToTick ((nowTick s / 800000 + 1) * 800000) s)))

/-- Events (R384): one that finds its ring full is dropped and counted; until the count has been reported no newer event is written, and a
doorbell that makes room writes one EVENTS_LOST event with the number dropped. -/
def Obligations.DroppedEventsAreReported : Prop :=
  ∀ (c code subject d d2 d3 : Nat) (s : State) (x : Ctx), getCtx c s = some x →
    (x.evt.hasRoom = true → x.lostUnsent = 0 → sendEvent c code subject d d2 d3 s =
      writeEvt c ⟨BitVec.ofNat 64 (timeMid (now s)), code, subject % 2 ^ 32, d % 2 ^ 64, d2 % 2 ^ 32, d3 % 2 ^ 16⟩ s)
    ∧ (x.evt.hasRoom = false ∨ x.lostUnsent ≠ 0 → sendEvent c code subject d d2 d3 s =
      modCtx c (fun x => { x with eventsLost := satInc x.eventsLost, lostUnsent := x.lostUnsent + 1 }) s
      ∧ (sendEvent c code subject d d2 d3 s).out = s.out)
    ∧ (x.evt.hasRoom = true → x.lostUnsent ≠ 0 → reportLostEvents c s =
      writeEvt c ⟨BitVec.ofNat 64 (timeMid (now s)), 0x0052, 0, x.lostUnsent, 0, 0⟩ (modCtx c (fun x => { x with lostUnsent := 0 }) s))
    ∧ ∀ (fn : BitVec 7) (page : BitVec 10) (v : BitVec 32), pageCtx fn.toNat page.toNat s = some x → x.state = .live →
      headOk x.evt.log2 x.evt.head x.evt.tail v.toNat = true → Machine.exec (.hstDbEvt fn page v) s =
        answers (reportLostEvents x.num (signalIfDue x.num .evt
          (modCtx x.num (fun c => { c with evt := { c.evt with head := v.toNat, armed := true } }) s)))

/-! ### Time -/

/-- The time base (R51, R55, R57-R59, R62, R64, R68, R409, R508): the earliest wait ends, a SET_TIME that finds no edge ends PPS_ABSENT,
the PPS output rises and falls, an anchor comes into force at each whole second, and the clocks go and come back. -/
def Obligations.TimeBaseEvents : Prop :=
  ∀ (s : State),
    (∀ t r, timeWaits s = t :: r → Machine.exec .timeWaitRelease s = answers (advanceToTime (r.foldl min t) s))
    ∧ (∀ p, s.tim.setPending = some p → Machine.exec .setTimePpsTimeout s = answers (failDesc p.ctx p.sid .ppsAbsent
        (modTim (fun t => { t with setPending := none }) (advanceToTick (p.accepted + 1200000000) s))))
    ∧ (s.tim.running = true → s.tim.setApplied = true → s.tim.ppsLostRaised = false → Machine.exec .ppsLost s = answers (sendAll 0x0006 0 0 0 0
        (modTim (fun t => { t with ppsPresent := false, ppsLostRaised := true }) (advanceToTick (s.tim.ppsRef + 2400000000) s))))
    ∧ (s.tim.running = true → s.tim.ppsOutEnable = true → s.tim.ppsOutHigh = false → s.tim.setApplied = true →
      Machine.exec .ppsOutRise s = answers (emit (.pin .ppsOut true (ppsOutNext s)) (modTim (fun m => { m with
        ppsOutHigh := true, ppsOutFall := ppsOutNext s + m.ppsOutWidth.toNat * 800000 }) (advanceToTick (ppsOutNext s) s))))
    ∧ (s.tim.ppsOutHigh = true → Machine.exec .ppsOutFall s = answers (ppsOutLow s.tim.ppsOutFall (advanceToTick s.tim.ppsOutFall s)))
    ∧ (∀ m, s.tim.running = true → Machine.exec (.timeAnchor m) s =
        answers (anchorAt (nextAnchorSecond s) m (advanceToTime (nextAnchorSecond s * 2 ^ 64) s)))
    ∧ (s.tim.refclkLost = false → Machine.exec .refclkLost s = answers (freezeRecorder 4 (sendAll 0x0122 1 0 1 0
        (modTim (fun t => { t with refclkLost := true, refOk := false, tpllLock := false }) s))))
    ∧ (∀ ok, s.tim.refclkLost = true → Machine.exec (.refclkRestored ok) s = answers (sendAll 0x0122 1 0 2 0
        (modTim (fun t => { t with refclkLost := false, refOk := ok, tpllLock := true }) s)))
    ∧ (∀ ok, s.tim.refclkLost = false → Machine.exec (.refOkChange ok) s = .next (modTim (fun t => { t with refOk := ok }) s))
    ∧ (s.hedge.sclkLost = false → s.tim.sclkIn = true → Machine.exec .sclkLost s = answers (freezeRecorder 4 (sendAll 0x0122 2 0 1 0
        (modTim (fun t => { t with sclkLock := false }) { s with hedge := { s.hedge with sclkLost := true } }))))
    ∧ (∀ o, s.hedge.sclkLost = true → Machine.exec (.sclkRestored o) s =
        answers (relock o.toNat (sendAll 0x0122 2 0 2 0 { s with hedge := { s.hedge with sclkLost := false } })))
    ∧ (∀ o, s.tim.relocking = true → s.hedge.sclkLost = false → Machine.exec (.spllRelock o) s = answers (relock o.toNat s))

/-- Edges and stamps (R59, R69-R77): an edge moves time on to its tick, is stamped or lost, triggers, and on PPS_IN is judged or applies
a SET_TIME; the readout takes stamps, whose record closes 10 us after its first; a wrap marks every stream; a calibration falls due. -/
def Obligations.TimestampEvents : Prop :=
  ∀ (s : State) (ch : BitVec 3) (tick : BitVec 64) (sub taken : Nat) (rising : Bool),
    (s.tim.running = true → sub < tickSub → edgeExists ch.toNat s = true → ch ≠ 0 →
      let t := gatesDue tick.toNat (toTick tick.toNat s)
      let r := stampEdge ch.toNat tick.toNat sub rising t
      Machine.exec (.tdcEdge ch tick sub rising taken) s = answers (takeStamps ch.toNat taken
        (if r.2 && !replaying t then trigStamp ch.toNat tick.toNat sub rising r.1 else r.1)))
    ∧ (s.tim.running = true → sub < tickSub →
      let t := gatesDue tick.toNat (toTick tick.toNat s)
      let r := stampEdge 0 tick.toNat sub rising t
      let u := if r.2 && !replaying t then trigStamp 0 tick.toNat sub rising r.1 else r.1
      Machine.exec (.ppsInEdge tick sub rising taken) s =
        answers (takeStamps 0 taken (if r.2 && decide (rising ≠ u.tim.ppsFalling) then ppsEdge tick.toNat sub u else u)))
    ∧ ((getTdc ch.toNat (takeStamps ch.toNat taken s)).openRec = [] →
      Machine.exec (.tdcStampsClose ch taken) s = answers (takeStamps ch.toNat taken s))
    ∧ (∀ p r, (getTdc ch.toNat (takeStamps ch.toNat taken s)).openRec = p :: r → Machine.exec (.tdcStampsClose ch taken) s =
        answers (closeStamps ch.toNat (advanceToTick (p.tick + 8000) (takeStamps ch.toNat taken s))))
    ∧ (s.tim.running = true → Machine.exec .tdcWrap s = answers (tdcMarkAll 0 (advanceToTick (nextWrap s) s)))
    ∧ (∀ one two temp, (getTdc ch.toNat s).owner.isSome = true → 2 ^ 16 ≤ (getTdc ch.toNat s).stampsSinceCal →
      Machine.exec (.tdcCalibration ch tick one two temp) s =
        answers (calibrate ch.toNat 1 tick.toNat one.toNat two.toNat temp.toNat none (toTick tick.toNat s)))
    ∧ (∀ one two temp, (getTdc ch.toNat s).owner.isSome = true → (getTdc ch.toNat s).stampsSinceCal < 2 ^ 16 →
      (getTdc ch.toNat s).lastCal + 800000 ≤ tick.toNat → Machine.exec (.tdcCalibration ch tick one two temp) s =
        answers (calibrate ch.toNat 0 tick.toNat one.toNat two.toNat temp.toNat none (toTick tick.toNat s)))

/-- Stamps (R71, and R72's queue): each channel stamps both edges; the owner's selection (1 rising, 2 falling, 3 both) says which are
exported; an edge less than one tick (1.25 ns) after the edge before it is lost, counted and marked on the next exported stamp; a stamp that
finds the queue full is lost and counted; no other channel changes. -/
def Obligations.EdgesAreStampedOrCounted : Prop :=
  ∀ (ch tick sub : Nat) (rising : Bool) (s : State), ch < s.tim.chans.length →
    let c := getTdc ch s
    let t := tick * tickSub + sub
    let r := stampEdge ch tick sub rising s
    let exported := c.owner.isSome = true ∧ (c.edges = 3 ∨ (c.edges = 1 ∧ rising = true) ∨ (c.edges = 2 ∧ rising = false))
    ((∃ l, c.lastEdge = some l ∧ t < l + tickSub) →
      r.2 = false ∧ getTdc ch r.1 = { c with lastEdge := some t, deadLost := satInc c.deadLost, deadMark := true })
    ∧ ((∀ l, c.lastEdge = some l → l + tickSub ≤ t) → r.2 = true
      ∧ (exported → c.queue.length < c.queueRoom → getTdc ch r.1 = { c with
          lastEdge := some t, stampsSinceCal := c.stampsSinceCal + 1, deadMark := false, queueMark := false
          queue := c.queue ++ [⟨tick, sub, rising, c.deadMark, c.queueMark⟩] })
      ∧ (exported → c.queueRoom ≤ c.queue.length → getTdc ch r.1 = { c with
          lastEdge := some t, stampsSinceCal := c.stampsSinceCal + 1, queueLost := satInc c.queueLost, queueMark := true })
      ∧ (¬ exported → getTdc ch r.1 = { c with lastEdge := some t, stampsSinceCal := c.stampsSinceCal + 1 }))
    ∧ ∀ k, k ≠ ch → getTdc k r.1 = getTdc k s

/-- Gated measurements (R79, R85): an edge asserts or deasserts; the gate opens two ticks after its assertion, and closes two ticks after
its deassertion or at max_duration, whichever is first. -/
def Obligations.GateEvents : Prop :=
  ∀ (s : State) (pin : BitVec 1) (level : Bool) (tick : BitVec 64) (g : Gate), let p := pin.toNat
    (∀ t, gatesDue tick.toNat (advanceToTick tick.toNat s) = t → getGate p t = some g →
      (g.phase = .armed → level = g.high → Machine.exec (.gateEdge pin level tick) s =
        answers (modGate p (fun g => { g with phase := .asserting tick.toNat }) t))
      ∧ (g.phase = .opened → level ≠ g.high → Machine.exec (.gateEdge pin level tick) s =
        answers (modGate p (fun g => { g with phase := .closing tick.toNat }) t))
      ∧ (g.phase = .opened → level = g.high → Machine.exec (.gateEdge pin level tick) s = answers t))
    ∧ (∀ e, getGate p s = some g → g.phase = .asserting e →
      let t := advanceToTick (e + 2) s
      Machine.exec (.gateOpen pin) s = answers (modGate p (fun g => { g with
        phase := .opened, openTick := e + 2, openTime := timeOfTick (e + 2) t }) t))
    ∧ (∀ e, getGate p s = some g → g.phase = .closing e → e + 2 ≤ g.openTick + g.maxUs * 800 →
      Machine.exec (.gateClose pin) s = answers (gateCloses p (e + 2) false (advanceToTick (e + 2) s)))
    ∧ (getGate p s = some g → g.phase = .opened →
      Machine.exec (.gateMaxDuration pin) s = answers (gateCloses p (g.openTick + g.maxUs * 800) true (advanceToTick (g.openTick + g.maxUs * 800) s)))

/-! ### Registers -/

/-- Reads and writes of BAR0, BAR2 and BAR4 (R108, R369-R371, R451, R452): a read gives the register's value and clears its RC fields; a read
of the low half of a 128-bit register keeps the high half for the next read; the low half of a spanning field waits for its high half;
an access of a width or alignment that no BAR accepts is counted and has no other effect; a read in a window of BAR4 gives its bytes, poisoned
where they are, a write stores its bytes, and outside every window a read gives none and a write is counted. -/
def Obligations.RegisterAccesses : Prop :=
  (∀ (fn : BitVec 7) (bar : BitVec 2) (off : BitVec 23) (width : BitVec 5) (s : State), let f := fn.toNat; let o := off.toNat
    (∀ r, accessBad o width.toNat = false → debugOpen f bar.toNat o s = false → regsIn f bar.toNat o width.toNat s = [r] → r.off = o →
      r.bytes = width.toNat → let v := readReg bar.toNat r s
      Machine.exec (.rcRead fn bar off width) s = answers (emit (.readData f width.toNat (v.1 % 2 ^ (8 * width.toNat))) (clearRc f bar.toNat o v.2)))
    ∧ (accessBad o width.toNat = true → Machine.exec (.rcRead fn bar off width) s = answers (emit (.readData f width.toNat 0)
        (modFn f (fun r => { r with barViolations := satInc r.barViolations }) s)))
    ∧ (∀ r, debugOpen f 0 (o / 16 * 16) s = false → regsIn f 0 (o / 16 * 16) 8 s = [r] → r.off = o / 16 * 16 → r.bytes = 16 →
      let v := readReg 0 r s
      Machine.exec (.splitReadLow fn off) s = answers (emit (.readData f 8 (v.1 % 2 ^ 64))
        (modHost (fun h => { h with latches := keepHalf ⟨f, 0, r.off, v.1 / 2 ^ 64 % 2 ^ 64⟩ h.latches }) (clearRc f 0 r.off v.2))))
    ∧ (∀ r, accessBad o 8 = false → debugOpen f 0 o s = false → regsIn f 0 o 8 s = [r] → r.bytes = 16 → r.off + 8 = o →
      Machine.exec (.rcRead fn 0 off 8) s = answers (emit (.readData f 8 (latchOf f 0 r.off s % 2 ^ 64)) (clearRc f 0 r.off (readReg 0 r s).2)))
    ∧ (∀ v cur, vfForbidden f 0 (o / 8 * 8) = false → fnNumber f = 0 → wideReg f (o / 8 * 8) s = some (cur, true) →
      Machine.exec (.splitWriteLow fn off v) s = answers (modHost (fun h => { h with staged := keepHalf ⟨f, 0, o / 8 * 8, v.toNat⟩ h.staged }) s))
    ∧ (∀ v, fnNumber f = 0 → o % 8 = 0 → wideReg f o s = none →
      Machine.exec (.registerWrite fn 0 off 4 v) s = answers (write0 f o (v.toNat % 2 ^ 32) s))
    ∧ (∀ v cur, fnNumber f = 0 → o % 8 = 0 → wideReg f o s = some (cur, true) →
      Machine.exec (.registerWrite fn 0 off 8 v) s = answers (dropStaged f o (setWide f o (v.setWidth 64) s)))
    ∧ (∀ v, o % 4 = 0 → Machine.exec (.registerWrite fn 2 off 4 v) s = answers (write2 f o (v.toNat % 2 ^ 32) s))
    ∧ (∀ v, accessBad o width.toNat = true ∨ vfForbidden f bar.toNat o = true → Machine.exec (.registerWrite fn bar off width v) s =
        answers (modFn f (fun r => { r with barViolations := satInc r.barViolations }) s))
    ∧ (accessBad o width.toNat = true ∨ vfForbidden f bar.toNat o = true → Machine.exec (.barAccessInvalid fn bar off width true) s =
        .next (modFn f (fun r => { r with barViolations := satInc r.barViolations }) s))
    ∧ (accessBad o width.toNat = true → Machine.exec (.barAccessInvalid fn bar off width false) s =
        .next (emit (.readData f width.toNat 0) (modFn f (fun r => { r with barViolations := satInc r.barViolations }) s))))
  ∧ ∀ (port : BitVec 1) (a : BitVec 36) (n : BitVec 13) (l : List Byte) (poisoned : Bool) (s : State),
    (inWindow a.toNat n.toNat s = true → a.toNat < stagingBase →
      let r := dramRead 1 (windowOwner a.toNat s) a.toNat n.toNat s
      Machine.exec (.bar4Access port a n none poisoned) s =
        answers (emit (.bar4Data port.toNat (some r.1) (!(s.dram.poisonIn a.toNat n.toNat).isEmpty)) r.2))
    ∧ (inWindow a.toNat n.toNat s = false →
      Machine.exec (.bar4Access port a n none poisoned) s = answers (emit (.bar4Data port.toNat none false) s))
    ∧ (inWindow a.toNat l.length s = true → a.toNat < stagingBase →
      Machine.exec (.bar4Access port a n (some l) poisoned) s = answers (dramWrite a.toNat l poisoned s))
    ∧ (inWindow a.toNat l.length s = true → stagingBase ≤ a.toNat → Machine.exec (.bar4Access port a n (some l) poisoned) s = answers s)
    ∧ (inWindow a.toNat l.length s = false → Machine.exec (.bar4Access port a n (some l) poisoned) s =
        answers (modFn (64 * port.toNat) (fun r => { r with barViolations := satInc r.barViolations }) s))

/-- A write into a window of BAR4 (R371): the bytes that it stores read back, every other byte of capture memory reads as before, and the
memory keeps its canonical form. -/
def Obligations.WindowWritesStoreTheirBytesOnly : Prop :=
  ∀ (port : BitVec 1) (a : BitVec 36) (n : BitVec 13) (l : List Byte) (poisoned : Bool) (s : State),
    Memory.wf s.dram.mem = true → inWindow a.toNat l.length s = true → a.toNat < stagingBase →
    ∃ t, Machine.exec (.bar4Access port a n (some l) poisoned) s = answers t ∧ Memory.wf t.dram.mem = true
      ∧ ∀ x, Memory.read x t.dram.mem =
        if a.toNat ≤ x ∧ x < a.toNat + l.length then l.getD (x - a.toNat) 0 else Memory.read x s.dram.mem

/-- Writes that start something (R109, R117, R119, R365, R480, R483, R484), by a physical function: the bit of the row is set in the value. -/
def Obligations.ActingWrites : Prop :=
  ∀ (fn : BitVec 7) (lane : BitVec 5) (v : BitVec 32) (s : State), fnNumber fn.toNat = 0 →
    Machine.exec (.csuRestart fn v) s = .next (modCsu (fun c => Csu.discard (nextIndex s) (Csu.write (v.toNat % 256) (nextIndex s) c)) s)
    ∧ Machine.exec (.csuCfgWrite fn v) s = .next (modCsu (Csu.write v.toNat (nextIndex s)) s)
    ∧ Machine.exec (.amcClr fn v) s = .next (modAmc (fun a => { a with
        acc := a.acc.zipIdx.map fun x => if v.getLsbD x.2 then AmcAcc.empty else x.1 }) s)
    ∧ (v.getLsbD 0 = false → Machine.exec (.amcCfgWrite fn v) s = .next (modAmc (fun a => { a with
        run := false, cur := none, lastSlot := v.extractLsb' 1 6, trimSel := if v.extractLsb' 8 5 < 16 then v.extractLsb' 8 5 else a.trimSel }) s))
    ∧ (v.getLsbD 0 = true → s.adc.amc.run = false → Machine.exec (.amcCfgWrite fn v) s = .next (modAmc (fun a =>
        Amc.startSlot a.slot.toNat { a with
          run := true, lastSlot := v.extractLsb' 1 6, trimSel := if v.extractLsb' 8 5 < 16 then v.extractLsb' 8 5 else a.trimSel }) s))
    ∧ (∀ x, effMode s = 12 → getCtx 0 s = some x → x.fn = fn.toNat → (v.extractLsb' 15 5).toNat ≤ 16 →
      Machine.exec (.ucsInject fn v) s = .next (modSpu (fun x => { x with
        injAddr := v.extractLsb' 0 14, injPatch := v.getLsbD 14, injArm := true, injUnit := v.extractLsb' 15 5 }) s))
    ∧ (effMode s ≠ 12 → Machine.exec (.ucsInject fn v) s = .next s)
    ∧ (v.getLsbD 26 = false → Machine.exec (.esStart fn v) s = .next (startScan (modScan (fun e => { e with
        lane := v.extractLsb' 0 5
        toff := if -32 ≤ (v.extractLsb' 5 7).toInt ∧ (v.extractLsb' 5 7).toInt ≤ 32 then v.extractLsb' 5 7 else e.toff
        voff := if -60 ≤ (v.extractLsb' 12 7).toInt ∧ (v.extractLsb' 12 7).toInt ≤ 60 then v.extractLsb' 12 7 else e.voff
        dwell := if 20 ≤ (v.extractLsb' 19 6).toNat ∧ (v.extractLsb' 19 6).toNat ≤ 40 then v.extractLsb' 19 6 else e.dwell }) s)))
    ∧ (v.getLsbD 25 = false → s.link.scan.state = 1 → ∃ t, Machine.exec (.esAbort fn v) s = .next t ∧ t.link.scan.state = 3
      ∧ t.link.scan.fin = 1 ∧ t.link.scan.bits.toNat < 2 ^ s.link.scan.runDwell.toNat ∧ t.link.scan.errors.toNat ≤ t.link.scan.bits.toNat)
    ∧ (testLane lane.toNat s = false → Machine.exec (.injGo fn lane v) s = .next s ∧ Machine.exec (.prbsClear fn lane v) s = .next s)
    ∧ (testLane lane.toNat s = true → (getLane lane.toNat s).locked = false → Machine.exec (.injGo fn lane v) s = .next (modLane lane.toNat
        (fun x => (configureLane (nowTick s) ((v &&& ~~~0x80000#32)).toNat (x.account (nowTick s))).inject (nowTick s)) s))
    ∧ (testLane lane.toNat s = true → (getLane lane.toNat s).locked = false → v.getLsbD 19 = false →
      Machine.exec (.prbsClear fn lane v) s = .next (modLane lane.toNat (fun x =>
        (configureLane (nowTick s) ((v &&& ~~~0x100000#32)).toNat (x.account (nowTick s))).clearCounts (nowTick s)) s))

/-! ### Hedge, power states and start-up -/

/-- The guards (R505-R507, R509, R538): an input's attenuator engages and releases, a hot sensor throttles and the ladder steps, a trip
holds the Main domain in reset, a supply out of its window resets it, and a missed kick resets the MP. -/
def Obligations.HedgeGuards : Prop :=
  ∀ (s : State) (i : BitVec 2) (sensor : BitVec 4) (temp : BitVec 16) (rail : BitVec 3) (reading : BitVec 16),
    let hot := modHedge (fun h => { h with temps := modNth h.temps sensor.toNat fun _ => temp.toInt, tjPeak := max h.tjPeak temp.toInt }) s
    (s.hedge.aoOk = true → Machine.exec (.rfTrip i true) s = .next (engage i.toNat 1 s))
    ∧ (s.hedge.protect.getLsbD i.toNat = false → Machine.exec (.rfTrip i false) s = .next s)
    ∧ (s.hedge.protect.getLsbD i.toNat = true →
      let t := modHedge (fun h => { h with protect := h.protect &&& ~~~(BitVec.ofNat 4 (2 ^ i.toNat)) })
        (advanceToTick (nth s.hedge.holds i.toNat 0) s)
      Machine.exec (.rfHoldExpiry i) s = answers ((pairsOfInput i.toNat t).foldl (fun s n => modPair n (Pair.settle 256) s) t))
    ∧ (hot.hedge.throttle = false → 64 * s.hedge.throttleC.toNat ≤ temp.toInt →
      let t := modHedge (fun h => { h with throttle := true }) hot
      Machine.exec (.thermalThrottle sensor temp) s = answers (ladderDown (sendAdmin 0x0121 sensor.toNat (wrapInt 64 (tj t)) 1 0 t)))
    ∧ (hot.hedge.throttle = true → Machine.exec (.thermalThrottle sensor temp) s = answers hot)
    ∧ (hot.hedge.throttle = true → tj hot < 64 * s.hedge.throttleC.toNat - 192 →
      let t := modHedge (fun h => { h with throttle := false }) { hot with pwr := { hot.pwr with stepTick := nowTick hot } }
      Machine.exec (.throttleClear sensor temp) s = answers (sendAdmin 0x0121 sensor.toNat (wrapInt 64 (tj t)) 2 0 t))
    ∧ (s.hedge.throttle = true → s.pwr.mpUp = true → s.pwr.step.toNat < 6 → Machine.exec .thermalStep s =
        answers (ladderTo (s.pwr.step.toNat + 1) false (advanceToTick (s.pwr.stepTick + 1600000000) s)))
    ∧ (s.hedge.throttle = false → s.pwr.mpUp = true → s.pwr.step ≠ 0 → Machine.exec .thermalStepUndo s =
        answers (ladderTo (s.pwr.step.toNat - 1) true (advanceToTick (s.pwr.stepTick + 8000000000) s)))
    ∧ (s.hedge.tripped = false → 64 * s.hedge.tripC.toNat ≤ temp.toInt → ∃ t, Machine.exec (.thermalTrip sensor temp) s = .next t
      ∧ t.hedge.tripped = true ∧ t.hedge.thermalTrips = s.hedge.thermalTrips + 1 ∧ t.host.stage = 0 ∧ t.host.ctxs = [] ∧ t.plans = []
      ∧ mayStart t = false)
    ∧ (s.hedge.railsOut = [] → s.host.stage ≠ 0 → Machine.exec (.supplyFault rail reading) s = .next (resetMain true 6 false
        (modHedge (fun h => { h with
          railsOut := [16 + rail.toNat], supplyLatch := true, supplyResets := h.supplyResets + 1, countRestart := true
          waiting := h.waiting ++ [(0x0126, 16 + rail.toNat, reading.toNat, 0)] }) s)))
    ∧ (s.hedge.railsOut ≠ [] → Machine.exec .supplyRecovered s = .next (tryStart (modHedge (fun h => { h with railsOut := [] }) s)))
    ∧ (s.pwr.mpUp = true → (recentResets s).length < 2 → Machine.exec .watchdogMiss s =
        .next (sendAdmin 0x0123 0 ((recentResets s).length + 1) 0 0 (freezeRecorder 5 (modHedge (fun h => { h with
          wdogResets := h.wdogResets + 1, wdogTicks := recentResets s ++ [nowTick s] }) { s with pwr := { s.pwr with mpUp := false } }))))
    ∧ (s.pwr.mpUp = false → 2 < s.host.stage.toNat →
      Machine.exec .mpRestartComplete s = answers { s with pwr := { s.pwr with mpUp := true } })

/-- What a function asks of Hedge (R511, R512): a refused request shows its reason and has no other effect; a granted one is shown, and
does what it names. -/
def Obligations.HedgeRequests : Prop :=
  ∀ (fn : BitVec 7) (arg : BitVec 4) (s : State) (r : FnRegs), getFn fn.toNat s = some r →
    let shown := fun (st reason : Nat) => modFn fn.toNat (fun r =>
      { r with hedgeState := BitVec.ofNat 2 st, hedgeReason := BitVec.ofNat 4 reason, hedgeSeq := r.hedgeSeq + 1 }) s
    (requestAllowed fn.toNat 1 s = true → arg ≠ 0 → Machine.exec (.atten fn arg) s =
      .next (((List.range 4).filter fun k => arg.getLsbD k).foldl (fun s i => engage i 2 s) (shown 2 0)))
    ∧ (requestAllowed fn.toNat 1 s = false → Machine.exec (.atten fn arg) s = .next (shown 3 1))
    ∧ (requestAllowed fn.toNat 1 s = true → arg = 0 → Machine.exec (.atten fn arg) s = .next (shown 3 3))
    ∧ (requestAllowed fn.toNat 2 s = true → arg = 0 → s.hedge.railsOut = [] → Machine.exec (.faultClear fn arg) s =
      .next (modHedge (fun h => { h with supplyLatch := false }) (shown 2 0)))
    ∧ (requestAllowed fn.toNat 2 s = true → arg = 0 → s.hedge.railsOut ≠ [] → Machine.exec (.faultClear fn arg) s = .next (shown 3 2))
    ∧ (requestAllowed fn.toNat 3 s = true → arg = 0 → s.pwr.mpUp = true → Machine.exec (.mpReset fn arg) s = .next (resetMp (shown 2 0)))
    ∧ (requestAllowed fn.toNat 4 s = true → arg = 0 → s.host.stage = 7 →
      Machine.exec (.hedgeReqWarmRestart fn arg) s = .next (warmRestart (shown 2 0)))
    ∧ (requestAllowed fn.toNat 4 s = true → arg = 0 → s.host.stage ≠ 7 → Machine.exec (.hedgeReqWarmRestart fn arg) s = .next (shown 3 4))

/-- The power states (R464-R466, R516-R525, R529): an entry completes, an exit starts before the next known event, and completes once every
pair forms valid words; an exit later than its event is counted and reported. -/
def Obligations.PowerStateEvents : Prop :=
  ∀ s : State,
    (s.pwr.state.toNat < s.pwr.target.toNat → s.pwr.exiting = none → s.pwr.target.toNat < 3 → Machine.exec .powerStateEntryDone s =
      answers (modPwr (fun p => { p with entries := p.entries + 1 }) (setPowerState s.pwr.target.toNat s)))
    ∧ (s.pwr.state.toNat < s.pwr.target.toNat → s.pwr.exiting = none → 3 ≤ s.pwr.target.toNat → s.pwr.target.toNat < 5 →
      Machine.exec .powerStateEntryDone s =
        answers (modPwr (fun p => { p with entries := p.entries + 1 }) (setPowerState s.pwr.target.toNat (stopPairs s))))
    ∧ (s.pwr.state.toNat < s.pwr.target.toNat → s.pwr.exiting = none → 5 ≤ s.pwr.target.toNat → Machine.exec .powerStateEntryDone s =
        answers (modPwr (fun p => { p with entries := p.entries + 1 }) (setPowerState s.pwr.target.toNat (stopPairs (enterDeep s)))))
    ∧ (∀ t, nextEvent s = some t → s.pwr.state ≠ 1 → s.pwr.exiting = none →
      let lead := (pwrExit s.pwr.state.toNat + pwrGuard s.pwr.state.toNat) * 2 ^ 64 / 10 ^ 9
      Machine.exec .powerStateExitStart s = answers (startExit (some t) (advanceToTime (t - lead) s)))
    ∧ (∀ e, s.pwr.exiting = some e → pairsReady s = true → e.serves = none → s.pwr.state.toNat < 5 → Machine.exec .powerStateExitDone s =
      answers (modPwr (fun p => { p with exiting := none }) (setPowerState 1 s)))
    ∧ (∀ e t, s.pwr.exiting = some e → pairsReady s = true → e.serves = some t → s.pwr.state.toNat < 5 →
      let u := modPwr (fun p => { p with exiting := none }) (setPowerState 1 s)
      Machine.exec .powerStateExitDone s = answers (if t < now u then sendAdmin 0x0134 s.pwr.state.toNat ((now u - t) * 10 ^ 6 / 2 ^ 64) 0 0
        (modPwr (fun p => { p with late := satInc p.late }) u) else u))
    ∧ (∀ e, s.pwr.exiting = some e → pairsReady s = true → e.serves = none → 5 ≤ s.pwr.state.toNat → Machine.exec .powerStateExitDone s =
      answers (modPwr (fun p => { p with exiting := none }) (setPowerState 1 (loseRings s))))

/-- The stages of Primer (R488, R530), each with what it found; a stage that does not run does nothing. -/
def Obligations.PrimerStages : Prop :=
  ∀ (s : State) (w : PrimerWork), s.hedge.stopped = false →
    (∀ f, w = .fuses f → s.host.stage = 1 → Machine.exec (.primerStageEnd w) s = answers (stageFuses f s))
    ∧ (∀ slots policy, w = .firmware slots policy → s.host.stage = 2 → Machine.exec (.primerStageEnd w) s = answers (stageFirmware slots policy s))
    ∧ (∀ image roms, w = .microcode image roms → s.host.stage = 3 →
      let t := loadPatch image s
      Machine.exec (.primerStageEnd w) s = answers (modHost (fun h => { h with stage := 4 }) { t with
        spu := Spu.assign { t.spu with record := s.spu.record ||| roms, retired := s.spu.record ||| roms } }))
    ∧ (∀ copies certs refclk, w = .board copies certs refclk → s.host.stage = 4 →
      Machine.exec (.primerStageEnd w) s = answers (stageBoard copies certs refclk s))
    ∧ (∀ failed mismatch offset, w = .memory failed mismatch offset → s.host.stage = 5 →
      Machine.exec (.primerStageEnd w) s = answers (stageMemory failed mismatch offset.toNat s))
    ∧ (∀ sets trims ms, w = .calibration sets trims ms → s.host.stage = 6 →
      Machine.exec (.primerStageEnd w) s = answers (stageCalibration sets trims ms s))
    ∧ (s.host.stage = 0 ∨ s.host.stage = 7 → Machine.exec (.primerStageEnd w) s = answers s)

/-- Starts and resets (R530-R535, R555-R557, R576): where the rails are within their windows and RESET_N is released, Primer begins, from
stage 1 at a cold start; a warm restart resets the Main domain and begins at stage 2; lost always-on power leaves no context,
no plan and no capture memory, and keeps what the NOR holds of retirements. -/
def Obligations.StartsAndResets : Prop :=
  ∀ (s : State) (released rails : Bool) (j : JtagInstr) (port : BitVec 1),
    (∃ t, Machine.exec (.coldStart released rails) s = .next t ∧ t.host.stage = (if released && rails then 1 else 0)
      ∧ t.hedge.aoOk = true ∧ t.hedge.resetN = released ∧ t.hedge.mainOk = rails ∧ t.host.ctxs = [] ∧ t.plans = [] ∧ t.spu.record = s.spu.record)
    ∧ Machine.exec (.resetNRelease rails) s = .next (tryStart (modHedge (fun h => { h with
        resetN := true, mainOk := h.mainOk || rails, jtag := if h.jtag = .extest then .bypass else h.jtag }) s))
    ∧ (s.hedge.resetN = true → s.host.stage ≠ 0 →
      Machine.exec .resetNAssert s = .next (modHedge (fun h => { h with resetN := false }) (resetMain true 8 true s)))
    ∧ (mayStart { s with hedge := { s.hedge with mainOk := true } } = true → s.host.stage = 0 → ∃ t,
      Machine.exec .mainRailsInWindow s = .next t ∧ t.host.stage = (if s.hedge.cold then 1 else 2) ∧ t.hedge.t0 = nowTick s ∧ t.dram = s.dram)
    ∧ (∃ t, Machine.exec .alwaysOnRailLoss s = .next t ∧ t.host.stage = 0 ∧ t.hedge.aoOk = false ∧ t.host.ctxs = [] ∧ t.plans = []
      ∧ t.dram = Dram.reset ∧ t.tim = Tim.reset ∧ t.spu.record = s.spu.record ∧ t.host.part = s.host.part)
    ∧ (s.host.stage = 0 → Machine.exec .warmRestart s = .next s)
    ∧ (mayStart s = true → s.host.stage ≠ 0 → ∃ t, Machine.exec .warmRestart s = .next t ∧ t.host.ctxs = [] ∧ t.plans = []
      ∧ t.host.stage = (if s.hedge.cold then 1 else 2) ∧ t.mode = ModeSt.reset ∧ t.host.part = s.host.part ∧ t.spu.record = s.spu.record)
    ∧ Machine.exec .spuIslandReset s = answers ((List.range 16).foldl (fun s n => if (getLsu n s).kernel ≠ 0 then endInstance n 3 0 3 s else s) s)
    ∧ Machine.exec .displayIslandReset s = answers (resetDisplay s)
    ∧ Machine.exec .hostIslandReset s = answers ((s.host.ctxs.map (·.num)).foldl (fun s c => startTeardown c 6 none s) s)
    ∧ (s.hedge.stopped = false → 2 ≤ s.host.stage.toNat → Machine.exec (.configurationRequest port) s =
      .next (emit (.config port.toNat (decide (s.host.stage.toNat < 5))) s))
    ∧ (s.hedge.resetN = true → j = .extest → Machine.exec (.jtagInstruction j) s = .next (modHedge (fun h => { h with jtag := .bypass }) s))
    ∧ (j ≠ .extest → j ≠ .idcode → Machine.exec (.jtagInstruction j) s = .next (modHedge (fun h => { h with jtag := j }) s))
    ∧ (j = .idcode → Machine.exec (.jtagInstruction j) s =
      .next (emit (.idcode (if s.host.part = 0x4108 then 0xB4108A3F else 0xB4128A3F)) (modHedge (fun h => { h with jtag := j }) s)))
    ∧ (∃ t, Machine.exec .availabilitySave s = .next t ∧ t.pwr.norAvail = BitVec.ofNat 64 (availImage s.pwr)
      ∧ t.hedge.norShifts = s.hedge.shifts ∧ t.hedge.norHours = s.hedge.eqHours)
    ∧ (∀ shifts hours, s.pwr.mpUp = true → shifts.length = 16 → Machine.exec (.ageingMeasure shifts hours) s =
      .next (modHedge (fun h => { h with shifts := shifts, eqHours := h.eqHours + BitVec.ofNat 32 hours }) s))

/-! ### Ports, sessions and drives -/

/-- A port and its lanes (R472, R475-R479, R496, R531): a link trains, goes down, idles in L0s and L1, wakes and is margined. -/
def Obligations.LinkEvents : Prop :=
  ∀ (port : BitVec 1) (lane : BitVec 5) (s : State), let p := port.toNat; let l := lane.toNat; let x := getPort p s
    (x.linkUp = true → Machine.exec (.linkDown port) s = answers (linkDown p 4 s) ∧ Machine.exec (.hotReset port) s = answers (linkDown p 4 s))
    ∧ (Machine.exec (.perst port true) s = answers (linkDown p 4 (leaveTest p (modPort p (fun x => { x with perst := true }) s))))
    ∧ (Machine.exec (.perst port false) s = answers (modPort p (fun x => { x with perst := false }) s))
    ∧ (x.linkUp = true → x.state ≠ 6 ∨ x.l1Sub ≠ 2 →
      Machine.exec (.pcieRefclkLoss port) s = answers (linkDown p 4 (modPort p (fun x => { x with refOk := false }) s)))
    ∧ (x.linkUp = false → Machine.exec (.pcieRefclkLoss port) s = answers (modPort p (fun x => { x with refOk := false }) s))
    ∧ (Machine.exec (.pcieRefclkRestored port) s = .next (modPort p (fun x => { x with refOk := true }) s))
    ∧ (∀ rate width n lanes, 3 ≤ s.host.stage.toNat → x.test = false → x.perst = false → x.refOk = true → x.linkUp = false →
      BitVec.toNat (w := 3) rate ≠ 0 → BitVec.toNat (w := 5) width ∈ [4, 8, 16] → rate.toNat ≤ advertised p width.toNat s →
      Machine.exec (.linkTraining port rate width n lanes) s = answers (setMaxRate p (modPort p (fun x => { x with
        linkUp := true, rate := rate, width := width, state := 3, txL0s := false, rxL0s := false, l1Sub := 0, recoveries := satAdd x.recoveries n })
        (modLanes (rangeFrom (16 * p) width.toNat)
          (fun l => Lane.train (eqEntry l rate.toNat s) rate.toNat (nth lanes (l % 16) ⟨0, false, false⟩)) s))))
    ∧ (x.linkUp = true → x.state = 3 → x.l0sIdle ≠ 0 → Machine.exec (.l0sEntry port) s = .next (modPort p (fun x => { x with state := 5, txL0s := true }) s))
    ∧ (x.linkUp = true → x.state = 3 → Machine.exec (.rxL0sEntry port) s = .next (modLanes (rangeFrom (16 * p) x.width.toNat)
        (fun _ x => { x with cdrLock := false, elecIdle := true, frozen := true }) (modPort p (fun x => { x with state := 5, rxL0s := true }) s)))
    ∧ (∀ sub, x.linkUp = true → x.state = 3 → x.l1Idle ≠ 0 → portReserved p s = false → Machine.exec (.l1Entry port sub) s =
      .next (modLanes (rangeFrom (16 * p) x.width.toNat) (fun _ x => { x with cdrLock := false, elecIdle := true, frozen := true })
        (modPort p (fun x => { x with
          state := 6, l1Sub := BitVec.ofNat 2 (min sub.toNat 2), txL0s := false, rxL0s := false, l1Entries := satInc x.l1Entries }) s)))
    ∧ (x.linkUp = true → portReserved p s = true → ∀ sub, Machine.exec (.l1Entry port sub) s = .next s)
    ∧ ((getLane l s).active = true → (getLane l s).elecIdle = true → (getPort (l / 16) s).state = 6 → l / 16 < s.link.ports.length →
      Machine.exec (.electricalIdleExit lane) s = .next (modPort (l / 16) (fun x => { x with state := 3, l1Sub := 0, recoveries := satInc x.recoveries })
        (modLane l (fun x => { x with cdrLock := true, elecIdle := false, frozen := false, relocks := satInc x.relocks }) s)))
    ∧ ((getLane l s).active = true → 4 ≤ (getLane l s).rate.toNat → Machine.exec (.marginingCommand lane false) s = .next
      (emit (.margining (l / 16) (l % 16) [⟨0, 1, 32⟩, ⟨1, 1, 60⟩, ⟨2, 1, 16⟩]) (modLane l (fun x => { x with margined := false }) s)))
    ∧ ((getLane l s).active = true → 4 ≤ (getLane l s).rate.toNat → s.link.scan.runLane ≠ lane → Machine.exec (.marginingCommand lane true) s = .next
      (emit (.margining (l / 16) (l % 16) [⟨0, 1, 32⟩, ⟨1, 1, 60⟩, ⟨2, 1, 16⟩]) (modLane l (fun x => { x with margined := true }) s)))

/-- The eye scan and the pattern checkers (R480, R481, R483-R485): a scan ends with the bits and errors that it counted, or times out; a checker locks
and loses lock only on a lane in test, and keeps its counts; no other lane changes. -/
def Obligations.LaneTestEvents : Prop :=
  ∀ (lane : BitVec 5) (s : State), let l := lane.toNat
    (∀ e, s.link.scan.state = 1 → (getLane s.link.scan.runLane.toNat s).elecIdle = false → Machine.exec (.eyeScanDone e) s = .next
      (modScan (fun x => { x with state := 2, bits := BitVec.ofNat 48 (2 ^ s.link.scan.runDwell.toNat)
                                , errors := BitVec.ofNat 48 (min e.toNat (2 ^ s.link.scan.runDwell.toNat)) }) s))
    ∧ (∀ b e, s.link.scan.state = 1 → let n := min (BitVec.toNat (w := 48) b) (2 ^ s.link.scan.runDwell.toNat - 1)
      Machine.exec (.eyeScanTimeout b e) s = .next (modScan (fun x => { x with
        state := 3, fin := 3, bits := BitVec.ofNat 48 n, errors := BitVec.ofNat 48 (min (BitVec.toNat (w := 48) e) n) })
        (advanceToTick (s.link.scan.startTick + 48000000000) s)))
    ∧ (∀ b e, s.link.scan.state ≠ 1 → Machine.exec (.eyeScanDone e) s = .next s ∧ Machine.exec (.eyeScanTimeout b e) s = .next s)
    ∧ (testLane l s = true → (getLane l s).chkEn = true → (getLane l s).pattern ≠ 0 → (getLane l s).locked = false →
      Machine.exec (.prbsCheckerLock lane) s = .next (modLane l (fun x => { x with locked := true, lockTick := nowTick s }) s))
    ∧ (∀ e, testLane l s = true → (getLane l s).locked = true → l < s.link.lanes.length → ∃ t, Machine.exec (.prbsCheckerLockLost lane e) s = .next t
      ∧ getLane l t = { getLane l s with
          locked := false, bits := BitVec.ofNat 48 ((getLane l s).bitsNow (nowTick s)), errors := satAdd (getLane l s).errors e.toNat
          prbsRelocks := satInc (getLane l s).prbsRelocks }
      ∧ ∀ k, k ≠ l → getLane k t = getLane k s)
    ∧ (testLane l s = false → Machine.exec (.prbsCheckerLock lane) s = .next s)

/-- The SPDM responder (R490, R491, R494-R496), over a link that is up: negotiation in its order, certificates, measurements signed by the
alias key, and a new session with its keys. A request that the negotiation has not reached gives an error. -/
def Obligations.AttestationRequests : Prop :=
  ∀ (port : BitVec 1) (s : State), let p := port.toNat
    (getPort p s).linkUp = true →
    Machine.exec (.getVersion port) s = .next (emit (.spdm p 0x04 [⟨0, 1, 0x12⟩]) (setNego p 1 s))
    ∧ (1 ≤ negoStage p s → Machine.exec (.getCapabilities port) s = .next (emit (.spdm p 0x61 []) (setNego p 2 s)))
    ∧ (2 ≤ negoStage p s → Machine.exec (.negotiateAlgorithms port true) s = .next (emit (.spdm p 0x63 []) (setNego p 3 s))
        ∧ Machine.exec (.negotiateAlgorithms port false) s = .next (emit (.spdm p 0x7F [⟨0, 1, 0x01⟩]) s))
    ∧ (negoStage p s = 0 → Machine.exec (.getCapabilities port) s = .next (emit (.spdm p 0x7F [⟨0, 1, 0x04⟩]) s)
        ∧ Machine.exec (.negotiateAlgorithms port true) s = .next (emit (.spdm p 0x7F [⟨0, 1, 0x04⟩]) s)
        ∧ Machine.exec (.getDigests port) s = .next (emit (.spdm p 0x7F [⟨0, 1, 0x04⟩]) s))
    ∧ (3 ≤ negoStage p s → s.trust.debug = true → Machine.exec (.getDigests port) s = .next (emit (.spdm p 0x7F [⟨0, 1, 0x07⟩]) s))
    ∧ (3 ≤ negoStage p s → s.trust.debug = false → s.trust.keysValid = true →
      let chain := Config.certChain s.trust.certs
      Machine.exec (.getDigests port) s = .next (emit (.spdm p 0x01 [⟨0, 1, 1⟩, ⟨1, 48, (Config.sha384 chain).toNat⟩]) s)
      ∧ (∀ off len, Machine.exec (.getCertificate port 0 off len) s =
        let part := (chain.drop (BitVec.toNat (w := 16) off)).take (BitVec.toNat (w := 16) len)
        .next (emit (if chain.length ≤ off.toNat ∧ off ≠ 0 then .spdm p 0x7F [⟨0, 1, 0x01⟩] else
          .spdm p 0x02 [⟨0, 1, 0⟩, ⟨1, 2, part.length⟩, ⟨3, 2, chain.length - (off.toNat + part.length)⟩, ⟨5, part.length, leNat part⟩]) s))
      ∧ (∀ r, Machine.exec (.challenge port 0 r) s = .next (emit (.spdm p 0x03 [⟨0, 48, (Config.sha384 chain).toNat⟩, ⟨0x30, 48, (measDigest s).toNat⟩
          , ⟨0x60, 96, spdmSign 0x03 r s⟩]) s))
      ∧ (∀ op r, (measurements s).filter (fun m => decide (m.1 = BitVec.toNat (w := 8) op)) ≠ [] → op ≠ 0xFF →
        let blocks := (((measurements s).filter fun m => decide (m.1 = op.toNat)).map fun m => Config.measForm m.1 m.2).flatten
        Machine.exec (.getMeasurements port op true r) s = .next (emit (.spdm p 0x60 [⟨0, 1, 7⟩, ⟨1, 3, blocks.length⟩
          , ⟨4, blocks.length, leNat blocks⟩, ⟨4 + blocks.length, 96, spdmSign 0x60 r s⟩]) s))
      ∧ (∀ id r, (s.trust.sessions.filter fun x => decide (x.port = p)).length < 4 → BitVec.toNat (w := 32) id ≠ 0 →
        (∀ x ∈ s.trust.sessions, x.id ≠ id.toNat) → ∃ k : BitVec 384, Machine.exec (.keyExchange port id r) s =
          .next (emit (.spdm p 0x64 [⟨0, 2, id.toNat / 65536⟩, ⟨2, 96, spdmSign 0x64 r s⟩]) (modTrust (fun t => { t with
            sessions := t.sessions ++ [{ port := p, id := id.toNat, secret := k, finished := false, keyGen := 0 }] }) s))))

/-- Sessions, IDE streams and the debug token (R491, R494, R496): a session of a port whose link is up and negotiated finishes, beats, renews its
keys and ends; an IDE stream takes its key, and an integrity failure ends it; a debug token is checked against the device and its nonce. -/
def Obligations.SessionsAndTrustEvents : Prop :=
  (∀ (port : BitVec 1) (id : BitVec 32) (x : Session) (s : State), let p := port.toNat
    (getPort p s).linkUp = true → 3 ≤ negoStage p s → findSession p id.toNat s = some x →
    (x.finished = false → Machine.exec (.finish port id true) s =
      .next (emit (.spdm p 0x65 []) (modSession p id.toNat (fun x => { x with finished := true }) s)))
    ∧ (x.finished = false → Machine.exec (.finish port id false) s = .next (emit (.spdm p 0x7F [⟨0, 1, 0x06⟩]) (endSession p id.toNat s)))
    ∧ (x.finished = true → Machine.exec (.heartbeat port id) s = .next (emit (.spdm p 0x68 []) s))
    ∧ (x.finished = false → Machine.exec (.heartbeat port id) s = .next (emit (.spdm p 0x7F [⟨0, 1, 0x04⟩]) s))
    ∧ (∀ op, x.finished = true → op = 1 ∨ op = 2 → Machine.exec (.keyUpdate port id op) s =
      .next (emit (.spdm p 0x69 [⟨0, 1, BitVec.toNat op⟩]) (modSession p id.toNat (fun x => { x with keyGen := x.keyGen + 1 }) s)))
    ∧ (x.finished = true → Machine.exec (.endSession port id) s = .next (emit (.spdm p 0x6C []) (modTrust (fun t => { t with
        sessions := t.sessions.filter fun x => !(decide (x.port = p) && decide (x.id = id.toNat)) }) s)))
    ∧ (∀ stream, x.finished = true → BitVec.toNat (w := 8) stream ≤ 4 → Machine.exec (.ideKm port id stream 1) s =
      .next (emit (.spdm p 0x7E [⟨0, 1, 1⟩, ⟨1, 1, stream.toNat⟩]) (modIde p stream.toNat (fun x => { x with keySet := true }) s)))
    ∧ (∀ stream, x.finished = true → BitVec.toNat (w := 8) stream ≤ 4 →
      (∀ y ∈ s.trust.ide, y.port = p → y.id = stream.toNat → y.keySet = false) → Machine.exec (.ideKm port id stream 2) s =
      .next (emit (.spdm p 0x7F [⟨0, 1, 0x01⟩]) s)))
  ∧ (∀ (port : BitVec 1) (stream : BitVec 8) (s : State), (∀ x ∈ s.trust.ide, x.port = port.toNat → x.id = stream.toNat → x.secure = false) →
    Machine.exec (.ideIntegrityFail port stream) s = .next s)
  ∧ (∀ (port : BitVec 1) (stream : BitVec 8) (s : State) (x : IdeStream), x ∈ s.trust.ide → x.port = port.toNat → x.id = stream.toNat →
    x.secure = true → getCtx 0 s = none → Machine.exec (.ideIntegrityFail port stream) s = .next (modIde port.toNat stream.toNat
      (fun x => { x with secure := false }) (modTrust (fun t => { t with ideFails := satInc t.ideFails }) s)))
  ∧ (∀ (s : State) (sig : List Byte), 3 ≤ s.host.stage.toNat → ∃ k,
      Machine.exec (.debugUnlockToken none s.trust.devId s.trust.dbgNonce sig) s = .next
        (if Config.debugVerify s.trust.devId s.trust.dbgNonce sig then
          warmRestart (modTrust (fun t => { t with keysValid := false, udsBlocked := true, sessions := [], ide := [] }) s)
        else modTrust (fun t => { t with dbgNonce := k }) { s with fresh := s.fresh + 1 }))
  ∧ (∀ (s : State) (dev : BitVec 384) (nonce : BitVec 128) (sig : List Byte), 3 ≤ s.host.stage.toNat → nonce ≠ s.trust.dbgNonce →
    ∃ k, Machine.exec (.debugUnlockToken none dev nonce sig) s =
      .next (modTrust (fun t => { t with dbgNonce := k }) { s with fresh := s.fresh + 1 }))
  ∧ ∀ (port : Option (BitVec 1)) (s : State) (dev : BitVec 384) (nonce : BitVec 128) (sig : List Byte), s.host.stage.toNat < 3 →
    Machine.exec (.debugUnlockToken port dev nonce sig) s = .next s

/-- Drives (R434-R437): a control page that names its queues activates its member, an open extent closes in time, a completion frees its
command, and a command that does not complete in time fails the member. -/
def Obligations.DiskEvents : Prop :=
  ∀ (slot : BitVec 5) (s : State) (b : Binding), getBinding slot.toNat s = some b →
    (∀ (qids : List (BitVec 32)) (kb : BitVec 32), let q := (qids.map (·.toNat)).take b.queuePairs
      b.state = .awaiting → b.queuePairs ≤ qids.length → (∀ v ∈ q, 1 ≤ v ∧ v ≤ 65535) → q.eraseDups = q → 4 ≤ kb.toNat → kb.toNat ≤ 2048 →
      kb.toNat % 2 ^ b.lbaLog2 = 0 → Machine.exec (.diskActivate slot qids kb false) s = answers (modBinding slot.toNat
        (fun b => { b with state := .active, actStatus := 1, qids := q, maxTransferKb := kb.toNat }) s))
    ∧ (∀ (qids : List (BitVec 32)) (kb : BitVec 32) r, b.state = .awaiting → qids.length < b.queuePairs →
      Machine.exec (.diskActivate slot qids kb r) s = answers (modBinding slot.toNat (fun b => { b with actStatus := 2 }) s))
    ∧ (∀ (qids : List (BitVec 32)) (kb : BitVec 32) r, b.state ≠ .awaiting → Machine.exec (.diskActivate slot qids kb r) s = answers s)
    ∧ (b.extent = [] → Machine.exec (.extentTimeout slot) s = answers s)
    ∧ (∀ n start recs cmds, b.extent ≠ [] → n = b.extentLbas → b.nextLba + n ≤ b.firstLba + b.lbaCount → start = b.nextLba →
      recs = assignLbas start b.extent → cmds = cutCmds b.nextCid start n b.maxLbas (2 ^ b.lbaLog2) recs n →
      Machine.exec (.extentTimeout slot) s = answers (cmds.foldl (fun s c => emit (.nvme slot.toNat c.lba c.lbas false) s)
        (modBinding slot.toNat (fun b => { b with
          extent := [], outstanding := b.outstanding ++ cmds, nextCid := b.nextCid + cmds.length
          nextLba := if start + n = b.firstLba + b.lbaCount then b.firstLba else start + n }) s)))
    ∧ (∀ cid dnr c, b.outstanding.find? (fun c => decide (c.cid = cid)) = some c → c.flush = false →
      Machine.exec (.nvmeCompletion slot cid 0 dnr) s = answers (recordsStored (c.recs.filter fun r =>
        !(b.outstanding.any fun x => decide (x.cid ≠ cid) && x.recs.any fun y => decide (y.stream = r.stream) && decide (y.seq = r.seq)))
        (modBinding slot.toNat (fun b => { b with outstanding := b.outstanding.filter fun x => decide (x.cid ≠ cid), failures := 0 })
          (emit (.nvmeDoorbell slot.toNat) s))))
    ∧ (∀ cid dnr st c, b.outstanding.find? (fun c => decide (c.cid = cid)) = some c → st ≠ 0 → 7 ≤ b.failures →
      Machine.exec (.nvmeCompletion slot cid st dnr) s = answers (failMember slot.toNat (BitVec.toNat st) false false
        (modBinding slot.toNat (fun x => { x with failures := b.failures + 1 }) (emit (.nvmeDoorbell slot.toNat) s))))
    ∧ (b.outstanding ≠ [] → Machine.exec (.nvmeTimeout slot) s =
      answers (failMember slot.toNat 0 true false (modBinding slot.toNat (fun b => { b with timeouts := satInc b.timeouts }) s)))
    ∧ (b.outstanding = [] → Machine.exec (.nvmeTimeout slot) s = answers s)

/-! ### Display and capture memory -/

/-- Latch points, tearing-effect edges, releases and panel reads (R274, R275, R277, R278): at a latch point the frame counter counts, its time is
kept, pending flips are taken, and an enabled output sends the frame. -/
def Obligations.DisplayEvents : Prop :=
  ∀ (o : BitVec 1) (s : State), let n := o.toNat; let d := getOut n s
    (d.enabled = true → d.cmdMode = false →
      Machine.exec (.latchPoint o) s = answers (latchOutput n (advanceToTick (d.latchTick + d.period) s)))
    ∧ (d.enabled = false → Machine.exec (.latchPoint o) s = answers s)
    ∧ (∀ tick low pulse, let t := advanceToTick (BitVec.toNat (w := 64) tick) s
      d.enabled = true → d.cmdMode = true → d.inFallback = false → 1000 ≤ low → 100 ≤ pulse →
      (d.busyUntil ≤ nowTick t → Machine.exec (.teEdge o tick low pulse) s = answers (latchOutput n (modOut n (fun d => { d with teRaised := false }) t)))
      ∧ (nowTick t < d.busyUntil → Machine.exec (.teEdge o tick low pulse) s =
        answers (modOut n (fun d => { d with teSkips := satInc d.teSkips, teRaised := false }) t)))
    ∧ (∀ tick low pulse, low < 1000 ∨ pulse < 100 → Machine.exec (.teEdge o tick low pulse) s = answers (advanceToTick (BitVec.toNat (w := 64) tick) s))
    ∧ (d.enabled = true → d.cmdMode = true → d.teTimeout ≠ 0 → d.teRaised = false → Machine.exec (.displayTeTimeout o) s =
      answers (sendEvent d.owner 0x0032 n 0 0 0 (modOut n (fun d => { d with
        teRaised := true, inFallback := d.teFallback, teTimeouts := satInc d.teTimeouts }) (advanceToTick (d.latchTick + d.teTimeout * 800000) s))))
    ∧ (d.enabled = true → d.cmdMode = true → d.inFallback = true →
      Machine.exec (.selfTimedTransfer o) s = answers (latchOutput n (advanceToTick (d.latchTick + d.period) s)))
    ∧ (∀ r rest, d.releases = r :: rest → Machine.exec (.bufferReleased o) s =
      answers (sendRelease n r.layer r.flip 0 (modOut n (fun d => { d with releases := rest }) s)))
    ∧ (∀ q data, d.panel = some q → Machine.exec (.panelReadResponse o data) s = answers (completeBy (some q.asker) .success 0 (min 16 data.length)
        (modOut n (fun d => { d with panel := none }) (emit (.hostWrite q.fn q.addr (data.take 16)) s))))
    ∧ (∀ q, d.panel = some q → Machine.exec (.panelTimeout o) s = answers (completeBy (some q.asker) .panelTimeout 0 0
        (modOut n (fun d => { d with panel := none }) (advanceToTick (q.start + 8000000) s))))
    ∧ (d.enabled = true →
      let t := modOut n (fun d => { d with
        frame := d.frame + 1, latch := BitVec.ofNat 128 (now s), latchTick := nowTick s
        busyUntil := nowTick s + if d.cmdMode then d.transferTicks else 0 }) s
      latchOutput n s = sendFrame n (takeTables n ((List.range 4).foldl (fun s l => takeReady n l s) (takeFlips n t)))
      ∧ (n < s.dpy.outs.length → (getOut n t).frame = d.frame + 1))

/-- The capture memory controller (R449, R454-R458, R461, R463): a due refresh repays one that was pulled in, and an idle channel pulls in more;
MR4 sets the multiplier; the patrol finds errors; tracking and parity errors are counted, and a second parity error fails the channel. -/
def Obligations.MemoryControllerEvents : Prop :=
  ∀ (ch : BitVec 4) (rank : BitVec 1) (s : State), let c := ch.toNat; let k := rank.toNat; let r := getRank c k s
    (∀ v, refreshes c k s = true → r.owed = [] → r.debt < 0 → -8 ≤ r.debt →
      let t := modRank c k (fun r => { r with lastDue := r.lastDue + r.interval, debt := r.debt + 1 })
        (advanceToTick (cdiv (r.lastDue + r.interval).toNat 4) s)
      Machine.exec (.refreshDue ch rank false v) s = .next (issueRefresh c k 1 t))
    ∧ (∀ w v, refreshes c k s = false → Machine.exec (.refreshDue ch rank w v) s = .next s)
    ∧ (∀ n, Machine.exec (.refreshIdlePullin ch n) s = .next ((List.range (getChan c s).ranks.length).foldl (fun s k =>
        if refreshes c k s then issueRefresh c k (min n ((getRank c k s).debt + 8).toNat) s else s) s))
    ∧ (Machine.exec .mr4Poll s = .next ((List.range s.dram.chans.length).foldl (fun s ch =>
        (List.range (getChan ch s).ranks.length).foldl (fun s k => if refreshes ch k s then emit (.mr4Read ch k) s else s) s) s))
    ∧ (∀ v, refreshes c k s = true → r.mult.toNat = min (Config.mr4Rate v).toNat 4 → Machine.exec (.mr4Result ch rank v) s =
      let t := modRank c k (fun r => { r with mr4 := v }) s
      .next (if 4 < (Config.mr4Rate v).toNat then sendAdmin 0x0115 c v.toNat 0 k t else t))
    ∧ (∀ n, s.dram.dataSpace < n * 128 + 128 → ∀ f, Machine.exec (.patrolScrub n f) s = .next s)
    ∧ (∀ n, n * 128 + 128 ≤ s.dram.dataSpace → n ∉ s.dram.poison → Machine.exec (.patrolScrub n .clean) s = .next s
      ∧ (∀ m, Machine.exec (.patrolScrub n (.symbol m)) s = .next (noteCorrected 9 (n * 128) m s))
      ∧ Machine.exec (.patrolScrub n .uncorrectable) s = .next (dramUncorrectable 9 none (n * 128) 128 (modDram (Dram.addPoison n) s)))
    ∧ (∀ e d f, refreshes c 0 s = true → Machine.exec (.wckTracking ch false e d f) s = answers (modChan c (fun c => { c with trackDue := true }) s))
    ∧ (∀ e f, refreshes c 0 s = true → Machine.exec (.wckTracking ch true e false f) s =
      answers (modChan c (fun c => { c with trackDue := false, linkCorr := satAdd c.linkCorr (BitVec.toNat (w := 16) e) }) s))
    ∧ (c < s.dram.chans.length → (getChan c s).online = true → Machine.exec (.commandParityError ch false) s =
      answers (dramLog 4 0 none c 0xFF 1 (modChan c (fun c => { c with cmdParity := satInc c.cmdParity, parity := 1 }) s)))
    ∧ (c < s.dram.chans.length → (getChan c s).online = true → 0 < (getChan c s).parity → Machine.exec (.commandParityError ch true) s =
      answers (failChannel c 1 (dramLog 4 0 none c 0xFF 1 (modChan c (fun c => { c with cmdParity := satInc c.cmdParity, parity := c.parity + 1 }) s))))
    ∧ (∀ (bank : BitVec 4) (row : BitVec 17), s.dram.nbrEn = true → refreshes c k s = true →
      ((getChan c s).queue.filter fun q => decide (q.1 = k) && decide (q.2.1 = bank.toNat)).length < 4 → c < s.dram.chans.length →
      Machine.exec (.neighbourRefresh ch rank bank (some row)) s =
        .next (modChan c (fun c => { c with queue := c.queue ++ [(k, bank.toNat, row.toNat)] }) s))
    ∧ (∀ (bank : BitVec 4) q, refreshes c k s = true →
      (getChan c s).queue.find? (fun q => decide (q.1 = k) && decide (q.2.1 = bank.toNat)) = some q →
      let p := s.dram.geom.physical q.2.2
      let rows := ((if p = 0 then [] else [p - 1]) ++ [p + 1]).filter fun r => decide (r < s.dram.rows)
      Machine.exec (.neighbourRefresh ch rank bank none) s = .next (emit (.neighbour c rows)
        (modChan c (fun c => { c with queue := c.queue.erase q, neighbour := satAdd c.neighbour rows.length }) s)))

/-! ### The signal path -/

/-- Words and what is measured on them (R19, R24, R93, R107, R113-R115, R124, R125, R134, R135, R140): a pair's next word is formed and
delivered, or dropped at a full FIFO; a statistics window ends once every running pair is past it; the auxiliary converter deposits an
average; Skim's blocks, solves, fences and FOREGROUND end. -/
def Obligations.ConverterEvents : Prop :=
  ∀ (pair : BitVec 2) (s : State), let n := pair.toNat
    (∀ vals eor full, formsWords n s = true → List.length vals = 8 → replaying s = false →
      let t := plansDue n (getPair n s).next s
      Machine.exec (.sampleWord pair vals eor false full) s = answers (deliverWord n (formWord n vals eor false t).1 full (formWord n vals eor false t).2))
    ∧ (∀ vals eor full, formsWords n s = true → List.length vals = 8 →
      Machine.exec (.sampleWord pair vals eor true full) s = answers (formWord n vals eor true s).2)
    ∧ (∀ vals eor x y, formsWords n s = false → Machine.exec (.sampleWord pair vals eor x y) s = answers s)
    ∧ (s.adc.csu.run = true → (∃ p ∈ s.adc.pairs, p.running = true) →
      (∀ p ∈ s.adc.pairs, p.running = true → s.adc.csu.start + s.adc.csu.size ≤ p.next) →
      Machine.exec .csuWindowEnd s = .next (modCsu (fun c =>
        let d := if c.freeze then c else { c with snap := c.cur, pubSeq := c.doneSeq + 1, pubIndex := BitVec.ofNat 64 c.start }
        { d with doneSeq := c.doneSeq + 1, start := c.start + c.size, cur := c.nxt, nxt := List.replicate 8 CoreStat.empty }) s))
    ∧ (∀ sum, s.adc.amc.urgent = none → s.adc.amc.cur = none → Machine.exec (.amcSlotComplete sum) s = .next s)
    ∧ (∀ sum ch k, s.adc.amc.urgent = none → s.adc.amc.cur = some (ch, k) → s.adc.amc.queue = [] → s.adc.amc.run = true →
      Machine.exec (.amcSlotComplete sum) s = .next (modAmc (fun a => Amc.startSlot (a.slot.toNat + 1) { a with
        acc := modNth a.acc ch (AmcAcc.deposit (amcAverage sum k)), latest := a.latest.set ch (amcAverage sum k), abortRow := 0, cur := none }) s))
    ∧ (∀ hedge ch trim, (∃ q ∈ s.adc.amc.queue, q = ⟨hedge, BitVec.toNat (w := 5) ch, BitVec.toNat (w := 5) trim⟩) →
      Machine.exec (.amcUrgentRequest hedge ch trim) s = .next s)
    ∧ (∀ hedge ch trim, (⟨hedge, BitVec.toNat (w := 5) ch, BitVec.toNat (w := 5) trim⟩ : AmcReq) ∉ s.adc.amc.queue → s.adc.amc.queue.length < 8 →
      Machine.exec (.amcUrgentRequest hedge ch trim) s = .next (modAmc (fun a => Amc.serve { a with queue := a.queue ++ [⟨hedge, ch.toNat, trim.toNat⟩] }) s))
    ∧ (∀ temp rms, (getSkim n s).blkWords ≠ 0 → (getPair n s).next % 2 ^ 24 = 0 → (getSkim n s).blkBad = true →
      let r := Skim.blockEnd (getPair n s).fsStep.toNat (getPair n s).next temp rms (getSkim n s)
      let t := modSkim n (fun _ => r.1) s
      Machine.exec (.skimBlock pair temp rms) s =
        answers (if r.2.1 then sendPair n 0x0011 0 t else if r.2.2 then sendPair n 0x0012 0 t else t))
    ∧ (∀ cand ok, List.length cand = 34 → setOk cand = true → s.pwr.mpUp = true → Machine.exec (.skimSolve pair cand ok) s =
      .next (modSkim n (Skim.solved (getPair n s).next cand ok) s))
    ∧ (∀ h, (getSkim n s).held = some h → (getSkim n s).fenceEnd ≤ (getPair n s).next → n < s.skm.pairs.length →
      Machine.exec (.skimFenceEnd pair) s = .next (modSkim n (fun p => { p.decideRamp ⟨false, h.set, h.reason, true, false, h.excited⟩ with held := none }) s))
    ∧ (∀ h, (getSkim n s).held = some h → h.since + 8 * w10 s ≤ (getPair n s).next →
      let p : Skim := { (getSkim n s).decideRamp ⟨false, h.set, h.reason, true, true, h.excited⟩ with held := none }
      Machine.exec (.skimFenceExpired pair) s = answers (sendPair n 0x0010 (p.epoch + 1).toNat (modSkim n (fun _ => p) s)))
    ∧ (∀ sets trims, (getPair n s).foreground = true → List.length sets = 16 → (∀ c ∈ sets, c.length = 34 ∧ setOk c = true) →
      List.length trims = 4 → (∀ t ∈ trims, -32 ≤ t ∧ t ≤ 31) →
      Machine.exec (.foregroundEnd pair sets trims) s = answers (foregroundRun n (foregroundDone n sets trims s)))
    ∧ (∀ sets trims, (getPair n s).foreground = true → List.length sets ≠ 16 →
      Machine.exec (.foregroundEnd pair sets trims) s = answers (foregroundRun n (foregroundFails n s)))

/-- The accumulators of the auxiliary converter (R116): sum, count, minimum and maximum of the averages deposited since the last clear; at
COUNT = 0xFFFF_FFFF SUM and COUNT stop while MIN and MAX go on; after a clear and a deposit an accumulator holds that one average. -/
def Obligations.AccumulatorsHoldTheirAverages : Prop :=
  ∀ l : List Int, l ≠ [] → (∀ v ∈ l, -0x8000 ≤ v ∧ v ≤ 0x7FFF) →
    let a := l.foldl (fun a v => AmcAcc.deposit v a) AmcAcc.empty
    (a.min ∈ l ∧ ∀ v ∈ l, a.min ≤ v) ∧ (a.max ∈ l ∧ ∀ v ∈ l, v ≤ a.max)
    ∧ a.sum = (l.take 0xFFFFFFFF).sum ∧ a.count.toNat = min l.length 0xFFFFFFFF
    ∧ ∀ v, l = [v] → a = ⟨v, 1, v, v⟩

/-- Zoom words, retunes and spectra (R158, R159, R162-R164, R176, R177): a slot delivers its next word once its input is there; a dwell that
has ended, or a request whose index has come, retunes an oscillator; a spectrum is formed once its samples have arrived. -/
def Obligations.ZoomAndSpectrumEvents : Prop :=
  (∀ (slot : BitVec 5) (s : State), zoomWord slot.toNat s = none → Machine.exec (.zoomWord slot) s = answers s)
  ∧ (∀ (slot : BitVec 5) (s : State) (p : Nat) (w : HWord) (sat : Bool), let n := slot.toNat; let sl := getSlot n s
    sl.plan = some p → zoomWord n s = some (w, sat) →
    (∀ r ∈ (slotAdvance n w sat s).trg.rings, r.plan ≠ p ∨ r.source ≠ 17 + sl.channel ∨ r.r < 4) →
    Machine.exec (.zoomWord slot) s =
      answers (trigZoomWord n sl.m w (exportWord p (16 + sl.channel) w (pushZoom p n sl.m w (slotAdvance n w sat s)))))
  ∧ (∀ (u : BitVec 5) (s : State) (r : Nat), let f := getFront u.toNat s; u.toNat < s.zdc.fronts.length → f.plan.isSome = true →
    f.nco.hopNext = some r → r ≤ pairNext f.pair s → f.nco.request = none →
    Machine.exec (.zoomHop false u) s = .next (modFront u.toNat (fun f => { f with nco := f.nco.hopAt r r }) s))
  ∧ (∀ (u : BitVec 5) (s : State) (r ftw : Nat), let f := getFront u.toNat s; u.toNat < s.zdc.fronts.length → f.plan.isSome = true →
    f.nco.request = some (ftw, r) → r ≤ pairNext f.pair s → f.nco.hopNext = none → Machine.exec (.zoomRetune false u) s =
      .next (modFront u.toNat (fun f => { f with nco := { f.nco.retune r r ftw with request := none } }) s))
  ∧ (∀ (u : BitVec 5) (s : State) (r : Nat), let sl := getSlot u.toNat s; u.toNat < s.zdc.slots.length → sl.plan.isSome = true →
    sl.nco.hopNext = some r → r ≤ pairNext (getFront sl.front s).pair s → sl.nco.request = none → Machine.exec (.zoomHop true u) s =
      .next (modSlot u.toNat (fun x => { x with nco := x.nco.hopAt r (subSample (getFront sl.front s) r) }) s))
  ∧ (∀ (plan : BitVec 32) (stream : BitVec 8) (s : State) (x : XStream), getX plan.toNat stream.toNat s = some x → x.ready = true →
    let moved := fun (x : XStream) => XStream.prune { x with next := x.next + x.cfg.hop, number := x.number + 1, gap := false, change := false }
    Machine.exec (.spectrumFormed plan stream) s = answers (consume (moved x) (x.form s) (modX plan.toNat stream.toNat moved s)))
  ∧ ∀ (plan : BitVec 32) (stream : BitVec 8) (s : State) (x : XStream), getX plan.toNat stream.toNat s = some x → x.ready = false →
    Machine.exec (.spectrumFormed plan stream) s = answers s

/-- Triggers and captures (R234, R235, R237, R239, R244): the earliest held event is handled, a forcing point that has passed fires, a missed
fire is delivered when its ring has room, a segment closes once its last word is written, and TRIGOUT rises and falls. -/
def Obligations.TriggerEvents : Prop :=
  ∀ (s : State),
    (∀ (u : BitVec 3) e rest, let n := u.toNat
      (getUnit n s).held = e :: rest → (getUnit n s).waitB = false → autoStands n s = false →
      Machine.exec (.triggerEventRelease u) s = answers (onEvent n e (modUnit n (fun u => { u with held := rest }) s)))
    ∧ (∀ (u : BitVec 3) p, let n := u.toNat
      (getUnit n s).plan = some p → autoStands n s = true → planRuns p s = true → forcingPoint n s ≤ planNext p s * 65536 →
      let q := forcingPoint n s
      Machine.exec (.autoForce u) s = answers (fire n ⟨false, 9, q, 0, 0, false⟩
        (journal 6 [⟨0x10, 1, (getUnit n s).blk⟩, ⟨0x18, 8, q / 65536⟩, ⟨0x20, 2, q % 65536⟩] 24 s)))
    ∧ (∀ (u : BitVec 3) p m rest, let n := u.toNat; let ring := (unitBlk n s).f 0x0D 1
      (getUnit n s).plan = some p → (getUnit n s).missed = m :: rest → ring = 0 →
      Machine.exec (.missedTriggerDelivery u) s = answers (modUnit n (fun u => { u with missed := rest }) s))
    ∧ (∀ (u : BitVec 3) p m rest k st, let n := u.toNat; let ring := (unitBlk n s).f 0x0D 1
      (getUnit n s).plan = some p → (getUnit n s).missed = m :: rest → ring ≠ 0 → ringStream (planCtx p s) ring s = some k →
      getStream k s = some st → st.waiting = [] → (findPlace st st.seq 192 s).isSome = true →
      Machine.exec (.missedTriggerDelivery u) s = answers (recordOn (planCtx p s) ring (triggerRec (triggerPayload p (getUnit n s).blk m.ev m.flags
        m.number m.reason (0, 0, 0) s) m.ev.place s) (modUnit n (fun u => { u with missed := rest }) s)).1)
    ∧ (∀ (plan : BitVec 32) (slot : BitVec 3) cs k c g r c1, getCapSlot plan.toNat slot.toNat s = some cs → cs.cur = some k →
      getCapture plan.toNat slot.toNat k s = some c → c.openSeg = some g → getCap c.ring s = some r → g.fin ≤ r.next →
      getCapture plan.toNat slot.toNat c.num (closeSegment c g s) = some c1 → Machine.exec (.captureSegmentClose plan slot) s =
        answers (if (capBlock plan.toNat slot.toNat s).f 0x1C 4 ≤ c1.segs.length then completeCapture c1 (closeSegment c g s) else closeSegment c g s))
    ∧ (∀ (plan : BitVec 32) (slot : BitVec 3) cs r, getCapSlot plan.toNat slot.toNat s = some cs → slotRing plan.toNat slot.toNat s = some r →
      cs.lastRearm < cs.rearm → cs.rearm ≤ r.next → Machine.exec (.captureRearm plan slot) s =
        .next (modCapSlot plan.toNat slot.toNat (fun c => { c with lastRearm := c.rearm }) s))
    ∧ (∀ (plan : BitVec 32) (slot : BitVec 3) cs r, getCapSlot plan.toNat slot.toNat s = some cs → slotRing plan.toNat slot.toNat s = some r →
      r.next < cs.rearm → Machine.exec (.captureRearm plan slot) s = .next s)
    ∧ (∀ t w, s.trg.out.due = [(t, w)] → s.trg.out.high = false → Machine.exec .trigoutRise s = answers (emit (.pin .trigOut true t)
        (modTrg (fun x => { x with out := { x.out with due := [], high := true, rises := satInc x.out.rises, fallAt := t + w } }) (advanceToTick t s))))
    ∧ (∀ t w, s.trg.out.due = [(t, w)] → s.trg.out.high = true → t < s.trg.out.fallAt → Machine.exec .trigoutRise s = answers
        (modTrg (fun x => { x with out := { x.out with due := [], merged := satInc x.out.merged, fallAt := t + w } }) (advanceToTick t s)))
    ∧ (s.trg.out.high = true → Machine.exec .trigoutFall s = answers (emit (.pin .trigOut false s.trg.out.fallAt)
        (modTrg (fun x => { x with out := { x.out with high := false } }) (advanceToTick s.trg.out.fallAt s))))

/-- Replay (R549): the feed's next word carries REPLAY, and GAP after a hole, and is taken by the plans; at its end every running plan is
stopped and REPLAY_DONE is sent. -/
def Obligations.ReplayEvents : Prop :=
  ∀ (s : State), replaying s = true → s.fr.feeding = true → s.fr.ended = false →
    (∀ n w, nextReplay s = some (n, w) → w.index = nth s.fr.pos n 0 →
      let v := w.setTag tagReplay
      let t := trigStage n v (modFr (fun r => { r with pos := r.pos.set n (w.index + 8) })
        (beginDue n w.index (feedJournal (w.index + 8) s)))
      Machine.exec .replayWord s = answers (takeWord n t.2 t.1))
    ∧ (∀ b, s.fr.loaded = some b → nextReplay s = none →
      let run := s.plans.filter fun p => decide (p.phase = .running)
      Machine.exec .replayEnd s = answers (((0 :: run.map (·.ctx)).eraseDups).foldl (fun s c =>
        sendEvent c 0x0133 (b.id % 2 ^ 32) (nth b.fin 0 0) 0 0 s)
        (modFr (fun r => { r with feeding := false, ended := true }) (run.foldl (fun s p => stopPlan p.id none s) s))))
    ∧ (nextReplay s = none → Machine.exec .replayWord s = answers s)

/-! ### The block -/

/-- A step of the block: the command at the front of the queue has its effect on the block with the queue's rest; on an empty queue one coarse
tick passes (the model's choice: log entry 2). -/
def Obligations.StepsRunTheFrontCommand : Prop :=
  (∀ (c : Instr) (rest : List Instr) (s : State), s.pending = c :: rest → Machine.step s = Machine.exec c { s with pending := rest })
  ∧ (∀ (c : Instr) (s : State), Machine.step { s with pending := c :: s.pending } = Machine.exec c s)
  ∧ ∀ s : State, s.pending = [] → Machine.step s = .next (idleTick s)

/-- Every command completes: it answers a next state, and leaves the queue of waiting commands as it was (the queue is the model's own). -/
def Obligations.CommandsCompleteAndLeaveTheQueue : Prop :=
  ∀ (c : Instr) (s : State), ∃ t, Machine.exec c s = .next t ∧ t.pending = s.pending

/-- What reset leaves where the spec says it: nothing is queued, contexts, plans and allocations do not exist, every SPU is idle and no injection is
armed (R311, R365), and these fields hold the value of their Reset column (R60, R62, R109, R117, R469, R481, R529). -/
def Obligations.ResetState : Prop :=
  let s := Machine.State.reset
  s.pending = [] ∧ s.host.ctxs = [] ∧ s.plans = [] ∧ s.dram.allocs = [] ∧ s.dram.mem = []
  ∧ s.tim.ppsWindow = 10
  ∧ s.tim.ppsOutEnable = false ∧ s.tim.ppsOutWidth = 100 ∧ s.tim.ppsOutOffset = 0 ∧ s.tim.ppsOutHigh = false
  ∧ s.adc.csu.windowLog2 = 20 ∧ s.adc.csu.run = true ∧ s.adc.csu.freeze = false
  ∧ s.adc.amc.run = true ∧ s.adc.amc.trimSel = 0
  ∧ (∀ n < 16, (getLsu n s).state = 0 ∧ (getLsu n s).kernel = 0) ∧ s.spu.injArm = false
  ∧ s.dram.nbrEn = true ∧ s.dram.log2p = 10 ∧ s.link.scan.state = 0 ∧ s.link.scan.dwell = 30 ∧ s.pwr.calPeriod = 60

/-- After reset every field that has a range keeps to it, and capture memory is in its canonical form (R62, R109, R117, R365, R469, R481, R529). -/
def Obligations.ResetIsLegal : Prop := Machine.State.reset.Legal

/-- The invariant of the block: whatever the command, and on an idle step, each field that a value out of its range leaves unchanged keeps to its
range (R62, R109, R117, R365, R469, R481, R529), and capture memory keeps its canonical form (what it lists is what differs from 0: log entry 24). -/
def Obligations.LegalFieldsStayLegal : Prop :=
  ∀ s t : State, s.Legal → Machine.step s = .next t → t.Legal
end

