-- ==== Sys2Proof/Laws/Desc.lean ====
section
/-!
SUPPORT. A descriptor from posting to beginning, when nothing else is outstanding: one lemma for posting, fetching and beginning.
-/

namespace Sys2Proof.Machine

/-- A descriptor command posts its descriptor. -/
theorem exec_of_descOf {i D s} (h : descOf i = some D) : exec i s = .next (submitDesc D.op D.sub D.reads s) := by
  cases i <;> simp only [descOf, reduceCtorEq, Option.some.injEq] at h <;> subst h <;> rfl

/-- The contexts after one is changed. -/
theorem modCtx_ctxs (c : Nat) (f : Ctx → Ctx) (s : State) :
   (modCtx c f s).host.ctxs = s.host.ctxs.map (fun y => if y.num = c then f y else y) := by
  simp [modCtx, modHost, mapIf]

/-- Two changes of one context are one change. -/
theorem modCtx_modCtx (c f g s) (hf : ∀ y : Ctx, (f y).num = y.num) : modCtx c g (modCtx c f s) = modCtx c (fun y => g (f y)) s := by
  simp only [modCtx, modHost, mapIf, List.map_map]
  congr 2
  apply List.map_congr_left; intro y _
  by_cases h : y.num = c <;> simp [h, hf]

/-- A change of a context depends only on what it does to that context. -/
theorem modCtx_congr (c f g s) (h : ∀ y ∈ s.host.ctxs, y.num = c → f y = g y) : modCtx c f s = modCtx c g s := by
  simp only [modCtx, modHost, mapIf]
  congr 2
  apply List.map_congr_left; intro y hy
  by_cases h' : y.num = c <;> simp [h', h y hy]

/-- The one context of a number is found. -/
theorem getCtx_of_filter {c s x} (h : s.host.ctxs.filter (fun y => decide (y.num = c)) = [x]) : getCtx c s = some x := by
  unfold getCtx
  rw [← List.head?_filter, h]; rfl

/-- The journal leaves the Host island alone. -/
theorem journal_host (k b n s) : (journal k b n s).host = s.host := by
  unfold journal; split
  · rfl
  · simp only []; split <;> rfl

/-- Journalling and changing a context commute. -/
theorem journal_modCtx (k b n c f s) : modCtx c f (journal k b n s) = journal k b n (modCtx c f s) := by
  unfold journal
  have h1: (modCtx c f s).fr = s.fr := rfl
  have h2: now (modCtx c f s) = now s := rfl
  rw [h1, h2]
  split
  · rfl
  · simp only []; split <;> rfl

/-- A fold whose every step changes nothing changes nothing. -/
theorem foldl_eq_self {α β} (f : β → α → β) (l : List α) (b : β) (h : ∀ x ∈ l, f b x = b) : l.foldl f b = b := by
  induction l with
  | nil => rfl
  | cons a l ih => simp [h a (by simp)]; exact ih (fun x hx => h x (by simp [hx]))

/-- A fold in which only one element has an effect. -/
theorem foldl_eq_one {α β} (p : α → Bool) (f : β → α → β) (l : List α) (b : β) (x : α) (hx : l.filter p = [x])
   (hi : ∀ b, ∀ y ∈ l, p y = false → f b y = b) : l.foldl f b = f b x := by
  induction l generalizing b with
  | nil => simp at hx
  | cons a l ih =>
    by_cases hp : p a = true
    · simp [hp] at hx
      obtain ⟨rfl, hl⟩ := hx
      simp
      apply foldl_eq_self; intro y hy; apply hi _ _ (by simp [hy]); simpa using hl y hy
    · simp [hp] at hx
      simp [hi b a (by simp) (by simpa using hp)]
      exact ih _ hx (fun b y hy => hi b y (by simp [hy]))

/-- The one context of a number, after it is changed. -/
theorem filter_mapIf_ctx {c : Nat} {f : Ctx → Ctx} (hf : ∀ y, (f y).num = y.num) {l : List Ctx} {x} (h : l.filter (fun y => decide (y.num = c)) = [x]) :
   (mapIf (fun y => decide (y.num = c)) f l).filter (fun y => decide (y.num = c)) = [f x] := by
  have hx : x.num = c := by
    have : x ∈ l.filter (fun y => decide (y.num = c)) := by rw [h]; simp
    simpa using (List.mem_filter.1 this).2
  unfold mapIf
  rw [List.filter_map]
  have : ((fun y : Ctx => decide (y.num = c)) ∘ fun y => if decide (y.num = c) = true then f y else y) = fun y => decide (y.num = c) := by
    funext y; by_cases h' : y.num = c <;> simp [h', hf]
  rw [this, h]; simp [hx]

/-- The context that has posted its one descriptor. -/
theorem postedOn_filter {D x s} (h : Fetched D x s) : (postedOn D s).host.ctxs.filter (fun y => decide (y.num = D.sub.ctx.toNat)) = [{ x with posted := [D] }] := by
  have := filter_mapIf_ctx (f := fun y => { y with posted := y.posted ++ [D] }) (fun _ => rfl) h.1
  have hx : x ∈ s.host.ctxs := by
    have : x ∈ s.host.ctxs.filter (fun y => decide (y.num = D.sub.ctx.toNat)) := by rw [h.1]; simp
    exact (List.mem_filter.1 this).1
  have hp := (h.2.2.2.2.1 x hx).1
  simp only [hp, List.nil_append] at this
  exact this

/-- What fetching does to a descriptor that is fetched as it is posted. -/
theorem fetchAll_postedOn {D x s} (h : Fetched D x s) : fetchAll (postedOn D s) = match acceptCheck D x s with
   | none => takenOn false D x s
   | some (st, r1) => completeDesc D.sub.ctx.toNat x.nextSid st 0 r1 (takenOn false D x s) := by
  obtain ⟨h1, h2, h3, h4, h5, h6⟩ := id h
  have hf := postedOn_filter h
  have hx : x ∈ s.host.ctxs := by
    have : x ∈ s.host.ctxs.filter (fun y => decide (y.num = D.sub.ctx.toNat)) := by rw [h.1]; simp
    exact (List.mem_filter.1 this).1
  have hxn : x.num = D.sub.ctx.toNat := by
    have : x ∈ s.host.ctxs.filter (fun y => decide (y.num = D.sub.ctx.toNat)) := by rw [h.1]; simp
    simpa using (List.mem_filter.1 this).2
  unfold fetchAll
  rw [foldl_eq_one _ _ _ _ _ hf]
  · simp only [List.length_singleton, fetchCtx]
    rw [hxn, getCtx_of_filter hf]
    simp only []
    rw [if_neg]
    · have ha : acceptCheck D { x with posted := [D] } (postedOn D s) = acceptCheck D x s := rfl
      rw [ha]
      have hs : (journal 1 (descFields D.sub.ctx.toNat D) 72 (modCtx D.sub.ctx.toNat (fun y => { y with
            posted := [], cmdHead := (y.cmdHead + 1) % 2 ^ y.cmdLog2, nextSid := y.nextSid + 1,
            acc := y.acc ++ [{ sid := x.nextSid, index := x.cmdHead, desc := D, begun := false, marks := [], onWritten := none }] }) (postedOn D s)))
          = takenOn false D x s := by
        unfold takenOn postedOn
        rw [modCtx_modCtx]
        · congr 1
          apply modCtx_congr
          intro y hy hyc
          have : y = x := by
            have : y ∈ s.host.ctxs.filter (fun y => decide (y.num = D.sub.ctx.toNat)) := List.mem_filter.2 ⟨hy, by simpa using hyc⟩
            rw [h1] at this; simpa using this
          subst this
          simp [(h5 y hy).1, (h5 y hy).2]
        · intro y; rfl
      rw [hs] <;> rcases acceptCheck D x s with _ | ⟨a, b⟩ <;> rfl
    · simp [Ctx.fetches, h2, h3, h4, (h5 x hx).2]
  · intro b y hy hyn
    have : y.posted = [] := by
      unfold postedOn at hy
      rw [modCtx_ctxs] at hy
      simp only [List.mem_map] at hy
      obtain ⟨z, hz, rfl⟩ := hy
      by_cases hzc : z.num = D.sub.ctx.toNat
      · simp [hzc] at hyn
      · simp [hzc, (h5 z hz).1]
    rw [this]; rfl

/-- The contexts after a descriptor is taken. -/
theorem takenOn_ctxs {b D x s} : (takenOn b D x s).host.ctxs = mapIf (fun y => decide (y.num = D.sub.ctx.toNat)) (fun y => { y with
    posted := [], cmdHead := (x.cmdHead + 1) % 2 ^ x.cmdLog2, nextSid := x.nextSid + 1
    acc := [{ sid := x.nextSid, index := x.cmdHead, desc := D, begun := b, marks := [], onWritten := none }] }) s.host.ctxs := by
  unfold takenOn; rw [journal_host]; rfl

/-- Beginning what may begin, after a descriptor is taken, runs that descriptor. -/
theorem Begins.beginReady_takenOn {i s c sid D b} (h : Begins i s c sid D b) : ∃ x, descOf i = some D ∧ Fetched D x s ∧ acceptCheck D x s = none ∧ beginReady (takenOn false D x s) = beginOp c sid D b := by
  obtain ⟨x, hd, hF, hc, hs, hb, ha, hcal, hst, hmp, hmode, hrw⟩ := h
  refine ⟨x, hd, hF, ha, ?_⟩
  subst hc hs
  obtain ⟨h1, h2, h3, h4, h5, h6⟩ := id hF
  have hx : x ∈ s.host.ctxs := by
    have : x ∈ s.host.ctxs.filter (fun y => decide (y.num = D.sub.ctx.toNat)) := by rw [h1]; simp
    exact (List.mem_filter.1 this).1
  have hxn : x.num = D.sub.ctx.toNat := by
    have : x ∈ s.host.ctxs.filter (fun y => decide (y.num = D.sub.ctx.toNat)) := by rw [h1]; simp
    simpa using (List.mem_filter.1 this).2
  have hf := filter_mapIf_ctx (f := fun y => { y with
    posted := [], cmdHead := (x.cmdHead + 1) % 2 ^ x.cmdLog2, nextSid := x.nextSid + 1
    acc := [{ sid := x.nextSid, index := x.cmdHead, desc := D, begun := false, marks := [], onWritten := none }] }) (fun _ => rfl) h1
  rw [← takenOn_ctxs] at hf
  unfold beginReady
  rw [foldl_eq_one _ _ _ _ _ hf]
  · simp only [List.foldl_cons, List.foldl_nil]
    rw [hxn, getCtx_of_filter hf]
    have hfa : findAcc D.sub.ctx.toNat x.nextSid (takenOn false D x s) = some { sid := x.nextSid, index := x.cmdHead, desc := D, begun := false, marks := [], onWritten := none } := by
      unfold findAcc; rw [getCtx_of_filter hf]; simp
    rw [hfa]
    simp only []
    rw [if_pos]
    · unfold beginDesc
      simp only []
      have hb' : modCtx D.sub.ctx.toNat (fun x_1 => { x_1 with acc := mapIf (fun b => decide (b.sid = x.nextSid)) (fun b => { b with begun := true }) x_1.acc }) (takenOn false D x s) = takenOn true D x s := by
        unfold takenOn
        rw [journal_modCtx, modCtx_modCtx]
        · simp [mapIf]
        · intro y; rfl
      rw [hb', ← hb, if_pos]
      rcases hcal with hcal | hcal
      · simp [hcal]
      · have : (takenOn false D x s).host.calReady = true := by unfold takenOn; rw [journal_host]; exact hcal
        rw [this]; simp
    · have hh : ∀ z : Nat, (takenOn false D x s).mode = s.mode ∧ (takenOn false D x s).pwr = s.pwr ∧ (takenOn false D x s).trg = s.trg := by
        intro _; unfold takenOn journal; split
        · exact ⟨rfl, rfl, rfl⟩
        · simp only []; split <;> exact ⟨rfl, rfl, rfl⟩
      obtain ⟨hm, hp, ht⟩ := hh 0
      unfold beginsNow
      have hst' : stateServes D.op (takenOn false D x s) = stateServes D.op s := by unfold stateServes; rw [hp]
      have hrw' : ∀ n, readWaits n D (takenOn false D x s) = readWaits n D s := by intro n; unfold readWaits ownCapture; rw [ht]
      rw [hst', hst, hp]
      have hmb : mayBegin { x with
                  posted := [], cmdHead := (x.cmdHead + 1) % 2 ^ x.cmdLog2, nextSid := x.nextSid + 1
                  acc := [{ sid := x.nextSid, index := x.cmdHead, desc := D, begun := false, marks := [], onWritten := none }] }
          { sid := x.nextSid, index := x.cmdHead, desc := D, begun := false, marks := [], onWritten := none } (takenOn false D x s) = true := by
        unfold mayBegin
        simp only [hm, hrw', hxn]
        simp [h2, hrw]
        by_cases hq : heldByChange D.op = true
        · simp [hmode hq]
        · simp at hq; simp [hq]
      rw [hmb]
      by_cases hq : needsMp D.op = true
      · simp [hmp hq]
      · simp at hq; simp [hq]
  · intro b y hy hyn
    have : y.acc = [] := by
      rw [takenOn_ctxs] at hy
      simp only [mapIf, List.mem_map] at hy
      obtain ⟨z, hz, rfl⟩ := hy
      by_cases hzc : z.num = D.sub.ctx.toNat
      · simp [hzc] at hyn
      · simp [hzc, (h5 z hz).2]
    rw [this]; rfl

/-- What posting a descriptor leaves, round by round. -/
theorem submitDesc_eq {D x s} (h : Fetched D x s) : submitDesc D.op D.sub D.reads s = settleN 4 (roundRest (beginReady (fetchAll (postedOn D s)))) := by
  obtain ⟨h1, h2, h3, h4, h5, h6⟩ := id h
  unfold submitDesc settle
  have e : modCtx D.sub.ctx.toNat (fun x => if x.state = .live then { x with posted := x.posted ++ [⟨D.op, D.sub, D.reads⟩] } else x) s = postedOn D s := by
    apply modCtx_congr
    intro y hy hyc
    have : y = x := by
      have : y ∈ s.host.ctxs.filter (fun y => decide (y.num = D.sub.ctx.toNat)) := List.mem_filter.2 ⟨hy, by simpa using hyc⟩
      rw [h1] at this; simpa using this
    subst this
    simp [h2]
  rw [e]
  have hsum : sumBy (fun x => x.posted.length + x.acc.length) (postedOn D s).host.ctxs = 1 := by
    have hf := postedOn_filter h
    unfold sumBy
    rw [List.foldl_map, foldl_eq_one _ _ _ _ _ hf]
    · have hx : x ∈ s.host.ctxs := by
        have : x ∈ s.host.ctxs.filter (fun y => decide (y.num = D.sub.ctx.toNat)) := by rw [h.1]; simp
        exact (List.mem_filter.1 this).1
      simp [(h5 x hx).2]
    · intro b y hy hyn
      have : y.posted = [] ∧ y.acc = [] := by
        unfold postedOn at hy
        rw [modCtx_ctxs] at hy
        simp only [List.mem_map] at hy
        obtain ⟨z, hz, rfl⟩ := hy
        by_cases hzc : z.num = D.sub.ctx.toNat
        · simp [hzc] at hyn
        · simp [hzc, (h5 z hz).1, (h5 z hz).2]
      simp [this.1, this.2]
  rw [hsum]
  show settleN 4 (settleRound _) = _
  unfold settleRound
  rw [h6]; rfl

end Sys2Proof.Machine
end

