-- ==== Sys2Proof/Laws/Memory.lean ====
section
/-!
SUPPORT. The laws of a byte memory: every operation keeps the canonical form, a byte that was written reads back, and every other
byte reads as before.
-/

namespace Sys2Proof.Machine

theorem Memory.wfFrom_cons (lo a : Nat) (b : Byte) (r : Memory) :
    Memory.wfFrom lo ((a, b) :: r) = true ↔ lo ≤ a ∧ b ≠ 0 ∧ Memory.wfFrom (a + 1) r = true := by
  simp [Memory.wfFrom, and_assoc]

theorem Memory.wfFrom_le {lo hi : Nat} (h : lo ≤ hi) {m : Memory} (k : m.wfFrom hi = true) : m.wfFrom lo = true := by
  cases m with
  | nil => rfl
  | cons c r =>
    rw [Memory.wfFrom_cons] at k ⊢
    exact ⟨h.trans k.1, k.2⟩

theorem Memory.wfFrom_erase (a : Nat) {lo : Nat} {m : Memory} (h : m.wfFrom lo = true) : (m.erase a).wfFrom lo = true := by
  induction m generalizing lo with
  | nil => rfl
  | cons c r ih =>
    obtain ⟨x, b⟩ := c
    have k := (Memory.wfFrom_cons ..).1 h
    unfold Memory.erase
    split
    · exact Memory.wfFrom_le (k.1.trans x.le_succ) k.2.2
    · split
      · exact h
      · exact (Memory.wfFrom_cons ..).2 ⟨k.1, k.2.1, ih k.2.2⟩

theorem Memory.wfFrom_insert {a : Nat} {v : Byte} (hv : v ≠ 0) {lo : Nat} (ha : lo ≤ a) {m : Memory} (h : m.wfFrom lo = true) :
    (m.insert a v).wfFrom lo = true := by
  induction m generalizing lo with
  | nil => exact (Memory.wfFrom_cons ..).2 ⟨ha, hv, rfl⟩
  | cons c r ih =>
    obtain ⟨x, b⟩ := c
    have k := (Memory.wfFrom_cons ..).1 h
    unfold Memory.insert
    split
    · rename_i l
      exact (Memory.wfFrom_cons ..).2 ⟨ha, hv, (Memory.wfFrom_cons ..).2 ⟨l, k.2⟩⟩
    · split
      · rename_i e
        exact (Memory.wfFrom_cons ..).2 ⟨ha, hv, e ▸ k.2.2⟩
      · exact (Memory.wfFrom_cons ..).2 ⟨k.1, k.2.1, ih (by omega) k.2.2⟩

theorem Memory.wf_write (a : Nat) (v : Byte) {m : Memory} (h : m.wf = true) : (m.write a v).wf = true := by
  unfold Memory.write
  split
  · exact Memory.wfFrom_erase a h
  · exact Memory.wfFrom_insert ‹_› a.zero_le h

theorem Memory.wf_writeList (a : Nat) (l : List Byte) {m : Memory} (h : m.wf = true) : (m.writeList a l).wf = true := by
  induction l generalizing a m with
  | nil => exact h
  | cons b r ih => exact ih (a + 1) (Memory.wf_write a b h)

theorem Memory.wf_writeNat (a n v : Nat) {m : Memory} (h : m.wf = true) : (m.writeNat a n v).wf = true := Memory.wf_writeList a _ h

/-- An address below every listed one reads as 0. -/
theorem Memory.read_below {a lo : Nat} (ha : a < lo) {m : Memory} (h : m.wfFrom lo = true) : m.read a = 0 := by
  induction m generalizing lo with
  | nil => rfl
  | cons c r ih =>
    obtain ⟨x, b⟩ := c
    have k := (Memory.wfFrom_cons ..).1 h
    rw [Memory.read, if_neg (by omega)]
    exact ih (by omega : a < x + 1) k.2.2

theorem Memory.read_erase (a b : Nat) {lo : Nat} {m : Memory} (h : m.wfFrom lo = true) :
    (m.erase a).read b = if b = a then 0 else m.read b := by
  induction m generalizing lo with
  | nil => simp [Memory.erase, Memory.read]
  | cons c r ih =>
    obtain ⟨x, y⟩ := c
    have k := (Memory.wfFrom_cons ..).1 h
    unfold Memory.erase
    split
    · subst x
      by_cases e : b = a
      · rw [if_pos e, e, Memory.read_below (Nat.lt_succ_self a) k.2.2]
      · rw [if_neg e, Memory.read, if_neg (Ne.symm e)]
    · split
      · by_cases e : b = a
        · rw [if_pos e, Memory.read, if_neg (by omega), Memory.read_below (by omega : b < x + 1) k.2.2]
        · rw [if_neg e]
      · rw [Memory.read, Memory.read, ih k.2.2]
        split_ifs <;> first | rfl | omega

theorem Memory.read_insert (a b : Nat) (v : Byte) (m : Memory) : (m.insert a v).read b = if b = a then v else m.read b := by
  induction m with
  | nil => simp [Memory.insert, Memory.read, eq_comm]
  | cons c r ih =>
    obtain ⟨x, y⟩ := c
    unfold Memory.insert
    by_cases e : b = a
    · subst b
      rw [if_pos rfl]
      split_ifs with h1 h2
      · rw [Memory.read, if_pos rfl]
      · rw [Memory.read, if_pos rfl]
      · rw [Memory.read, if_neg h2, ih, if_pos rfl]
    · rw [if_neg e]
      split_ifs with h1 h2
      · rw [Memory.read, if_neg (Ne.symm e)]
      · rw [Memory.read, Memory.read, if_neg (Ne.symm e), if_neg (h2 ▸ Ne.symm e)]
      · rw [Memory.read, Memory.read, ih, if_neg e]

/-- A byte that was written reads back, and every other byte reads as before. -/
theorem Memory.read_write (a b : Nat) (v : Byte) {m : Memory} (h : m.wf = true) : (m.write a v).read b = if b = a then v else m.read b := by
  unfold Memory.write
  split
  · rename_i e
    rw [e]
    exact Memory.read_erase a b h
  · exact Memory.read_insert a b v m

/-- Bytes that were written read back, and every other byte reads as before. -/
theorem Memory.read_writeList (a b : Nat) (l : List Byte) {m : Memory} (h : m.wf = true) :
    (m.writeList a l).read b = if a ≤ b ∧ b < a + l.length then l.getD (b - a) 0 else m.read b := by
  induction l generalizing a m with
  | nil => simp [Memory.writeList]
  | cons x r ih =>
    rw [Memory.writeList, ih (a + 1) (Memory.wf_write a x h), Memory.read_write a b x h, List.length_cons]
    by_cases e : b = a
    · subst e
      simp
    · by_cases k : a + 1 ≤ b ∧ b < a + 1 + r.length
      · obtain ⟨d, rfl⟩ : ∃ d, b = a + 1 + d := ⟨b - (a + 1), by omega⟩
        rw [if_pos k, if_pos (by omega), show a + 1 + d - (a + 1) = d by omega, show a + 1 + d - a = d + 1 by omega, List.getD_cons_succ]
      · rw [if_neg k, if_neg e, if_neg (by omega)]

end Sys2Proof.Machine
end

