-- ==== Sys2Proof/Laws/Range.lean ====
section
/-!
SUPPORT. The fields that have a range: what writes one keeps it in its range, and what else touches its record leaves it as it was.
-/

namespace Sys2Proof.Machine

/-! The CSU's window and the AMC's trim selection. -/

@[simp] theorem Csu.discard_windowLog2 (i : Nat) (c : Csu) : (c.discard i).windowLog2 = c.windowLog2 := rfl

@[simp] theorem Csu.windowEnd_windowLog2 (c : Csu) : c.windowEnd.windowLog2 = c.windowLog2 := by
  unfold Csu.windowEnd
  dsimp only
  split <;> rfl

@[simp] theorem Csu.word_windowLog2 (n i : Nat) (b : Bool) (l : List (Int × Bool)) (c : Csu) : (c.word n i b l).windowLog2 = c.windowLog2 := by
  unfold Csu.word
  split_ifs <;> rfl

/-- WINDOW_LOG2 outside 10 to 40 is discarded (R109). -/
theorem Csu.write_windowLog2 (v i : Nat) (c : Csu) :
    (c.write v i).windowLog2 = if 10 ≤ bits v 0 6 ∧ bits v 0 6 ≤ 40 then bits v 0 6 else c.windowLog2 := by
  unfold Csu.write
  dsimp only
  simp only [apply_ite Csu.windowLog2, Csu.discard_windowLog2, ite_self]
  by_cases h : 10 ≤ bits v 0 6 ∧ bits v 0 6 ≤ 40
  · by_cases e : bits v 0 6 = c.windowLog2 <;> simp [h, e]
  · rw [if_neg h, if_neg (by simp only [Bool.and_eq_true, decide_eq_true_eq]; tauto)]

@[simp] theorem Amc.startSlot_trimSel (k : Nat) (a : Amc) : (a.startSlot k).trimSel = a.trimSel := by
  unfold Amc.startSlot
  split
  · rfl
  · split
    · rfl
    · split <;> rfl

@[simp] theorem Amc.serve_trimSel (a : Amc) : a.serve.trimSel = a.trimSel := by
  unfold Amc.serve
  split
  · rfl
  · split
    · rfl
    · dsimp only
      split <;> rfl

@[simp] theorem Amc.request_trimSel (r : AmcReq) (a : Amc) : (a.request r).trimSel = a.trimSel := by
  unfold Amc.request
  split
  · rfl
  · split
    · rw [Amc.serve_trimSel]
    · split
      · split
        · rfl
        · rw [Amc.serve_trimSel]
      · rfl

@[simp] theorem Amc.complete_trimSel (n : Int) (a : Amc) : (a.complete n).trimSel = a.trimSel := by
  have p (c : Prop) [Decidable c] (x y : Amc) (hx : x.trimSel = a.trimSel) (hy : y.trimSel = a.trimSel) :
      (if c then x else y).trimSel = a.trimSel := by
    split <;> assumption
  unfold Amc.complete
  split
  · dsimp only
    split
    · rw [Amc.startSlot_trimSel, Amc.serve_trimSel]
      exact p _ _ _ rfl rfl
    · rw [Amc.serve_trimSel]
      exact p _ _ _ rfl rfl
  · split
    · rfl
    · dsimp only
      split <;> simp only [Amc.startSlot_trimSel]

@[simp] theorem Amc.clear_trimSel (n : Nat) (a : Amc) : (a.clear n).trimSel = a.trimSel := rfl

@[simp] theorem Amc.writeSeq_trimSel (k v : Nat) (a : Amc) : (a.writeSeq k v).trimSel = a.trimSel := by
  unfold Amc.writeSeq
  dsimp only
  split
  · rw [Amc.startSlot_trimSel]
  · rfl

/-- TRIM_SEL of 16 or more is discarded (R117). -/
theorem Amc.write_trimSel (v : Nat) (a : Amc) :
    (a.write v).trimSel = if bits v 8 5 < 16 then BitVec.ofNat 5 (bits v 8 5) else a.trimSel := by
  unfold Amc.write
  dsimp only
  simp only [apply_ite Amc.trimSel, Amc.startSlot_trimSel, ite_self]

/-! The Timing island. -/

theorem Tim.advance_ppsOutWidth (n : Nat) (t : Tim) : (Tim.advance n t).ppsOutWidth = t.ppsOutWidth := by
  cases t
  rfl

/-! The eye scan's offsets. -/

theorem sext7_eq (w : Nat) : sext 7 w = (BitVec.ofNat 7 w).toInt := by
  rw [BitVec.toInt_eq_toNat_cond, BitVec.toNat_ofNat]
  simp only [sext]
  rw [if_neg (by omega)]
  split <;> split <;> first | rfl | omega

/-! Capture memory. -/

theorem addPoison_fold (l : List Nat) (d : Dram) :
    (l.foldl (fun d c => d.addPoison c) d).mem = d.mem ∧ (l.foldl (fun d c => d.addPoison c) d).log2p = d.log2p := by
  induction l generalizing d with
  | nil => exact ⟨rfl, rfl⟩
  | cons x r ih => exact ih (d.addPoison x)

end Sys2Proof.Machine
end

