-- ==== Sys2Proof/Laws/Kept/Base.lean ====
section
/-!
SUPPORT. What every operation keeps: the queue as it is, and the legal fields of Safety. One lemma per way to build a state.
-/

namespace Sys2Proof.Machine

/-- A later state of a block: the queue is as it was, and legal fields stay legal. -/
def Kept (σ τ : State) : Prop := τ.pending = σ.pending ∧ (σ.Legal → τ.Legal)

/-- An outcome that is a later state. -/
def Keeps (σ : State) (o : Host.Outcome State Fault Refusal) : Prop := ∃ τ, o = .next τ ∧ Kept σ τ

theorem Kept.refl (σ : State) : Kept σ σ := ⟨rfl, id⟩

theorem Kept.trans {σ τ υ : State} (h : Kept σ τ) (k : Kept τ υ) : Kept σ υ := ⟨k.1.trans h.1, k.2 ∘ h.2⟩

theorem Keeps.next {σ τ : State} (h : Kept σ τ) : Keeps σ (.next τ) := ⟨τ, rfl, h⟩

/-- A state that agrees with a later one on the queue and on what `Legal` reads is later too. -/
theorem Kept.same {σ τ υ : State} (h : Kept σ τ) (hp : υ.pending = τ.pending) (hm : υ.dram.mem = τ.dram.mem)
    (hl : υ.dram.log2p = τ.dram.log2p) (hw : υ.tim.ppsOutWidth = τ.tim.ppsOutWidth) (hc : υ.adc.csu.windowLog2 = τ.adc.csu.windowLog2)
    (ha : υ.adc.amc.trimSel = τ.adc.amc.trimSel) (ht : υ.link.scan.toff = τ.link.scan.toff) (hv : υ.link.scan.voff = τ.link.scan.voff)
    (hd : υ.link.scan.dwell = τ.link.scan.dwell) (hq : υ.pwr.calPeriod = τ.pwr.calPeriod) (hi : υ.spu.injUnit = τ.spu.injUnit) : Kept σ υ := by
  refine h.trans ⟨hp, fun k => ?_⟩
  unfold State.Legal
  rw [hm, hl, hw, hc, ha, ht, hv, hd, hq, hi]
  exact k

/-- What keeps the queue and, from a legal state, gives a legal one. -/
theorem Kept.legal {σ τ υ : State} (h : Kept σ τ) (hp : υ.pending = τ.pending) (f : τ.Legal → υ.Legal) : Kept σ υ := h.trans ⟨hp, f⟩

/-- A state built field by field from a later one. -/
theorem Kept.mk {σ u : State} {p o f tim adc skm zdc dsp trg dpy dram spu pwr link hedge mode host disk trust fr plans np no}
    (h : Kept σ u) (hp : p = u.pending) (hm : dram.mem = u.dram.mem) (hl : dram.log2p = u.dram.log2p)
    (hw : tim.ppsOutWidth = u.tim.ppsOutWidth) (hc : adc.csu.windowLog2 = u.adc.csu.windowLog2) (ha : adc.amc.trimSel = u.adc.amc.trimSel)
    (ht : link.scan.toff = u.link.scan.toff) (hv : link.scan.voff = u.link.scan.voff) (hd : link.scan.dwell = u.link.scan.dwell)
    (hq : pwr.calPeriod = u.pwr.calPeriod) (hi : spu.injUnit = u.spu.injUnit) :
    Kept σ (State.mk p o f tim adc skm zdc dsp trg dpy dram spu pwr link hedge mode host disk trust fr plans np no) :=
  h.same hp hm hl hw hc ha ht hv hd hq hi

theorem Kept.of_fst {σ a : State} {β : Type} {b : β} {p : State × β} (h : p = (a, b)) (k : Kept σ p.1) : Kept σ a := by
  rw [h] at k
  exact k

theorem Kept.of_snd {σ a : State} {β : Type} {b : β} {p : β × State} (h : p = (b, a)) (k : Kept σ p.2) : Kept σ a := by
  rw [h] at k
  exact k

theorem Kept.ite {σ τ υ : State} {c : Prop} [Decidable c] (h : Kept σ τ) (k : Kept σ υ) : Kept σ (if c then τ else υ) := by
  split <;> assumption

theorem Kept.ite_fst {σ : State} {β : Type} {x y : State × β} {c : Prop} [Decidable c] (h : Kept σ x.1) (k : Kept σ y.1) :
    Kept σ (if c then x else y).1 := by
  split <;> assumption

theorem Kept.foldl {σ τ : State} {α : Type} {g : State → α → State} (l : List α) (h : Kept σ τ)
    (hg : ∀ u x, Kept σ u → Kept σ (g u x)) : Kept σ (l.foldl g τ) := by
  induction l generalizing τ with
  | nil => exact h
  | cons x l ih => exact ih (hg _ _ h)

/-- A fold whose accumulator holds the state beside a value. -/
theorem Kept.foldl_snd {σ : State} {α β : Type} {g : β × State → α → β × State} (l : List α) (b : β × State) (h : Kept σ b.2)
    (hg : ∀ u x, Kept σ u.2 → Kept σ (g u x).2) : Kept σ (l.foldl g b).2 := by
  induction l generalizing b with
  | nil => exact h
  | cons x l ih => exact ih _ (hg _ _ h)

/-- A fold whose accumulator holds a value beside the state. -/
theorem Kept.foldl_fst {σ : State} {α β : Type} {g : State × β → α → State × β} (l : List α) (b : State × β) (h : Kept σ b.1)
    (hg : ∀ u x, Kept σ u.1 → Kept σ (g u x).1) : Kept σ (l.foldl g b).1 := by
  induction l generalizing b with
  | nil => exact h
  | cons x l ih => exact ih _ (hg _ _ h)

end Sys2Proof.Machine
end

