-- ==== Sys2Proof/Laws/Kept/Ops.lean ====
section
/-!
SUPPORT. What the operations of Ops.lean keep: the queue, and the legal fields of Safety.
-/

namespace Sys2Proof.Machine

theorem emit_kept {σ τ : State} (hk : Kept σ τ) (o : Output) :
    Kept σ (emit o τ) := by
  unfold emit
  try dsimp only
  repeat' first
    | with_reducible assumption
    | split
    | fail_if_no_progress (with_reducible refine Kept.mk ?_ rfl ?_ ?_ ?_ ?_ ?_ ?_ ?_ ?_ ?_ ?_) <;> try ((with_reducible refine (?_ : _ = _)); first | rfl | (split <;> rfl))

theorem freshValue_kept {σ τ : State} (hk : Kept σ τ) (w : Nat) : Kept σ (freshValue w τ).2 :=
  hk.same rfl rfl rfl rfl rfl rfl rfl rfl rfl rfl rfl

theorem journal_kept {σ τ : State} (hk : Kept σ τ) (kind : Nat) (body : List Fld) (bytes : Nat) :
    Kept σ (journal kind body bytes τ) := by
  unfold journal
  try dsimp only
  repeat' first
    | with_reducible assumption
    | with_reducible apply Kept.ite
    | fail_if_no_progress (with_reducible refine Kept.mk ?_ rfl ?_ ?_ ?_ ?_ ?_ ?_ ?_ ?_ ?_ ?_) <;> try ((with_reducible refine (?_ : _ = _)); first | rfl | (split <;> rfl))

theorem modHost_kept {σ τ : State} (hk : Kept σ τ) (f : HostSt → HostSt) :
    Kept σ (modHost f τ) := by
  exact hk.same rfl rfl rfl rfl rfl rfl rfl rfl rfl rfl rfl

theorem modFn_kept {σ τ : State} (hk : Kept σ τ) (f : Nat) (g : FnRegs → FnRegs) :
    Kept σ (modFn f g τ) := by
  exact hk.same rfl rfl rfl rfl rfl rfl rfl rfl rfl rfl rfl

theorem modCtx_kept {σ τ : State} (hk : Kept σ τ) (c : Nat) (f : Ctx → Ctx) :
    Kept σ (modCtx c f τ) := by
  exact hk.same rfl rfl rfl rfl rfl rfl rfl rfl rfl rfl rfl

theorem modRing_kept {σ τ : State} (hk : Kept σ τ) (c r : Nat) (f : DataRing → DataRing) :
    Kept σ (modRing c r f τ) := by
  exact hk.same rfl rfl rfl rfl rfl rfl rfl rfl rfl rfl rfl

theorem signalVector_kept {σ τ : State} (hk : Kept σ τ) (f v : Nat) :
    Kept σ (signalVector f v τ) := by
  unfold signalVector
  try dsimp only
  repeat' first
    | with_reducible assumption
    | with_reducible apply modFn_kept
    | with_reducible apply emit_kept
    | with_reducible apply Kept.ite
    | split

theorem signalRing_kept {σ τ : State} (hk : Kept σ τ) (due : Bool → Bool → Nat → Nat → Nat → Bool) (c : Nat) (sel : RingSel) :
    Kept σ (signalRing due c sel τ) := by
  unfold signalRing
  try dsimp only
  repeat' first
    | with_reducible assumption
    | with_reducible apply signalVector_kept
    | with_reducible apply modRing_kept
    | with_reducible apply modCtx_kept
    | with_reducible apply Kept.ite
    | split

theorem signalIfDue_kept {σ τ : State} (hk : Kept σ τ) (c : Nat) (sel : RingSel) :
    Kept σ (signalIfDue c sel τ) := by
  unfold signalIfDue
  try dsimp only
  repeat' first
    | with_reducible assumption
    | with_reducible apply signalRing_kept

theorem signalTimer_kept {σ τ : State} (hk : Kept σ τ) (c : Nat) (sel : RingSel) :
    Kept σ (signalTimer c sel τ) := by
  unfold signalTimer
  try dsimp only
  repeat' first
    | with_reducible assumption
    | with_reducible apply signalRing_kept

theorem writeCpl_kept {σ τ : State} (hk : Kept σ τ) (c : Nat) (e : Cpl) :
    Kept σ (writeCpl c e τ) := by
  unfold writeCpl
  try dsimp only
  repeat' first
    | with_reducible assumption
    | with_reducible apply signalIfDue_kept
    | with_reducible apply modCtx_kept
    | with_reducible apply journal_kept
    | with_reducible apply emit_kept
    | split

theorem postCpl_kept {σ τ : State} (hk : Kept σ τ) (c : Nat) (e : Cpl) :
    Kept σ (postCpl c e τ) := by
  unfold postCpl
  try dsimp only
  repeat' first
    | with_reducible assumption
    | with_reducible apply writeCpl_kept
    | with_reducible apply modCtx_kept
    | with_reducible apply Kept.ite
    | split

theorem drainHeld_kept {σ τ : State} (hk : Kept σ τ) (c : Nat) (n : Nat) : Kept σ (drainHeld c n τ) := by
  induction n generalizing τ with
  | zero => exact hk
  | succ n ih =>
    rw [drainHeld]
    repeat' first
      | with_reducible assumption
      | with_reducible apply ih
      | with_reducible apply writeCpl_kept
      | with_reducible apply modCtx_kept
      | with_reducible apply Kept.ite
      | split

theorem writeEvt_kept {σ τ : State} (hk : Kept σ τ) (c : Nat) (e : Evt) :
    Kept σ (writeEvt c e τ) := by
  unfold writeEvt
  try dsimp only
  repeat' first
    | with_reducible assumption
    | with_reducible apply signalIfDue_kept
    | with_reducible apply modCtx_kept
    | with_reducible apply emit_kept
    | split

theorem sendEvent_kept {σ τ : State} (hk : Kept σ τ) (c code subject detail detail2 detail3 : Nat) :
    Kept σ (sendEvent c code subject detail detail2 detail3 τ) := by
  unfold sendEvent
  try dsimp only
  repeat' first
    | with_reducible assumption
    | with_reducible apply writeEvt_kept
    | with_reducible apply modCtx_kept
    | with_reducible apply Kept.ite
    | split

theorem reportLostEvents_kept {σ τ : State} (hk : Kept σ τ) (c : Nat) :
    Kept σ (reportLostEvents c τ) := by
  unfold reportLostEvents
  try dsimp only
  repeat' first
    | with_reducible assumption
    | with_reducible apply writeEvt_kept
    | with_reducible apply modCtx_kept
    | with_reducible apply Kept.ite
    | split

theorem sendAdmin_kept {σ τ : State} (hk : Kept σ τ) (code subject detail detail2 detail3 : Nat) :
    Kept σ (sendAdmin code subject detail detail2 detail3 τ) := by
  unfold sendAdmin
  try dsimp only
  repeat' first
    | with_reducible assumption
    | with_reducible apply sendEvent_kept

theorem sendAll_kept {σ τ : State} (hk : Kept σ τ) (code subject detail detail2 detail3 : Nat) :
    Kept σ (sendAll code subject detail detail2 detail3 τ) := by
  unfold sendAll
  try dsimp only
  repeat' first
    | (with_reducible intro _; try dsimp only)
    | with_reducible assumption
    | with_reducible apply sendEvent_kept
    | with_reducible apply Kept.foldl

theorem completeDesc_kept {σ τ : State} (hk : Kept σ τ) (c sid : Nat) (st : Status) (result0 result1 : Nat) :
    Kept σ (completeDesc c sid st result0 result1 τ) := by
  unfold completeDesc
  try dsimp only
  repeat' first
    | with_reducible assumption
    | with_reducible apply postCpl_kept
    | with_reducible apply modCtx_kept
    | split

theorem completeBy_kept {σ τ : State} (hk : Kept σ τ) (o : Option (Nat × Nat)) (st : Status) (result0 result1 : Nat) :
    Kept σ (completeBy o st result0 result1 τ) := by
  unfold completeBy
  try dsimp only
  repeat' first
    | with_reducible assumption
    | with_reducible apply completeDesc_kept
    | split

end Sys2Proof.Machine
end

