-- ==== Sys2Proof/Laws/Kept/Records.lean ====
section
/-!
SUPPORT. What the operations of Records.lean keep: the queue, and the legal fields of Safety.
-/

namespace Sys2Proof.Machine

theorem modStream_kept {σ τ : State} (hk : Kept σ τ) (i : Nat) (f : Stream → Stream) :
    Kept σ (modStream i f τ) := by
  exact hk.same rfl rfl rfl rfl rfl rfl rfl rfl rfl rfl rfl

theorem writeToRing_kept {σ τ : State} (hk : Kept σ τ) (p : Nat × Nat) (rec : Rec) :
    Kept σ (writeToRing p rec τ) := by
  unfold writeToRing
  try dsimp only
  repeat' first
    | with_reducible assumption
    | with_reducible apply signalIfDue_kept
    | with_reducible apply modRing_kept
    | with_reducible apply emit_kept
    | with_reducible apply Kept.ite
    | split

theorem modBinding_kept {σ τ : State} (hk : Kept σ τ) (slot : Nat) (f : Binding → Binding) :
    Kept σ (modBinding slot f τ) := by
  exact hk.same rfl rfl rfl rfl rfl rfl rfl rfl rfl rfl rfl

theorem closeExtent_kept {σ τ : State} (hk : Kept σ τ) (slot : Nat) :
    Kept σ (closeExtent slot τ) := by
  unfold closeExtent
  try dsimp only
  repeat' first
    | (with_reducible intro _; try dsimp only)
    | with_reducible assumption
    | with_reducible apply modBinding_kept
    | with_reducible apply emit_kept
    | with_reducible apply Kept.ite
    | with_reducible apply Kept.foldl
    | split

theorem setRotation_kept {σ τ : State} (hk : Kept σ τ) (c set id : Nat) :
    Kept σ (setRotation c set id τ) := by
  unfold setRotation
  try dsimp only
  repeat' first
    | with_reducible assumption
    | fail_if_no_progress (with_reducible refine Kept.mk ?_ rfl ?_ ?_ ?_ ?_ ?_ ?_ ?_ ?_ ?_ ?_) <;> try ((with_reducible refine (?_ : _ = _)); first | rfl | (split <;> rfl))

theorem addToExtent_kept {σ τ : State} (hk : Kept σ τ) (b : Binding) (r : Rec) (span : Nat × Nat) :
    Kept σ (addToExtent b r span τ) := by
  unfold addToExtent
  try dsimp only
  repeat' first
    | with_reducible assumption
    | with_reducible apply closeExtent_kept
    | with_reducible apply modBinding_kept
    | with_reducible apply Kept.ite

theorem writeToDisk_kept {σ τ : State} (hk : Kept σ τ) (c set : Nat) (r : Rec) (span : Nat × Nat) :
    Kept σ (writeToDisk c set r span τ) := by
  unfold writeToDisk
  try dsimp only
  repeat' first
    | (with_reducible intro _; try dsimp only)
    | with_reducible assumption
    | with_reducible apply addToExtent_kept
    | with_reducible apply setRotation_kept
    | with_reducible apply closeExtent_kept
    | with_reducible apply Kept.foldl
    | split

theorem writeAt_kept {σ τ : State} (hk : Kept σ τ) (pl : Place) (i : Nat) (w : WaitRec) :
    Kept σ (writeAt pl i w τ) := by
  unfold writeAt
  try dsimp only
  repeat' first
    | with_reducible assumption
    | with_reducible apply writeToDisk_kept
    | with_reducible apply writeToRing_kept
    | with_reducible apply modStream_kept
    | split

theorem tryWrite_kept {σ τ u : State} (hk : Kept σ τ) (i : Nat) (w : WaitRec) (h : tryWrite i w τ = some u) : Kept σ u := by
  unfold tryWrite at h
  split at h
  · cases h
  · obtain ⟨pl, -, rfl⟩ := Option.map_eq_some_iff.1 h
    exact writeAt_kept hk _ _ _

theorem countGap_kept {σ τ : State} (hk : Kept σ τ) (i : Nat) :
    Kept σ (countGap i τ) := by
  unfold countGap
  try dsimp only
  repeat' first
    | with_reducible assumption
    | fail_if_no_progress (with_reducible refine Kept.mk ?_ rfl ?_ ?_ ?_ ?_ ?_ ?_ ?_ ?_ ?_ ?_) <;> try ((with_reducible refine (?_ : _ = _)); first | rfl | (split <;> rfl))

theorem takeSeq_kept {σ τ : State} (hk : Kept σ τ) (i : Nat) :
    Kept σ (takeSeq i τ) := by
  unfold takeSeq
  try dsimp only
  repeat' first
    | with_reducible assumption
    | with_reducible apply modStream_kept

theorem putWaiting_kept {σ τ : State} (hk : Kept σ τ) (i : Nat) (w : WaitRec) :
    Kept σ (putWaiting i w τ) := by
  unfold putWaiting
  try dsimp only
  repeat' first
    | with_reducible assumption
    | with_reducible refine tryWrite_kept ?_ _ _ (by assumption)
    | with_reducible apply modStream_kept
    | with_reducible apply Kept.ite
    | split

theorem formGap_kept {σ τ : State} (hk : Kept σ τ) (i first last dropped reason lostBytes spanStart spanEnd : Nat) :
    Kept σ (formGap i first last dropped reason lostBytes spanStart spanEnd τ) := by
  unfold formGap
  try dsimp only
  repeat' first
    | with_reducible assumption
    | with_reducible apply putWaiting_kept
    | with_reducible apply takeSeq_kept
    | with_reducible apply countGap_kept
    | split

theorem nameDrops_kept {σ τ : State} (hk : Kept σ τ) (i : Nat) :
    Kept σ (nameDrops i τ) := by
  unfold nameDrops
  try dsimp only
  repeat' first
    | with_reducible assumption
    | with_reducible apply formGap_kept
    | with_reducible apply modStream_kept
    | split

theorem formSeal_kept {σ τ : State} (hk : Kept σ τ) (i reason : Nat) (owner : Option (Nat × Nat)) :
    Kept σ (formSeal i reason owner τ) := by
  unfold formSeal
  try dsimp only
  repeat' first
    | with_reducible assumption
    | with_reducible apply nameDrops_kept
    | with_reducible apply putWaiting_kept
    | with_reducible apply takeSeq_kept
    | with_reducible apply modStream_kept
    | split

theorem sealIfDue_kept {σ τ : State} (hk : Kept σ τ) (i : Nat) :
    Kept σ (sealIfDue i τ) := by
  unfold sealIfDue
  try dsimp only
  repeat' first
    | with_reducible assumption
    | with_reducible apply formSeal_kept
    | with_reducible apply Kept.ite
    | split

theorem countRingDrop_kept {σ τ : State} (hk : Kept σ τ) (st : Stream) :
    Kept σ (countRingDrop st τ) := by
  unfold countRingDrop
  try dsimp only
  repeat' first
    | with_reducible assumption
    | with_reducible apply modRing_kept
    | split

theorem dropRec_kept {σ τ : State} (hk : Kept σ τ) (st : Stream) (n : NewRec) :
    Kept σ (dropRec st n τ) := by
  unfold dropRec
  try dsimp only
  repeat' first
    | (with_reducible intro _; try dsimp only)
    | with_reducible assumption
    | with_reducible apply countRingDrop_kept
    | with_reducible apply takeSeq_kept
    | with_reducible apply closeExtent_kept
    | with_reducible apply modBinding_kept
    | with_reducible apply modStream_kept
    | with_reducible apply Kept.ite
    | with_reducible apply Kept.foldl
    | split

theorem formRealtime_kept {σ τ : State} (hk : Kept σ τ) (i : Nat) (n : NewRec) :
    Kept σ ((formRealtime i n τ).1) := by
  unfold formRealtime
  try dsimp only
  repeat' first
    | with_reducible assumption
    | with_reducible apply dropRec_kept
    | with_reducible apply sealIfDue_kept
    | with_reducible apply nameDrops_kept
    | with_reducible apply takeSeq_kept
    | with_reducible refine tryWrite_kept ?_ _ _ (by assumption)
    | split

theorem formWaiting_kept {σ τ : State} (hk : Kept σ τ) (i : Nat) (n : NewRec) (owner : Option (Nat × Nat)) :
    Kept σ (formWaiting i n owner τ) := by
  unfold formWaiting
  try dsimp only
  repeat' first
    | with_reducible assumption
    | with_reducible apply sealIfDue_kept
    | with_reducible apply nameDrops_kept
    | with_reducible apply putWaiting_kept
    | with_reducible apply takeSeq_kept
    | split

theorem drainWaiting_kept {σ τ : State} (hk : Kept σ τ) (i : Nat) (n : Nat) : Kept σ (drainWaiting i n τ) := by
  induction n generalizing τ with
  | zero => exact hk
  | succ n ih =>
    rw [drainWaiting]
    repeat' first
      | with_reducible assumption
      | with_reducible apply ih
      | with_reducible refine tryWrite_kept ?_ _ _ (by assumption)
      | with_reducible apply modStream_kept
      | split

theorem creditStream_kept {σ τ : State} (hk : Kept σ τ) (i : Nat) :
    Kept σ (creditStream i τ) := by
  unfold creditStream
  try dsimp only
  repeat' first
    | with_reducible assumption
    | with_reducible apply drainWaiting_kept
    | with_reducible apply sealIfDue_kept
    | with_reducible apply nameDrops_kept
    | with_reducible apply Kept.ite
    | split

theorem recordOn_kept {σ τ : State} (hk : Kept σ τ) (c r : Nat) (n : NewRec) :
    Kept σ ((recordOn c r n τ).1) := by
  unfold recordOn
  try dsimp only
  repeat' first
    | with_reducible assumption
    | with_reducible apply formRealtime_kept
    | split

end Sys2Proof.Machine
end

