-- ==== Sys2Proof/Laws/Kept/Time.lean ====
section
/-!
SUPPORT. What the operations of Time.lean keep: the queue, and the legal fields of Safety.
-/

namespace Sys2Proof.Machine

theorem modTim_kept {σ τ : State} (hk : Kept σ τ) (f : Tim → Tim) (hw : ∀ x, (f x).ppsOutWidth = x.ppsOutWidth) :
    Kept σ (modTim f τ) := by
  exact hk.same rfl rfl rfl (hw _) rfl rfl rfl rfl rfl rfl rfl

theorem tick_kept {σ τ : State} (hk : Kept σ τ)  :
    Kept σ (tick τ) := by
  unfold tick
  try dsimp only
  repeat' first
    | (with_reducible intro _; try dsimp only)
    | with_reducible assumption
    | with_reducible apply modTim_kept
    | with_reducible apply Kept.ite
    | with_reducible exact Tim.advance_ppsOutWidth _ _

theorem advance_kept {σ τ : State} (hk : Kept σ τ) (n : Nat) :
    Kept σ (advance n τ) := by
  unfold advance
  try dsimp only
  repeat' first
    | (with_reducible intro _; try dsimp only)
    | with_reducible assumption
    | with_reducible apply modTim_kept
    | with_reducible apply Kept.ite
    | with_reducible exact Tim.advance_ppsOutWidth _ _

theorem advanceToTick_kept {σ τ : State} (hk : Kept σ τ) (t : Nat) :
    Kept σ (advanceToTick t τ) := by
  unfold advanceToTick
  try dsimp only
  repeat' first
    | with_reducible assumption
    | with_reducible apply advance_kept

theorem advanceToTime_kept {σ τ : State} (hk : Kept σ τ) (t : Nat) :
    Kept σ (advanceToTime t τ) := by
  unfold advanceToTime
  try dsimp only
  repeat' first
    | with_reducible assumption
    | with_reducible apply advance_kept

theorem emitAnchor_kept {σ τ : State} (hk : Kept σ τ) (a : Anchor) :
    Kept σ (emitAnchor a τ) := by
  unfold emitAnchor
  try dsimp only
  repeat' first
    | (with_reducible intro _; try dsimp only)
    | with_reducible assumption
    | with_reducible apply modTim_kept
    | with_reducible apply recordOn_kept
    | with_reducible apply formRealtime_kept
    | with_reducible apply journal_kept
    | with_reducible apply Kept.foldl

theorem lostBegins_kept {σ τ : State} (hk : Kept σ τ) (kind : Nat) :
    Kept σ (lostBegins kind τ) := by
  unfold lostBegins
  try dsimp only
  repeat' first
    | with_reducible assumption
    | with_reducible apply Kept.ite
    | fail_if_no_progress (with_reducible refine Kept.mk ?_ rfl ?_ ?_ ?_ ?_ ?_ ?_ ?_ ?_ ?_ ?_) <;> try ((with_reducible refine (?_ : _ = _)); first | rfl | (split <;> rfl))

theorem countLost_kept {σ τ : State} (hk : Kept σ τ) (ms : Nat) :
    Kept σ (countLost ms τ) := by
  unfold countLost
  try dsimp only
  repeat' first
    | with_reducible assumption
    | fail_if_no_progress (with_reducible refine Kept.mk ?_ rfl ?_ ?_ ?_ ?_ ?_ ?_ ?_ ?_ ?_ ?_) <;> try ((with_reducible refine (?_ : _ = _)); first | rfl | (split <;> rfl))

theorem lostEnds_kept {σ τ : State} (hk : Kept σ τ) (kind : Nat) :
    Kept σ (lostEnds kind τ) := by
  unfold lostEnds
  try dsimp only
  repeat' first
    | with_reducible assumption
    | with_reducible apply countLost_kept
    | split
    | fail_if_no_progress (with_reducible refine Kept.mk ?_ rfl ?_ ?_ ?_ ?_ ?_ ?_ ?_ ?_ ?_ ?_) <;> try ((with_reducible refine (?_ : _ = _)); first | rfl | (split <;> rfl))

theorem acceptPps_kept {σ τ : State} (hk : Kept σ τ) (edgeTick : Nat) (off : Int) :
    Kept σ (acceptPps edgeTick off τ) := by
  unfold acceptPps
  try dsimp only
  repeat' first
    | (with_reducible intro _; try dsimp only)
    | with_reducible assumption
    | with_reducible apply modTim_kept
    | with_reducible apply sendAll_kept
    | with_reducible apply Kept.ite

theorem judgePps_kept {σ τ : State} (hk : Kept σ τ) (edgeTick sub : Nat) :
    Kept σ (judgePps edgeTick sub τ) := by
  unfold judgePps
  try dsimp only
  repeat' first
    | (with_reducible intro _; try dsimp only)
    | with_reducible assumption
    | with_reducible apply acceptPps_kept
    | with_reducible apply modTim_kept
    | with_reducible apply sendAll_kept
    | with_reducible apply Kept.ite

end Sys2Proof.Machine
end

