-- ==== Sys2Proof/Laws/Kept/Tdc.lean ====
section
/-!
SUPPORT. What the operations of Tdc.lean keep: the queue, and the legal fields of Safety.
-/

namespace Sys2Proof.Machine

theorem modTdc_kept {σ τ : State} (hk : Kept σ τ) (c : Nat) (f : TdcCh → TdcCh) :
    Kept σ (modTdc c f τ) := by
  exact hk.same rfl rfl rfl rfl rfl rfl rfl rfl rfl rfl rfl

theorem tdcRecord_kept {σ τ : State} (hk : Kept σ τ) (ch : Nat) (n : NewRec) :
    Kept σ ((tdcRecord ch n τ).1) := by
  unfold tdcRecord
  try dsimp only
  repeat' first
    | with_reducible assumption
    | with_reducible apply recordOn_kept
    | split

theorem closeStamps_kept {σ τ : State} (hk : Kept σ τ) (ch : Nat) :
    Kept σ (closeStamps ch τ) := by
  unfold closeStamps
  try dsimp only
  repeat' first
    | with_reducible assumption
    | with_reducible apply tdcRecord_kept
    | with_reducible apply modTdc_kept
    | split

theorem deliverStamp_kept {σ τ : State} (hk : Kept σ τ) (ch : Nat) (p : Stamp) :
    Kept σ (deliverStamp ch p τ) := by
  unfold deliverStamp
  try dsimp only
  repeat' first
    | with_reducible assumption
    | with_reducible apply closeStamps_kept
    | with_reducible apply modTdc_kept
    | with_reducible apply journal_kept
    | with_reducible apply Kept.ite
    | split

theorem takeStamps_kept {σ τ : State} (hk : Kept σ τ) (ch : Nat) (n : Nat) : Kept σ (takeStamps ch n τ) := by
  induction n generalizing τ with
  | zero => exact hk
  | succ n ih =>
    rw [takeStamps]
    repeat' first
      | with_reducible assumption
      | with_reducible apply ih
      | with_reducible apply deliverStamp_kept
      | with_reducible apply modTdc_kept
      | split

theorem flushStamps_kept {σ τ : State} (hk : Kept σ τ) (ch : Nat) :
    Kept σ (flushStamps ch τ) := by
  unfold flushStamps
  try dsimp only
  repeat' first
    | with_reducible assumption
    | with_reducible apply takeStamps_kept
    | with_reducible apply tdcRecord_kept
    | with_reducible apply modTdc_kept
    | with_reducible apply Kept.ite
    | split

theorem tdcMarker_kept {σ τ : State} (hk : Kept σ τ) (ch reason : Nat) :
    Kept σ (tdcMarker ch reason τ) := by
  unfold tdcMarker
  try dsimp only
  repeat' first
    | with_reducible assumption
    | with_reducible apply tdcRecord_kept

theorem tdcMarkAll_kept {σ τ : State} (hk : Kept σ τ) (reason : Nat) :
    Kept σ (tdcMarkAll reason τ) := by
  unfold tdcMarkAll
  try dsimp only
  repeat' first
    | (with_reducible intro _; try dsimp only)
    | with_reducible assumption
    | with_reducible apply tdcMarker_kept
    | with_reducible apply takeStamps_kept
    | with_reducible apply closeStamps_kept
    | with_reducible apply Kept.ite
    | with_reducible apply Kept.foldl

theorem modGates_kept {σ τ : State} (hk : Kept σ τ) (f : Gate → Gate) :
    Kept σ (modGates f τ) := by
  exact hk.same rfl rfl rfl rfl rfl rfl rfl rfl rfl rfl rfl

theorem stampEdge_kept {σ τ : State} (hk : Kept σ τ) (ch tick sub : Nat) (rising : Bool) :
    Kept σ ((stampEdge ch tick sub rising τ).1) := by
  unfold stampEdge
  try dsimp only
  repeat' first
    | with_reducible assumption
    | with_reducible apply modGates_kept
    | with_reducible apply modTdc_kept
    | split

theorem calibrate_kept {σ τ : State} (hk : Kept σ τ) (ch reason switchTick rawOne rawTwo temp : Nat) (alt : Option (Nat × Nat)) :
    Kept σ (calibrate ch reason switchTick rawOne rawTwo temp alt τ) := by
  unfold calibrate
  try dsimp only
  repeat' first
    | with_reducible assumption
    | with_reducible apply takeStamps_kept
    | with_reducible apply closeStamps_kept
    | with_reducible apply modTdc_kept
    | with_reducible apply recordOn_kept
    | with_reducible apply sendEvent_kept
    | with_reducible apply Kept.ite
    | split

theorem writePairs_kept {σ τ : State} (hk : Kept σ τ) (g : Gate) (span : Nat × Nat) (n num : Nat) (l : List (GateEdge × GateEdge)) :
    Kept σ (writePairs g span n num l τ).1 := by
  induction n generalizing τ num l with
  | zero => exact hk
  | succ n ih =>
    cases l with
    | nil => exact hk
    | cons x r => exact ih (recordOn_kept hk _ _ _) _ _

theorem closeGate_kept {σ τ : State} (hk : Kept σ τ) (pin closeTick : Nat) (maxed : Bool) :
    Kept σ (closeGate pin closeTick maxed τ) := by
  unfold closeGate
  try dsimp only
  repeat' first
    | (with_reducible intro _; try dsimp only)
    | with_reducible assumption
    | with_reducible apply writePairs_kept
    | with_reducible apply modTim_kept
    | with_reducible apply recordOn_kept
    | with_reducible apply journal_kept
    | split

theorem applySet_kept {σ τ : State} (hk : Kept σ τ) (v : Nat) (seconds : Nat) (edge : Bool) :
    Kept σ (applySet v seconds edge τ) := by
  unfold applySet
  try dsimp only
  repeat' first
    | (with_reducible intro _; try dsimp only)
    | with_reducible assumption
    | with_reducible apply modGates_kept
    | with_reducible apply tdcMarker_kept
    | with_reducible apply takeStamps_kept
    | with_reducible apply closeStamps_kept
    | with_reducible apply emitAnchor_kept
    | with_reducible apply modTim_kept
    | with_reducible apply sendAll_kept
    | with_reducible apply Kept.ite
    | with_reducible apply Kept.foldl
    | ((with_reducible refine (?_ : _ = _)); rfl)

end Sys2Proof.Machine
end

