-- ==== Sys2Proof/Laws/Kept/Adc.lean ====
section
/-!
SUPPORT. What the operations of Adc.lean keep: the queue, and the legal fields of Safety.
-/

namespace Sys2Proof.Machine

theorem modAdc_kept {σ τ : State} (hk : Kept σ τ) (f : Adc → Adc) (hc : ∀ x, (f x).csu.windowLog2 = x.csu.windowLog2) (ha : ∀ x, (f x).amc.trimSel = x.amc.trimSel) :
    Kept σ (modAdc f τ) := by
  exact hk.same rfl rfl rfl rfl (hc _) (ha _) rfl rfl rfl rfl rfl

theorem modPair_kept {σ τ : State} (hk : Kept σ τ) (n : Nat) (f : Pair → Pair) :
    Kept σ (modPair n f τ) := by
  exact hk.same rfl rfl rfl rfl rfl rfl rfl rfl rfl rfl rfl

theorem modCsu_kept {σ τ : State} (hk : Kept σ τ) (f : Csu → Csu) (hc : ∀ x, (f x).windowLog2 = x.windowLog2) :
    Kept σ (modCsu f τ) := by
  exact hk.same rfl rfl rfl rfl (hc _) rfl rfl rfl rfl rfl rfl

theorem modAmc_kept {σ τ : State} (hk : Kept σ τ) (f : Amc → Amc) (ha : ∀ x, (f x).trimSel = x.trimSel) :
    Kept σ (modAmc f τ) := by
  exact hk.same rfl rfl rfl rfl rfl (ha _) rfl rfl rfl rfl rfl

end Sys2Proof.Machine
end

