-- ==== Sys2Proof/Laws/Kept/Skim.lean ====
section
/-!
SUPPORT. What the operations of Skim.lean keep: the queue, and the legal fields of Safety.
-/

namespace Sys2Proof.Machine

theorem modSkim_kept {σ τ : State} (hk : Kept σ τ) (n : Nat) (f : Skim → Skim) :
    Kept σ (modSkim n f τ) := by
  exact hk.same rfl rfl rfl rfl rfl rfl rfl rfl rfl rfl rfl

theorem sendPair_kept {σ τ : State} (hk : Kept σ τ) (n code detail : Nat) :
    Kept σ (sendPair n code detail τ) := by
  unfold sendPair
  try dsimp only
  repeat' first
    | (with_reducible intro _; try dsimp only)
    | with_reducible assumption
    | with_reducible apply sendEvent_kept
    | with_reducible apply Kept.foldl

theorem emitSnapshot_kept {σ τ : State} (hk : Kept σ τ) (n index : Nat) (fields : List Fld) :
    Kept σ (emitSnapshot n index fields τ) := by
  unfold emitSnapshot
  try dsimp only
  repeat' first
    | (with_reducible intro _; try dsimp only)
    | with_reducible assumption
    | with_reducible apply recordOn_kept
    | with_reducible apply formRealtime_kept
    | with_reducible apply journal_kept
    | with_reducible apply Kept.foldl

theorem skimCommit_kept {σ τ : State} (hk : Kept σ τ) (n index : Nat) :
    Kept σ (skimCommit n index τ) := by
  unfold skimCommit
  try dsimp only
  repeat' first
    | with_reducible assumption
    | with_reducible apply emitSnapshot_kept
    | with_reducible apply modSkim_kept
    | split

theorem routePair_kept {σ τ : State} (hk : Kept σ τ) (n : Nat) (route : BitVec 3) (step : BitVec 4) :
    Kept σ (routePair n route step τ) := by
  unfold routePair
  try dsimp only
  repeat' first
    | with_reducible assumption
    | with_reducible apply modSkim_kept
    | with_reducible apply modPair_kept
    | with_reducible apply Kept.ite

theorem writeViewCtl_kept {σ τ : State} (hk : Kept σ τ) (v : Nat) :
    Kept σ (writeViewCtl v τ) := by
  unfold writeViewCtl
  try dsimp only
  repeat' first
    | (with_reducible intro _; try dsimp only)
    | with_reducible assumption
    | with_reducible apply modSkim_kept
    | with_reducible apply Kept.foldl

end Sys2Proof.Machine
end

