-- ==== Sys2Proof/Laws/Kept/Zoom.lean ====
section
/-!
SUPPORT. What the operations of Zoom.lean keep: the queue, and the legal fields of Safety.
-/

namespace Sys2Proof.Machine

theorem modFront_kept {σ τ : State} (hk : Kept σ τ) (u : Nat) (f : Front → Front) :
    Kept σ (modFront u f τ) := by
  exact hk.same rfl rfl rfl rfl rfl rfl rfl rfl rfl rfl rfl

theorem modSlot_kept {σ τ : State} (hk : Kept σ τ) (n : Nat) (f : Slot → Slot) :
    Kept σ (modSlot n f τ) := by
  exact hk.same rfl rfl rfl rfl rfl rfl rfl rfl rfl rfl rfl

theorem startChain_kept {σ τ : State} (hk : Kept σ τ) (u i0 : Nat) (gap : Bool) :
    Kept σ (startChain u i0 gap τ) := by
  unfold startChain
  try dsimp only
  repeat' first
    | (with_reducible intro _; try dsimp only)
    | with_reducible assumption
    | with_reducible apply modSlot_kept
    | with_reducible apply modFront_kept
    | with_reducible apply Kept.foldl

theorem frontWord_kept {σ τ : State} (hk : Kept σ τ) (u : Nat) (w : HWord) :
    Kept σ (frontWord u w τ) := by
  unfold frontWord
  try dsimp only
  repeat' first
    | with_reducible assumption
    | with_reducible apply startChain_kept
    | with_reducible apply modFront_kept
    | with_reducible apply Kept.ite

theorem modNco_kept {σ τ : State} (hk : Kept σ τ) (sub : Bool) (u : Nat) (f : Nat → (Nat → Nat) → Nco → Nco) :
    Kept σ (modNco sub u f τ) := by
  unfold modNco
  try dsimp only
  repeat' first
    | with_reducible assumption
    | with_reducible apply modSlot_kept
    | with_reducible apply modFront_kept
    | with_reducible apply Kept.ite

theorem slotAdvance_kept {σ τ : State} (hk : Kept σ τ) (n : Nat) (w : HWord) (sat : Bool) :
    Kept σ (slotAdvance n w sat τ) := by
  unfold slotAdvance
  try dsimp only
  repeat' first
    | with_reducible assumption
    | with_reducible apply modSlot_kept

end Sys2Proof.Machine
end

