-- ==== Sys2Proof/Laws/Kept/Tap.lean ====
section
/-!
SUPPORT. What the operations of Tap.lean keep: the queue, and the legal fields of Safety.
-/

namespace Sys2Proof.Machine

theorem modSpu_kept {σ τ : State} (hk : Kept σ τ) (f : Spu → Spu) (hi : ∀ x, (f x).injUnit = x.injUnit) :
    Kept σ (modSpu f τ) := by
  exact hk.same rfl rfl rfl rfl rfl rfl rfl rfl rfl rfl (hi _)

theorem modLsu_kept {σ τ : State} (hk : Kept σ τ) (n : Nat) (f : Lsu → Lsu) :
    Kept σ (modLsu n f τ) := by
  exact hk.same rfl rfl rfl rfl rfl rfl rfl rfl rfl rfl rfl

theorem offerTap_kept {σ τ : State} (hk : Kept σ τ) (plan kind source detail : Nat) (mk : Nat → Nat → Nat × List Fld) :
    Kept σ (offerTap plan kind source detail mk τ) := by
  unfold offerTap
  try dsimp only
  repeat' first
    | (with_reducible intro _; try dsimp only)
    | with_reducible assumption
    | with_reducible apply modSpu_kept

theorem tapsOf_kept {σ τ : State} (hk : Kept σ τ) (plan : Nat) (up : Bool) :
    Kept σ (tapsOf plan up τ) := by
  unfold tapsOf
  try dsimp only
  repeat' first
    | (with_reducible intro _; try dsimp only)
    | with_reducible assumption
    | with_reducible apply modSpu_kept

end Sys2Proof.Machine
end

