-- ==== Sys2Proof/Laws/Kept/PlanInfo.lean ====
section
/-!
SUPPORT. What the operations of PlanInfo.lean keep: the queue, and the legal fields of Safety.
-/

namespace Sys2Proof.Machine

theorem modPlan_kept {σ τ : State} (hk : Kept σ τ) (i : Nat) (f : Plan → Plan) :
    Kept σ (modPlan i f τ) := by
  exact hk.same rfl rfl rfl rfl rfl rfl rfl rfl rfl rfl rfl

end Sys2Proof.Machine
end

