-- ==== Sys2Proof/Laws/Kept/Xfm.lean ====
section
/-!
SUPPORT. What the operations of Xfm.lean keep: the queue, and the legal fields of Safety.
-/

namespace Sys2Proof.Machine

theorem modDsp_kept {σ τ : State} (hk : Kept σ τ) (f : Dsp → Dsp) :
    Kept σ (modDsp f τ) := by
  exact hk.same rfl rfl rfl rfl rfl rfl rfl rfl rfl rfl rfl

theorem modX_kept {σ τ : State} (hk : Kept σ τ) (plan idx : Nat) (f : XStream → XStream) :
    Kept σ (modX plan idx f τ) := by
  exact hk.same rfl rfl rfl rfl rfl rfl rfl rfl rfl rfl rfl

theorem modEng_kept {σ τ : State} (hk : Kept σ τ) (e : Nat) (f : XEng → XEng) :
    Kept σ (modEng e f τ) := by
  exact hk.same rfl rfl rfl rfl rfl rfl rfl rfl rfl rfl rfl

theorem specRecords_kept {σ τ : State} (hk : Kept σ τ) (det ring : Nat) (sp : Spectrum) (first count : Nat) :
    Kept σ (specRecords det ring sp first count τ) := by
  unfold specRecords
  try dsimp only
  repeat' first
    | (with_reducible intro _; try dsimp only)
    | with_reducible assumption
    | with_reducible apply recordOn_kept
    | with_reducible apply Kept.foldl

theorem recordSpectrum_kept {σ τ : State} (hk : Kept σ τ) (sp : Spectrum) :
    Kept σ (recordSpectrum sp τ) := by
  unfold recordSpectrum
  try dsimp only
  repeat' first
    | (with_reducible intro _; try dsimp only)
    | with_reducible assumption
    | with_reducible apply specRecords_kept
    | with_reducible apply Kept.ite
    | with_reducible apply Kept.foldl

theorem tapSpectrum_kept {σ τ : State} (hk : Kept σ τ) (sp : Spectrum) :
    Kept σ (tapSpectrum sp τ) := by
  unfold tapSpectrum
  try dsimp only
  repeat' first
    | (with_reducible intro _; try dsimp only)
    | with_reducible assumption
    | with_reducible apply offerTap_kept
    | with_reducible apply Kept.foldl

theorem closeTrace_kept {σ τ : State} (hk : Kept σ τ) (sp : Spectrum) (n : Nat) (r : Reducer) (t : Trace) (extra : Nat) :
    Kept σ (closeTrace sp n r t extra τ) := by
  unfold closeTrace
  try dsimp only
  repeat' first
    | with_reducible assumption
    | with_reducible apply offerTap_kept
    | with_reducible apply recordOn_kept

theorem traceSpectrum_kept {σ τ : State} (hk : Kept σ τ) (sp : Spectrum) (n : Nat) :
    Kept σ (traceSpectrum sp n τ) := by
  unfold traceSpectrum
  try dsimp only
  repeat' first
    | with_reducible assumption
    | with_reducible apply closeTrace_kept
    | with_reducible apply modX_kept
    | with_reducible apply Kept.ite
    | split

theorem traceAll_kept {σ τ : State} (hk : Kept σ τ) (sp : Spectrum) :
    Kept σ (traceAll sp τ) := by
  unfold traceAll
  try dsimp only
  repeat' first
    | (with_reducible intro _; try dsimp only)
    | with_reducible assumption
    | with_reducible apply traceSpectrum_kept
    | with_reducible apply Kept.foldl

theorem closeTraces_kept {σ τ : State} (hk : Kept σ τ) (sp : Spectrum) :
    Kept σ (closeTraces sp τ) := by
  unfold closeTraces
  try dsimp only
  repeat' first
    | (with_reducible intro _; try dsimp only)
    | with_reducible assumption
    | with_reducible apply closeTrace_kept
    | with_reducible apply modX_kept
    | with_reducible apply Kept.ite
    | with_reducible apply Kept.foldl
    | split

end Sys2Proof.Machine
end

