-- ==== Sys2Proof/Laws/Kept/Capture.lean ====
section
/-!
SUPPORT. What the operations of Capture.lean keep: the queue, and the legal fields of Safety.
-/

namespace Sys2Proof.Machine

theorem modTrg_kept {σ τ : State} (hk : Kept σ τ) (f : Trig → Trig) :
    Kept σ (modTrg f τ) := by
  exact hk.same rfl rfl rfl rfl rfl rfl rfl rfl rfl rfl rfl

theorem modCap_kept {σ τ : State} (hk : Kept σ τ) (r : Nat) (f : CapRing → CapRing) :
    Kept σ (modCap r f τ) := by
  exact hk.same rfl rfl rfl rfl rfl rfl rfl rfl rfl rfl rfl

theorem modCapture_kept {σ τ : State} (hk : Kept σ τ) (plan slot num : Nat) (f : Capture → Capture) :
    Kept σ (modCapture plan slot num f τ) := by
  exact hk.same rfl rfl rfl rfl rfl rfl rfl rfl rfl rfl rfl

theorem modCapSlot_kept {σ τ : State} (hk : Kept σ τ) (plan slot : Nat) (f : CapSlot → CapSlot) :
    Kept σ (modCapSlot plan slot f τ) := by
  exact hk.same rfl rfl rfl rfl rfl rfl rfl rfl rfl rfl rfl

theorem spillOut_kept {σ τ : State} (hk : Kept σ τ) (c : Capture) (g : Seg) (last : Bool) :
    Kept σ (spillOut c g last τ) := by
  unfold spillOut
  try dsimp only
  repeat' first
    | with_reducible assumption
    | with_reducible apply modCapture_kept
    | with_reducible apply modCap_kept
    | with_reducible apply recordOn_kept
    | with_reducible apply Kept.ite
    | split

theorem spillWord_kept {σ τ : State} (hk : Kept σ τ) (ring n : Nat) (w : HWord) :
    Kept σ (spillWord ring n w τ) := by
  unfold spillWord
  try dsimp only
  repeat' first
    | (with_reducible intro _; try dsimp only)
    | with_reducible assumption
    | with_reducible apply spillOut_kept
    | with_reducible apply modCapture_kept
    | with_reducible apply Kept.ite
    | with_reducible apply Kept.foldl

theorem captureWord_kept {σ τ : State} (hk : Kept σ τ) (ring n : Nat) (w : HWord) :
    Kept σ (captureWord ring n w τ) := by
  unfold captureWord
  try dsimp only
  repeat' first
    | with_reducible assumption
    | with_reducible apply spillWord_kept
    | with_reducible apply modCap_kept
    | with_reducible apply Kept.ite
    | split
    | fail_if_no_progress (with_reducible refine Kept.mk ?_ rfl ?_ ?_ ?_ ?_ ?_ ?_ ?_ ?_ ?_ ?_) <;> try ((with_reducible refine (?_ : _ = _)); first | rfl | (split <;> rfl))

theorem captureFire_kept {σ τ : State} (hk : Kept σ τ) (plan unit trig : Nat) (forced stop : Bool) (place : Nat) (ev : TEvent) :
    Kept σ ((captureFire plan unit trig forced stop place ev τ).1) := by
  unfold captureFire
  try dsimp only
  repeat' first
    | with_reducible assumption
    | with_reducible apply modCapSlot_kept
    | with_reducible apply modCap_kept
    | with_reducible apply modTrg_kept
    | with_reducible apply modSkim_kept
    | with_reducible apply Kept.ite
    | with_reducible apply Kept.ite_fst
    | split

theorem lowerFence_kept {σ τ : State} (hk : Kept σ τ) (c : Capture) (at_ : Option Nat) :
    Kept σ (lowerFence c at_ τ) := by
  unfold lowerFence
  try dsimp only
  repeat' first
    | with_reducible assumption
    | with_reducible apply modSkim_kept
    | with_reducible apply Kept.ite

theorem closeSegment_kept {σ τ : State} (hk : Kept σ τ) (c : Capture) (g : Seg) :
    Kept σ (closeSegment c g τ) := by
  unfold closeSegment
  try dsimp only
  repeat' first
    | with_reducible assumption
    | with_reducible apply lowerFence_kept
    | with_reducible apply spillOut_kept
    | with_reducible apply modCapSlot_kept
    | with_reducible apply modCapture_kept
    | with_reducible apply Kept.ite
    | split

theorem completeCapture_kept {σ τ : State} (hk : Kept σ τ) (c : Capture) :
    Kept σ (completeCapture c τ) := by
  unfold completeCapture
  try dsimp only
  repeat' first
    | with_reducible assumption
    | with_reducible apply modCapSlot_kept
    | with_reducible apply modCapture_kept
    | with_reducible apply modTrg_kept
    | with_reducible apply sendEvent_kept
    | with_reducible apply Kept.ite

theorem endCapture_kept {σ τ : State} (hk : Kept σ τ) (c : Capture) :
    Kept σ (endCapture c τ) := by
  unfold endCapture
  try dsimp only
  repeat' first
    | with_reducible assumption
    | with_reducible apply completeCapture_kept
    | with_reducible apply closeSegment_kept
    | with_reducible apply Kept.ite
    | split

theorem closeDue_kept {σ τ : State} (hk : Kept σ τ) (plan slot : Nat) :
    Kept σ (closeDue plan slot τ) := by
  unfold closeDue
  try dsimp only
  repeat' first
    | with_reducible assumption
    | with_reducible apply completeCapture_kept
    | with_reducible apply closeSegment_kept
    | with_reducible apply Kept.ite
    | split

theorem rearmDue_kept {σ τ : State} (hk : Kept σ τ) (plan slot : Nat) :
    Kept σ (rearmDue plan slot τ) := by
  unfold rearmDue
  try dsimp only
  repeat' first
    | with_reducible assumption
    | with_reducible apply modCapSlot_kept
    | with_reducible apply Kept.ite
    | split

theorem freeRings_kept {σ τ : State} (hk : Kept σ τ)  :
    Kept σ (freeRings τ) := by
  unfold freeRings
  try dsimp only
  repeat' first
    | with_reducible assumption
    | with_reducible apply modTrg_kept
    | with_reducible apply Kept.ite
    | fail_if_no_progress (with_reducible refine Kept.mk ?_ rfl ?_ ?_ ?_ ?_ ?_ ?_ ?_ ?_ ?_ ?_) <;> try ((with_reducible refine (?_ : _ = _)); first | rfl | (split <;> rfl))

theorem dropCapture_kept {σ τ : State} (hk : Kept σ τ) (c : Capture) :
    Kept σ (dropCapture c τ) := by
  unfold dropCapture
  try dsimp only
  repeat' first
    | with_reducible assumption
    | with_reducible apply freeRings_kept
    | with_reducible apply lowerFence_kept
    | with_reducible apply modCap_kept
    | with_reducible apply modTrg_kept

end Sys2Proof.Machine
end

