-- ==== Sys2Proof/Laws/Kept/Recorder.lean ====
section
/-!
SUPPORT. What the operations of Recorder.lean keep: the queue, and the legal fields of Safety.
-/

namespace Sys2Proof.Machine

theorem modFr_kept {σ τ : State} (hk : Kept σ τ) (f : Recorder → Recorder) :
    Kept σ (modFr f τ) := by
  exact hk.same rfl rfl rfl rfl rfl rfl rfl rfl rfl rfl rfl

theorem freezeRecorder_kept {σ τ : State} (hk : Kept σ τ) (cause : Nat) :
    Kept σ (freezeRecorder cause τ) := by
  unfold freezeRecorder
  try dsimp only
  repeat' first
    | with_reducible assumption
    | with_reducible apply modFr_kept
    | with_reducible apply modTrg_kept
    | with_reducible apply sendAdmin_kept
    | with_reducible apply Kept.ite

theorem unfreezeRecorder_kept {σ τ : State} (hk : Kept σ τ)  :
    Kept σ (unfreezeRecorder τ) := by
  unfold unfreezeRecorder
  try dsimp only
  repeat' first
    | with_reducible assumption
    | with_reducible apply modFr_kept
    | with_reducible apply freeRings_kept
    | with_reducible apply modTrg_kept
    | with_reducible apply Kept.ite

end Sys2Proof.Machine
end

