-- ==== Sys2Proof/Laws/Kept/DramMem.lean ====
section
/-!
SUPPORT. What the operations of DramMem.lean keep: the queue, and the legal fields of Safety.
-/

namespace Sys2Proof.Machine

theorem modDram_kept {σ τ : State} (hk : Kept σ τ) (f : Dram → Dram) (hm : ∀ x, (f x).mem = x.mem) (hl : ∀ x, (f x).log2p = x.log2p) :
    Kept σ (modDram f τ) := by
  exact hk.same rfl (hm _) (hl _) rfl rfl rfl rfl rfl rfl rfl rfl

theorem modChan_kept {σ τ : State} (hk : Kept σ τ) (n : Nat) (f : Chan → Chan) :
    Kept σ (modChan n f τ) := by
  exact hk.same rfl rfl rfl rfl rfl rfl rfl rfl rfl rfl rfl

theorem dramLog_kept {σ τ : State} (hk : Kept σ τ) (kind consumer : Nat) (addr : Option Nat) (channel symbol count : Nat) :
    Kept σ (dramLog kind consumer addr channel symbol count τ) := by
  unfold dramLog
  try dsimp only
  repeat' first
    | (with_reducible intro _; try dsimp only)
    | with_reducible assumption
    | with_reducible apply modDram_kept
    | with_reducible apply journal_kept

theorem dramUncorrectable_kept {σ τ : State} (hk : Kept σ τ) (consumer : Nat) (owner : Option Nat) (addr bytes : Nat) :
    Kept σ (dramUncorrectable consumer owner addr bytes τ) := by
  unfold dramUncorrectable
  try dsimp only
  repeat' first
    | (with_reducible intro _; try dsimp only)
    | with_reducible assumption
    | with_reducible apply dramLog_kept
    | with_reducible apply modChan_kept
    | with_reducible apply freezeRecorder_kept
    | with_reducible apply sendEvent_kept
    | with_reducible apply Kept.foldl

theorem dramRead_kept {σ τ : State} (hk : Kept σ τ) (consumer : Nat) (owner : Option Nat) (a n : Nat) :
    Kept σ ((dramRead consumer owner a n τ).2) := by
  unfold dramRead
  try dsimp only
  repeat' first
    | (with_reducible intro _; try dsimp only)
    | with_reducible assumption
    | with_reducible apply dramUncorrectable_kept
    | with_reducible apply Kept.foldl

theorem dramWrite_kept {σ τ : State} (hk : Kept σ τ) (a : Nat) (bs : List Byte) (poisoned : Bool) : Kept σ (dramWrite a bs poisoned τ) := by
  unfold dramWrite
  dsimp only
  refine Kept.foldl _ ?_ fun u x hu => dramLog_kept hu _ _ _ _ _ _
  refine hk.legal rfl fun k => ?_
  obtain ⟨m, w, c, t, o, v, d, l, q, i⟩ := k
  refine ⟨?_, w, c, t, o, v, d, ?_, q, i⟩
  · dsimp only [modDram]
    rw [(addPoison_fold _ _).1]
    exact Memory.wf_writeList a bs m
  · dsimp only [modDram]
    rw [(addPoison_fold _ _).2]
    exact l

theorem allocate_kept {σ τ : State} {p : Nat × State} (hk : Kept σ τ) {kind : AllocKind} {bytes : Nat} (h : allocate kind bytes τ = some p) :
    Kept σ p.2 := by
  obtain ⟨b, -, rfl⟩ := Option.map_eq_some_iff.1 h
  exact modDram_kept hk _ (fun _ => rfl) (fun _ => rfl)

theorem allocate_snd_kept {σ τ υ : State} {b : Nat} (hk : Kept σ τ) {kind : AllocKind} {bytes : Nat} (h : allocate kind bytes τ = some (b, υ)) :
    Kept σ υ := allocate_kept hk h

theorem allocateAll_kept {σ τ υ : State} (hk : Kept σ τ) {l : List (AllocKind × Nat)} (h : allocateAll l τ = some υ) : Kept σ υ := by
  induction l generalizing τ with
  | nil => cases h; exact hk
  | cons x r ih =>
    rw [allocateAll] at h
    split at h
    · cases h
    · exact ih (allocate_kept hk (by assumption)) h

theorem freeAllocs_kept {σ τ : State} (hk : Kept σ τ) (p : AllocKind → Bool) :
    Kept σ (freeAllocs p τ) := by
  unfold freeAllocs
  try dsimp only
  repeat' first
    | (with_reducible intro _; try dsimp only)
    | with_reducible assumption
    | with_reducible apply modDram_kept

theorem openWindow_kept {σ τ : State} (hk : Kept σ τ) (base bytes : Nat) :
    Kept σ (openWindow base bytes τ) := by
  unfold openWindow
  try dsimp only
  repeat' first
    | with_reducible assumption
    | with_reducible apply modHost_kept

theorem closeWindow_kept {σ τ : State} (hk : Kept σ τ) (base : Nat) :
    Kept σ (closeWindow base τ) := by
  unfold closeWindow
  try dsimp only
  repeat' first
    | with_reducible assumption
    | with_reducible apply modHost_kept

end Sys2Proof.Machine
end

