-- ==== Sys2Proof/Laws/Kept/Density.lean ====
section
/-!
SUPPORT. What the operations of Density.lean keep: the queue, and the legal fields of Safety.
-/

namespace Sys2Proof.Machine

theorem modDpy_kept {σ τ : State} (hk : Kept σ τ) (f : Disp → Disp) :
    Kept σ (modDpy f τ) := by
  exact hk.same rfl rfl rfl rfl rfl rfl rfl rfl rfl rfl rfl

theorem modSurf_kept {σ τ : State} (hk : Kept σ τ) (n : Nat) (f : Surf → Surf) :
    Kept σ (modSurf n f τ) := by
  exact hk.same rfl rfl rfl rfl rfl rfl rfl rfl rfl rfl rfl

theorem modDen_kept {σ τ : State} (hk : Kept σ τ) (n : Nat) (f : DenRegs → DenRegs) :
    Kept σ (modDen n f τ) := by
  exact hk.same rfl rfl rfl rfl rfl rfl rfl rfl rfl rfl rfl

theorem closeRaw_kept {σ τ : State} (hk : Kept σ τ) (n engine : Nat) (ax : Axis) (part last : Bool) :
    Kept σ (closeRaw n engine ax part last τ) := by
  unfold closeRaw
  try dsimp only
  repeat' first
    | with_reducible assumption
    | with_reducible apply modDen_kept
    | with_reducible apply modSurf_kept
    | with_reducible apply recordOn_kept
    | with_reducible apply Kept.ite
    | split

theorem beginFrame_kept {σ τ : State} (hk : Kept σ τ) (n : Nat) :
    Kept σ (beginFrame n τ) := by
  unfold beginFrame
  try dsimp only
  repeat' first
    | with_reducible assumption
    | with_reducible apply modDen_kept
    | with_reducible apply modSurf_kept
    | with_reducible apply Kept.ite
    | split

theorem endFrame_kept {σ τ : State} (hk : Kept σ τ) (n : Nat) :
    Kept σ (endFrame n τ) := by
  unfold endFrame
  try dsimp only
  repeat' first
    | with_reducible assumption
    | with_reducible apply modDen_kept
    | with_reducible apply modSurf_kept
    | with_reducible apply dramWrite_kept
    | split

theorem sweepColumn_kept {σ τ : State} (hk : Kept σ τ) (n engine : Nat) (ax : Axis) (part : Bool) :
    Kept σ (sweepColumn n engine ax part τ) := by
  unfold sweepColumn
  try dsimp only
  repeat' first
    | with_reducible assumption
    | with_reducible apply endFrame_kept
    | with_reducible apply beginFrame_kept
    | with_reducible apply closeRaw_kept
    | with_reducible apply modDen_kept
    | with_reducible apply modSurf_kept
    | with_reducible apply Kept.ite
    | split

theorem sweepDue_kept {σ τ : State} (hk : Kept σ τ) (n engine k : Nat) (ax : Axis) (fuel : Nat) : Kept σ (sweepDue n engine k ax fuel τ) := by
  induction fuel generalizing τ with
  | zero => exact hk
  | succ fuel ih =>
    rw [sweepDue]
    repeat' first
      | with_reducible assumption
      | with_reducible apply ih
      | with_reducible apply sweepColumn_kept
      | with_reducible apply Kept.ite
      | split

theorem densityHit_kept {σ τ : State} (hk : Kept σ τ) (n : Nat) (sp : Spectrum) :
    Kept σ (densityHit n sp τ) := by
  unfold densityHit
  try dsimp only
  repeat' first
    | with_reducible assumption
    | with_reducible apply sweepDue_kept
    | with_reducible apply modDen_kept
    | with_reducible apply modSurf_kept
    | with_reducible apply Kept.ite
    | split

theorem densitySpectrum_kept {σ τ : State} (hk : Kept σ τ) (sp : Spectrum) :
    Kept σ (densitySpectrum sp τ) := by
  unfold densitySpectrum
  try dsimp only
  repeat' first
    | (with_reducible intro _; try dsimp only)
    | with_reducible assumption
    | with_reducible apply densityHit_kept
    | with_reducible apply Kept.ite
    | with_reducible apply Kept.foldl

theorem newSurf_kept {σ τ : State} (hk : Kept σ τ) (plan n base : Nat) (b : SubBlk) (lut : Option Block) :
    Kept σ (newSurf plan n base b lut τ) := by
  unfold newSurf
  try dsimp only
  repeat' first
    | with_reducible assumption
    | with_reducible apply modDen_kept
    | with_reducible apply modDpy_kept

theorem clearSurfs_kept {σ τ : State} (hk : Kept σ τ) (plan : Nat) :
    Kept σ (clearSurfs plan τ) := by
  unfold clearSurfs
  try dsimp only
  repeat' first
    | (with_reducible intro _; try dsimp only)
    | with_reducible assumption
    | with_reducible apply modDen_kept
    | with_reducible apply modSurf_kept
    | with_reducible apply Kept.ite
    | with_reducible apply Kept.foldl
    | split

theorem stopSurf_kept {σ τ : State} (hk : Kept σ τ) (n : Nat) :
    Kept σ (stopSurf n τ) := by
  unfold stopSurf
  try dsimp only
  repeat' first
    | (with_reducible intro _; try dsimp only)
    | with_reducible assumption
    | with_reducible apply sweepColumn_kept
    | with_reducible apply Kept.foldl
    | split

theorem stopSurfs_kept {σ τ : State} (hk : Kept σ τ) (plan : Nat) :
    Kept σ (stopSurfs plan τ) := by
  unfold stopSurfs
  try dsimp only
  repeat' first
    | (with_reducible intro _; try dsimp only)
    | with_reducible assumption
    | with_reducible apply stopSurf_kept
    | with_reducible apply Kept.ite
    | with_reducible apply Kept.foldl

theorem releaseSurfs_kept {σ τ : State} (hk : Kept σ τ) (plan : Nat) :
    Kept σ (releaseSurfs plan τ) := by
  unfold releaseSurfs
  try dsimp only
  repeat' first
    | (with_reducible intro _; try dsimp only)
    | with_reducible assumption
    | with_reducible apply modDpy_kept
    | with_reducible apply closeWindow_kept
    | with_reducible apply freeAllocs_kept
    | with_reducible apply Kept.ite
    | with_reducible apply Kept.foldl
    | split

end Sys2Proof.Machine
end

