-- ==== Sys2Proof/Laws/Kept/Display.lean ====
section
/-!
SUPPORT. What the operations of Display.lean keep: the queue, and the legal fields of Safety.
-/

namespace Sys2Proof.Machine

theorem modOut_kept {σ τ : State} (hk : Kept σ τ) (o : Nat) (f : DOut → DOut) :
    Kept σ (modOut o f τ) := by
  exact hk.same rfl rfl rfl rfl rfl rfl rfl rfl rfl rfl rfl

theorem modLayer_kept {σ τ : State} (hk : Kept σ τ) (o l : Nat) (f : Layer → Layer) :
    Kept σ (modLayer o l f τ) := by
  exact hk.same rfl rfl rfl rfl rfl rfl rfl rfl rfl rfl rfl

theorem sendFrame_kept {σ τ : State} (hk : Kept σ τ) (o : Nat) :
    Kept σ (sendFrame o τ) := by
  unfold sendFrame
  try dsimp only
  repeat' first
    | (with_reducible intro _; try dsimp only)
    | with_reducible assumption
    | with_reducible apply modOut_kept
    | with_reducible apply dramRead_kept
    | with_reducible apply emit_kept
    | with_reducible apply Kept.foldl_snd
    | split

theorem sendRelease_kept {σ τ : State} (hk : Kept σ τ) (o layer flip reason : Nat) :
    Kept σ (sendRelease o layer flip reason τ) := by
  unfold sendRelease
  try dsimp only
  repeat' first
    | with_reducible assumption
    | with_reducible apply sendEvent_kept

theorem supersedeFlips_kept {σ τ : State} (hk : Kept σ τ) (o reason : Nat) :
    Kept σ (supersedeFlips o reason τ) := by
  unfold supersedeFlips
  try dsimp only
  repeat' first
    | (with_reducible intro _; try dsimp only)
    | with_reducible assumption
    | with_reducible apply sendRelease_kept
    | with_reducible apply modLayer_kept
    | with_reducible apply modOut_kept
    | with_reducible apply completeBy_kept
    | with_reducible apply Kept.foldl
    | split

theorem dropShown_kept {σ τ : State} (hk : Kept σ τ) (plan surface buf : Nat) :
    Kept σ (dropShown plan surface buf τ) := by
  unfold dropShown
  try dsimp only
  repeat' first
    | with_reducible assumption
    | with_reducible apply modSurf_kept
    | with_reducible apply Kept.ite
    | split

theorem stopLayer_kept {σ τ : State} (hk : Kept σ τ) (o l : Nat) :
    Kept σ (stopLayer o l τ) := by
  unfold stopLayer
  try dsimp only
  repeat' first
    | (with_reducible intro _; try dsimp only)
    | with_reducible assumption
    | with_reducible apply dropShown_kept
    | with_reducible apply sendRelease_kept
    | with_reducible apply modLayer_kept
    | with_reducible apply modOut_kept
    | with_reducible apply completeBy_kept
    | with_reducible apply Kept.ite
    | with_reducible apply Kept.foldl
    | split

theorem disableOutput_kept {σ τ : State} (hk : Kept σ τ) (o : Nat) :
    Kept σ (disableOutput o τ) := by
  unfold disableOutput
  try dsimp only
  repeat' first
    | (with_reducible intro _; try dsimp only)
    | with_reducible assumption
    | with_reducible apply stopLayer_kept
    | with_reducible apply supersedeFlips_kept
    | with_reducible apply sendRelease_kept
    | with_reducible apply modOut_kept
    | with_reducible apply closeWindow_kept
    | with_reducible apply freeAllocs_kept
    | with_reducible apply Kept.ite
    | with_reducible apply Kept.foldl

theorem dropPlanLayers_kept {σ τ : State} (hk : Kept σ τ) (plan : Nat) :
    Kept σ (dropPlanLayers plan τ) := by
  unfold dropPlanLayers
  try dsimp only
  repeat' first
    | (with_reducible intro _; try dsimp only)
    | with_reducible assumption
    | with_reducible apply stopLayer_kept
    | with_reducible apply sendEvent_kept
    | with_reducible apply Kept.ite
    | with_reducible apply Kept.foldl

theorem takeFlips_kept {σ τ : State} (hk : Kept σ τ) (o : Nat) :
    Kept σ (takeFlips o τ) := by
  unfold takeFlips
  try dsimp only
  repeat' first
    | (with_reducible intro _; try dsimp only)
    | with_reducible assumption
    | with_reducible apply modLayer_kept
    | with_reducible apply modOut_kept
    | with_reducible apply completeBy_kept
    | with_reducible apply Kept.foldl
    | split

theorem takeReady_kept {σ τ : State} (hk : Kept σ τ) (o l : Nat) :
    Kept σ (takeReady o l τ) := by
  unfold takeReady
  try dsimp only
  repeat' first
    | with_reducible assumption
    | with_reducible apply dropShown_kept
    | with_reducible apply modLayer_kept
    | with_reducible apply modSurf_kept
    | with_reducible apply Kept.ite
    | split

theorem takeTables_kept {σ τ : State} (hk : Kept σ τ) (o : Nat) :
    Kept σ (takeTables o τ) := by
  unfold takeTables
  try dsimp only
  repeat' first
    | (with_reducible intro _; try dsimp only)
    | with_reducible assumption
    | with_reducible apply modSurf_kept
    | with_reducible apply Kept.ite
    | with_reducible apply Kept.foldl
    | split

theorem latchOutput_kept {σ τ : State} (hk : Kept σ τ) (o : Nat) :
    Kept σ (latchOutput o τ) := by
  unfold latchOutput
  try dsimp only
  repeat' first
    | (with_reducible intro _; try dsimp only)
    | with_reducible assumption
    | with_reducible apply takeTables_kept
    | with_reducible apply takeReady_kept
    | with_reducible apply takeFlips_kept
    | with_reducible apply sendFrame_kept
    | with_reducible apply modOut_kept
    | with_reducible apply Kept.ite
    | with_reducible apply Kept.foldl

theorem latchVideo_kept {σ τ : State} (hk : Kept σ τ) (o : Nat) :
    Kept σ (latchVideo o τ) := by
  unfold latchVideo
  try dsimp only
  repeat' first
    | with_reducible assumption
    | with_reducible apply latchOutput_kept
    | with_reducible apply advanceToTick_kept
    | with_reducible apply Kept.ite

theorem teEdge_kept {σ τ : State} (hk : Kept σ τ) (o lowNs pulseNs : Nat) :
    Kept σ (teEdge o lowNs pulseNs τ) := by
  unfold teEdge
  try dsimp only
  repeat' first
    | with_reducible assumption
    | with_reducible apply latchOutput_kept
    | with_reducible apply modOut_kept
    | with_reducible apply sendEvent_kept
    | with_reducible apply Kept.ite

theorem teTimeout_kept {σ τ : State} (hk : Kept σ τ) (o : Nat) :
    Kept σ (teTimeout o τ) := by
  unfold teTimeout
  try dsimp only
  repeat' first
    | with_reducible assumption
    | with_reducible apply modOut_kept
    | with_reducible apply advanceToTick_kept
    | with_reducible apply sendEvent_kept
    | with_reducible apply Kept.ite

theorem selfTimed_kept {σ τ : State} (hk : Kept σ τ) (o : Nat) :
    Kept σ (selfTimed o τ) := by
  unfold selfTimed
  try dsimp only
  repeat' first
    | with_reducible assumption
    | with_reducible apply latchOutput_kept
    | with_reducible apply advanceToTick_kept
    | with_reducible apply Kept.ite

theorem releaseBuffer_kept {σ τ : State} (hk : Kept σ τ) (o : Nat) :
    Kept σ (releaseBuffer o τ) := by
  unfold releaseBuffer
  try dsimp only
  repeat' first
    | with_reducible assumption
    | with_reducible apply sendRelease_kept
    | with_reducible apply modOut_kept
    | split

theorem panelResponse_kept {σ τ : State} (hk : Kept σ τ) (o : Nat) (data : Block) :
    Kept σ (panelResponse o data τ) := by
  unfold panelResponse
  try dsimp only
  repeat' first
    | with_reducible assumption
    | with_reducible apply modOut_kept
    | with_reducible apply completeBy_kept
    | with_reducible apply emit_kept
    | split

theorem panelLate_kept {σ τ : State} (hk : Kept σ τ) (o : Nat) :
    Kept σ (panelLate o τ) := by
  unfold panelLate
  try dsimp only
  repeat' first
    | with_reducible assumption
    | with_reducible apply modOut_kept
    | with_reducible apply advanceToTick_kept
    | with_reducible apply completeBy_kept
    | split

end Sys2Proof.Machine
end

