-- ==== Sys2Proof/Laws/Kept/Trigger.lean ====
section
/-!
SUPPORT. What the operations of Trigger.lean keep: the queue, and the legal fields of Safety.
-/

namespace Sys2Proof.Machine

theorem modUnit_kept {σ τ : State} (hk : Kept σ τ) (n : Nat) (f : TUnit → TUnit) :
    Kept σ (modUnit n f τ) := by
  exact hk.same rfl rfl rfl rfl rfl rfl rfl rfl rfl rfl rfl

theorem retagPair_kept {σ τ : State} (hk : Kept σ τ) (n index : Nat) :
    Kept σ (retagPair n index τ) := by
  unfold retagPair
  try dsimp only
  repeat' first
    | (with_reducible intro _; try dsimp only)
    | with_reducible assumption
    | with_reducible apply modCap_kept
    | with_reducible apply modDsp_kept
    | with_reducible apply modFront_kept
    | with_reducible apply modPair_kept
    | with_reducible apply Kept.foldl
    | fail_if_no_progress (with_reducible refine Kept.mk ?_ rfl ?_ ?_ ?_ ?_ ?_ ?_ ?_ ?_ ?_ ?_) <;> try ((with_reducible refine (?_ : _ = _)); first | rfl | (split <;> rfl))

theorem retagSlot_kept {σ τ : State} (hk : Kept σ τ) (n : Nat) (w : HWord) :
    Kept σ (retagSlot n w τ) := by
  unfold retagSlot
  try dsimp only
  repeat' first
    | with_reducible assumption
    | with_reducible apply modTrg_kept
    | with_reducible apply modDsp_kept
    | with_reducible apply modSlot_kept
    | fail_if_no_progress (with_reducible refine Kept.mk ?_ rfl ?_ ?_ ?_ ?_ ?_ ?_ ?_ ?_ ?_ ?_) <;> try ((with_reducible refine (?_ : _ = _)); first | rfl | (split <;> rfl))

theorem markTrig_kept {σ τ : State} (hk : Kept σ τ) (plan place : Nat) (back : Nat) :
    Kept σ ((markTrig plan place back τ).1) := by
  unfold markTrig
  try dsimp only
  repeat' first
    | (with_reducible intro _; try dsimp only)
    | with_reducible assumption
    | with_reducible apply retagPair_kept
    | with_reducible apply modTrg_kept
    | with_reducible apply modSlot_kept
    | with_reducible apply Kept.ite
    | with_reducible apply Kept.foldl
    | with_reducible apply Kept.foldl_fst
    | split

theorem trigoutFire_kept {σ τ : State} (hk : Kept σ τ) (n place : Nat) :
    Kept σ ((trigoutFire n place τ).1) := by
  unfold trigoutFire
  try dsimp only
  repeat' first
    | with_reducible assumption
    | with_reducible apply modUnit_kept
    | with_reducible apply modTrg_kept
    | split

theorem trigoutRise_kept {σ τ : State} (hk : Kept σ τ) (tick width : Nat) :
    Kept σ (trigoutRise tick width τ) := by
  unfold trigoutRise
  try dsimp only
  repeat' first
    | with_reducible assumption
    | with_reducible apply modTrg_kept
    | with_reducible apply emit_kept
    | with_reducible apply Kept.ite

theorem trigoutFall_kept {σ τ : State} (hk : Kept σ τ) (tick : Nat) :
    Kept σ (trigoutFall tick τ) := by
  unfold trigoutFall
  try dsimp only
  repeat' first
    | with_reducible assumption
    | with_reducible apply modTrg_kept
    | with_reducible apply emit_kept
    | with_reducible apply Kept.ite

theorem deliver_kept {σ τ : State} (hk : Kept σ τ) (n : Nat) (ev : TEvent) (tagged : Bool) :
    Kept σ (deliver n ev tagged τ) := by
  unfold deliver
  try dsimp only
  repeat' first
    | with_reducible assumption
    | with_reducible apply trigoutFire_kept
    | with_reducible apply modUnit_kept
    | with_reducible apply rearmDue_kept
    | with_reducible apply closeDue_kept
    | with_reducible apply captureFire_kept
    | with_reducible apply offerTap_kept
    | with_reducible apply recordOn_kept
    | with_reducible apply journal_kept
    | with_reducible apply Kept.ite
    | split

theorem deliverMissed_kept {σ τ : State} (hk : Kept σ τ) (n : Nat) :
    Kept σ (deliverMissed n τ) := by
  unfold deliverMissed
  try dsimp only
  repeat' first
    | with_reducible assumption
    | with_reducible apply modUnit_kept
    | with_reducible apply recordOn_kept
    | with_reducible apply Kept.ite
    | split

theorem flushMissed_kept {σ τ : State} (hk : Kept σ τ) (m : Nat) (n : Nat) : Kept σ (flushMissed m n τ) := by
  induction n generalizing τ with
  | zero => exact hk
  | succ n ih =>
    rw [flushMissed]
    repeat' first
      | with_reducible assumption
      | with_reducible apply ih
      | with_reducible apply modUnit_kept
      | with_reducible apply recordOn_kept
      | with_reducible apply Kept.ite
      | split

theorem fire_kept {σ τ : State} (hk : Kept σ τ) (n : Nat) (ev : TEvent) :
    Kept σ (fire n ev τ) := by
  unfold fire
  try dsimp only
  repeat' first
    | with_reducible assumption
    | with_reducible apply deliver_kept
    | with_reducible apply markTrig_kept
    | with_reducible apply modUnit_kept
    | with_reducible apply Kept.ite
    | split

theorem onEvent_kept {σ τ : State} (hk : Kept σ τ) (n : Nat) (ev : TEvent) :
    Kept σ (onEvent n ev τ) := by
  unfold onEvent
  try dsimp only
  repeat' first
    | with_reducible assumption
    | with_reducible apply fire_kept
    | with_reducible apply modUnit_kept
    | with_reducible apply Kept.ite

theorem offerEvent_kept {σ τ : State} (hk : Kept σ τ) (n : Nat) (ev : TEvent) :
    Kept σ (offerEvent n ev τ) := by
  unfold offerEvent
  try dsimp only
  repeat' first
    | with_reducible assumption
    | with_reducible apply onEvent_kept
    | with_reducible apply modUnit_kept
    | with_reducible apply Kept.ite

theorem armUnit_kept {σ τ : State} (hk : Kept σ τ) (n : Nat) :
    Kept σ (armUnit n τ) := by
  unfold armUnit
  try dsimp only
  repeat' first
    | with_reducible assumption
    | with_reducible apply modUnit_kept

theorem autoForce_kept {σ τ : State} (hk : Kept σ τ) (n : Nat) :
    Kept σ (autoForce n τ) := by
  unfold autoForce
  try dsimp only
  repeat' first
    | with_reducible assumption
    | with_reducible apply fire_kept
    | with_reducible apply journal_kept

theorem levelStage_kept {σ τ : State} (hk : Kept σ τ) (n : Nat) (stageB : Bool) (w : HWord) (vals : List (Nat × Int)) (square : Bool) :
    Kept σ (levelStage n stageB w vals square τ) := by
  unfold levelStage
  try dsimp only
  repeat' first
    | (with_reducible intro _; try dsimp only)
    | with_reducible assumption
    | with_reducible apply offerEvent_kept
    | with_reducible apply modUnit_kept
    | with_reducible apply Kept.ite
    | with_reducible apply Kept.foldl

theorem timeWord_kept {σ τ : State} (hk : Kept σ τ) (plan i : Nat) :
    Kept σ (timeWord plan i τ) := by
  unfold timeWord
  try dsimp only
  repeat' first
    | (with_reducible intro _; try dsimp only)
    | with_reducible assumption
    | with_reducible apply offerEvent_kept
    | with_reducible apply modUnit_kept
    | with_reducible apply Kept.ite
    | with_reducible apply Kept.foldl

theorem deliverDue_kept {σ τ : State} (hk : Kept σ τ) (plan i : Nat) :
    Kept σ (deliverDue plan i τ) := by
  unfold deliverDue
  try dsimp only
  repeat' first
    | (with_reducible intro _; try dsimp only)
    | with_reducible assumption
    | with_reducible apply deliver_kept
    | with_reducible apply modUnit_kept
    | with_reducible apply Kept.foldl

theorem trigStage_kept {σ τ : State} (hk : Kept σ τ) (n : Nat) (w : HWord) :
    Kept σ ((trigStage n w τ).1) := by
  unfold trigStage
  try dsimp only
  repeat' first
    | with_reducible assumption
    | with_reducible apply modTrg_kept

theorem trigWord_kept {σ τ : State} (hk : Kept σ τ) (n : Nat) (w : HWord) :
    Kept σ (trigWord n w τ) := by
  unfold trigWord
  try dsimp only
  repeat' first
    | (with_reducible intro _; try dsimp only)
    | with_reducible assumption
    | with_reducible apply deliverDue_kept
    | with_reducible apply timeWord_kept
    | with_reducible apply levelStage_kept
    | with_reducible apply Kept.foldl

theorem trigZoomWord_kept {σ τ : State} (hk : Kept σ τ) (slot m : Nat) (w : HWord) :
    Kept σ (trigZoomWord slot m w τ) := by
  unfold trigZoomWord
  try dsimp only
  repeat' first
    | (with_reducible intro _; try dsimp only)
    | with_reducible assumption
    | with_reducible apply levelStage_kept
    | with_reducible apply Kept.foldl

theorem modMask_kept {σ τ : State} (hk : Kept σ τ) (c h : Nat) (f : Mask → Mask) :
    Kept σ (modMask c h f τ) := by
  exact hk.same rfl rfl rfl rfl rfl rfl rfl rfl rfl rfl rfl

theorem settleMask_kept {σ τ : State} (hk : Kept σ τ) (c h : Nat) :
    Kept σ (settleMask c h τ) := by
  unfold settleMask
  try dsimp only
  repeat' first
    | (with_reducible intro _; try dsimp only)
    | with_reducible assumption
    | with_reducible apply modMask_kept
    | with_reducible apply modUnit_kept
    | with_reducible apply modTrg_kept
    | with_reducible apply completeDesc_kept
    | with_reducible apply Kept.ite
    | with_reducible apply Kept.foldl
    | split
    | fail_if_no_progress (with_reducible refine Kept.mk ?_ rfl ?_ ?_ ?_ ?_ ?_ ?_ ?_ ?_ ?_ ?_) <;> try ((with_reducible refine (?_ : _ = _)); first | rfl | (split <;> rfl))

theorem switchMask_kept {σ τ : State} (hk : Kept σ τ) (n : Nat) (stageB : Bool) (c h : Nat) (sp : Spectrum) :
    Kept σ (switchMask n stageB c h sp τ) := by
  unfold switchMask
  try dsimp only
  repeat' first
    | with_reducible assumption
    | with_reducible apply settleMask_kept
    | with_reducible apply modUnit_kept
    | with_reducible apply Kept.ite
    | split

theorem testSpectrum_kept {σ τ : State} (hk : Kept σ τ) (n : Nat) (stageB : Bool) (sp : Spectrum) :
    Kept σ (testSpectrum n stageB sp τ) := by
  unfold testSpectrum
  try dsimp only
  repeat' first
    | with_reducible assumption
    | with_reducible apply switchMask_kept
    | with_reducible apply offerEvent_kept
    | with_reducible apply modUnit_kept
    | with_reducible apply Kept.ite

theorem trigSpectrum_kept {σ τ : State} (hk : Kept σ τ) (sp : Spectrum) :
    Kept σ (trigSpectrum sp τ) := by
  unfold trigSpectrum
  try dsimp only
  repeat' first
    | (with_reducible intro _; try dsimp only)
    | with_reducible assumption
    | with_reducible apply testSpectrum_kept
    | with_reducible apply Kept.foldl

theorem trigLost_kept {σ τ : State} (hk : Kept σ τ) (plan idx : Nat) :
    Kept σ (trigLost plan idx τ) := by
  unfold trigLost
  try dsimp only
  repeat' first
    | (with_reducible intro _; try dsimp only)
    | with_reducible assumption
    | with_reducible apply modUnit_kept
    | with_reducible apply Kept.foldl

theorem trigSk_kept {σ τ : State} (hk : Kept σ τ) (plan idx subint flagged start : Nat) :
    Kept σ (trigSk plan idx subint flagged start τ) := by
  unfold trigSk
  try dsimp only
  repeat' first
    | (with_reducible intro _; try dsimp only)
    | with_reducible assumption
    | with_reducible apply offerEvent_kept
    | with_reducible apply Kept.ite
    | with_reducible apply Kept.foldl

theorem offerSource_kept {σ τ : State} (hk : Kept σ τ) (code sel : Nat) (only : Option Nat) (rising : Option Bool) (ev : Bool → TEvent) :
    Kept σ (offerSource code sel only rising ev τ) := by
  unfold offerSource
  try dsimp only
  repeat' first
    | (with_reducible intro _; try dsimp only)
    | with_reducible assumption
    | with_reducible apply offerEvent_kept
    | with_reducible apply Kept.ite
    | with_reducible apply Kept.foldl

theorem trigStamp_kept {σ τ : State} (hk : Kept σ τ) (ch tick sub : Nat) (rising : Bool) :
    Kept σ (trigStamp ch tick sub rising τ) := by
  unfold trigStamp
  try dsimp only
  repeat' first
    | with_reducible assumption
    | with_reducible apply offerSource_kept

theorem trigGate_kept {σ τ : State} (hk : Kept σ τ) (pin tick : Nat) :
    Kept σ (trigGate pin tick τ) := by
  unfold trigGate
  try dsimp only
  repeat' first
    | with_reducible assumption
    | with_reducible apply offerSource_kept

theorem trigSpu_kept {σ τ : State} (hk : Kept σ τ) (n : Nat) (place : Option Nat) :
    Kept σ (trigSpu n place τ) := by
  unfold trigSpu
  try dsimp only
  repeat' first
    | (with_reducible intro _; try dsimp only)
    | with_reducible assumption
    | with_reducible apply offerEvent_kept
    | with_reducible apply journal_kept
    | with_reducible apply Kept.ite
    | with_reducible apply Kept.foldl

end Sys2Proof.Machine
end

