-- ==== Sys2Proof/Laws/Kept/Integ.lean ====
section
/-!
SUPPORT. What the operations of Integ.lean keep: the queue, and the legal fields of Safety.
-/

namespace Sys2Proof.Machine

theorem engShort_kept {σ τ : State} (hk : Kept σ τ) (e : Nat) : Kept σ (engShort e τ) := modEng_kept hk _ _

theorem engDrained_kept {σ τ : State} (hk : Kept σ τ) (e : Nat) : Kept σ (engDrained e τ) := modEng_kept hk _ _

theorem engDrop_kept {σ τ : State} (hk : Kept σ τ) (e : Nat) : Kept σ (engDrop e τ) := modEng_kept hk _ _

theorem presentSk_kept {σ τ : State} (hk : Kept σ τ) (x : XStream) (b : SubBlk) (subint start : Nat) (flags : List Bool) (span : Nat × Nat) :
    Kept σ (presentSk x b subint start flags span τ) := by
  unfold presentSk
  try dsimp only
  repeat' first
    | with_reducible assumption
    | with_reducible apply engDrop_kept
    | with_reducible apply trigSk_kept
    | with_reducible apply offerTap_kept
    | with_reducible apply recordOn_kept
    | with_reducible apply Kept.ite

theorem queueDump_kept {σ τ : State} (hk : Kept σ τ) (h : DumpHead) (lab : Spectrum) (order engine ring tap first count : Nat) (bins : Nat → Nat → Nat → List Fld) (span : Nat × Nat) :
    Kept σ (queueDump h lab order engine ring tap first count bins span τ) := by
  unfold queueDump
  try dsimp only
  repeat' first
    | with_reducible assumption
    | with_reducible apply modDsp_kept
    | with_reducible apply offerTap_kept

theorem dumpStream_kept {σ τ : State} (hk : Kept σ τ) (x : XStream) (b : SubBlk) (g : Integ) (extra subs : Nat) :
    Kept σ (dumpStream x b g extra subs τ) := by
  unfold dumpStream
  try dsimp only
  repeat' first
    | with_reducible assumption
    | with_reducible apply queueDump_kept
    | with_reducible apply modEng_kept

theorem modInteg_kept {σ τ : State} (hk : Kept σ τ) (x : XStream) (f : Integ → Integ) :
    Kept σ (modInteg x f τ) := by
  exact hk.same rfl rfl rfl rfl rfl rfl rfl rfl rfl rfl rfl

theorem endInterval_kept {σ τ : State} (hk : Kept σ τ) (x0 : XStream) (b : SubBlk) :
    Kept σ (endInterval x0 b τ) := by
  unfold endInterval
  try dsimp only
  repeat' first
    | with_reducible assumption
    | with_reducible apply modInteg_kept
    | with_reducible apply dumpStream_kept
    | with_reducible apply Kept.ite
    | split

theorem integSpectrum_kept {σ τ : State} (hk : Kept σ τ) (x : XStream) (k index : Nat) (sp : Option Spectrum) :
    Kept σ (integSpectrum x k index sp τ) := by
  unfold integSpectrum
  try dsimp only
  repeat' first
    | with_reducible assumption
    | with_reducible apply endInterval_kept
    | with_reducible apply modInteg_kept
    | with_reducible apply presentSk_kept
    | with_reducible apply engDrained_kept
    | with_reducible apply engShort_kept
    | with_reducible apply Kept.ite
    | split

theorem closeInteg_kept {σ τ : State} (hk : Kept σ τ) (x : XStream) (extra : Nat) :
    Kept σ (closeInteg x extra τ) := by
  unfold closeInteg
  try dsimp only
  repeat' first
    | with_reducible assumption
    | with_reducible apply dumpStream_kept
    | with_reducible apply engShort_kept
    | with_reducible apply Kept.ite
    | split

theorem modCross_kept {σ τ : State} (hk : Kept σ τ) (plan : Nat) (f : CrossSt → CrossSt) :
    Kept σ (modCross plan f τ) := by
  exact hk.same rfl rfl rfl rfl rfl rfl rfl rfl rfl rfl rfl

theorem modCrossPair_kept {σ τ : State} (hk : Kept σ τ) (plan pair : Nat) (f : CrossPair → CrossPair) :
    Kept σ (modCrossPair plan pair f τ) := by
  exact hk.same rfl rfl rfl rfl rfl rfl rfl rfl rfl rfl rfl

theorem dumpPair_kept {σ τ : State} (hk : Kept σ τ) (x : XStream) (b : SubBlk) (ring : Nat) (g : CrossPair) (extra : Nat) :
    Kept σ (dumpPair x b ring g extra τ) := by
  unfold dumpPair
  try dsimp only
  repeat' first
    | with_reducible assumption
    | with_reducible apply queueDump_kept
    | with_reducible apply modDsp_kept

theorem pairSpectrum_kept {σ τ : State} (hk : Kept σ τ) (plan pair : Nat) (a b : CrossIn) (ref : Nat) :
    Kept σ (pairSpectrum plan pair a b ref τ) := by
  unfold pairSpectrum
  try dsimp only
  repeat' first
    | with_reducible assumption
    | with_reducible apply dumpPair_kept
    | with_reducible apply modCrossPair_kept
    | with_reducible apply modDsp_kept
    | with_reducible apply Kept.ite
    | split

theorem crossSpectrum_kept {σ τ : State} (hk : Kept σ τ) (x : XStream) (c : CrossIn) (ref : Nat) :
    Kept σ (crossSpectrum x c ref τ) := by
  unfold crossSpectrum
  try dsimp only
  repeat' first
    | (with_reducible intro _; try dsimp only)
    | with_reducible assumption
    | with_reducible apply pairSpectrum_kept
    | with_reducible apply modCross_kept
    | with_reducible apply Kept.ite
    | with_reducible apply Kept.foldl
    | split

theorem closeCross_kept {σ τ : State} (hk : Kept σ τ) (plan extra : Nat) :
    Kept σ (closeCross plan extra τ) := by
  unfold closeCross
  try dsimp only
  repeat' first
    | (with_reducible intro _; try dsimp only)
    | with_reducible assumption
    | with_reducible apply dumpPair_kept
    | with_reducible apply Kept.ite
    | with_reducible apply Kept.foldl
    | split

theorem drainPlan_kept {σ τ : State} (hk : Kept σ τ) (plan : Nat) :
    Kept σ (drainPlan plan τ) := by
  unfold drainPlan
  try dsimp only
  repeat' first
    | (with_reducible intro _; try dsimp only)
    | with_reducible assumption
    | with_reducible apply engDrop_kept
    | with_reducible apply modDsp_kept
    | with_reducible apply recordOn_kept
    | with_reducible apply Kept.ite
    | with_reducible apply Kept.foldl

end Sys2Proof.Machine
end

