-- ==== Sys2Proof/Laws/Kept/Spectra.lean ====
section
/-!
SUPPORT. What the operations of Spectra.lean keep: the queue, and the legal fields of Safety.
-/

namespace Sys2Proof.Machine

theorem answerSwitch_kept {σ τ : State} (hk : Kept σ τ) (x : XStream) :
    Kept σ (answerSwitch x τ) := by
  unfold answerSwitch
  try dsimp only
  repeat' first
    | with_reducible assumption
    | with_reducible apply modX_kept
    | with_reducible apply completeDesc_kept
    | split

theorem consume_kept {σ τ : State} (hk : Kept σ τ) (x : XStream) (sp : Spectrum) :
    Kept σ (consume x sp τ) := by
  unfold consume
  try dsimp only
  repeat' first
    | with_reducible assumption
    | with_reducible apply answerSwitch_kept
    | with_reducible apply crossSpectrum_kept
    | with_reducible apply integSpectrum_kept
    | with_reducible apply trigSpectrum_kept
    | with_reducible apply densitySpectrum_kept
    | with_reducible apply traceAll_kept
    | with_reducible apply tapSpectrum_kept
    | with_reducible apply recordSpectrum_kept
    | with_reducible apply modEng_kept
    | with_reducible apply Kept.ite

theorem formFrame_kept {σ τ : State} (hk : Kept σ τ) (plan idx : Nat) :
    Kept σ (formFrame plan idx τ) := by
  unfold formFrame
  try dsimp only
  repeat' first
    | with_reducible assumption
    | with_reducible apply consume_kept
    | with_reducible apply modX_kept
    | with_reducible apply Kept.ite
    | split

theorem formFrames_kept {σ τ : State} (hk : Kept σ τ) (plan idx : Nat) (fuel : Nat) : Kept σ (formFrames plan idx fuel τ) := by
  induction fuel generalizing τ with
  | zero => exact hk
  | succ fuel ih =>
    rw [formFrames]
    repeat' first
      | with_reducible assumption
      | with_reducible apply ih
      | with_reducible apply formFrame_kept
      | with_reducible apply Kept.ite
      | split

theorem formAll_kept {σ τ : State} (hk : Kept σ τ) (plan idx : Nat) :
    Kept σ (formAll plan idx τ) := by
  unfold formAll
  try dsimp only
  repeat' first
    | with_reducible assumption
    | with_reducible apply formFrames_kept
    | split

theorem loseSpectrum_kept {σ τ : State} (hk : Kept σ τ) (plan idx : Nat) :
    Kept σ (loseSpectrum plan idx τ) := by
  unfold loseSpectrum
  try dsimp only
  repeat' first
    | with_reducible assumption
    | with_reducible apply crossSpectrum_kept
    | with_reducible apply integSpectrum_kept
    | with_reducible apply trigLost_kept
    | with_reducible apply modEng_kept
    | with_reducible apply modX_kept
    | with_reducible apply Kept.ite
    | split

theorem loseUntil_kept {σ τ : State} (hk : Kept σ τ) (plan idx i : Nat) (fuel : Nat) : Kept σ (loseUntil plan idx i fuel τ) := by
  induction fuel generalizing τ with
  | zero => exact hk
  | succ fuel ih =>
    rw [loseUntil]
    repeat' first
      | with_reducible assumption
      | with_reducible apply ih
      | with_reducible apply loseSpectrum_kept
      | with_reducible apply Kept.ite
      | split

theorem gapStream_kept {σ τ : State} (hk : Kept σ τ) (plan idx i : Nat) :
    Kept σ (gapStream plan idx i τ) := by
  unfold gapStream
  try dsimp only
  repeat' first
    | with_reducible assumption
    | with_reducible apply loseUntil_kept
    | with_reducible apply formAll_kept
    | with_reducible apply modX_kept
    | split

theorem restartInteg_kept {σ τ : State} (hk : Kept σ τ) (plan idx : Nat) :
    Kept σ (restartInteg plan idx τ) := by
  unfold restartInteg
  try dsimp only
  repeat' first
    | with_reducible assumption
    | with_reducible apply modInteg_kept
    | split

theorem closeForSwitch_kept {σ τ : State} (hk : Kept σ τ) (plan idx : Nat) :
    Kept σ (closeForSwitch plan idx τ) := by
  unfold closeForSwitch
  try dsimp only
  repeat' first
    | with_reducible assumption
    | with_reducible apply restartInteg_kept
    | with_reducible apply closeInteg_kept
    | with_reducible apply closeTraces_kept
    | split

theorem settleTable_kept {σ τ : State} (hk : Kept σ τ) (c handle sid : Nat) (coef : List Nat) :
    Kept σ (settleTable c handle sid coef τ) := by
  unfold settleTable
  try dsimp only
  repeat' first
    | with_reducible assumption
    | with_reducible apply modDsp_kept
    | with_reducible apply completeDesc_kept
    | with_reducible apply modCtx_kept
    | with_reducible apply Kept.ite
    | fail_if_no_progress (with_reducible refine Kept.mk ?_ rfl ?_ ?_ ?_ ?_ ?_ ?_ ?_ ?_ ?_ ?_) <;> try ((with_reducible refine (?_ : _ = _)); first | rfl | (split <;> rfl))

theorem switchStream_kept {σ τ : State} (hk : Kept σ τ) (plan idx : Nat) :
    Kept σ (switchStream plan idx τ) := by
  unfold switchStream
  try dsimp only
  repeat' first
    | (with_reducible intro _; try dsimp only)
    | with_reducible assumption
    | with_reducible apply settleTable_kept
    | with_reducible apply closeForSwitch_kept
    | with_reducible apply formAll_kept
    | with_reducible apply closeCross_kept
    | with_reducible apply modCross_kept
    | with_reducible apply modEng_kept
    | with_reducible apply modX_kept
    | with_reducible apply Kept.ite
    | with_reducible apply Kept.foldl
    | split

theorem pushPair_kept {σ τ : State} (hk : Kept σ τ) (n : Nat) (w : HWord) (plan : Nat) :
    Kept σ (pushPair n w plan τ) := by
  unfold pushPair
  try dsimp only
  repeat' first
    | with_reducible assumption
    | with_reducible apply modX_kept
    | split

theorem pushZoom_kept {σ τ : State} (hk : Kept σ τ) (plan slot m : Nat) (w : HWord) :
    Kept σ (pushZoom plan slot m w τ) := by
  unfold pushZoom
  try dsimp only
  repeat' first
    | with_reducible assumption
    | with_reducible apply modX_kept
    | split

theorem startStream_kept {σ τ : State} (hk : Kept σ τ) (p : Plan) (index : Nat) (b : SubBlk) (cfg0 : XCfg) :
    Kept σ (startStream p index b cfg0 τ) := by
  unfold startStream
  try dsimp only
  repeat' first
    | with_reducible assumption
    | with_reducible apply modDsp_kept

theorem startStreams_kept {σ τ : State} (hk : Kept σ τ) (p : Plan) (index : Nat) (cfgs : List (Nat × XCfg)) :
    Kept σ (startStreams p index cfgs τ) := by
  unfold startStreams
  try dsimp only
  repeat' first
    | (with_reducible intro _; try dsimp only)
    | with_reducible assumption
    | with_reducible apply startStream_kept
    | with_reducible apply modDsp_kept
    | with_reducible apply Kept.foldl
    | split

theorem finishStreams_kept {σ τ : State} (hk : Kept σ τ) (plan : Nat) :
    Kept σ (finishStreams plan τ) := by
  unfold finishStreams
  try dsimp only
  repeat' first
    | (with_reducible intro _; try dsimp only)
    | with_reducible assumption
    | with_reducible apply formAll_kept
    | with_reducible apply closeCross_kept
    | with_reducible apply closeInteg_kept
    | with_reducible apply closeTraces_kept
    | with_reducible apply Kept.foldl
    | split

theorem dropSwitches_kept {σ τ : State} (hk : Kept σ τ) (plan : Nat) (st : Status) :
    Kept σ (dropSwitches plan st τ) := by
  unfold dropSwitches
  try dsimp only
  repeat' first
    | (with_reducible intro _; try dsimp only)
    | with_reducible assumption
    | with_reducible apply settleTable_kept
    | with_reducible apply modX_kept
    | with_reducible apply completeDesc_kept
    | with_reducible apply Kept.ite
    | with_reducible apply Kept.foldl
    | split

theorem removeStreams_kept {σ τ : State} (hk : Kept σ τ) (plan : Nat) :
    Kept σ (removeStreams plan τ) := by
  unfold removeStreams
  try dsimp only
  repeat' first
    | with_reducible assumption
    | with_reducible apply modDsp_kept

end Sys2Proof.Machine
end

