-- ==== Sys2Proof/Laws/Kept/Admit.lean ====
section
/-!
SUPPORT. What the operations of Admit.lean keep: the queue, and the legal fields of Safety.
-/

namespace Sys2Proof.Machine

theorem clearShare_kept {σ τ : State} (hk : Kept σ τ) (n : Nat) :
    Kept σ (clearShare n τ) := by
  unfold clearShare
  try dsimp only
  repeat' first
    | with_reducible assumption
    | with_reducible apply modFr_kept
    | with_reducible apply Kept.ite

theorem createRings_kept {σ τ υ : State} (hk : Kept σ τ) {plan : Nat} {l : List (Nat × Nat)} (h : createRings plan l τ = .ok υ) :
    Kept σ υ := by
  induction l generalizing τ with
  | nil => cases h; exact hk
  | cons x r ih =>
    rw [createRings] at h
    dsimp only at h
    repeat' first
      | (cases h; done)
      | split at h
    all_goals exact ih (clearShare_kept (modTrg_kept (allocate_kept hk (by assumption)) _) _) h

end Sys2Proof.Machine
end

