-- ==== Sys2Proof/Laws/Kept/Exports.lean ====
section
/-!
SUPPORT. What the operations of Exports.lean keep: the queue, and the legal fields of Safety.
-/

namespace Sys2Proof.Machine

theorem modDisk_kept {σ τ : State} (hk : Kept σ τ) (f : Disk → Disk) :
    Kept σ (modDisk f τ) := by
  exact hk.same rfl rfl rfl rfl rfl rfl rfl rfl rfl rfl rfl

theorem modExport_kept {σ τ : State} (hk : Kept σ τ) (slot : Nat) (f : Export → Export) :
    Kept σ (modExport slot f τ) := by
  exact hk.same rfl rfl rfl rfl rfl rfl rfl rfl rfl rfl rfl

theorem closeExpRecord_kept {σ τ : State} (hk : Kept σ τ) (slot source : Nat) :
    Kept σ (closeExpRecord slot source τ) := by
  unfold closeExpRecord
  try dsimp only
  repeat' first
    | with_reducible assumption
    | with_reducible apply modExport_kept
    | with_reducible apply formRealtime_kept
    | split

theorem exportWordTo_kept {σ τ : State} (hk : Kept σ τ) (slot source : Nat) (w : HWord) :
    Kept σ (exportWordTo slot source w τ) := by
  unfold exportWordTo
  try dsimp only
  repeat' first
    | with_reducible assumption
    | with_reducible apply closeExpRecord_kept
    | with_reducible apply modExport_kept
    | with_reducible apply Kept.ite
    | split

theorem exportWord_kept {σ τ : State} (hk : Kept σ τ) (plan source : Nat) (w : HWord) :
    Kept σ (exportWord plan source w τ) := by
  unfold exportWord
  try dsimp only
  repeat' first
    | (with_reducible intro _; try dsimp only)
    | with_reducible assumption
    | with_reducible apply exportWordTo_kept
    | with_reducible apply Kept.foldl

theorem closeExpRecords_kept {σ τ : State} (hk : Kept σ τ) (slot : Nat) :
    Kept σ (closeExpRecords slot τ) := by
  unfold closeExpRecords
  try dsimp only
  repeat' first
    | (with_reducible intro _; try dsimp only)
    | with_reducible assumption
    | with_reducible apply closeExpRecord_kept
    | with_reducible apply Kept.foldl
    | split

theorem pauseExports_kept {σ τ : State} (hk : Kept σ τ) (plan : Nat) :
    Kept σ (pauseExports plan τ) := by
  unfold pauseExports
  try dsimp only
  repeat' first
    | (with_reducible intro _; try dsimp only)
    | with_reducible assumption
    | with_reducible apply closeExpRecords_kept
    | with_reducible apply modExport_kept
    | with_reducible apply Kept.foldl

theorem resumeExports_kept {σ τ : State} (hk : Kept σ τ) (plan : Nat) :
    Kept σ (resumeExports plan τ) := by
  unfold resumeExports
  try dsimp only
  repeat' first
    | (with_reducible intro _; try dsimp only)
    | with_reducible assumption
    | with_reducible apply modExport_kept
    | with_reducible apply formGap_kept
    | with_reducible apply Kept.foldl
    | split

theorem beginClose_kept {σ τ : State} (hk : Kept σ τ) (slot reason : Nat) (asker : Option (Nat × Nat)) :
    Kept σ (beginClose slot reason asker τ) := by
  unfold beginClose
  try dsimp only
  repeat' first
    | with_reducible assumption
    | with_reducible apply closeExpRecords_kept
    | with_reducible apply modExport_kept
    | with_reducible apply formSeal_kept
    | with_reducible apply nameDrops_kept
    | split

theorem removeExport_kept {σ τ : State} (hk : Kept σ τ) (e : Export) :
    Kept σ (removeExport e τ) := by
  unfold removeExport
  try dsimp only
  repeat' first
    | with_reducible assumption
    | with_reducible apply modDisk_kept
    | with_reducible apply modHost_kept
    | with_reducible apply Kept.ite

theorem finishClose_kept {σ τ : State} (hk : Kept σ τ) (e : Export) (c : Closing) :
    Kept σ (finishClose e c τ) := by
  unfold finishClose
  try dsimp only
  repeat' first
    | with_reducible assumption
    | with_reducible apply removeExport_kept
    | with_reducible apply completeDesc_kept
    | with_reducible apply sendEvent_kept
    | split

theorem sendFlushes_kept {σ τ : State} (hk : Kept σ τ) (e : Export) :
    Kept σ (sendFlushes e τ) := by
  unfold sendFlushes
  try dsimp only
  repeat' first
    | (with_reducible intro _; try dsimp only)
    | with_reducible assumption
    | with_reducible apply modExport_kept
    | with_reducible apply modBinding_kept
    | with_reducible apply emit_kept
    | with_reducible apply Kept.foldl

theorem stepClose_kept {σ τ : State} (hk : Kept σ τ) (slot : Nat) :
    Kept σ (stepClose slot τ) := by
  unfold stepClose
  try dsimp only
  repeat' first
    | (with_reducible intro _; try dsimp only)
    | with_reducible assumption
    | with_reducible apply sendFlushes_kept
    | with_reducible apply finishClose_kept
    | with_reducible apply closeExtent_kept
    | with_reducible apply Kept.ite
    | with_reducible apply Kept.foldl
    | split

theorem stepCloses_kept {σ τ : State} (hk : Kept σ τ)  :
    Kept σ (stepCloses τ) := by
  unfold stepCloses
  try dsimp only
  repeat' first
    | (with_reducible intro _; try dsimp only)
    | with_reducible assumption
    | with_reducible apply stepClose_kept
    | with_reducible apply Kept.foldl

theorem recordsStored_kept {σ τ : State} (hk : Kept σ τ) (l : List StoredRec) :
    Kept σ (recordsStored l τ) := by
  unfold recordsStored
  try dsimp only
  repeat' first
    | (with_reducible intro _; try dsimp only)
    | with_reducible assumption
    | with_reducible apply modStream_kept
    | with_reducible apply Kept.foldl

theorem recordsLost_kept {σ τ : State} (hk : Kept σ τ) (slot reason : Nat) (l : List StoredRec) :
    Kept σ (recordsLost slot reason l τ) := by
  unfold recordsLost
  try dsimp only
  repeat' first
    | (with_reducible intro _; try dsimp only)
    | with_reducible assumption
    | with_reducible apply formGap_kept
    | with_reducible apply modBinding_kept
    | with_reducible apply modStream_kept
    | with_reducible apply Kept.foldl

theorem noteSetFailed_kept {σ τ : State} (hk : Kept σ τ) (c set : Nat) :
    Kept σ (noteSetFailed c set τ) := by
  unfold noteSetFailed
  try dsimp only
  repeat' first
    | with_reducible assumption
    | with_reducible apply sendEvent_kept
    | with_reducible apply Kept.ite

theorem mapFlushes_kept {σ τ : State} (hk : Kept σ τ) (c set : Nat) (f : Closing → Closing) :
    Kept σ (mapFlushes c set f τ) := by
  unfold mapFlushes
  try dsimp only
  repeat' first
    | with_reducible assumption
    | with_reducible apply modDisk_kept

theorem failFlushes_kept {σ τ : State} (hk : Kept σ τ) (c set : Nat) (n : Nat) :
    Kept σ (failFlushes c set n τ) := by
  unfold failFlushes
  try dsimp only
  repeat' first
    | with_reducible assumption
    | with_reducible apply mapFlushes_kept
    | with_reducible apply Kept.ite

theorem failMember_kept {σ τ : State} (hk : Kept σ τ) (slot status : Nat) (timeout modeChange : Bool) :
    Kept σ (failMember slot status timeout modeChange τ) := by
  unfold failMember
  try dsimp only
  repeat' first
    | with_reducible assumption
    | with_reducible apply failFlushes_kept
    | with_reducible apply noteSetFailed_kept
    | with_reducible apply recordsLost_kept
    | with_reducible apply modBinding_kept
    | with_reducible apply sendEvent_kept
    | split

theorem removeBinding_kept {σ τ : State} (hk : Kept σ τ) (b : Binding) :
    Kept σ (removeBinding b τ) := by
  unfold removeBinding
  try dsimp only
  repeat' first
    | with_reducible assumption
    | with_reducible apply modDisk_kept
    | with_reducible apply closeWindow_kept

theorem stepUnbind_kept {σ τ : State} (hk : Kept σ τ) (slot : Nat) :
    Kept σ (stepUnbind slot τ) := by
  unfold stepUnbind
  try dsimp only
  repeat' first
    | with_reducible assumption
    | with_reducible apply removeBinding_kept
    | with_reducible apply completeBy_kept
    | with_reducible apply Kept.ite
    | split

theorem nvmeDone_kept {σ τ : State} (hk : Kept σ τ) (slot cid status : Nat) (dnr : Bool) :
    Kept σ (nvmeDone slot cid status dnr τ) := by
  unfold nvmeDone
  try dsimp only
  repeat' first
    | with_reducible assumption
    | with_reducible apply failMember_kept
    | with_reducible apply failFlushes_kept
    | with_reducible apply mapFlushes_kept
    | with_reducible apply recordsLost_kept
    | with_reducible apply recordsStored_kept
    | with_reducible apply modBinding_kept
    | with_reducible apply emit_kept
    | with_reducible apply Kept.ite
    | split

theorem activateMember_kept {σ τ : State} (hk : Kept σ τ) (slot : Nat) (qids : List Nat) (maxKb : Nat) (reserved : Bool) :
    Kept σ (activateMember slot qids maxKb reserved τ) := by
  unfold activateMember
  try dsimp only
  repeat' first
    | with_reducible assumption
    | with_reducible apply modBinding_kept
    | with_reducible apply Kept.ite
    | split

end Sys2Proof.Machine
end

