-- ==== Sys2Proof/Laws/Kept/Plans.lean ====
section
/-!
SUPPORT. What the operations of Plans.lean keep: the queue, and the legal fields of Safety.
-/

namespace Sys2Proof.Machine

theorem applyRoute_kept {σ τ : State} (hk : Kept σ τ) (n route step : Nat) :
    Kept σ (applyRoute n route step τ) := by
  unfold applyRoute
  try dsimp only
  repeat' first
    | with_reducible assumption
    | with_reducible apply routePair_kept
    | with_reducible apply modSkim_kept
    | with_reducible apply Kept.ite

theorem routePlan_kept {σ τ : State} (hk : Kept σ τ) (p : Plan) :
    Kept σ (routePlan p τ) := by
  unfold routePlan
  try dsimp only
  repeat' first
    | (with_reducible intro _; try dsimp only)
    | with_reducible assumption
    | with_reducible apply applyRoute_kept
    | with_reducible apply Kept.ite
    | with_reducible apply Kept.foldl

theorem routeDefaults_kept {σ τ : State} (hk : Kept σ τ)  :
    Kept σ (routeDefaults τ) := by
  unfold routeDefaults
  try dsimp only
  repeat' first
    | (with_reducible intro _; try dsimp only)
    | with_reducible assumption
    | with_reducible apply applyRoute_kept
    | with_reducible apply Kept.ite
    | with_reducible apply Kept.foldl

theorem assignFront_kept {σ τ : State} (hk : Kept σ τ) (p : Plan) (first : SubBlk) :
    Kept σ (assignFront p first τ) := by
  unfold assignFront
  try dsimp only
  repeat' first
    | (with_reducible intro _; try dsimp only)
    | with_reducible assumption
    | with_reducible apply modSlot_kept
    | with_reducible apply modFront_kept
    | with_reducible apply Kept.foldl
    | split

theorem assignUnit_kept {σ τ : State} (hk : Kept σ τ) (p : Plan) (b : SubBlk) :
    Kept σ (assignUnit p b τ) := by
  unfold assignUnit
  try dsimp only
  repeat' first
    | with_reducible assumption
    | with_reducible apply modUnit_kept
    | split

theorem assignSurfs_kept {σ τ : State} (hk : Kept σ τ) (p : Plan) (nos : List Nat) :
    Kept σ (assignSurfs p nos τ) := by
  unfold assignSurfs
  try dsimp only
  repeat' first
    | (with_reducible intro _; try dsimp only)
    | with_reducible assumption
    | with_reducible apply newSurf_kept
    | with_reducible apply openWindow_kept
    | with_reducible apply Kept.ite
    | with_reducible apply Kept.foldl

theorem assignCapSlots_kept {σ τ : State} (hk : Kept σ τ) (p : Plan) :
    Kept σ (assignCapSlots p τ) := by
  unfold assignCapSlots
  try dsimp only
  repeat' first
    | (with_reducible intro _; try dsimp only)
    | with_reducible assumption
    | with_reducible apply modCapSlot_kept
    | with_reducible apply modTrg_kept
    | with_reducible apply Kept.ite
    | with_reducible apply Kept.foldl

theorem reserve_kept {σ τ υ : State} (hk : Kept σ τ) {p : Plan} (h : reserve p τ = .ok υ) : Kept σ υ := by
  unfold reserve at h
  dsimp only at h
  repeat' first
    | (cases h; done)
    | split at h
  cases h
  repeat' first
    | (with_reducible intro _; try dsimp only)
    | with_reducible assumption
    | with_reducible apply assignCapSlots_kept
    | with_reducible apply assignSurfs_kept
    | with_reducible apply assignUnit_kept
    | with_reducible apply assignFront_kept
    | with_reducible apply routePlan_kept
    | with_reducible refine createRings_kept ?_ (by assumption)
    | with_reducible refine allocateAll_kept ?_ (by assumption)
    | with_reducible apply modPlan_kept
    | with_reducible apply Kept.foldl

theorem retune_kept {σ τ : State} (hk : Kept σ τ) (p : Plan) :
    Kept σ (retune p τ) := by
  unfold retune
  try dsimp only
  repeat' first
    | (with_reducible intro _; try dsimp only)
    | with_reducible assumption
    | with_reducible apply modTim_kept
    | with_reducible apply Kept.ite

theorem setWriters_kept {σ τ : State} (hk : Kept σ τ) (index : Nat) :
    Kept σ (setWriters index τ) := by
  unfold setWriters
  try dsimp only
  repeat' first
    | (with_reducible intro _; try dsimp only)
    | with_reducible assumption
    | with_reducible apply clearShare_kept
    | with_reducible apply modCap_kept
    | with_reducible apply Kept.ite
    | with_reducible apply Kept.foldl

theorem answerRestart_kept {σ τ : State} (hk : Kept σ τ) (p : Plan) :
    Kept σ (answerRestart p τ) := by
  unfold answerRestart
  try dsimp only
  repeat' first
    | (with_reducible intro _; try dsimp only)
    | with_reducible assumption
    | with_reducible apply completeDesc_kept
    | with_reducible apply Kept.foldl
    | split

theorem beginPlan_kept {σ τ : State} (hk : Kept σ τ) (id index : Nat) :
    Kept σ (beginPlan id index τ) := by
  unfold beginPlan
  try dsimp only
  repeat' first
    | (with_reducible intro _; try dsimp only)
    | with_reducible assumption
    | with_reducible apply answerRestart_kept
    | with_reducible apply setWriters_kept
    | with_reducible apply resumeExports_kept
    | with_reducible apply startStreams_kept
    | with_reducible apply armUnit_kept
    | with_reducible apply modPlan_kept
    | with_reducible apply tapsOf_kept
    | with_reducible apply startChain_kept
    | with_reducible apply completeBy_kept
    | with_reducible apply Kept.foldl
    | split

theorem beginDue_kept {σ τ : State} (hk : Kept σ τ) (n i : Nat) :
    Kept σ (beginDue n i τ) := by
  unfold beginDue
  try dsimp only
  repeat' first
    | (with_reducible intro _; try dsimp only)
    | with_reducible assumption
    | with_reducible apply beginPlan_kept
    | with_reducible apply Kept.ite
    | with_reducible apply Kept.foldl

theorem disarmPlan_kept {σ τ : State} (hk : Kept σ τ) (plan : Nat) :
    Kept σ (disarmPlan plan τ) := by
  unfold disarmPlan
  try dsimp only
  repeat' first
    | (with_reducible intro _; try dsimp only)
    | with_reducible assumption
    | with_reducible apply modUnit_kept
    | with_reducible apply modTrg_kept
    | with_reducible apply Kept.foldl

theorem haltPlan_kept {σ τ : State} (hk : Kept σ τ) (plan : Nat) :
    Kept σ (haltPlan plan τ) := by
  unfold haltPlan
  try dsimp only
  repeat' first
    | (with_reducible intro _; try dsimp only)
    | with_reducible assumption
    | with_reducible apply disarmPlan_kept
    | with_reducible apply pauseExports_kept
    | with_reducible apply flushMissed_kept
    | with_reducible apply endCapture_kept
    | with_reducible apply tapsOf_kept
    | with_reducible apply Kept.foldl

theorem releasePlan_kept {σ τ : State} (hk : Kept σ τ) (plan : Nat) :
    Kept σ (releasePlan plan τ) := by
  unfold releasePlan
  try dsimp only
  repeat' first
    | (with_reducible intro _; try dsimp only)
    | with_reducible assumption
    | with_reducible apply setWriters_kept
    | with_reducible apply routeDefaults_kept
    | with_reducible apply removeStreams_kept
    | with_reducible apply modUnit_kept
    | with_reducible apply releaseSurfs_kept
    | with_reducible apply freeAllocs_kept
    | with_reducible apply modTrg_kept
    | with_reducible apply modPlan_kept
    | with_reducible apply modSlot_kept
    | with_reducible apply modFront_kept
    | with_reducible apply Kept.ite
    | with_reducible apply Kept.foldl

theorem stopPlan_kept {σ τ : State} (hk : Kept σ τ) (plan : Nat) (stopper : Option (Nat × Nat)) :
    Kept σ (stopPlan plan stopper τ) := by
  unfold stopPlan
  try dsimp only
  repeat' first
    | with_reducible assumption
    | with_reducible apply haltPlan_kept
    | with_reducible apply setWriters_kept
    | with_reducible apply dropSwitches_kept
    | with_reducible apply finishStreams_kept
    | with_reducible apply stopSurfs_kept
    | with_reducible apply modPlan_kept

theorem finishStop_kept {σ τ : State} (hk : Kept σ τ) (plan : Nat) :
    Kept σ (finishStop plan τ) := by
  unfold finishStop
  try dsimp only
  repeat' first
    | with_reducible assumption
    | with_reducible apply releasePlan_kept
    | with_reducible apply drainPlan_kept
    | with_reducible apply completeBy_kept
    | with_reducible apply Kept.ite
    | split

theorem dropWaiting_kept {σ τ : State} (hk : Kept σ τ) (plan : Nat) (st : Status) (result1 : Nat) :
    Kept σ (dropWaiting plan st result1 τ) := by
  unfold dropWaiting
  try dsimp only
  repeat' first
    | with_reducible assumption
    | with_reducible apply releasePlan_kept
    | with_reducible apply completeBy_kept
    | split

theorem destroyPlan_kept {σ τ : State} (hk : Kept σ τ) (plan : Nat) (say : Bool) :
    Kept σ (destroyPlan plan say τ) := by
  unfold destroyPlan
  try dsimp only
  repeat' first
    | (with_reducible intro _; try dsimp only)
    | with_reducible assumption
    | with_reducible apply dropWaiting_kept
    | with_reducible apply releasePlan_kept
    | with_reducible apply haltPlan_kept
    | with_reducible apply beginClose_kept
    | with_reducible apply dropSwitches_kept
    | with_reducible apply dropPlanLayers_kept
    | with_reducible apply freeRings_kept
    | with_reducible apply modTrg_kept
    | with_reducible apply modDsp_kept
    | with_reducible apply completeBy_kept
    | with_reducible apply Kept.foldl
    | split
    | fail_if_no_progress (with_reducible refine Kept.mk ?_ rfl ?_ ?_ ?_ ?_ ?_ ?_ ?_ ?_ ?_ ?_) <;> try ((with_reducible refine (?_ : _ = _)); first | rfl | (split <;> rfl))

theorem restartGrid_kept {σ τ : State} (hk : Kept σ τ) (plan idx index : Nat) :
    Kept σ (restartGrid plan idx index τ) := by
  unfold restartGrid
  try dsimp only
  repeat' first
    | with_reducible assumption
    | with_reducible apply modX_kept
    | split

theorem pausePlan_kept {σ τ : State} (hk : Kept σ τ) (plan : Nat) :
    Kept σ (pausePlan plan τ) := by
  unfold pausePlan
  try dsimp only
  repeat' first
    | (with_reducible intro _; try dsimp only)
    | with_reducible assumption
    | with_reducible apply disarmPlan_kept
    | with_reducible apply setWriters_kept
    | with_reducible apply pauseExports_kept
    | with_reducible apply endCapture_kept
    | with_reducible apply modX_kept
    | with_reducible apply modPlan_kept
    | with_reducible apply Kept.foldl

theorem restartPaused_kept {σ τ : State} (hk : Kept σ τ) (plan index : Nat) :
    Kept σ (restartPaused plan index τ) := by
  unfold restartPaused
  try dsimp only
  repeat' first
    | with_reducible assumption
    | with_reducible apply beginPlan_kept
    | with_reducible apply modPlan_kept
    | with_reducible apply sendEvent_kept

theorem resumeWindow_kept {σ τ : State} (hk : Kept σ τ) (plan index : Nat) :
    Kept σ (resumeWindow plan index τ) := by
  unfold resumeWindow
  try dsimp only
  repeat' first
    | (with_reducible intro _; try dsimp only)
    | with_reducible assumption
    | with_reducible apply restartGrid_kept
    | with_reducible apply setWriters_kept
    | with_reducible apply resumeExports_kept
    | with_reducible apply armUnit_kept
    | with_reducible apply modPlan_kept
    | with_reducible apply startChain_kept
    | with_reducible apply Kept.foldl

theorem resumePlan_kept {σ τ : State} (hk : Kept σ τ) (plan index : Nat) :
    Kept σ (resumePlan plan index τ) := by
  unfold resumePlan
  try dsimp only
  repeat' first
    | with_reducible assumption
    | with_reducible apply resumeWindow_kept
    | with_reducible apply restartPaused_kept
    | with_reducible apply Kept.ite

theorem dutyStep_kept {σ τ : State} (hk : Kept σ τ) (plan i : Nat) :
    Kept σ (dutyStep plan i τ) := by
  unfold dutyStep
  try dsimp only
  repeat' first
    | with_reducible assumption
    | with_reducible apply resumePlan_kept
    | with_reducible apply pausePlan_kept
    | with_reducible apply modPlan_kept
    | with_reducible apply Kept.ite
    | split

theorem setDeviceTime_kept {σ τ : State} (hk : Kept σ τ) (v seconds : Nat) (edge : Bool) :
    Kept σ (setDeviceTime v seconds edge τ) := by
  unfold setDeviceTime
  try dsimp only
  repeat' first
    | (with_reducible intro _; try dsimp only)
    | with_reducible assumption
    | with_reducible apply modPlan_kept
    | with_reducible apply applySet_kept
    | with_reducible apply Kept.foldl
    | fail_if_no_progress (with_reducible refine Kept.mk ?_ rfl ?_ ?_ ?_ ?_ ?_ ?_ ?_ ?_ ?_ ?_) <;> try ((with_reducible refine (?_ : _ = _)); first | rfl | (split <;> rfl))

end Sys2Proof.Machine
end

