-- ==== Sys2Proof/Laws/Kept/Start.lean ====
section
/-!
SUPPORT. What the operations of Start.lean keep: the queue, and the legal fields of Safety.
-/

namespace Sys2Proof.Machine

theorem failDesc_kept {σ τ : State} (hk : Kept σ τ) (c sid : Nat) (st : Status) :
    Kept σ (failDesc c sid st τ) := by
  unfold failDesc
  try dsimp only
  repeat' first
    | with_reducible assumption
    | with_reducible apply completeDesc_kept

theorem busy_kept {σ τ : State} (hk : Kept σ τ) (c sid code : Nat) :
    Kept σ (busy c sid code τ) := by
  unfold busy
  try dsimp only
  repeat' first
    | with_reducible assumption
    | with_reducible apply completeDesc_kept

theorem beginPlanCreate_kept {σ τ : State} (hk : Kept σ τ) (c sid : Nat) (d : Desc) :
    Kept σ (beginPlanCreate c sid d τ) := by
  unfold beginPlanCreate
  try dsimp only
  repeat' first
    | with_reducible assumption
    | with_reducible apply failDesc_kept
    | with_reducible apply completeDesc_kept
    | with_reducible apply Kept.ite
    | split
    | fail_if_no_progress (with_reducible refine Kept.mk ?_ rfl ?_ ?_ ?_ ?_ ?_ ?_ ?_ ?_ ?_ ?_) <;> try ((with_reducible refine (?_ : _ = _)); first | rfl | (split <;> rfl))

theorem startFeed_kept {σ τ : State} (hk : Kept σ τ) (start : Nat) :
    Kept σ (startFeed start τ) := by
  unfold startFeed
  try dsimp only
  repeat' first
    | with_reducible assumption
    | with_reducible apply modFr_kept
    | with_reducible apply Kept.ite
    | split

theorem beginPlanStart_kept {σ τ : State} (hk : Kept σ τ) (c sid : Nat) (d : Desc) :
    Kept σ (beginPlanStart c sid d τ) := by
  unfold beginPlanStart
  try dsimp only
  repeat' first
    | with_reducible assumption
    | with_reducible apply startFeed_kept
    | with_reducible apply busy_kept
    | with_reducible apply failDesc_kept
    | with_reducible apply retune_kept
    | with_reducible refine reserve_kept ?_ (by assumption)
    | with_reducible apply modPlan_kept
    | with_reducible apply completeDesc_kept
    | with_reducible apply Kept.ite
    | split
    | fail_if_no_progress (with_reducible refine Kept.mk ?_ rfl ?_ ?_ ?_ ?_ ?_ ?_ ?_ ?_ ?_ ?_) <;> try ((with_reducible refine (?_ : _ = _)); first | rfl | (split <;> rfl))

end Sys2Proof.Machine
end

