-- ==== Sys2Proof/Laws/Kept/Modes.lean ====
section
/-!
SUPPORT. What the operations of Modes.lean keep: the queue, and the legal fields of Safety.
-/

namespace Sys2Proof.Machine

theorem modMode_kept {σ τ : State} (hk : Kept σ τ) (f : ModeSt → ModeSt) :
    Kept σ (modMode f τ) := by
  exact hk.same rfl rfl rfl rfl rfl rfl rfl rfl rfl rfl rfl

theorem startChange_kept {σ τ : State} (hk : Kept σ τ) (mode : Nat) (asker : Option (Nat × Nat)) :
    Kept σ (startChange mode asker τ) := by
  unfold startChange
  try dsimp only
  repeat' first
    | with_reducible assumption
    | with_reducible apply modMode_kept

theorem beginModeSet_kept {σ τ : State} (hk : Kept σ τ) (c sid : Nat) (d : Desc) :
    Kept σ (beginModeSet c sid d τ) := by
  unfold beginModeSet
  try dsimp only
  repeat' first
    | with_reducible assumption
    | with_reducible apply startChange_kept
    | with_reducible apply failDesc_kept
    | with_reducible apply completeDesc_kept
    | with_reducible apply Kept.ite

theorem settleLoads_kept {σ τ : State} (hk : Kept σ τ) (plan : Nat) :
    Kept σ (settleLoads plan τ) := by
  unfold settleLoads
  try dsimp only
  repeat' first
    | (with_reducible intro _; try dsimp only)
    | with_reducible assumption
    | with_reducible apply settleTable_kept
    | with_reducible apply modX_kept
    | with_reducible apply Kept.ite
    | with_reducible apply Kept.foldl
    | split

theorem drainOne_kept {σ τ : State} (hk : Kept σ τ) (plan : Nat) :
    Kept σ (drainOne plan τ) := by
  unfold drainOne
  try dsimp only
  repeat' first
    | with_reducible assumption
    | with_reducible apply settleLoads_kept
    | with_reducible apply haltPlan_kept
    | with_reducible apply removeStreams_kept
    | with_reducible apply finishStreams_kept
    | with_reducible apply clearSurfs_kept
    | with_reducible apply modPlan_kept

theorem setPhase_kept {σ τ : State} (hk : Kept σ τ) (ph : ChangePhase) :
    Kept σ (setPhase ph τ) := by
  unfold setPhase
  try dsimp only
  repeat' first
    | with_reducible assumption
    | with_reducible apply modMode_kept

theorem dropCaptures_kept {σ τ : State} (hk : Kept σ τ) (cause : Nat) (keep : Capture → Bool) :
    Kept σ (dropCaptures cause keep τ) := by
  unfold dropCaptures
  try dsimp only
  repeat' first
    | (with_reducible intro _; try dsimp only)
    | with_reducible assumption
    | with_reducible apply dropCapture_kept
    | with_reducible apply sendEvent_kept
    | with_reducible apply Kept.foldl

theorem changeDrain_kept {σ τ : State} (hk : Kept σ τ)  :
    Kept σ (changeDrain τ) := by
  unfold changeDrain
  try dsimp only
  repeat' first
    | (with_reducible intro _; try dsimp only)
    | with_reducible assumption
    | with_reducible apply drainOne_kept
    | with_reducible apply modMode_kept
    | with_reducible apply setWriters_kept
    | with_reducible apply modFr_kept
    | with_reducible apply Kept.ite
    | with_reducible apply Kept.foldl

theorem dropStaging_kept {σ τ : State} (hk : Kept σ τ)  :
    Kept σ (dropStaging τ) := by
  unfold dropStaging
  try dsimp only
  repeat' first
    | (with_reducible intro _; try dsimp only)
    | with_reducible assumption
    | with_reducible apply flushStamps_kept
    | with_reducible apply modTdc_kept
    | with_reducible apply Kept.ite
    | with_reducible apply Kept.foldl

theorem changeFlush_kept {σ τ : State} (hk : Kept σ τ)  :
    Kept σ (changeFlush τ) := by
  unfold changeFlush
  try dsimp only
  repeat' first
    | (with_reducible intro _; try dsimp only)
    | with_reducible assumption
    | with_reducible apply dropStaging_kept
    | with_reducible apply setPhase_kept
    | with_reducible apply drainPlan_kept
    | with_reducible apply Kept.ite
    | with_reducible apply Kept.foldl

theorem closeBindings_kept {σ τ : State} (hk : Kept σ τ)  :
    Kept σ (closeBindings τ) := by
  unfold closeBindings
  try dsimp only
  repeat' first
    | (with_reducible intro _; try dsimp only)
    | with_reducible assumption
    | with_reducible apply removeBinding_kept
    | with_reducible apply failMember_kept
    | with_reducible apply completeBy_kept
    | with_reducible apply Kept.ite
    | with_reducible apply Kept.foldl
    | split

theorem zeroScratch_kept {σ τ : State} (hk : Kept σ τ)  :
    Kept σ (zeroScratch τ) := by
  unfold zeroScratch
  try dsimp only
  repeat' first
    | (with_reducible intro _; try dsimp only)
    | with_reducible assumption
    | with_reducible apply modSpu_kept

theorem modeEndsKernels_kept {σ τ : State} (hk : Kept σ τ)  :
    Kept σ (modeEndsKernels τ) := by
  unfold modeEndsKernels
  try dsimp only
  repeat' first
    | (with_reducible intro _; try dsimp only)
    | with_reducible assumption
    | with_reducible apply modSpu_kept
    | with_reducible apply Kept.ite

theorem takeBundle_kept {σ τ : State} (hk : Kept σ τ)  :
    Kept σ (takeBundle τ) := by
  unfold takeBundle
  try dsimp only
  repeat' first
    | with_reducible assumption
    | with_reducible apply freeAllocs_kept
    | with_reducible apply modFr_kept
    | split
    | fail_if_no_progress (with_reducible refine Kept.mk ?_ rfl ?_ ?_ ?_ ?_ ?_ ?_ ?_ ?_ ?_ ?_) <;> try ((with_reducible refine (?_ : _ = _)); first | rfl | (split <;> rfl))

theorem changeRepartition_kept {σ τ : State} (hk : Kept σ τ)  :
    Kept σ (changeRepartition τ) := by
  unfold changeRepartition
  try dsimp only
  repeat' first
    | with_reducible assumption
    | with_reducible apply takeBundle_kept
    | with_reducible apply modeEndsKernels_kept
    | with_reducible apply zeroScratch_kept
    | with_reducible apply closeBindings_kept
    | with_reducible apply setPhase_kept
    | with_reducible apply modMode_kept
    | with_reducible apply Kept.ite

theorem restartPlan_kept {σ τ : State} (hk : Kept σ τ) (p : Plan) (ran : Bool) :
    Kept σ (restartPlan p ran τ) := by
  unfold restartPlan
  try dsimp only
  repeat' first
    | (with_reducible intro _; try dsimp only)
    | with_reducible assumption
    | with_reducible apply retune_kept
    | with_reducible apply assignCapSlots_kept
    | with_reducible refine createRings_kept ?_ (by assumption)
    | with_reducible apply modUnit_kept
    | with_reducible apply clearSurfs_kept
    | with_reducible apply modPlan_kept
    | with_reducible apply modSlot_kept
    | with_reducible apply modFront_kept
    | with_reducible apply sendEvent_kept
    | with_reducible apply Kept.ite
    | with_reducible apply Kept.foldl
    | split

theorem stopAtRecheck_kept {σ τ : State} (hk : Kept σ τ) (p : Plan) (ran : Bool) (why : Status) :
    Kept σ (stopAtRecheck p ran why τ) := by
  unfold stopAtRecheck
  try dsimp only
  repeat' first
    | (with_reducible intro _; try dsimp only)
    | with_reducible assumption
    | with_reducible apply releasePlan_kept
    | with_reducible apply beginClose_kept
    | with_reducible apply completeBy_kept
    | with_reducible apply completeDesc_kept
    | with_reducible apply sendEvent_kept
    | with_reducible apply Kept.ite
    | with_reducible apply Kept.foldl

theorem changeRecheck_kept {σ τ : State} (hk : Kept σ τ)  :
    Kept σ (changeRecheck τ) := by
  unfold changeRecheck
  try dsimp only
  repeat' first
    | (with_reducible intro _; try dsimp only)
    | with_reducible assumption
    | with_reducible apply stopAtRecheck_kept
    | with_reducible apply restartPlan_kept
    | with_reducible apply setPhase_kept
    | with_reducible apply routeDefaults_kept
    | with_reducible apply Kept.foldl
    | split
    | fail_if_no_progress (with_reducible refine Kept.mk ?_ rfl ?_ ?_ ?_ ?_ ?_ ?_ ?_ ?_ ?_ ?_) <;> try ((with_reducible refine (?_ : _ = _)); first | rfl | (split <;> rfl))

theorem journalMode_kept {σ τ : State} (hk : Kept σ τ)  :
    Kept σ (journalMode τ) := by
  unfold journalMode
  try dsimp only
  repeat' first
    | with_reducible assumption
    | with_reducible apply journal_kept

theorem changeDone_kept {σ τ : State} (hk : Kept σ τ)  :
    Kept σ (changeDone τ) := by
  unfold changeDone
  try dsimp only
  repeat' first
    | with_reducible assumption
    | with_reducible apply journalMode_kept
    | with_reducible apply modMode_kept
    | with_reducible apply completeBy_kept
    | with_reducible apply sendAll_kept

theorem primerMode_kept {σ τ : State} (hk : Kept σ τ) (named : Nat) :
    Kept σ (primerMode named τ) := by
  unfold primerMode
  try dsimp only
  repeat' first
    | with_reducible assumption
    | with_reducible apply modMode_kept

theorem dropBacking_kept {σ τ : State} (hk : Kept σ τ)  :
    Kept σ (dropBacking τ) := by
  unfold dropBacking
  try dsimp only
  repeat' first
    | with_reducible assumption
    | with_reducible apply freeAllocs_kept
    | with_reducible apply modFr_kept
    | with_reducible apply modTrg_kept
    | with_reducible apply modHost_kept

theorem abortLoads_kept {σ τ : State} (hk : Kept σ τ)  :
    Kept σ (abortLoads τ) := by
  unfold abortLoads
  try dsimp only
  repeat' first
    | (with_reducible intro _; try dsimp only)
    | with_reducible assumption
    | with_reducible apply failDesc_kept
    | with_reducible apply Kept.foldl
    | split

theorem rebuildMemory_kept {σ τ : State} (hk : Kept σ τ) : Kept σ (rebuildMemory τ) := by
  unfold rebuildMemory
  dsimp only
  refine Kept.legal (τ := dropBacking (abortLoads (dropCaptures 2 (fun _ => false) τ))) ?_ rfl fun k => ⟨rfl, k.2⟩
  repeat' first
    | with_reducible assumption
    | with_reducible apply abortLoads_kept
    | with_reducible apply dropBacking_kept
    | with_reducible apply dropCaptures_kept

theorem beginRebuild_kept {σ τ : State} (hk : Kept σ τ)  :
    Kept σ (beginRebuild τ) := by
  unfold beginRebuild
  try dsimp only
  repeat' first
    | with_reducible assumption
    | with_reducible apply startChange_kept
    | split

end Sys2Proof.Machine
end

