-- ==== Sys2Proof/Laws/Kept/Context.lean ====
section
/-!
SUPPORT. What the operations of Context.lean keep: the queue, and the legal fields of Safety.
-/

namespace Sys2Proof.Machine

theorem admitCtx_kept {σ τ : State} (hk : Kept σ τ) (f : Nat) (r : AttachReq) :
    Kept σ ((admitCtx f r τ).2) := by
  unfold admitCtx
  try dsimp only
  repeat' first
    | (with_reducible intro _; try dsimp only)
    | with_reducible assumption
    | with_reducible apply sendAdmin_kept
    | with_reducible apply modHost_kept
    | with_reducible apply Kept.foldl
    | split
    | fail_if_no_progress (with_reducible refine Kept.mk ?_ rfl ?_ ?_ ?_ ?_ ?_ ?_ ?_ ?_ ?_ ?_) <;> try ((with_reducible refine (?_ : _ = _)); first | rfl | (split <;> rfl))

theorem countRefusal_kept {σ τ : State} (hk : Kept σ τ)  :
    Kept σ (countRefusal τ) := by
  unfold countRefusal
  try dsimp only
  repeat' first
    | with_reducible assumption
    | with_reducible apply modHost_kept

theorem reportAttach_kept {σ τ : State} (hk : Kept σ τ) (f state ctx reason : Nat) :
    Kept σ (reportAttach f state ctx reason τ) := by
  unfold reportAttach
  try dsimp only
  repeat' first
    | with_reducible assumption
    | with_reducible apply modFn_kept

theorem decideAttach_kept {σ τ : State} (hk : Kept σ τ) (f : Nat) :
    Kept σ (decideAttach f τ) := by
  unfold decideAttach
  try dsimp only
  repeat' first
    | with_reducible assumption
    | with_reducible apply reportAttach_kept
    | with_reducible apply countRefusal_kept
    | with_reducible apply admitCtx_kept
    | with_reducible apply modFn_kept
    | with_reducible apply Kept.ite
    | split

theorem attach_kept {σ τ : State} (hk : Kept σ τ) (f : Nat) :
    Kept σ (attach f τ) := by
  unfold attach
  try dsimp only
  repeat' first
    | with_reducible assumption
    | with_reducible apply decideAttach_kept
    | with_reducible apply Kept.ite
    | split

theorem decideHeld_kept {σ τ : State} (hk : Kept σ τ)  :
    Kept σ (decideHeld τ) := by
  unfold decideHeld
  try dsimp only
  repeat' first
    | (with_reducible intro _; try dsimp only)
    | with_reducible assumption
    | with_reducible apply decideAttach_kept
    | with_reducible apply Kept.ite
    | with_reducible apply Kept.foldl

theorem beginContextCreate_kept {σ τ : State} (hk : Kept σ τ) (c sid : Nat) (d : Desc) :
    Kept σ (beginContextCreate c sid d τ) := by
  unfold beginContextCreate
  try dsimp only
  repeat' first
    | with_reducible assumption
    | with_reducible apply countRefusal_kept
    | with_reducible apply admitCtx_kept
    | with_reducible apply completeDesc_kept
    | split

theorem beginRingCreate_kept {σ τ : State} (hk : Kept σ τ) (c sid : Nat) (d : Desc) :
    Kept σ (beginRingCreate c sid d τ) := by
  unfold beginRingCreate
  try dsimp only
  repeat' first
    | with_reducible assumption
    | with_reducible apply modStream_kept
    | with_reducible apply completeDesc_kept
    | with_reducible apply modCtx_kept
    | with_reducible apply modHost_kept
    | with_reducible apply Kept.ite

theorem onWritten_kept {σ τ : State} (hk : Kept σ τ) (c sid r0 r1 : Nat) :
    Kept σ (onWritten c sid r0 r1 τ) := by
  unfold onWritten
  try dsimp only
  repeat' first
    | with_reducible assumption
    | with_reducible apply modCtx_kept

theorem leaveGroup_kept {σ τ : State} (hk : Kept σ τ) (c r : Nat) :
    Kept σ (leaveGroup c r τ) := by
  unfold leaveGroup
  try dsimp only
  repeat' first
    | with_reducible assumption
    | with_reducible apply modStream_kept
    | with_reducible apply modHost_kept
    | split

theorem freeRing_kept {σ τ : State} (hk : Kept σ τ) (c r : Nat) :
    Kept σ (freeRing c r τ) := by
  unfold freeRing
  try dsimp only
  repeat' first
    | with_reducible assumption
    | with_reducible apply leaveGroup_kept
    | with_reducible apply modCtx_kept

theorem beginRingDestroy_kept {σ τ : State} (hk : Kept σ τ) (c sid : Nat) (d : Desc) :
    Kept σ (beginRingDestroy c sid d τ) := by
  unfold beginRingDestroy
  try dsimp only
  repeat' first
    | with_reducible assumption
    | with_reducible apply onWritten_kept
    | with_reducible apply busy_kept
    | with_reducible apply failDesc_kept
    | with_reducible apply formSeal_kept
    | with_reducible apply nameDrops_kept
    | with_reducible apply modStream_kept
    | with_reducible apply Kept.ite
    | split

theorem beginAttestBind_kept {σ τ : State} (hk : Kept σ τ) (c sid : Nat) (d : Desc) :
    Kept σ (beginAttestBind c sid d τ) := by
  unfold beginAttestBind
  try dsimp only
  repeat' first
    | with_reducible assumption
    | with_reducible apply busy_kept
    | with_reducible apply failDesc_kept
    | with_reducible apply modStream_kept
    | with_reducible apply Kept.ite
    | split

theorem badDoorbell_kept {σ τ : State} (hk : Kept σ τ) (f page off v : Nat) :
    Kept σ (badDoorbell f page off v τ) := by
  unfold badDoorbell
  try dsimp only
  repeat' first
    | with_reducible assumption
    | with_reducible apply sendEvent_kept
    | with_reducible apply modCtx_kept
    | with_reducible apply modFn_kept
    | with_reducible apply Kept.ite
    | split

theorem dbCmd_kept {σ τ : State} (hk : Kept σ τ) (f page v : Nat) :
    Kept σ (dbCmd f page v τ) := by
  unfold dbCmd
  try dsimp only
  repeat' first
    | with_reducible assumption
    | with_reducible apply badDoorbell_kept
    | with_reducible apply modCtx_kept
    | with_reducible apply Kept.ite
    | split

theorem dbCpl_kept {σ τ : State} (hk : Kept σ τ) (f page v : Nat) :
    Kept σ (dbCpl f page v τ) := by
  unfold dbCpl
  try dsimp only
  repeat' first
    | with_reducible assumption
    | with_reducible apply badDoorbell_kept
    | with_reducible apply drainHeld_kept
    | with_reducible apply signalIfDue_kept
    | with_reducible apply modCtx_kept
    | with_reducible apply Kept.ite
    | split

theorem dbEvt_kept {σ τ : State} (hk : Kept σ τ) (f page v : Nat) :
    Kept σ (dbEvt f page v τ) := by
  unfold dbEvt
  try dsimp only
  repeat' first
    | with_reducible assumption
    | with_reducible apply badDoorbell_kept
    | with_reducible apply reportLostEvents_kept
    | with_reducible apply signalIfDue_kept
    | with_reducible apply modCtx_kept
    | with_reducible apply Kept.ite
    | split

theorem dbData_kept {σ τ : State} (hk : Kept σ τ) (f page r v : Nat) :
    Kept σ (dbData f page r v τ) := by
  unfold dbData
  try dsimp only
  repeat' first
    | with_reducible assumption
    | with_reducible apply badDoorbell_kept
    | with_reducible apply creditStream_kept
    | with_reducible apply signalIfDue_kept
    | with_reducible apply modRing_kept
    | with_reducible apply Kept.ite
    | split

theorem heartbeat_kept {σ τ : State} (hk : Kept σ τ) (safe : Bool) :
    Kept σ (heartbeat safe τ) := by
  unfold heartbeat
  try dsimp only
  repeat' first
    | (with_reducible intro _; try dsimp only)
    | with_reducible assumption
    | with_reducible apply modCtx_kept
    | with_reducible apply emit_kept
    | with_reducible apply Kept.ite
    | with_reducible apply Kept.foldl

end Sys2Proof.Machine
end

