-- ==== Sys2Proof/Laws/Kept/Kernel.lean ====
section
/-!
SUPPORT. What the operations of Kernel.lean keep: the queue, and the legal fields of Safety.
-/

namespace Sys2Proof.Machine

theorem beginSpuLoad_kept {σ τ : State} (hk : Kept σ τ) (c sid : Nat) (d : Desc) :
    Kept σ (beginSpuLoad c sid d τ) := by
  unfold beginSpuLoad
  try dsimp only
  repeat' first
    | with_reducible assumption
    | with_reducible apply busy_kept
    | with_reducible apply failDesc_kept
    | with_reducible apply freeAllocs_kept
    | with_reducible refine allocate_snd_kept ?_ (by assumption)
    | with_reducible apply completeDesc_kept
    | with_reducible apply modCtx_kept
    | with_reducible apply Kept.ite
    | split

theorem launch_kept {σ τ υ : State} (hk : Kept σ τ) {k0 : Kernel} {img b : Block} {ranges : List SpuWindow} {taps : List Tap} (h : launch k0 img b ranges taps τ = .ok υ) : Kept σ υ := by
  unfold launch at h
  dsimp only at h
  repeat' first
    | (cases h; done)
    | split at h
  cases h
  repeat' first
    | (with_reducible intro _; try dsimp only)
    | with_reducible assumption
    | with_reducible refine allocateAll_kept ?_ (by assumption)
    | with_reducible apply modLsu_kept
    | with_reducible apply modSpu_kept
    | with_reducible apply Kept.foldl

theorem beginSpuLaunch_kept {σ τ : State} (hk : Kept σ τ) (c sid : Nat) (d : Desc) :
    Kept σ (beginSpuLaunch c sid d τ) := by
  unfold beginSpuLaunch
  try dsimp only
  repeat' first
    | with_reducible assumption
    | with_reducible refine launch_kept ?_ (by assumption)
    | with_reducible apply busy_kept
    | with_reducible apply failDesc_kept
    | with_reducible apply completeDesc_kept
    | with_reducible apply Kept.ite
    | split

theorem modKernel_kept {σ τ : State} (hk : Kept σ τ) (k : Nat) (f : Kernel → Kernel) :
    Kept σ (modKernel k f τ) := by
  exact hk.same rfl rfl rfl rfl rfl rfl rfl rfl rfl rfl rfl

theorem answerStops_kept {σ τ : State} (hk : Kept σ τ) (k inst : Nat) :
    Kept σ (answerStops k inst τ) := by
  unfold answerStops
  try dsimp only
  repeat' first
    | (with_reducible intro _; try dsimp only)
    | with_reducible assumption
    | with_reducible apply modKernel_kept
    | with_reducible apply failDesc_kept
    | with_reducible apply Kept.foldl
    | split

theorem releaseKernel_kept {σ τ : State} (hk : Kept σ τ) (k : Nat) :
    Kept σ (releaseKernel k τ) := by
  unfold releaseKernel
  try dsimp only
  repeat' first
    | (with_reducible intro _; try dsimp only)
    | with_reducible assumption
    | with_reducible apply freeAllocs_kept
    | with_reducible apply modSpu_kept
    | with_reducible apply Kept.ite

theorem endInstance_kept {σ τ : State} (hk : Kept σ τ) (n reason exit fault : Nat) :
    Kept σ (endInstance n reason exit fault τ) := by
  unfold endInstance
  try dsimp only
  repeat' first
    | with_reducible assumption
    | with_reducible apply releaseKernel_kept
    | with_reducible apply answerStops_kept
    | with_reducible apply modLsu_kept
    | with_reducible apply sendEvent_kept
    | split

theorem beginSpuSignal_kept {σ τ : State} (hk : Kept σ τ) (c sid : Nat) (d : Desc) :
    Kept σ (beginSpuSignal c sid d τ) := by
  unfold beginSpuSignal
  try dsimp only
  repeat' first
    | (with_reducible intro _; try dsimp only)
    | with_reducible assumption
    | with_reducible apply busy_kept
    | with_reducible apply failDesc_kept
    | with_reducible apply modLsu_kept
    | with_reducible apply Kept.ite
    | with_reducible apply Kept.foldl
    | split

theorem beginSpuStop_kept {σ τ : State} (hk : Kept σ τ) (c sid : Nat) (d : Desc) :
    Kept σ (beginSpuStop c sid d τ) := by
  unfold beginSpuStop
  try dsimp only
  repeat' first
    | (with_reducible intro _; try dsimp only)
    | with_reducible assumption
    | with_reducible apply modKernel_kept
    | with_reducible apply failDesc_kept
    | with_reducible apply modLsu_kept
    | with_reducible apply Kept.ite
    | with_reducible apply Kept.foldl
    | split

theorem stopTakes_kept {σ τ : State} (hk : Kept σ τ) (n : Nat) :
    Kept σ (stopTakes n τ) := by
  unfold stopTakes
  try dsimp only
  repeat' first
    | with_reducible assumption
    | with_reducible apply endInstance_kept
    | with_reducible apply Kept.ite
    | split

theorem haltTakes_kept {σ τ : State} (hk : Kept σ τ) (n : Nat) :
    Kept σ (haltTakes n τ) := by
  unfold haltTakes
  try dsimp only
  repeat' first
    | with_reducible assumption
    | with_reducible apply endInstance_kept
    | with_reducible apply Kept.ite
    | split

theorem dmaRow_kept {σ τ : State} (hk : Kept σ τ) (n : Nat) (d : DmaDesc) (w : Nat × Nat × Nat) (i : Nat) :
    Kept σ (dmaRow n d w i τ) := by
  unfold dmaRow
  try dsimp only
  repeat' first
    | with_reducible assumption
    | with_reducible apply dramWrite_kept
    | with_reducible apply dramRead_kept
    | with_reducible apply modLsu_kept
    | with_reducible apply Kept.ite
    | split

theorem dmaComplete_kept {σ τ : State} (hk : Kept σ τ) (n q : Nat) :
    Kept σ (dmaComplete n q τ) := by
  unfold dmaComplete
  try dsimp only
  repeat' first
    | (with_reducible intro _; try dsimp only)
    | with_reducible assumption
    | with_reducible apply dmaRow_kept
    | with_reducible apply haltTakes_kept
    | with_reducible apply endInstance_kept
    | with_reducible apply modLsu_kept
    | with_reducible apply Kept.ite
    | with_reducible apply Kept.foldl
    | split

theorem emitReadout_kept {σ τ : State} (hk : Kept σ τ) (n : Nat) :
    Kept σ (emitReadout n τ) := by
  unfold emitReadout
  try dsimp only
  repeat' first
    | with_reducible assumption
    | with_reducible apply haltTakes_kept
    | with_reducible apply modLsu_kept
    | with_reducible apply recordOn_kept
    | split

end Sys2Proof.Machine
end

