-- ==== Sys2Proof/Laws/Kept/Loads.lean ====
section
/-!
SUPPORT. What the operations of Loads.lean keep: the queue, and the legal fields of Safety.
-/

namespace Sys2Proof.Machine

theorem switchTable_kept {σ τ : State} (hk : Kept σ τ) (h : Nat) (coef : List Nat) (asker : Nat × Nat) (x : XStream) :
    Kept σ (switchTable h coef asker x τ) := by
  unfold switchTable
  try dsimp only
  repeat' first
    | with_reducible assumption
    | with_reducible apply modX_kept

theorem beginWindowTable_kept {σ τ : State} (hk : Kept σ τ) (c sid : Nat) (d : Desc) :
    Kept σ (beginWindowTable c sid d τ) := by
  unfold beginWindowTable
  try dsimp only
  repeat' first
    | (with_reducible intro _; try dsimp only)
    | with_reducible assumption
    | with_reducible apply switchTable_kept
    | with_reducible apply busy_kept
    | with_reducible apply failDesc_kept
    | with_reducible apply settleTable_kept
    | with_reducible apply freeAllocs_kept
    | with_reducible refine allocate_snd_kept ?_ (by assumption)
    | with_reducible apply completeDesc_kept
    | with_reducible apply modCtx_kept
    | with_reducible apply Kept.ite
    | with_reducible apply Kept.foldl
    | split

theorem beginWindowDrop_kept {σ τ : State} (hk : Kept σ τ) (c sid : Nat) (d : Desc) :
    Kept σ (beginWindowDrop c sid d τ) := by
  unfold beginWindowDrop
  try dsimp only
  repeat' first
    | with_reducible assumption
    | with_reducible apply busy_kept
    | with_reducible apply failDesc_kept
    | with_reducible apply freeAllocs_kept
    | with_reducible apply modCtx_kept
    | with_reducible apply Kept.ite

theorem supersedeSwitch_kept {σ τ : State} (hk : Kept σ τ) (x : XStream) :
    Kept σ (supersedeSwitch x τ) := by
  unfold supersedeSwitch
  try dsimp only
  repeat' first
    | with_reducible assumption
    | with_reducible apply failDesc_kept
    | with_reducible apply modX_kept
    | with_reducible apply Kept.ite
    | split

theorem askSwitch_kept {σ τ : State} (hk : Kept σ τ) (x : XStream) (cfg : XCfg) (asker : Nat × Nat) :
    Kept σ (askSwitch x cfg asker τ) := by
  unfold askSwitch
  try dsimp only
  repeat' first
    | with_reducible assumption
    | with_reducible apply modX_kept

theorem beginReconfigure_kept {σ τ : State} (hk : Kept σ τ) (c sid : Nat) (d : Desc) :
    Kept σ (beginReconfigure c sid d τ) := by
  unfold beginReconfigure
  try dsimp only
  repeat' first
    | with_reducible assumption
    | with_reducible apply askSwitch_kept
    | with_reducible apply supersedeSwitch_kept
    | with_reducible apply failDesc_kept
    | with_reducible apply modX_kept
    | with_reducible apply completeDesc_kept
    | with_reducible apply Kept.ite
    | split

theorem dropMask_kept {σ τ : State} (hk : Kept σ τ) (c h : Nat) :
    Kept σ (dropMask c h τ) := by
  unfold dropMask
  try dsimp only
  repeat' first
    | with_reducible assumption
    | with_reducible apply freeAllocs_kept
    | with_reducible apply modTrg_kept

theorem beginMaskLoad_kept {σ τ : State} (hk : Kept σ τ) (c sid : Nat) (d : Desc) :
    Kept σ (beginMaskLoad c sid d τ) := by
  unfold beginMaskLoad
  try dsimp only
  repeat' first
    | with_reducible assumption
    | with_reducible apply dropMask_kept
    | with_reducible apply busy_kept
    | with_reducible apply failDesc_kept
    | with_reducible apply modMask_kept
    | with_reducible refine allocate_snd_kept ?_ (by assumption)
    | with_reducible apply modTrg_kept
    | with_reducible apply completeDesc_kept
    | with_reducible apply Kept.ite
    | split

theorem beginMaskDrop_kept {σ τ : State} (hk : Kept σ τ) (c sid : Nat) (d : Desc) :
    Kept σ (beginMaskDrop c sid d τ) := by
  unfold beginMaskDrop
  try dsimp only
  repeat' first
    | with_reducible assumption
    | with_reducible apply dropMask_kept
    | with_reducible apply busy_kept
    | with_reducible apply failDesc_kept
    | with_reducible apply Kept.ite

theorem armAgain_kept {σ τ : State} (hk : Kept σ τ) (n : Nat) :
    Kept σ (armAgain n τ) := by
  unfold armAgain
  try dsimp only
  repeat' first
    | with_reducible assumption
    | with_reducible apply armUnit_kept
    | with_reducible apply modUnit_kept
    | with_reducible apply modTrg_kept
    | with_reducible apply Kept.ite

theorem beginArming_kept {σ τ : State} (hk : Kept σ τ) (c sid : Nat) (d : Desc) (f : Nat → State → State) (hf : ∀ x u, Kept σ u → Kept σ (f x u)) :
    Kept σ (beginArming c sid d f τ) := by
  unfold beginArming
  try dsimp only
  repeat' first
    | (with_reducible intro _; try dsimp only)
    | with_reducible assumption
    | with_reducible apply hf
    | with_reducible apply failDesc_kept
    | with_reducible apply completeDesc_kept
    | with_reducible apply Kept.ite
    | with_reducible apply Kept.foldl
    | split

theorem disarmUnit_kept {σ τ : State} (hk : Kept σ τ) (n : Nat) :
    Kept σ (disarmUnit n τ) := by
  unfold disarmUnit
  try dsimp only
  repeat' first
    | with_reducible assumption
    | with_reducible apply modUnit_kept

theorem writeRead_kept {σ τ : State} (hk : Kept σ τ) (c sid ring : Nat) (l : List (Nat × Nat × List Fld × Nat × Nat)) :
    Kept σ (writeRead c sid ring l τ) := by
  unfold writeRead
  try dsimp only
  repeat' first
    | (with_reducible intro _; try dsimp only)
    | with_reducible assumption
    | with_reducible apply onWritten_kept
    | with_reducible apply formWaiting_kept
    | with_reducible apply Kept.foldl
    | split

theorem reportPoison_kept {σ τ : State} (hk : Kept σ τ) (c : Nat) (r : CapRing) (first count : Nat) :
    Kept σ (reportPoison c r first count τ) := by
  unfold reportPoison
  try dsimp only
  repeat' first
    | (with_reducible intro _; try dsimp only)
    | with_reducible assumption
    | with_reducible apply dramUncorrectable_kept
    | with_reducible apply Kept.foldl

theorem beginCaptureSegments_kept {σ τ : State} (hk : Kept σ τ) (c sid : Nat) (d : Desc) :
    Kept σ (beginCaptureSegments c sid d τ) := by
  unfold beginCaptureSegments
  try dsimp only
  repeat' first
    | (with_reducible intro _; try dsimp only)
    | with_reducible assumption
    | with_reducible apply reportPoison_kept
    | with_reducible apply writeRead_kept
    | with_reducible apply failDesc_kept
    | with_reducible apply completeDesc_kept
    | with_reducible apply Kept.ite
    | with_reducible apply Kept.foldl
    | split

theorem beginCaptureWords_kept {σ τ : State} (hk : Kept σ τ) (c sid : Nat) (d : Desc) :
    Kept σ (beginCaptureWords c sid d τ) := by
  unfold beginCaptureWords
  try dsimp only
  repeat' first
    | with_reducible assumption
    | with_reducible apply reportPoison_kept
    | with_reducible apply writeRead_kept
    | with_reducible apply failDesc_kept
    | with_reducible apply modCap_kept
    | with_reducible apply completeDesc_kept
    | with_reducible apply Kept.ite
    | split

theorem beginCaptureRelease_kept {σ τ : State} (hk : Kept σ τ) (c sid : Nat) (d : Desc) :
    Kept σ (beginCaptureRelease c sid d τ) := by
  unfold beginCaptureRelease
  try dsimp only
  repeat' first
    | with_reducible assumption
    | with_reducible apply failDesc_kept
    | with_reducible apply dropCapture_kept
    | with_reducible apply endCapture_kept
    | with_reducible apply completeDesc_kept
    | with_reducible apply Kept.ite
    | split

end Sys2Proof.Machine
end

