-- ==== Sys2Proof/Laws/Kept/Outputs.lean ====
section
/-!
SUPPORT. What the operations of Outputs.lean keep: the queue, and the legal fields of Safety.
-/

namespace Sys2Proof.Machine

theorem displayArea_kept {σ τ υ : State} (hk : Kept σ τ) {o size base : Nat} (h : displayArea o size τ = some (base, υ)) : Kept σ υ := by
  unfold displayArea at h
  dsimp only at h
  split at h
  · cases h; exact hk
  · obtain ⟨p, e, g⟩ := Option.map_eq_some_iff.1 h
    cases g
    refine openWindow_kept (allocate_kept ?_ e) _ _
    repeat' first
      | with_reducible assumption
      | with_reducible apply closeWindow_kept
      | with_reducible apply freeAllocs_kept
      | with_reducible apply Kept.ite

theorem beginDisplayOutput_kept {σ τ : State} (hk : Kept σ τ) (c sid : Nat) (d : Desc) :
    Kept σ (beginDisplayOutput c sid d τ) := by
  unfold beginDisplayOutput
  try dsimp only
  repeat' first
    | (with_reducible intro _; try dsimp only)
    | with_reducible assumption
    | with_reducible refine displayArea_kept ?_ (by assumption)
    | with_reducible apply busy_kept
    | with_reducible apply failDesc_kept
    | with_reducible apply stopLayer_kept
    | with_reducible apply supersedeFlips_kept
    | with_reducible apply modOut_kept
    | with_reducible apply completeDesc_kept
    | with_reducible apply Kept.ite
    | with_reducible apply Kept.foldl
    | split

theorem beginDisplayLayer_kept {σ τ : State} (hk : Kept σ τ) (c sid : Nat) (d : Desc) :
    Kept σ (beginDisplayLayer c sid d τ) := by
  unfold beginDisplayLayer
  try dsimp only
  repeat' first
    | with_reducible assumption
    | with_reducible apply busy_kept
    | with_reducible apply failDesc_kept
    | with_reducible apply stopLayer_kept
    | with_reducible apply modLayer_kept
    | with_reducible apply completeDesc_kept
    | with_reducible apply Kept.ite
    | split

theorem beginLutLoad_kept {σ τ : State} (hk : Kept σ τ) (c sid : Nat) (d : Desc) :
    Kept σ (beginLutLoad c sid d τ) := by
  unfold beginLutLoad
  try dsimp only
  repeat' first
    | with_reducible assumption
    | with_reducible apply failDesc_kept
    | with_reducible apply modSurf_kept
    | with_reducible apply completeDesc_kept
    | split

theorem beginPanelCmd_kept {σ τ : State} (hk : Kept σ τ) (c sid : Nat) (d : Desc) :
    Kept σ (beginPanelCmd c sid d τ) := by
  unfold beginPanelCmd
  try dsimp only
  repeat' first
    | with_reducible assumption
    | with_reducible apply failDesc_kept
    | with_reducible apply modOut_kept
    | with_reducible apply completeDesc_kept
    | with_reducible apply emit_kept
    | with_reducible apply Kept.ite
    | split

theorem beginLayerOff_kept {σ τ : State} (hk : Kept σ τ) (c sid : Nat) (d : Desc) :
    Kept σ (beginLayerOff c sid d τ) := by
  unfold beginLayerOff
  try dsimp only
  repeat' first
    | with_reducible assumption
    | with_reducible apply failDesc_kept
    | with_reducible apply stopLayer_kept
    | with_reducible apply completeDesc_kept
    | split

theorem beginOutputOff_kept {σ τ : State} (hk : Kept σ τ) (c sid : Nat) (d : Desc) :
    Kept σ (beginOutputOff c sid d τ) := by
  unfold beginOutputOff
  try dsimp only
  repeat' first
    | with_reducible assumption
    | with_reducible apply failDesc_kept
    | with_reducible apply disableOutput_kept
    | with_reducible apply completeDesc_kept
    | split

theorem supersedeMask_kept {σ τ : State} (hk : Kept σ τ) (o mask : Nat) :
    Kept σ (supersedeMask o mask τ) := by
  unfold supersedeMask
  try dsimp only
  repeat' first
    | (with_reducible intro _; try dsimp only)
    | with_reducible assumption
    | with_reducible apply sendRelease_kept
    | with_reducible apply modLayer_kept
    | with_reducible apply modOut_kept
    | with_reducible apply completeBy_kept
    | with_reducible apply Kept.foldl
    | split

theorem beginFlip_kept {σ τ : State} (hk : Kept σ τ) (c sid : Nat) (d : Desc) :
    Kept σ (beginFlip c sid d τ) := by
  unfold beginFlip
  try dsimp only
  repeat' first
    | (with_reducible intro _; try dsimp only)
    | with_reducible assumption
    | with_reducible apply supersedeMask_kept
    | with_reducible apply modLayer_kept
    | with_reducible apply modOut_kept
    | with_reducible apply completeDesc_kept
    | with_reducible apply Kept.foldl
    | split

end Sys2Proof.Machine
end

