-- ==== Sys2Proof/Laws/Kept/Streams.lean ====
section
/-!
SUPPORT. What the operations of Streams.lean keep: the queue, and the legal fields of Safety.
-/

namespace Sys2Proof.Machine

theorem beginStreamOpen_kept {σ τ : State} (hk : Kept σ τ) (c sid : Nat) (disk : Bool) (d : Desc) :
    Kept σ (beginStreamOpen c sid disk d τ) := by
  unfold beginStreamOpen
  try dsimp only
  repeat' first
    | with_reducible assumption
    | with_reducible apply busy_kept
    | with_reducible apply failDesc_kept
    | with_reducible apply modDisk_kept
    | with_reducible apply completeDesc_kept
    | with_reducible apply modHost_kept
    | with_reducible apply Kept.ite
    | split

theorem beginStreamClose_kept {σ τ : State} (hk : Kept σ τ) (c sid : Nat) (d : Desc) :
    Kept σ (beginStreamClose c sid d τ) := by
  unfold beginStreamClose
  try dsimp only
  repeat' first
    | with_reducible assumption
    | with_reducible apply failDesc_kept
    | with_reducible apply beginClose_kept
    | split

theorem beginDiskBind_kept {σ τ : State} (hk : Kept σ τ) (c sid : Nat) (d : Desc) :
    Kept σ (beginDiskBind c sid d τ) := by
  unfold beginDiskBind
  try dsimp only
  repeat' first
    | with_reducible assumption
    | with_reducible apply busy_kept
    | with_reducible apply failDesc_kept
    | with_reducible apply modDisk_kept
    | with_reducible apply openWindow_kept
    | with_reducible apply completeDesc_kept
    | with_reducible apply Kept.ite
    | split

theorem beginDiskUnbind_kept {σ τ : State} (hk : Kept σ τ) (c sid : Nat) (d : Desc) :
    Kept σ (beginDiskUnbind c sid d τ) := by
  unfold beginDiskUnbind
  try dsimp only
  repeat' first
    | with_reducible assumption
    | with_reducible apply busy_kept
    | with_reducible apply failDesc_kept
    | with_reducible apply closeExtent_kept
    | with_reducible apply modBinding_kept
    | with_reducible apply Kept.ite
    | split

end Sys2Proof.Machine
end

