-- ==== Sys2Proof/Laws/Kept/Device.lean ====
section
/-!
SUPPORT. What the operations of Device.lean keep: the queue, and the legal fields of Safety.
-/

namespace Sys2Proof.Machine

theorem beginTdcEnable_kept {σ τ : State} (hk : Kept σ τ) (c sid : Nat) (d : Desc) :
    Kept σ (beginTdcEnable c sid d τ) := by
  unfold beginTdcEnable
  try dsimp only
  repeat' first
    | with_reducible assumption
    | with_reducible apply busy_kept
    | with_reducible apply failDesc_kept
    | with_reducible apply tdcMarker_kept
    | with_reducible apply flushStamps_kept
    | with_reducible apply modTdc_kept
    | with_reducible apply completeDesc_kept
    | with_reducible apply Kept.ite

theorem releaseTdc_kept {σ τ : State} (hk : Kept σ τ) (ch : Nat) :
    Kept σ (releaseTdc ch τ) := by
  unfold releaseTdc
  try dsimp only
  repeat' first
    | with_reducible assumption
    | with_reducible apply flushStamps_kept
    | with_reducible apply modTdc_kept

theorem beginTdcRelease_kept {σ τ : State} (hk : Kept σ τ) (c sid : Nat) (d : Desc) :
    Kept σ (beginTdcRelease c sid d τ) := by
  unfold beginTdcRelease
  try dsimp only
  repeat' first
    | with_reducible assumption
    | with_reducible apply releaseTdc_kept
    | with_reducible apply busy_kept
    | with_reducible apply completeDesc_kept
    | with_reducible apply Kept.ite

theorem armCals_kept {σ τ : State} (hk : Kept σ τ) (c ring tick : Nat) (l : List Nat) (reads : List HostRead) :
    Kept σ (armCals c ring tick l reads τ) := by
  induction l generalizing τ reads with
  | nil => exact hk
  | cons ch r ih => exact ih (calibrate_kept hk _ _ _ _ _ _ _) _

theorem beginTdcGate_kept {σ τ : State} (hk : Kept σ τ) (c sid : Nat) (interval : Bool) (d : Desc) :
    Kept σ (beginTdcGate c sid interval d τ) := by
  unfold beginTdcGate
  try dsimp only
  repeat' first
    | (with_reducible intro _; try dsimp only)
    | with_reducible assumption
    | with_reducible apply armCals_kept
    | with_reducible apply busy_kept
    | with_reducible apply failDesc_kept
    | with_reducible apply modTim_kept
    | with_reducible apply completeDesc_kept
    | with_reducible apply Kept.ite

theorem onCalPairs_kept {σ τ : State} (hk : Kept σ τ) (d : Desc) (f : Nat → Skim → Skim) :
    Kept σ (onCalPairs d f τ) := by
  unfold onCalPairs
  try dsimp only
  repeat' first
    | (with_reducible intro _; try dsimp only)
    | with_reducible assumption
    | with_reducible apply modSkim_kept
    | with_reducible apply Kept.foldl

theorem beginCalSetMode_kept {σ τ : State} (hk : Kept σ τ) (c sid : Nat) (d : Desc) :
    Kept σ (beginCalSetMode c sid d τ) := by
  unfold beginCalSetMode
  try dsimp only
  repeat' first
    | with_reducible assumption
    | with_reducible apply onCalPairs_kept
    | with_reducible apply completeDesc_kept

theorem beginCalManualLoad_kept {σ τ : State} (hk : Kept σ τ) (c sid : Nat) (d : Desc) :
    Kept σ (beginCalManualLoad c sid d τ) := by
  unfold beginCalManualLoad
  try dsimp only
  repeat' first
    | with_reducible assumption
    | with_reducible apply onCalPairs_kept
    | with_reducible apply failDesc_kept
    | with_reducible apply completeDesc_kept
    | split

theorem beginCalFence_kept {σ τ : State} (hk : Kept σ τ) (c sid : Nat) (d : Desc) :
    Kept σ (beginCalFence c sid d τ) := by
  unfold beginCalFence
  try dsimp only
  repeat' first
    | with_reducible assumption
    | with_reducible apply onCalPairs_kept
    | with_reducible apply failDesc_kept
    | with_reducible apply completeDesc_kept
    | with_reducible apply Kept.ite

theorem beginCalRampLength_kept {σ τ : State} (hk : Kept σ τ) (c sid : Nat) (d : Desc) :
    Kept σ (beginCalRampLength c sid d τ) := by
  unfold beginCalRampLength
  try dsimp only
  repeat' first
    | with_reducible assumption
    | with_reducible apply onCalPairs_kept
    | with_reducible apply completeDesc_kept

theorem beginTableReset_kept {σ τ : State} (hk : Kept σ τ) (c sid : Nat) (d : Desc) :
    Kept σ (beginTableReset c sid d τ) := by
  unfold beginTableReset
  try dsimp only
  repeat' first
    | with_reducible assumption
    | with_reducible apply onCalPairs_kept
    | with_reducible apply completeDesc_kept

theorem startForeground_kept {σ τ : State} (hk : Kept σ τ) (n : Nat) :
    Kept σ (startForeground n τ) := by
  unfold startForeground
  try dsimp only
  repeat' first
    | with_reducible assumption
    | with_reducible apply routePair_kept
    | with_reducible apply modSkim_kept
    | with_reducible apply modPair_kept

theorem beginRunForeground_kept {σ τ : State} (hk : Kept σ τ) (c sid : Nat) (d : Desc) :
    Kept σ (beginRunForeground c sid d τ) := by
  unfold beginRunForeground
  try dsimp only
  repeat' first
    | (with_reducible intro _; try dsimp only)
    | with_reducible assumption
    | with_reducible apply startForeground_kept
    | with_reducible apply busy_kept
    | with_reducible apply failDesc_kept
    | with_reducible apply Kept.ite
    | with_reducible apply Kept.foldl
    | fail_if_no_progress (with_reducible refine Kept.mk ?_ rfl ?_ ?_ ?_ ?_ ?_ ?_ ?_ ?_ ?_ ?_) <;> try ((with_reducible refine (?_ : _ = _)); first | rfl | (split <;> rfl))

theorem supersedeSet_kept {σ τ : State} (hk : Kept σ τ)  :
    Kept σ (supersedeSet τ) := by
  unfold supersedeSet
  try dsimp only
  repeat' first
    | (with_reducible intro _; try dsimp only)
    | with_reducible assumption
    | with_reducible apply failDesc_kept
    | with_reducible apply modTim_kept
    | split

theorem beginSetTimePps_kept {σ τ : State} (hk : Kept σ τ) (c sid : Nat) (d : Desc) :
    Kept σ (beginSetTimePps c sid d τ) := by
  unfold beginSetTimePps
  try dsimp only
  repeat' first
    | (with_reducible intro _; try dsimp only)
    | with_reducible assumption
    | with_reducible apply supersedeSet_kept
    | with_reducible apply modTim_kept

theorem beginSetTimeImmediate_kept {σ τ : State} (hk : Kept σ τ) (c sid : Nat) (d : Desc) :
    Kept σ (beginSetTimeImmediate c sid d τ) := by
  unfold beginSetTimeImmediate
  try dsimp only
  repeat' first
    | with_reducible assumption
    | with_reducible apply supersedeSet_kept
    | with_reducible apply setDeviceTime_kept
    | with_reducible apply tick_kept
    | with_reducible apply completeDesc_kept

theorem setTimePpsTimeout_kept {σ τ : State} (hk : Kept σ τ)  :
    Kept σ (setTimePpsTimeout τ) := by
  unfold setTimePpsTimeout
  try dsimp only
  repeat' first
    | (with_reducible intro _; try dsimp only)
    | with_reducible assumption
    | with_reducible apply failDesc_kept
    | with_reducible apply advanceToTick_kept
    | with_reducible apply modTim_kept
    | split

theorem modPwr_kept {σ τ : State} (hk : Kept σ τ) (f : Pwr → Pwr) (hq : ∀ x, (f x).calPeriod = x.calPeriod) :
    Kept σ (modPwr f τ) := by
  exact hk.same rfl rfl rfl rfl rfl rfl rfl rfl rfl (hq _) rfl

theorem beginHintCap_kept {σ τ : State} (hk : Kept σ τ) (c sid : Nat) (d : Desc) :
    Kept σ (beginHintCap c sid d τ) := by
  unfold beginHintCap
  try dsimp only
  repeat' first
    | (with_reducible intro _; try dsimp only)
    | with_reducible assumption
    | with_reducible apply modPwr_kept
    | with_reducible apply completeDesc_kept

theorem beginHintNextEvent_kept {σ τ : State} (hk : Kept σ τ) (c sid : Nat) (d : Desc) :
    Kept σ (beginHintNextEvent c sid d τ) := by
  unfold beginHintNextEvent
  try dsimp only
  repeat' first
    | with_reducible assumption
    | with_reducible apply completeDesc_kept
    | with_reducible apply modCtx_kept

theorem beginHintUncap_kept {σ τ : State} (hk : Kept σ τ) (c sid : Nat) :
    Kept σ (beginHintUncap c sid τ) := by
  unfold beginHintUncap
  try dsimp only
  repeat' first
    | (with_reducible intro _; try dsimp only)
    | with_reducible assumption
    | with_reducible apply modPwr_kept
    | with_reducible apply completeDesc_kept
    | with_reducible apply Kept.ite

theorem completeTest_kept {σ τ : State} (hk : Kept σ τ) (c sid : Nat) :
    Kept σ (completeTest c sid τ) := by
  unfold completeTest
  try dsimp only
  repeat' first
    | with_reducible assumption
    | with_reducible apply completeDesc_kept
    | with_reducible apply freshValue_kept

theorem beginSelftest_kept {σ τ : State} (hk : Kept σ τ) (c sid : Nat) (d : Desc) :
    Kept σ (beginSelftest c sid d τ) := by
  unfold beginSelftest
  try dsimp only
  repeat' first
    | with_reducible assumption
    | with_reducible apply completeTest_kept
    | with_reducible apply busy_kept
    | with_reducible apply Kept.ite

theorem beginClearRetirement_kept {σ τ : State} (hk : Kept σ τ) (c sid : Nat) :
    Kept σ (beginClearRetirement c sid τ) := by
  unfold beginClearRetirement
  try dsimp only
  repeat' first
    | with_reducible assumption
    | with_reducible apply failDesc_kept
    | with_reducible apply completeDesc_kept
    | with_reducible apply emit_kept
    | with_reducible apply Kept.ite
    | fail_if_no_progress (with_reducible refine Kept.mk ?_ rfl ?_ ?_ ?_ ?_ ?_ ?_ ?_ ?_ ?_ ?_) <;> try ((with_reducible refine (?_ : _ = _)); first | rfl | (split <;> rfl))

end Sys2Proof.Machine
end

