-- ==== Sys2Proof/Laws/Kept/Flight.lean ====
section
/-!
SUPPORT. What the operations of Flight.lean keep: the queue, and the legal fields of Safety.
-/

namespace Sys2Proof.Machine

theorem consolidatePair_kept {σ τ : State} (hk : Kept σ τ) (n : Nat) :
    Kept σ (consolidatePair n τ) := by
  unfold consolidatePair
  try dsimp only
  repeat' first
    | (with_reducible intro _; try dsimp only)
    | with_reducible assumption
    | with_reducible apply dramUncorrectable_kept
    | with_reducible apply modFr_kept
    | with_reducible apply Kept.foldl
    | split

theorem consolidate_kept {σ τ : State} (hk : Kept σ τ)  :
    Kept σ (consolidate τ) := by
  unfold consolidate
  try dsimp only
  repeat' first
    | (with_reducible intro _; try dsimp only)
    | with_reducible assumption
    | with_reducible apply consolidatePair_kept
    | with_reducible apply modFr_kept
    | with_reducible apply Kept.ite
    | with_reducible apply Kept.foldl

theorem beginFlightRead_kept {σ τ : State} (hk : Kept σ τ) (c sid : Nat) (d : Desc) :
    Kept σ (beginFlightRead c sid d τ) := by
  unfold beginFlightRead
  try dsimp only
  repeat' first
    | (with_reducible intro _; try dsimp only)
    | with_reducible assumption
    | with_reducible apply consolidate_kept
    | with_reducible apply onWritten_kept
    | with_reducible apply failDesc_kept
    | with_reducible apply unfreezeRecorder_kept
    | with_reducible apply freezeRecorder_kept
    | with_reducible apply formWaiting_kept
    | with_reducible apply Kept.ite
    | with_reducible apply Kept.foldl
    | split

theorem loadBundle_kept {σ τ : State} (hk : Kept σ τ) (c sid : Nat) (b : Bundle) :
    Kept σ (loadBundle c sid b τ) := by
  unfold loadBundle
  try dsimp only
  repeat' first
    | with_reducible assumption
    | with_reducible apply busy_kept
    | with_reducible apply freeAllocs_kept
    | with_reducible refine allocate_snd_kept ?_ (by assumption)
    | with_reducible apply modFr_kept
    | with_reducible apply completeDesc_kept
    | with_reducible apply Kept.ite
    | split

theorem beginReplayHost_kept {σ τ : State} (hk : Kept σ τ) (c sid : Nat) (d : Desc) :
    Kept σ (beginReplayHost c sid d τ) := by
  unfold beginReplayHost
  try dsimp only
  repeat' first
    | with_reducible assumption
    | with_reducible apply loadBundle_kept
    | with_reducible apply failDesc_kept
    | with_reducible apply Kept.ite
    | split

theorem beginReplayFlight_kept {σ τ : State} (hk : Kept σ τ) (c sid : Nat) :
    Kept σ (beginReplayFlight c sid τ) := by
  unfold beginReplayFlight
  try dsimp only
  repeat' first
    | with_reducible assumption
    | with_reducible apply loadBundle_kept
    | with_reducible apply failDesc_kept
    | with_reducible apply Kept.ite

theorem beginReplayUnload_kept {σ τ : State} (hk : Kept σ τ) (c sid : Nat) :
    Kept σ (beginReplayUnload c sid τ) := by
  unfold beginReplayUnload
  try dsimp only
  repeat' first
    | with_reducible assumption
    | with_reducible apply busy_kept
    | with_reducible apply failDesc_kept
    | with_reducible apply freeAllocs_kept
    | with_reducible apply unfreezeRecorder_kept
    | with_reducible apply modFr_kept
    | with_reducible apply completeDesc_kept
    | with_reducible apply Kept.ite
    | split

end Sys2Proof.Machine
end

