-- ==== Sys2Proof/Laws/Kept/Teardown.lean ====
section
/-!
SUPPORT. What the operations of Teardown.lean keep: the queue, and the legal fields of Safety.
-/

namespace Sys2Proof.Machine

theorem endDescriptors_kept {σ τ : State} (hk : Kept σ τ) (c : Nat) (self : Option Nat) :
    Kept σ (endDescriptors c self τ) := by
  unfold endDescriptors
  try dsimp only
  repeat' first
    | (with_reducible intro _; try dsimp only)
    | with_reducible assumption
    | with_reducible apply failDesc_kept
    | with_reducible apply modCtx_kept
    | with_reducible apply Kept.foldl
    | split

theorem dropSetTime_kept {σ τ : State} (hk : Kept σ τ) (c : Nat) :
    Kept σ (dropSetTime c τ) := by
  unfold dropSetTime
  try dsimp only
  repeat' first
    | (with_reducible intro _; try dsimp only)
    | with_reducible assumption
    | with_reducible apply modTim_kept
    | with_reducible apply Kept.ite

theorem dropOutputs_kept {σ τ : State} (hk : Kept σ τ) (c : Nat) :
    Kept σ (dropOutputs c τ) := by
  unfold dropOutputs
  try dsimp only
  repeat' first
    | (with_reducible intro _; try dsimp only)
    | with_reducible assumption
    | with_reducible apply disableOutput_kept
    | with_reducible apply Kept.ite
    | with_reducible apply Kept.foldl

theorem dropExports_kept {σ τ : State} (hk : Kept σ τ) (c : Nat) :
    Kept σ (dropExports c τ) := by
  unfold dropExports
  try dsimp only
  repeat' first
    | (with_reducible intro _; try dsimp only)
    | with_reducible assumption
    | with_reducible apply removeExport_kept
    | with_reducible apply Kept.foldl

theorem dropTiming_kept {σ τ : State} (hk : Kept σ τ) (c : Nat) :
    Kept σ (dropTiming c τ) := by
  unfold dropTiming
  try dsimp only
  repeat' first
    | (with_reducible intro _; try dsimp only)
    | with_reducible assumption
    | with_reducible apply releaseTdc_kept
    | with_reducible apply modTim_kept
    | with_reducible apply Kept.ite
    | with_reducible apply Kept.foldl

theorem dropKernels_kept {σ τ : State} (hk : Kept σ τ) (c : Nat) :
    Kept σ (dropKernels c τ) := by
  unfold dropKernels
  try dsimp only
  repeat' first
    | (with_reducible intro _; try dsimp only)
    | with_reducible assumption
    | with_reducible apply endInstance_kept
    | with_reducible apply Kept.foldl

theorem dropSources_kept {σ τ : State} (hk : Kept σ τ) (c : Nat) :
    Kept σ (dropSources c τ) := by
  unfold dropSources
  try dsimp only
  repeat' first
    | (with_reducible intro _; try dsimp only)
    | with_reducible assumption
    | with_reducible apply dropKernels_kept
    | with_reducible apply dropTiming_kept
    | with_reducible apply dropExports_kept
    | with_reducible apply destroyPlan_kept
    | with_reducible apply Kept.foldl

theorem freeAllRings_kept {σ τ : State} (hk : Kept σ τ) (c : Nat) :
    Kept σ (freeAllRings c τ) := by
  unfold freeAllRings
  try dsimp only
  repeat' first
    | (with_reducible intro _; try dsimp only)
    | with_reducible assumption
    | with_reducible apply freeRing_kept
    | with_reducible apply Kept.foldl

theorem startTeardown_kept {σ τ : State} (hk : Kept σ τ) (c cause : Nat) (destroyer : Option (Nat × Nat)) :
    Kept σ (startTeardown c cause destroyer τ) := by
  unfold startTeardown
  try dsimp only
  repeat' first
    | (with_reducible intro _; try dsimp only)
    | with_reducible assumption
    | with_reducible apply freeAllRings_kept
    | with_reducible apply dropSources_kept
    | with_reducible apply dropOutputs_kept
    | with_reducible apply dropSetTime_kept
    | with_reducible apply endDescriptors_kept
    | with_reducible apply formSeal_kept
    | with_reducible apply modCtx_kept
    | with_reducible apply Kept.ite
    | with_reducible apply Kept.foldl
    | split

theorem dropHoldings_kept {σ τ : State} (hk : Kept σ τ) (c : Nat) :
    Kept σ (dropHoldings c τ) := by
  unfold dropHoldings
  try dsimp only
  repeat' first
    | (with_reducible intro _; try dsimp only)
    | with_reducible assumption
    | with_reducible apply dropOutputs_kept
    | with_reducible apply dropMask_kept
    | with_reducible apply removeBinding_kept
    | with_reducible apply freeAllocs_kept
    | with_reducible apply dropCapture_kept
    | with_reducible apply Kept.foldl

theorem finishTeardown_kept {σ τ : State} (hk : Kept σ τ) (c : Nat) :
    Kept σ (finishTeardown c τ) := by
  unfold finishTeardown
  try dsimp only
  repeat' first
    | with_reducible assumption
    | with_reducible apply dropHoldings_kept
    | with_reducible apply freeAllRings_kept
    | with_reducible apply completeBy_kept
    | with_reducible apply sendAdmin_kept
    | with_reducible apply modHost_kept
    | with_reducible apply Kept.ite
    | split

theorem beginContextDestroy_kept {σ τ : State} (hk : Kept σ τ) (c sid : Nat) (d : Desc) :
    Kept σ (beginContextDestroy c sid d τ) := by
  unfold beginContextDestroy
  try dsimp only
  repeat' first
    | with_reducible assumption
    | with_reducible apply startTeardown_kept
    | with_reducible apply failDesc_kept
    | with_reducible apply Kept.ite
    | split

theorem detach_kept {σ τ : State} (hk : Kept σ τ) (f : Nat) :
    Kept σ (detach f τ) := by
  unfold detach
  try dsimp only
  repeat' first
    | with_reducible assumption
    | with_reducible apply startTeardown_kept
    | with_reducible apply reportAttach_kept
    | with_reducible apply modFn_kept
    | with_reducible apply Kept.ite
    | split

theorem tearFunction_kept {σ τ : State} (hk : Kept σ τ) (f : Nat) :
    Kept σ (tearFunction f τ) := by
  unfold tearFunction
  try dsimp only
  repeat' first
    | (with_reducible intro _; try dsimp only)
    | with_reducible assumption
    | with_reducible apply startTeardown_kept
    | with_reducible apply Kept.foldl

theorem tearPort_kept {σ τ : State} (hk : Kept σ τ) (port cause : Nat) :
    Kept σ (tearPort port cause τ) := by
  unfold tearPort
  try dsimp only
  repeat' first
    | (with_reducible intro _; try dsimp only)
    | with_reducible assumption
    | with_reducible apply startTeardown_kept
    | with_reducible apply Kept.foldl

end Sys2Proof.Machine
end

