-- ==== Sys2Proof/Laws/Kept/Power.lean ====
section
/-!
SUPPORT. What the operations of Power.lean keep: the queue, and the legal fields of Safety.
-/

namespace Sys2Proof.Machine

theorem selfRefresh_kept {σ τ : State} (hk : Kept σ τ) (on : Bool) :
    Kept σ (selfRefresh on τ) := by
  unfold selfRefresh
  try dsimp only
  repeat' first
    | (with_reducible intro _; try dsimp only)
    | with_reducible assumption
    | with_reducible apply modDram_kept

theorem setPowerState_kept {σ τ : State} (hk : Kept σ τ) (st : Nat) :
    Kept σ (setPowerState st τ) := by
  unfold setPowerState
  try dsimp only
  repeat' first
    | (with_reducible intro _; try dsimp only)
    | with_reducible assumption
    | with_reducible apply selfRefresh_kept
    | with_reducible apply modPwr_kept
    | with_reducible apply journalMode_kept
    | ((with_reducible refine (?_ : _ = _)); rfl)

theorem stopPairs_kept {σ τ : State} (hk : Kept σ τ)  :
    Kept σ (stopPairs τ) := by
  unfold stopPairs
  try dsimp only
  repeat' first
    | (with_reducible intro _; try dsimp only)
    | with_reducible assumption
    | with_reducible apply modPair_kept
    | with_reducible apply Kept.foldl

theorem startPairs_kept {σ τ : State} (hk : Kept σ τ) (next : Nat) :
    Kept σ (startPairs next τ) := by
  unfold startPairs
  try dsimp only
  repeat' first
    | (with_reducible intro _; try dsimp only)
    | with_reducible assumption
    | with_reducible apply modPair_kept
    | with_reducible apply Kept.foldl

theorem windDown_kept {σ τ : State} (hk : Kept σ τ) (plan : Nat) :
    Kept σ (windDown plan τ) := by
  unfold windDown
  try dsimp only
  repeat' first
    | with_reducible assumption
    | with_reducible apply removeStreams_kept
    | with_reducible apply finishStreams_kept
    | with_reducible apply drainPlan_kept
    | with_reducible apply stopSurfs_kept
    | with_reducible apply clearSurfs_kept
    | with_reducible apply modPlan_kept

theorem enterDeep_kept {σ τ : State} (hk : Kept σ τ)  :
    Kept σ (enterDeep τ) := by
  unfold enterDeep
  try dsimp only
  repeat' first
    | (with_reducible intro _; try dsimp only)
    | with_reducible assumption
    | with_reducible apply windDown_kept
    | with_reducible apply consolidate_kept
    | with_reducible apply modDram_kept
    | with_reducible apply Kept.ite
    | with_reducible apply Kept.foldl

theorem loseRings_kept {σ τ : State} (hk : Kept σ τ)  :
    Kept σ (loseRings τ) := by
  unfold loseRings
  try dsimp only
  repeat' first
    | with_reducible assumption
    | with_reducible apply dropCaptures_kept
    | with_reducible apply modTrg_kept

theorem startExit_kept {σ τ : State} (hk : Kept σ τ) (serves : Option Nat) :
    Kept σ (startExit serves τ) := by
  unfold startExit
  try dsimp only
  repeat' first
    | (with_reducible intro _; try dsimp only)
    | with_reducible assumption
    | with_reducible apply startPairs_kept
    | with_reducible apply modPwr_kept
    | with_reducible apply modTim_kept
    | with_reducible apply Kept.ite

theorem powerStep_kept {σ τ : State} (hk : Kept σ τ)  :
    Kept σ (powerStep τ) := by
  unfold powerStep
  try dsimp only
  repeat' first
    | (with_reducible intro _; try dsimp only)
    | with_reducible assumption
    | with_reducible apply startExit_kept
    | with_reducible apply modPwr_kept
    | with_reducible apply Kept.ite

theorem entryDone_kept {σ τ : State} (hk : Kept σ τ)  :
    Kept σ (entryDone τ) := by
  unfold entryDone
  try dsimp only
  repeat' first
    | (with_reducible intro _; try dsimp only)
    | with_reducible assumption
    | with_reducible apply enterDeep_kept
    | with_reducible apply stopPairs_kept
    | with_reducible apply setPowerState_kept
    | with_reducible apply modPwr_kept
    | with_reducible apply Kept.ite

theorem exitStart_kept {σ τ : State} (hk : Kept σ τ)  :
    Kept σ (exitStart τ) := by
  unfold exitStart
  try dsimp only
  repeat' first
    | with_reducible assumption
    | with_reducible apply startExit_kept
    | with_reducible apply advanceToTime_kept
    | with_reducible apply Kept.ite
    | split

theorem exitDone_kept {σ τ : State} (hk : Kept σ τ)  :
    Kept σ (exitDone τ) := by
  unfold exitDone
  try dsimp only
  repeat' first
    | (with_reducible intro _; try dsimp only)
    | with_reducible assumption
    | with_reducible apply loseRings_kept
    | with_reducible apply setPowerState_kept
    | with_reducible apply modPwr_kept
    | with_reducible apply sendAdmin_kept
    | with_reducible apply Kept.ite
    | split

theorem noteBlock_kept {σ τ : State} (hk : Kept σ τ)  :
    Kept σ (noteBlock τ) := by
  unfold noteBlock
  try dsimp only
  repeat' first
    | (with_reducible intro _; try dsimp only)
    | with_reducible assumption
    | with_reducible apply modPwr_kept

end Sys2Proof.Machine
end

