-- ==== Sys2Proof/Laws/Kept/Lanes.lean ====
section
/-!
SUPPORT. What the operations of Lanes.lean keep: the queue, and the legal fields of Safety.
-/

namespace Sys2Proof.Machine

theorem modLink_kept {σ τ : State} (hk : Kept σ τ) (f : Link → Link) (ht : ∀ x, (f x).scan.toff = x.scan.toff) (hv : ∀ x, (f x).scan.voff = x.scan.voff) (hd : ∀ x, (f x).scan.dwell = x.scan.dwell) :
    Kept σ (modLink f τ) := by
  exact hk.same rfl rfl rfl rfl rfl rfl (ht _) (hv _) (hd _) rfl rfl

theorem modPort_kept {σ τ : State} (hk : Kept σ τ) (p : Nat) (f : Port → Port) :
    Kept σ (modPort p f τ) := by
  exact hk.same rfl rfl rfl rfl rfl rfl rfl rfl rfl rfl rfl

theorem modLane_kept {σ τ : State} (hk : Kept σ τ) (l : Nat) (f : Lane → Lane) :
    Kept σ (modLane l f τ) := by
  exact hk.same rfl rfl rfl rfl rfl rfl rfl rfl rfl rfl rfl

theorem modLanes_kept {σ τ : State} (hk : Kept σ τ) (ls : List Nat) (f : Nat → Lane → Lane) :
    Kept σ (modLanes ls f τ) := by
  unfold modLanes
  try dsimp only
  repeat' first
    | (with_reducible intro _; try dsimp only)
    | with_reducible assumption
    | with_reducible apply modLane_kept
    | with_reducible apply Kept.foldl

theorem setMaxRate_kept {σ τ : State} (hk : Kept σ τ) (p : Nat) :
    Kept σ (setMaxRate p τ) := by
  unfold setMaxRate
  try dsimp only
  repeat' first
    | with_reducible assumption
    | with_reducible apply modPort_kept

theorem modScan_kept {σ τ : State} (hk : Kept σ τ) (f : EyeScan → EyeScan) (ht : ∀ x, (f x).toff = x.toff) (hv : ∀ x, (f x).voff = x.voff) (hd : ∀ x, (f x).dwell = x.dwell) :
    Kept σ (modScan f τ) := by
  exact hk.same rfl rfl rfl rfl rfl rfl (ht _) (hv _) (hd _) rfl rfl

theorem endScan_kept {σ τ : State} (hk : Kept σ τ) (fin : Nat) :
    Kept σ (endScan fin τ) := by
  unfold endScan
  try dsimp only
  repeat' first
    | (with_reducible intro _; try dsimp only)
    | with_reducible assumption
    | with_reducible apply modScan_kept
    | with_reducible apply freshValue_kept
    | with_reducible apply Kept.ite

theorem endScanOn_kept {σ τ : State} (hk : Kept σ τ) (lanes : List Nat) (fin : Nat) :
    Kept σ (endScanOn lanes fin τ) := by
  unfold endScanOn
  try dsimp only
  repeat' first
    | with_reducible assumption
    | with_reducible apply endScan_kept
    | with_reducible apply Kept.ite

theorem startScan_kept {σ τ : State} (hk : Kept σ τ)  :
    Kept σ (startScan τ) := by
  unfold startScan
  try dsimp only
  repeat' first
    | (with_reducible intro _; try dsimp only)
    | with_reducible assumption
    | with_reducible apply modScan_kept
    | with_reducible apply Kept.ite

theorem writeScanCtl_kept {σ τ : State} (hk : Kept σ τ) (v : Nat) : Kept σ (writeScanCtl v τ) := by
  unfold writeScanCtl
  dsimp only
  have h : Kept σ (modScan (fun e => { e with
      lane := BitVec.ofNat 5 v
      toff := if decide (-32 ≤ sext 7 (bits v 5 7)) && decide (sext 7 (bits v 5 7) ≤ 32) then BitVec.ofNat 7 (bits v 5 7) else e.toff
      voff := if decide (-60 ≤ sext 7 (bits v 12 7)) && decide (sext 7 (bits v 12 7) ≤ 60) then BitVec.ofNat 7 (bits v 12 7) else e.voff
      dwell := if decide (20 ≤ bits v 19 6) && decide (bits v 19 6 ≤ 40) then BitVec.ofNat 6 (bits v 19 6) else e.dwell }) τ) := by
    refine hk.legal rfl fun k => ?_
    obtain ⟨m, w, c, t, o, x, d, l, q, i⟩ := k
    refine ⟨m, w, c, t, ?_, ?_, ?_, l, q, i⟩ <;> dsimp only [modScan, modLink] <;> split
    · rename_i e
      rw [Bool.and_eq_true, decide_eq_true_eq, decide_eq_true_eq, sext7_eq] at e
      exact e
    · exact o
    · rename_i e
      rw [Bool.and_eq_true, decide_eq_true_eq, decide_eq_true_eq, sext7_eq] at e
      exact e
    · exact x
    · rename_i e
      rw [Bool.and_eq_true, decide_eq_true_eq, decide_eq_true_eq] at e
      rw [BitVec.toNat_ofNat, Nat.mod_eq_of_lt (by omega)]
      exact e
    · exact d
  have g : Kept σ (if bit v 26 = true then endScan 1 (modScan (fun e => { e with
      lane := BitVec.ofNat 5 v
      toff := if decide (-32 ≤ sext 7 (bits v 5 7)) && decide (sext 7 (bits v 5 7) ≤ 32) then BitVec.ofNat 7 (bits v 5 7) else e.toff
      voff := if decide (-60 ≤ sext 7 (bits v 12 7)) && decide (sext 7 (bits v 12 7) ≤ 60) then BitVec.ofNat 7 (bits v 12 7) else e.voff
      dwell := if decide (20 ≤ bits v 19 6) && decide (bits v 19 6 ≤ 40) then BitVec.ofNat 6 (bits v 19 6) else e.dwell }) τ)
      else modScan (fun e => { e with
      lane := BitVec.ofNat 5 v
      toff := if decide (-32 ≤ sext 7 (bits v 5 7)) && decide (sext 7 (bits v 5 7) ≤ 32) then BitVec.ofNat 7 (bits v 5 7) else e.toff
      voff := if decide (-60 ≤ sext 7 (bits v 12 7)) && decide (sext 7 (bits v 12 7) ≤ 60) then BitVec.ofNat 7 (bits v 12 7) else e.voff
      dwell := if decide (20 ≤ bits v 19 6) && decide (bits v 19 6 ≤ 40) then BitVec.ofNat 6 (bits v 19 6) else e.dwell }) τ) :=
    Kept.ite (endScan_kept h _) h
  exact Kept.ite (startScan_kept g) g

theorem scanDone_kept {σ τ : State} (hk : Kept σ τ) (errors : Nat) :
    Kept σ (scanDone errors τ) := by
  unfold scanDone
  try dsimp only
  repeat' first
    | (with_reducible intro _; try dsimp only)
    | with_reducible assumption
    | with_reducible apply modScan_kept
    | with_reducible apply Kept.ite

theorem scanTimeout_kept {σ τ : State} (hk : Kept σ τ) (compared errors : Nat) :
    Kept σ (scanTimeout compared errors τ) := by
  unfold scanTimeout
  try dsimp only
  repeat' first
    | (with_reducible intro _; try dsimp only)
    | with_reducible assumption
    | with_reducible apply modScan_kept
    | with_reducible apply advanceToTick_kept
    | with_reducible apply Kept.ite

theorem marginLane_kept {σ τ : State} (hk : Kept σ τ) (l : Nat) (start : Bool) :
    Kept σ (marginLane l start τ) := by
  unfold marginLane
  try dsimp only
  repeat' first
    | with_reducible assumption
    | with_reducible apply endScanOn_kept
    | with_reducible apply modLane_kept
    | with_reducible apply emit_kept
    | with_reducible apply Kept.ite

theorem stopChecker_kept {σ τ : State} (hk : Kept σ τ) (l : Nat) :
    Kept σ (stopChecker l τ) := by
  unfold stopChecker
  try dsimp only
  repeat' first
    | with_reducible assumption
    | with_reducible apply modLane_kept
    | with_reducible apply freshValue_kept
    | with_reducible apply Kept.ite

theorem writePrbsCfg_kept {σ τ : State} (hk : Kept σ τ) (l v : Nat) :
    Kept σ (writePrbsCfg l v τ) := by
  unfold writePrbsCfg
  try dsimp only
  repeat' first
    | with_reducible assumption
    | with_reducible apply stopChecker_kept
    | with_reducible apply modLane_kept
    | with_reducible apply Kept.ite

theorem checkerLock_kept {σ τ : State} (hk : Kept σ τ) (l : Nat) :
    Kept σ (checkerLock l τ) := by
  unfold checkerLock
  try dsimp only
  repeat' first
    | with_reducible assumption
    | with_reducible apply modLane_kept
    | with_reducible apply Kept.ite

theorem checkerLost_kept {σ τ : State} (hk : Kept σ τ) (l errors : Nat) :
    Kept σ (checkerLost l errors τ) := by
  unfold checkerLost
  try dsimp only
  repeat' first
    | with_reducible assumption
    | with_reducible apply modLane_kept
    | with_reducible apply Kept.ite

theorem endSessions_kept {σ τ : State} (hk : Kept σ τ) (p : Nat) :
    Kept σ (endSessions p τ) := by
  unfold endSessions
  try dsimp only
  repeat' first
    | with_reducible assumption
    | fail_if_no_progress (with_reducible refine Kept.mk ?_ rfl ?_ ?_ ?_ ?_ ?_ ?_ ?_ ?_ ?_ ?_) <;> try ((with_reducible refine (?_ : _ = _)); first | rfl | (split <;> rfl))

theorem linkDown_kept {σ τ : State} (hk : Kept σ τ) (p cause : Nat) :
    Kept σ (linkDown p cause τ) := by
  unfold linkDown
  try dsimp only
  repeat' first
    | with_reducible assumption
    | with_reducible apply endSessions_kept
    | with_reducible apply endScanOn_kept
    | with_reducible apply modLanes_kept
    | with_reducible apply modPort_kept
    | with_reducible apply tearPort_kept

theorem trainLink_kept {σ τ : State} (hk : Kept σ τ) (p rate width recoveries : Nat) (ls : List LaneTraining) :
    Kept σ (trainLink p rate width recoveries ls τ) := by
  unfold trainLink
  try dsimp only
  repeat' first
    | with_reducible assumption
    | with_reducible apply endScanOn_kept
    | with_reducible apply setMaxRate_kept
    | with_reducible apply modLanes_kept
    | with_reducible apply modPort_kept
    | with_reducible apply Kept.ite

theorem enterL0s_kept {σ τ : State} (hk : Kept σ τ) (p : Nat) :
    Kept σ (enterL0s p τ) := by
  unfold enterL0s
  try dsimp only
  repeat' first
    | with_reducible assumption
    | with_reducible apply modPort_kept
    | with_reducible apply Kept.ite

theorem followL0s_kept {σ τ : State} (hk : Kept σ τ) (p : Nat) :
    Kept σ (followL0s p τ) := by
  unfold followL0s
  try dsimp only
  repeat' first
    | with_reducible assumption
    | with_reducible apply modLanes_kept
    | with_reducible apply modPort_kept
    | with_reducible apply Kept.ite

theorem enterL1_kept {σ τ : State} (hk : Kept σ τ) (p sub : Nat) :
    Kept σ (enterL1 p sub τ) := by
  unfold enterL1
  try dsimp only
  repeat' first
    | with_reducible assumption
    | with_reducible apply modLanes_kept
    | with_reducible apply modPort_kept
    | with_reducible apply Kept.ite

theorem leaveIdle_kept {σ τ : State} (hk : Kept σ τ) (l : Nat) :
    Kept σ (leaveIdle l τ) := by
  unfold leaveIdle
  try dsimp only
  repeat' first
    | with_reducible assumption
    | with_reducible apply modLane_kept
    | with_reducible apply modPort_kept
    | with_reducible apply Kept.ite

theorem portClockLoss_kept {σ τ : State} (hk : Kept σ τ) (p : Nat) :
    Kept σ (portClockLoss p τ) := by
  unfold portClockLoss
  try dsimp only
  repeat' first
    | with_reducible assumption
    | with_reducible apply linkDown_kept
    | with_reducible apply modPort_kept
    | with_reducible apply Kept.ite

theorem leaveTest_kept {σ τ : State} (hk : Kept σ τ) (p : Nat) :
    Kept σ (leaveTest p τ) := by
  unfold leaveTest
  try dsimp only
  repeat' first
    | (with_reducible intro _; try dsimp only)
    | with_reducible assumption
    | with_reducible apply stopChecker_kept
    | with_reducible apply endScanOn_kept
    | with_reducible apply modLanes_kept
    | with_reducible apply modPort_kept
    | with_reducible apply Kept.ite
    | with_reducible apply Kept.foldl

theorem beginLaneTestEnter_kept {σ τ : State} (hk : Kept σ τ) (c sid : Nat) (d : Desc) :
    Kept σ (beginLaneTestEnter c sid d τ) := by
  unfold beginLaneTestEnter
  try dsimp only
  repeat' first
    | (with_reducible intro _; try dsimp only)
    | with_reducible assumption
    | with_reducible apply linkDown_kept
    | with_reducible apply stopChecker_kept
    | with_reducible apply endScanOn_kept
    | with_reducible apply modLanes_kept
    | with_reducible apply modPort_kept
    | with_reducible apply busy_kept
    | with_reducible apply completeDesc_kept
    | with_reducible apply Kept.ite
    | with_reducible apply Kept.foldl

theorem beginLaneTestExit_kept {σ τ : State} (hk : Kept σ τ) (c sid : Nat) (d : Desc) :
    Kept σ (beginLaneTestExit c sid d τ) := by
  unfold beginLaneTestExit
  try dsimp only
  repeat' first
    | with_reducible assumption
    | with_reducible apply leaveTest_kept
    | with_reducible apply completeDesc_kept

end Sys2Proof.Machine
end

