-- ==== Sys2Proof/Laws/Kept/Pump.lean ====
section
/-!
SUPPORT. What the operations of Pump.lean keep: the queue, and the legal fields of Safety.
-/

namespace Sys2Proof.Machine

theorem beginPlanStop_kept {σ τ : State} (hk : Kept σ τ) (c sid : Nat) (d : Desc) :
    Kept σ (beginPlanStop c sid d τ) := by
  unfold beginPlanStop
  try dsimp only
  repeat' first
    | with_reducible assumption
    | with_reducible apply failDesc_kept
    | with_reducible apply dropWaiting_kept
    | with_reducible apply stopPlan_kept
    | with_reducible apply completeDesc_kept
    | split

theorem beginPlanDestroy_kept {σ τ : State} (hk : Kept σ τ) (c sid : Nat) (d : Desc) :
    Kept σ (beginPlanDestroy c sid d τ) := by
  unfold beginPlanDestroy
  try dsimp only
  repeat' first
    | with_reducible assumption
    | with_reducible apply failDesc_kept
    | with_reducible apply destroyPlan_kept
    | with_reducible apply completeDesc_kept
    | split

theorem beginFence_kept {σ τ : State} (hk : Kept σ τ) (c sid : Nat) (d : Desc) :
    Kept σ (beginFence c sid d τ) := by
  unfold beginFence
  try dsimp only
  repeat' first
    | with_reducible assumption
    | with_reducible apply completeDesc_kept
    | with_reducible apply modCtx_kept
    | with_reducible apply Kept.ite

theorem beginOp_kept {σ τ : State} (hk : Kept σ τ) (c sid : Nat) (d : Desc) :
    Kept σ (beginOp c sid d τ) := by
  unfold beginOp
  try dsimp only
  repeat' first
    | (with_reducible intro _; try dsimp only)
    | with_reducible assumption
    | with_reducible apply beginFence_kept
    | with_reducible apply beginPlanDestroy_kept
    | with_reducible apply beginPlanStop_kept
    | with_reducible apply beginLaneTestExit_kept
    | with_reducible apply beginLaneTestEnter_kept
    | with_reducible apply beginContextDestroy_kept
    | with_reducible apply beginReplayUnload_kept
    | with_reducible apply beginReplayFlight_kept
    | with_reducible apply beginReplayHost_kept
    | with_reducible apply beginFlightRead_kept
    | with_reducible apply beginClearRetirement_kept
    | with_reducible apply beginSelftest_kept
    | with_reducible apply completeTest_kept
    | with_reducible apply beginHintUncap_kept
    | with_reducible apply beginHintNextEvent_kept
    | with_reducible apply beginHintCap_kept
    | with_reducible apply beginSetTimeImmediate_kept
    | with_reducible apply beginSetTimePps_kept
    | with_reducible apply beginRunForeground_kept
    | with_reducible apply beginTableReset_kept
    | with_reducible apply beginCalRampLength_kept
    | with_reducible apply beginCalFence_kept
    | with_reducible apply beginCalManualLoad_kept
    | with_reducible apply beginCalSetMode_kept
    | with_reducible apply beginTdcGate_kept
    | with_reducible apply beginTdcRelease_kept
    | with_reducible apply beginTdcEnable_kept
    | with_reducible apply beginDiskUnbind_kept
    | with_reducible apply beginDiskBind_kept
    | with_reducible apply beginStreamClose_kept
    | with_reducible apply beginStreamOpen_kept
    | with_reducible apply beginFlip_kept
    | with_reducible apply beginOutputOff_kept
    | with_reducible apply beginLayerOff_kept
    | with_reducible apply beginPanelCmd_kept
    | with_reducible apply beginLutLoad_kept
    | with_reducible apply beginDisplayLayer_kept
    | with_reducible apply beginDisplayOutput_kept
    | with_reducible apply beginCaptureRelease_kept
    | with_reducible apply beginCaptureWords_kept
    | with_reducible apply beginCaptureSegments_kept
    | with_reducible apply disarmUnit_kept
    | with_reducible apply beginArming_kept
    | with_reducible apply armAgain_kept
    | with_reducible apply beginMaskDrop_kept
    | with_reducible apply beginMaskLoad_kept
    | with_reducible apply beginReconfigure_kept
    | with_reducible apply beginWindowDrop_kept
    | with_reducible apply beginWindowTable_kept
    | with_reducible apply beginSpuStop_kept
    | with_reducible apply beginSpuSignal_kept
    | with_reducible apply beginSpuLaunch_kept
    | with_reducible apply beginSpuLoad_kept
    | with_reducible apply beginAttestBind_kept
    | with_reducible apply beginRingDestroy_kept
    | with_reducible apply beginRingCreate_kept
    | with_reducible apply beginContextCreate_kept
    | with_reducible apply beginModeSet_kept
    | with_reducible apply beginPlanStart_kept
    | with_reducible apply beginPlanCreate_kept
    | with_reducible apply failDesc_kept
    | with_reducible apply completeDesc_kept
    | split

theorem beginDesc_kept {σ τ : State} (hk : Kept σ τ) (c : Nat) (a : Acc) :
    Kept σ (beginDesc c a τ) := by
  unfold beginDesc
  try dsimp only
  repeat' first
    | with_reducible assumption
    | with_reducible apply beginOp_kept
    | with_reducible apply failDesc_kept
    | with_reducible apply modCtx_kept
    | with_reducible apply Kept.ite

theorem beginReady_kept {σ τ : State} (hk : Kept σ τ)  :
    Kept σ (beginReady τ) := by
  unfold beginReady
  try dsimp only
  repeat' first
    | (with_reducible intro _; try dsimp only)
    | with_reducible assumption
    | with_reducible apply beginDesc_kept
    | with_reducible apply Kept.ite
    | with_reducible apply Kept.foldl
    | split

theorem fetchCtx_kept {σ τ : State} (hk : Kept σ τ) (c : Nat) (n : Nat) : Kept σ (fetchCtx c n τ) := by
  induction n generalizing τ with
  | zero => exact hk
  | succ n ih =>
    rw [fetchCtx]
    repeat' first
      | with_reducible assumption
      | with_reducible apply ih
      | with_reducible apply completeDesc_kept
      | with_reducible apply modCtx_kept
      | with_reducible apply journal_kept
      | with_reducible apply Kept.ite
      | split

theorem fetchAll_kept {σ τ : State} (hk : Kept σ τ)  :
    Kept σ (fetchAll τ) := by
  unfold fetchAll
  try dsimp only
  repeat' first
    | (with_reducible intro _; try dsimp only)
    | with_reducible assumption
    | with_reducible apply fetchCtx_kept
    | with_reducible apply Kept.foldl

theorem finishAcc_kept {σ τ : State} (hk : Kept σ τ) (c : Nat) (a : Acc) :
    Kept σ (finishAcc c a τ) := by
  unfold finishAcc
  try dsimp only
  repeat' first
    | with_reducible assumption
    | with_reducible apply freeRing_kept
    | with_reducible apply completeDesc_kept
    | with_reducible apply Kept.ite
    | split

theorem finishAll_kept {σ τ : State} (hk : Kept σ τ)  :
    Kept σ (finishAll τ) := by
  unfold finishAll
  try dsimp only
  repeat' first
    | (with_reducible intro _; try dsimp only)
    | with_reducible assumption
    | with_reducible apply finishAcc_kept
    | with_reducible apply Kept.foldl
    | split

theorem settleRound_kept {σ τ : State} (hk : Kept σ τ)  :
    Kept σ (settleRound τ) := by
  unfold settleRound
  try dsimp only
  repeat' first
    | (with_reducible intro _; try dsimp only)
    | with_reducible assumption
    | with_reducible apply finishAll_kept
    | with_reducible apply fetchAll_kept
    | with_reducible apply beginReady_kept
    | with_reducible apply powerStep_kept
    | with_reducible apply decideHeld_kept
    | with_reducible apply stepUnbind_kept
    | with_reducible apply stepCloses_kept
    | with_reducible apply settleMask_kept
    | with_reducible apply Kept.foldl

theorem settleN_kept {σ τ : State} (hk : Kept σ τ)  (n : Nat) : Kept σ (settleN  n τ) := by
  induction n generalizing τ with
  | zero => exact hk
  | succ n ih =>
    rw [settleN]
    repeat' first
      | with_reducible assumption
      | with_reducible apply ih
      | with_reducible apply settleRound_kept

theorem settle_kept {σ τ : State} (hk : Kept σ τ)  :
    Kept σ (settle τ) := by
  unfold settle
  try dsimp only
  repeat' first
    | with_reducible assumption
    | with_reducible apply settleN_kept

theorem submitDesc_kept {σ τ : State} (hk : Kept σ τ) (op : DescOp) (d : Sub) (reads : List HostRead) :
    Kept σ (submitDesc op d reads τ) := by
  unfold submitDesc
  try dsimp only
  repeat' first
    | with_reducible assumption
    | with_reducible apply settle_kept
    | with_reducible apply modCtx_kept

theorem releaseTimeWait_kept {σ τ : State} (hk : Kept σ τ)  :
    Kept σ (releaseTimeWait τ) := by
  unfold releaseTimeWait
  try dsimp only
  repeat' first
    | with_reducible assumption
    | with_reducible apply settle_kept
    | with_reducible apply advanceToTime_kept
    | split

end Sys2Proof.Machine
end

