-- ==== Sys2Proof/Laws/Kept/DramCtl.lean ====
section
/-!
SUPPORT. What the operations of DramCtl.lean keep: the queue, and the legal fields of Safety.
-/

namespace Sys2Proof.Machine

theorem modRank_kept {σ τ : State} (hk : Kept σ τ) (ch k : Nat) (f : Rank → Rank) :
    Kept σ (modRank ch k f τ) := by
  exact hk.same rfl rfl rfl rfl rfl rfl rfl rfl rfl rfl rfl

theorem issueRefresh_kept {σ τ : State} (hk : Kept σ τ) (ch k n : Nat) :
    Kept σ (issueRefresh ch k n τ) := by
  unfold issueRefresh
  try dsimp only
  repeat' first
    | with_reducible assumption
    | with_reducible apply modRank_kept
    | with_reducible apply emit_kept
    | with_reducible apply Kept.ite

theorem urgentBurst_kept {σ τ : State} (hk : Kept σ τ) (ch k : Nat) :
    Kept σ (urgentBurst ch k τ) := by
  unfold urgentBurst
  try dsimp only
  repeat' first
    | with_reducible assumption
    | with_reducible apply issueRefresh_kept
    | with_reducible apply modChan_kept

theorem applyMr4_kept {σ τ : State} (hk : Kept σ τ) (ch k : Nat) (v : BitVec 8) :
    Kept σ (applyMr4 ch k v τ) := by
  unfold applyMr4
  try dsimp only
  repeat' first
    | with_reducible assumption
    | with_reducible apply issueRefresh_kept
    | with_reducible apply modRank_kept
    | with_reducible apply modChan_kept
    | with_reducible apply sendAdmin_kept
    | with_reducible apply Kept.ite

theorem refreshDue_kept {σ τ : State} (hk : Kept σ τ) (ch k : Nat) (writer : Bool) (mr4 : BitVec 8) :
    Kept σ (refreshDue ch k writer mr4 τ) := by
  unfold refreshDue
  try dsimp only
  repeat' first
    | with_reducible assumption
    | with_reducible apply applyMr4_kept
    | with_reducible apply urgentBurst_kept
    | with_reducible apply issueRefresh_kept
    | with_reducible apply modRank_kept
    | with_reducible apply modChan_kept
    | with_reducible apply advanceToTick_kept
    | with_reducible apply Kept.ite
    | split

theorem idleRefresh_kept {σ τ : State} (hk : Kept σ τ) (ch n : Nat) :
    Kept σ (idleRefresh ch n τ) := by
  unfold idleRefresh
  try dsimp only
  repeat' first
    | (with_reducible intro _; try dsimp only)
    | with_reducible assumption
    | with_reducible apply issueRefresh_kept
    | with_reducible apply Kept.ite
    | with_reducible apply Kept.foldl

theorem pollMr4_kept {σ τ : State} (hk : Kept σ τ)  :
    Kept σ (pollMr4 τ) := by
  unfold pollMr4
  try dsimp only
  repeat' first
    | (with_reducible intro _; try dsimp only)
    | with_reducible assumption
    | with_reducible apply emit_kept
    | with_reducible apply Kept.ite
    | with_reducible apply Kept.foldl

theorem failChannel_kept {σ τ : State} (hk : Kept σ τ) (ch cause : Nat) :
    Kept σ (failChannel ch cause τ) := by
  unfold failChannel
  try dsimp only
  repeat' first
    | with_reducible assumption
    | with_reducible apply beginRebuild_kept
    | with_reducible apply dramLog_kept
    | with_reducible apply modChan_kept
    | with_reducible apply lostBegins_kept
    | with_reducible apply Kept.ite

theorem retireChannels_kept {σ τ : State} (hk : Kept σ τ)  :
    Kept σ (retireChannels τ) := by
  unfold retireChannels
  try dsimp only
  repeat' first
    | (with_reducible intro _; try dsimp only)
    | with_reducible assumption
    | with_reducible apply rebuildMemory_kept
    | with_reducible apply modChan_kept
    | with_reducible apply sendAll_kept
    | with_reducible apply Kept.ite
    | with_reducible apply Kept.foldl

theorem parityError_kept {σ τ : State} (hk : Kept σ τ) (ch : Nat) (again : Bool) :
    Kept σ (parityError ch again τ) := by
  unfold parityError
  try dsimp only
  repeat' first
    | with_reducible assumption
    | with_reducible apply failChannel_kept
    | with_reducible apply dramLog_kept
    | with_reducible apply modChan_kept
    | with_reducible apply Kept.ite

theorem trackWck_kept {σ τ : State} (hk : Kept σ τ) (ch : Nat) (atRefresh : Bool) (errors : Nat) (drift fails : Bool) :
    Kept σ (trackWck ch atRefresh errors drift fails τ) := by
  unfold trackWck
  try dsimp only
  repeat' first
    | with_reducible assumption
    | with_reducible apply failChannel_kept
    | with_reducible apply dramLog_kept
    | with_reducible apply modChan_kept
    | with_reducible apply Kept.ite

theorem noteCorrected_kept {σ τ : State} (hk : Kept σ τ) (consumer addr symbol : Nat) :
    Kept σ (noteCorrected consumer addr symbol τ) := by
  unfold noteCorrected
  try dsimp only
  repeat' first
    | (with_reducible intro _; try dsimp only)
    | with_reducible assumption
    | with_reducible apply dramLog_kept
    | with_reducible apply modChan_kept
    | with_reducible apply modDram_kept
    | with_reducible apply Kept.ite

theorem patrolScrub_kept {σ τ : State} (hk : Kept σ τ) (codeword : Nat) (found : ScrubResult) :
    Kept σ (patrolScrub codeword found τ) := by
  unfold patrolScrub
  try dsimp only
  repeat' first
    | (with_reducible intro _; try dsimp only)
    | with_reducible assumption
    | with_reducible apply noteCorrected_kept
    | with_reducible apply dramUncorrectable_kept
    | with_reducible apply modDram_kept
    | with_reducible apply Kept.ite
    | ((with_reducible refine (?_ : _ = _)); rfl)
    | split

theorem queueNeighbour_kept {σ τ : State} (hk : Kept σ τ) (ch rank bank row : Nat) :
    Kept σ (queueNeighbour ch rank bank row τ) := by
  unfold queueNeighbour
  try dsimp only
  repeat' first
    | with_reducible assumption
    | with_reducible apply modChan_kept
    | with_reducible apply Kept.ite

theorem serveNeighbour_kept {σ τ : State} (hk : Kept σ τ) (ch rank bank : Nat) :
    Kept σ (serveNeighbour ch rank bank τ) := by
  unfold serveNeighbour
  try dsimp only
  repeat' first
    | with_reducible assumption
    | with_reducible apply modChan_kept
    | with_reducible apply emit_kept
    | with_reducible apply Kept.ite
    | split

theorem execRefreshDue_kept {σ τ : State} (hk : Kept σ τ) (ch : BitVec 4) (rank : BitVec 1) (writer : Bool) (mr4 : BitVec 8) :
    Keeps σ (execRefreshDue ch rank writer mr4 τ) := by
  unfold execRefreshDue
  try dsimp only
  repeat' first
    | with_reducible assumption
    | with_reducible apply Keeps.next
    | with_reducible apply refreshDue_kept

theorem execRefreshIdlePullin_kept {σ τ : State} (hk : Kept σ τ) (ch : BitVec 4) (count : Nat) :
    Keeps σ (execRefreshIdlePullin ch count τ) := by
  unfold execRefreshIdlePullin
  try dsimp only
  repeat' first
    | with_reducible assumption
    | with_reducible apply Keeps.next
    | with_reducible apply idleRefresh_kept

theorem execMr4Poll_kept {σ τ : State} (hk : Kept σ τ)  :
    Keeps σ (execMr4Poll τ) := by
  unfold execMr4Poll
  try dsimp only
  repeat' first
    | with_reducible assumption
    | with_reducible apply Keeps.next
    | with_reducible apply pollMr4_kept

theorem execMr4Result_kept {σ τ : State} (hk : Kept σ τ) (ch : BitVec 4) (rank : BitVec 1) (mr4 : BitVec 8) :
    Keeps σ (execMr4Result ch rank mr4 τ) := by
  unfold execMr4Result
  try dsimp only
  repeat' first
    | with_reducible assumption
    | with_reducible apply Keeps.next
    | with_reducible apply applyMr4_kept
    | with_reducible apply Kept.ite

theorem execPatrolScrub_kept {σ τ : State} (hk : Kept σ τ) (codeword : Nat) (found : ScrubResult) :
    Keeps σ (execPatrolScrub codeword found τ) := by
  unfold execPatrolScrub
  try dsimp only
  repeat' first
    | with_reducible assumption
    | with_reducible apply Keeps.next
    | with_reducible apply patrolScrub_kept

theorem execWckTracking_kept {σ τ : State} (hk : Kept σ τ) (ch : BitVec 4) (atRefresh : Bool) (errors : BitVec 16) (drift fails : Bool) :
    Keeps σ (execWckTracking ch atRefresh errors drift fails τ) := by
  unfold execWckTracking
  try dsimp only
  repeat' first
    | with_reducible assumption
    | with_reducible apply Keeps.next
    | with_reducible apply trackWck_kept
    | with_reducible apply settle_kept

theorem execCommandParityError_kept {σ τ : State} (hk : Kept σ τ) (ch : BitVec 4) (again : Bool) :
    Keeps σ (execCommandParityError ch again τ) := by
  unfold execCommandParityError
  try dsimp only
  repeat' first
    | with_reducible assumption
    | with_reducible apply Keeps.next
    | with_reducible apply parityError_kept
    | with_reducible apply settle_kept

theorem execNeighbourRefresh_kept {σ τ : State} (hk : Kept σ τ) (ch : BitVec 4) (rank : BitVec 1) (bank : BitVec 4) (draw : Option (BitVec 17)) :
    Keeps σ (execNeighbourRefresh ch rank bank draw τ) := by
  unfold execNeighbourRefresh
  try dsimp only
  repeat' first
    | with_reducible assumption
    | with_reducible apply Keeps.next
    | with_reducible apply serveNeighbour_kept
    | with_reducible apply queueNeighbour_kept
    | split

end Sys2Proof.Machine
end

