-- ==== Sys2Proof/Laws/Kept/Words.lean ====
section
/-!
SUPPORT. What the operations of Words.lean keep: the queue, and the legal fields of Safety.
-/

namespace Sys2Proof.Machine

theorem csuLate_windowLog2 (i : Nat) (c : Csu) : (csuLate i c).windowLog2 = c.windowLog2 := by
  unfold csuLate
  split
  · exact Csu.windowEnd_windowLog2 c
  · rfl

theorem streamWord_kept {σ τ : State} (hk : Kept σ τ) (n : Nat) (w : HWord) (plan : Nat) :
    Kept σ (streamWord n w plan τ) := by
  unfold streamWord
  try dsimp only
  repeat' first
    | with_reducible assumption
    | with_reducible apply pushPair_kept
    | with_reducible apply gapStream_kept
    | with_reducible apply Kept.ite
    | split

theorem zoomInput_kept {σ τ : State} (hk : Kept σ τ) (u : Nat) (w : HWord) :
    Kept σ (zoomInput u w τ) := by
  unfold zoomInput
  try dsimp only
  repeat' first
    | (with_reducible intro _; try dsimp only)
    | with_reducible assumption
    | with_reducible apply gapStream_kept
    | with_reducible apply frontWord_kept
    | with_reducible apply Kept.ite
    | with_reducible apply Kept.foldl

theorem endEpisode_kept {σ τ : State} (hk : Kept σ τ)  :
    Kept σ (endEpisode τ) := by
  unfold endEpisode
  try dsimp only
  repeat' first
    | (with_reducible intro _; try dsimp only)
    | with_reducible assumption
    | with_reducible apply dramLog_kept
    | with_reducible apply modDram_kept
    | with_reducible apply freezeRecorder_kept
    | with_reducible apply sendEvent_kept
    | with_reducible apply Kept.foldl
    | split

theorem absorbLost_kept {σ τ : State} (hk : Kept σ τ)  :
    Kept σ (absorbLost τ) := by
  unfold absorbLost
  try dsimp only
  repeat' first
    | (with_reducible intro _; try dsimp only)
    | with_reducible assumption
    | with_reducible apply modDram_kept

theorem writeWord_kept {σ τ : State} (hk : Kept σ τ) (n : Nat) (w : HWord) (full : Bool) :
    Kept σ (writeWord n w full τ) := by
  unfold writeWord
  try dsimp only
  repeat' first
    | with_reducible assumption
    | with_reducible apply absorbLost_kept
    | with_reducible apply endEpisode_kept
    | with_reducible apply modFr_kept
    | with_reducible apply captureWord_kept
    | with_reducible apply Kept.ite

theorem takeWord_kept {σ τ : State} (hk : Kept σ τ) (n : Nat) (w : HWord) :
    Kept σ (takeWord n w τ) := by
  unfold takeWord
  try dsimp only
  repeat' first
    | (with_reducible intro _; try dsimp only)
    | with_reducible assumption
    | with_reducible apply zoomInput_kept
    | with_reducible apply streamWord_kept
    | with_reducible apply exportWord_kept
    | with_reducible apply trigWord_kept
    | with_reducible apply modPlan_kept
    | with_reducible apply Kept.foldl

theorem deliverWord_kept {σ τ : State} (hk : Kept σ τ) (n : Nat) (w0 : HWord) (full : Bool) :
    Kept σ (deliverWord n w0 full τ) := by
  unfold deliverWord
  try dsimp only
  repeat' first
    | with_reducible assumption
    | with_reducible apply takeWord_kept
    | with_reducible apply writeWord_kept
    | with_reducible apply trigStage_kept
    | with_reducible apply Kept.ite

theorem plansDue_kept {σ τ : State} (hk : Kept σ τ) (n i : Nat) :
    Kept σ (plansDue n i τ) := by
  unfold plansDue
  try dsimp only
  repeat' first
    | (with_reducible intro _; try dsimp only)
    | with_reducible assumption
    | with_reducible apply dutyStep_kept
    | with_reducible apply beginDue_kept
    | with_reducible apply Kept.foldl

theorem fenceExpire_kept {σ τ : State} (hk : Kept σ τ) (n : Nat) :
    Kept σ (fenceExpire n τ) := by
  unfold fenceExpire
  try dsimp only
  repeat' first
    | with_reducible assumption
    | with_reducible apply sendPair_kept
    | with_reducible apply modSkim_kept
    | with_reducible apply Kept.ite

theorem fencesDue_kept {σ τ : State} (hk : Kept σ τ) (n : Nat) :
    Kept σ (fencesDue n τ) := by
  unfold fencesDue
  try dsimp only
  repeat' first
    | with_reducible assumption
    | with_reducible apply fenceExpire_kept
    | with_reducible apply modSkim_kept

theorem formWord_kept {σ τ : State} (hk : Kept σ τ) (n : Nat) (vals : List Int) (eor : BitVec 8) (dropped : Bool) :
    Kept σ ((formWord n vals eor dropped τ).2) := by
  unfold formWord
  try dsimp only
  repeat' first
    | (with_reducible intro _; try dsimp only)
    | with_reducible assumption
    | with_reducible apply fencesDue_kept
    | with_reducible apply skimCommit_kept
    | with_reducible apply modSkim_kept
    | with_reducible apply modCsu_kept
    | with_reducible apply modPair_kept
    | with_reducible apply lostEnds_kept
    | with_reducible apply Kept.ite
    | exact (Csu.word_windowLog2 ..).trans (csuLate_windowLog2 _ _)

theorem sampleWord_kept {σ τ : State} (hk : Kept σ τ) (n : Nat) (vals : List Int) (eor : BitVec 8) (fifoFull absorbFull : Bool) :
    Kept σ (sampleWord n vals eor fifoFull absorbFull τ) := by
  unfold sampleWord
  try dsimp only
  repeat' first
    | with_reducible assumption
    | with_reducible apply formWord_kept
    | with_reducible apply plansDue_kept
    | with_reducible apply deliverWord_kept
    | with_reducible apply Kept.ite

theorem feedFire_kept {σ τ : State} (hk : Kept σ τ) (b : Bundle) (e : JEntry) :
    Kept σ (feedFire b e τ) := by
  unfold feedFire
  try dsimp only
  repeat' first
    | (with_reducible intro _; try dsimp only)
    | with_reducible assumption
    | with_reducible apply offerEvent_kept
    | with_reducible apply Kept.ite
    | with_reducible apply Kept.foldl

theorem feedRequest_kept {σ τ : State} (hk : Kept σ τ) (e : JEntry) :
    Kept σ (feedRequest e τ) := by
  unfold feedRequest
  try dsimp only
  repeat' first
    | (with_reducible intro _; try dsimp only)
    | with_reducible assumption
    | with_reducible apply offerEvent_kept
    | with_reducible apply modSlot_kept
    | with_reducible apply modFront_kept
    | with_reducible apply Kept.ite
    | with_reducible apply Kept.foldl

theorem feedEntry_kept {σ τ : State} (hk : Kept σ τ) (b : Bundle) (e : JEntry) :
    Kept σ (feedEntry b e τ) := by
  unfold feedEntry
  try dsimp only
  repeat' first
    | with_reducible assumption
    | with_reducible apply feedRequest_kept
    | with_reducible apply feedFire_kept
    | with_reducible apply trigStamp_kept
    | split

theorem feedJournal_kept {σ τ : State} (hk : Kept σ τ) (limit : Nat) :
    Kept σ (feedJournal limit τ) := by
  unfold feedJournal
  try dsimp only
  repeat' first
    | (with_reducible intro _; try dsimp only)
    | with_reducible assumption
    | with_reducible apply feedEntry_kept
    | with_reducible apply modFr_kept
    | with_reducible apply Kept.foldl
    | split

theorem replayWord_kept {σ τ : State} (hk : Kept σ τ)  :
    Kept σ (replayWord τ) := by
  unfold replayWord
  try dsimp only
  repeat' first
    | with_reducible assumption
    | with_reducible apply feedJournal_kept
    | with_reducible apply takeWord_kept
    | with_reducible apply beginDue_kept
    | with_reducible apply trigStage_kept
    | with_reducible apply modFr_kept
    | with_reducible apply Kept.ite
    | split

theorem replayEnd_kept {σ τ : State} (hk : Kept σ τ)  :
    Kept σ (replayEnd τ) := by
  unfold replayEnd
  try dsimp only
  repeat' first
    | (with_reducible intro _; try dsimp only)
    | with_reducible assumption
    | with_reducible apply stopPlan_kept
    | with_reducible apply modFr_kept
    | with_reducible apply sendEvent_kept
    | with_reducible apply Kept.ite
    | with_reducible apply Kept.foldl
    | split

theorem execSampleWord_kept {σ τ : State} (hk : Kept σ τ) (pair : BitVec 2) (vals : List Int) (eor : BitVec 8) (fifoFull absorbFull : Bool) :
    Keeps σ (execSampleWord pair vals eor fifoFull absorbFull τ) := by
  unfold execSampleWord
  try dsimp only
  repeat' first
    | with_reducible assumption
    | with_reducible apply Keeps.next
    | with_reducible apply sampleWord_kept
    | with_reducible apply settle_kept

theorem execReplayWord_kept {σ τ : State} (hk : Kept σ τ)  :
    Keeps σ (execReplayWord τ) := by
  unfold execReplayWord
  try dsimp only
  repeat' first
    | with_reducible assumption
    | with_reducible apply Keeps.next
    | with_reducible apply replayWord_kept
    | with_reducible apply settle_kept

theorem execReplayEnd_kept {σ τ : State} (hk : Kept σ τ)  :
    Keeps σ (execReplayEnd τ) := by
  unfold execReplayEnd
  try dsimp only
  repeat' first
    | with_reducible assumption
    | with_reducible apply Keeps.next
    | with_reducible apply replayEnd_kept
    | with_reducible apply settle_kept

end Sys2Proof.Machine
end

