-- ==== Sys2Proof/Laws/Kept/Signal.lean ====
section
/-!
SUPPORT. What the operations of Signal.lean keep: the queue, and the legal fields of Safety.
-/

namespace Sys2Proof.Machine

theorem planFirstWord_kept {σ τ : State} (hk : Kept σ τ) (plan : Nat) :
    Kept σ (planFirstWord plan τ) := by
  unfold planFirstWord
  try dsimp only
  repeat' first
    | with_reducible assumption
    | with_reducible apply beginPlan_kept
    | with_reducible apply Kept.ite
    | split

theorem dutyWindow_kept {σ τ : State} (hk : Kept σ τ) (paused : Bool) (plan : Nat) :
    Kept σ (dutyWindow paused plan τ) := by
  unfold dutyWindow
  try dsimp only
  repeat' first
    | with_reducible assumption
    | with_reducible apply dutyStep_kept
    | with_reducible apply Kept.ite
    | split

theorem zoomOut_kept {σ τ : State} (hk : Kept σ τ) (n : Nat) :
    Kept σ (zoomOut n τ) := by
  unfold zoomOut
  try dsimp only
  repeat' first
    | with_reducible assumption
    | with_reducible apply exportWord_kept
    | with_reducible apply pushZoom_kept
    | with_reducible apply trigZoomWord_kept
    | with_reducible apply captureWord_kept
    | with_reducible apply slotAdvance_kept
    | with_reducible apply Kept.ite
    | split

theorem skimBlock_kept {σ τ : State} (hk : Kept σ τ) (n : Nat) (temp rms : BitVec 16) :
    Kept σ (skimBlock n temp rms τ) := by
  unfold skimBlock
  try dsimp only
  repeat' first
    | with_reducible assumption
    | with_reducible apply noteBlock_kept
    | with_reducible apply sendPair_kept
    | with_reducible apply modSkim_kept
    | with_reducible apply Kept.ite

theorem skimSolve_kept {σ τ : State} (hk : Kept σ τ) (n : Nat) (cand : List Int) (offered : Bool) :
    Kept σ (skimSolve n cand offered τ) := by
  unfold skimSolve
  try dsimp only
  repeat' first
    | with_reducible assumption
    | with_reducible apply modSkim_kept
    | with_reducible apply Kept.ite

theorem leaveForeground_kept {σ τ : State} (hk : Kept σ τ) (n : Nat) :
    Kept σ (leaveForeground n τ) := by
  unfold leaveForeground
  try dsimp only
  repeat' first
    | with_reducible assumption
    | with_reducible apply routePair_kept
    | with_reducible apply modSkim_kept
    | with_reducible apply modPair_kept

theorem foregroundDone_kept {σ τ : State} (hk : Kept σ τ) (n : Nat) (sets : List (List Int)) (trims : List Int) :
    Kept σ (foregroundDone n sets trims τ) := by
  unfold foregroundDone
  try dsimp only
  repeat' first
    | with_reducible assumption
    | with_reducible apply leaveForeground_kept
    | with_reducible apply modSkim_kept
    | fail_if_no_progress (with_reducible refine Kept.mk ?_ rfl ?_ ?_ ?_ ?_ ?_ ?_ ?_ ?_ ?_ ?_) <;> try ((with_reducible refine (?_ : _ = _)); first | rfl | (split <;> rfl))

theorem foregroundFails_kept {σ τ : State} (hk : Kept σ τ) (n : Nat) :
    Kept σ (foregroundFails n τ) := by
  unfold foregroundFails
  try dsimp only
  repeat' first
    | with_reducible assumption
    | with_reducible apply leaveForeground_kept
    | with_reducible apply freezeRecorder_kept
    | with_reducible apply sendPair_kept
    | with_reducible apply modSkim_kept

theorem foregroundRun_kept {σ τ : State} (hk : Kept σ τ) (n : Nat) :
    Kept σ (foregroundRun n τ) := by
  unfold foregroundRun
  try dsimp only
  repeat' first
    | with_reducible assumption
    | with_reducible apply completeDesc_kept
    | with_reducible apply Kept.ite
    | split
    | fail_if_no_progress (with_reducible refine Kept.mk ?_ rfl ?_ ?_ ?_ ?_ ?_ ?_ ?_ ?_ ?_ ?_) <;> try ((with_reducible refine (?_ : _ = _)); first | rfl | (split <;> rfl))

theorem foregroundEnd_kept {σ τ : State} (hk : Kept σ τ) (n : Nat) (sets : List (List Int)) (trims : List Int) :
    Kept σ (foregroundEnd n sets trims τ) := by
  unfold foregroundEnd
  try dsimp only
  repeat' first
    | with_reducible assumption
    | with_reducible apply foregroundRun_kept
    | with_reducible apply foregroundFails_kept
    | with_reducible apply foregroundDone_kept
    | with_reducible apply Kept.ite

theorem csuWindowEnd_kept {σ τ : State} (hk : Kept σ τ) : Kept σ (csuWindowEnd τ) := by
  unfold csuWindowEnd
  split
  · exact modCsu_kept hk _ fun x => Csu.windowEnd_windowLog2 x
  · exact hk

theorem releaseEvent_kept {σ τ : State} (hk : Kept σ τ) (n : Nat) :
    Kept σ (releaseEvent n τ) := by
  unfold releaseEvent
  try dsimp only
  repeat' first
    | with_reducible assumption
    | with_reducible apply onEvent_kept
    | with_reducible apply modUnit_kept
    | with_reducible apply Kept.ite
    | split

theorem forceFire_kept {σ τ : State} (hk : Kept σ τ) (n : Nat) :
    Kept σ (forceFire n τ) := by
  unfold forceFire
  try dsimp only
  repeat' first
    | with_reducible assumption
    | with_reducible apply autoForce_kept
    | with_reducible apply Kept.ite
    | split

theorem trigoutRises_kept {σ τ : State} (hk : Kept σ τ)  :
    Kept σ (trigoutRises τ) := by
  unfold trigoutRises
  try dsimp only
  repeat' first
    | with_reducible assumption
    | with_reducible apply trigoutFall_kept
    | with_reducible apply trigoutRise_kept
    | with_reducible apply modTrg_kept
    | with_reducible apply advanceToTick_kept
    | with_reducible apply Kept.ite
    | split

theorem trigoutFalls_kept {σ τ : State} (hk : Kept σ τ)  :
    Kept σ (trigoutFalls τ) := by
  unfold trigoutFalls
  try dsimp only
  repeat' first
    | with_reducible assumption
    | with_reducible apply trigoutFall_kept
    | with_reducible apply advanceToTick_kept
    | with_reducible apply Kept.ite

theorem execPlanFirstWord_kept {σ τ : State} (hk : Kept σ τ) (plan : BitVec 32) :
    Keeps σ (execPlanFirstWord plan τ) := by
  unfold execPlanFirstWord
  try dsimp only
  repeat' first
    | with_reducible assumption
    | with_reducible apply Keeps.next
    | with_reducible apply planFirstWord_kept
    | with_reducible apply settle_kept

theorem execPlanStopComplete_kept {σ τ : State} (hk : Kept σ τ) (plan : BitVec 32) :
    Keeps σ (execPlanStopComplete plan τ) := by
  unfold execPlanStopComplete
  try dsimp only
  repeat' first
    | with_reducible assumption
    | with_reducible apply Keeps.next
    | with_reducible apply settle_kept
    | with_reducible apply finishStop_kept

theorem execDutyWindowEnd_kept {σ τ : State} (hk : Kept σ τ) (plan : BitVec 32) :
    Keeps σ (execDutyWindowEnd plan τ) := by
  unfold execDutyWindowEnd
  try dsimp only
  repeat' first
    | with_reducible assumption
    | with_reducible apply Keeps.next
    | with_reducible apply dutyWindow_kept
    | with_reducible apply settle_kept

theorem execDutyWindowStart_kept {σ τ : State} (hk : Kept σ τ) (plan : BitVec 32) :
    Keeps σ (execDutyWindowStart plan τ) := by
  unfold execDutyWindowStart
  try dsimp only
  repeat' first
    | with_reducible assumption
    | with_reducible apply Keeps.next
    | with_reducible apply dutyWindow_kept
    | with_reducible apply settle_kept

theorem execIntDrainEnd_kept {σ τ : State} (hk : Kept σ τ) (plan : BitVec 32) :
    Keeps σ (execIntDrainEnd plan τ) := by
  unfold execIntDrainEnd
  try dsimp only
  repeat' first
    | with_reducible assumption
    | with_reducible apply Keeps.next
    | with_reducible apply settle_kept
    | with_reducible apply drainPlan_kept

theorem execSpectrumFormed_kept {σ τ : State} (hk : Kept σ τ) (plan : BitVec 32) (stream : BitVec 8) :
    Keeps σ (execSpectrumFormed plan stream τ) := by
  unfold execSpectrumFormed
  try dsimp only
  repeat' first
    | with_reducible assumption
    | with_reducible apply Keeps.next
    | with_reducible apply settle_kept
    | with_reducible apply formFrame_kept

theorem execTransformSwitch_kept {σ τ : State} (hk : Kept σ τ) (plan : BitVec 32) (stream : BitVec 8) :
    Keeps σ (execTransformSwitch plan stream τ) := by
  unfold execTransformSwitch
  try dsimp only
  repeat' first
    | with_reducible assumption
    | with_reducible apply Keeps.next
    | with_reducible apply settle_kept
    | with_reducible apply switchStream_kept

theorem execZoomWord_kept {σ τ : State} (hk : Kept σ τ) (slot : BitVec 5) :
    Keeps σ (execZoomWord slot τ) := by
  unfold execZoomWord
  try dsimp only
  repeat' first
    | with_reducible assumption
    | with_reducible apply Keeps.next
    | with_reducible apply zoomOut_kept
    | with_reducible apply settle_kept

theorem execZoomHop_kept {σ τ : State} (hk : Kept σ τ) (sub : Bool) (u : BitVec 5) :
    Keeps σ (execZoomHop sub u τ) := by
  unfold execZoomHop
  try dsimp only
  repeat' first
    | with_reducible assumption
    | with_reducible apply Keeps.next
    | with_reducible apply modNco_kept

theorem execZoomRetune_kept {σ τ : State} (hk : Kept σ τ) (sub : Bool) (u : BitVec 5) :
    Keeps σ (execZoomRetune sub u τ) := by
  unfold execZoomRetune
  try dsimp only
  repeat' first
    | with_reducible assumption
    | with_reducible apply Keeps.next
    | with_reducible apply modNco_kept

theorem execSkimBlock_kept {σ τ : State} (hk : Kept σ τ) (pair : BitVec 2) (temp rms : BitVec 16) :
    Keeps σ (execSkimBlock pair temp rms τ) := by
  unfold execSkimBlock
  try dsimp only
  repeat' first
    | with_reducible assumption
    | with_reducible apply Keeps.next
    | with_reducible apply skimBlock_kept
    | with_reducible apply settle_kept

theorem execSkimSolve_kept {σ τ : State} (hk : Kept σ τ) (pair : BitVec 2) (cand : List Int) (offered : Bool) :
    Keeps σ (execSkimSolve pair cand offered τ) := by
  unfold execSkimSolve
  try dsimp only
  repeat' first
    | with_reducible assumption
    | with_reducible apply Keeps.next
    | with_reducible apply skimSolve_kept

theorem execSkimFenceEnd_kept {σ τ : State} (hk : Kept σ τ) (pair : BitVec 2) :
    Keeps σ (execSkimFenceEnd pair τ) := by
  unfold execSkimFenceEnd
  try dsimp only
  repeat' first
    | with_reducible assumption
    | with_reducible apply Keeps.next
    | with_reducible apply modSkim_kept

theorem execSkimFenceExpired_kept {σ τ : State} (hk : Kept σ τ) (pair : BitVec 2) :
    Keeps σ (execSkimFenceExpired pair τ) := by
  unfold execSkimFenceExpired
  try dsimp only
  repeat' first
    | with_reducible assumption
    | with_reducible apply Keeps.next
    | with_reducible apply fenceExpire_kept
    | with_reducible apply settle_kept

theorem execForegroundEnd_kept {σ τ : State} (hk : Kept σ τ) (pair : BitVec 2) (sets : List (List Int)) (trims : List Int) :
    Keeps σ (execForegroundEnd pair sets trims τ) := by
  unfold execForegroundEnd
  try dsimp only
  repeat' first
    | with_reducible assumption
    | with_reducible apply Keeps.next
    | with_reducible apply foregroundEnd_kept
    | with_reducible apply settle_kept

theorem execCsuWindowEnd_kept {σ τ : State} (hk : Kept σ τ)  :
    Keeps σ (execCsuWindowEnd τ) := by
  unfold execCsuWindowEnd
  try dsimp only
  repeat' first
    | with_reducible assumption
    | with_reducible apply Keeps.next
    | with_reducible apply csuWindowEnd_kept

theorem execAmcSlotComplete_kept {σ τ : State} (hk : Kept σ τ) (sum : Int) : Keeps σ (execAmcSlotComplete sum τ) :=
  Keeps.next (modAmc_kept hk _ fun x => Amc.complete_trimSel sum x)

theorem execAmcUrgentRequest_kept {σ τ : State} (hk : Kept σ τ) (hedge : Bool) (channel trim : BitVec 5) :
    Keeps σ (execAmcUrgentRequest hedge channel trim τ) :=
  Keeps.next (modAmc_kept hk _ fun x => Amc.request_trimSel _ x)

theorem execTriggerEventRelease_kept {σ τ : State} (hk : Kept σ τ) (u : BitVec 3) :
    Keeps σ (execTriggerEventRelease u τ) := by
  unfold execTriggerEventRelease
  try dsimp only
  repeat' first
    | with_reducible assumption
    | with_reducible apply Keeps.next
    | with_reducible apply releaseEvent_kept
    | with_reducible apply settle_kept

theorem execAutoForce_kept {σ τ : State} (hk : Kept σ τ) (u : BitVec 3) :
    Keeps σ (execAutoForce u τ) := by
  unfold execAutoForce
  try dsimp only
  repeat' first
    | with_reducible assumption
    | with_reducible apply Keeps.next
    | with_reducible apply forceFire_kept
    | with_reducible apply settle_kept

theorem execMissedTriggerDelivery_kept {σ τ : State} (hk : Kept σ τ) (u : BitVec 3) :
    Keeps σ (execMissedTriggerDelivery u τ) := by
  unfold execMissedTriggerDelivery
  try dsimp only
  repeat' first
    | with_reducible assumption
    | with_reducible apply Keeps.next
    | with_reducible apply settle_kept
    | with_reducible apply deliverMissed_kept

theorem execCaptureSegmentClose_kept {σ τ : State} (hk : Kept σ τ) (plan : BitVec 32) (slot : BitVec 3) :
    Keeps σ (execCaptureSegmentClose plan slot τ) := by
  unfold execCaptureSegmentClose
  try dsimp only
  repeat' first
    | with_reducible assumption
    | with_reducible apply Keeps.next
    | with_reducible apply settle_kept
    | with_reducible apply closeDue_kept

theorem execCaptureRearm_kept {σ τ : State} (hk : Kept σ τ) (plan : BitVec 32) (slot : BitVec 3) :
    Keeps σ (execCaptureRearm plan slot τ) := by
  unfold execCaptureRearm
  try dsimp only
  repeat' first
    | with_reducible assumption
    | with_reducible apply Keeps.next
    | with_reducible apply rearmDue_kept

theorem execTrigoutRise_kept {σ τ : State} (hk : Kept σ τ)  :
    Keeps σ (execTrigoutRise τ) := by
  unfold execTrigoutRise
  try dsimp only
  repeat' first
    | with_reducible assumption
    | with_reducible apply Keeps.next
    | with_reducible apply trigoutRises_kept
    | with_reducible apply settle_kept

theorem execTrigoutFall_kept {σ τ : State} (hk : Kept σ τ)  :
    Keeps σ (execTrigoutFall τ) := by
  unfold execTrigoutFall
  try dsimp only
  repeat' first
    | with_reducible assumption
    | with_reducible apply Keeps.next
    | with_reducible apply trigoutFalls_kept
    | with_reducible apply settle_kept

end Sys2Proof.Machine
end

