-- ==== Sys2Proof/Laws/Kept/Timing.lean ====
section
/-!
SUPPORT. What the operations of Timing.lean keep: the queue, and the legal fields of Safety.
-/

namespace Sys2Proof.Machine

theorem modGate_kept {σ τ : State} (hk : Kept σ τ) (pin : Nat) (f : Gate → Gate) :
    Kept σ (modGate pin f τ) := by
  exact hk.same rfl rfl rfl rfl rfl rfl rfl rfl rfl rfl rfl

theorem openGate_kept {σ τ : State} (hk : Kept σ τ) (pin e : Nat) (phase : GatePhase) :
    Kept σ (openGate pin e phase τ) := by
  unfold openGate
  try dsimp only
  repeat' first
    | with_reducible assumption
    | with_reducible apply modGate_kept

theorem gateCloses_kept {σ τ : State} (hk : Kept σ τ) (pin tick : Nat) (maxed : Bool) :
    Kept σ (gateCloses pin tick maxed τ) := by
  unfold gateCloses
  try dsimp only
  repeat' first
    | with_reducible assumption
    | with_reducible apply trigGate_kept
    | with_reducible apply closeGate_kept
    | with_reducible apply Kept.ite

theorem gateDue_kept {σ τ : State} (hk : Kept σ τ) (pin t : Nat) :
    Kept σ (gateDue pin t τ) := by
  unfold gateDue
  try dsimp only
  repeat' first
    | with_reducible assumption
    | with_reducible apply gateCloses_kept
    | with_reducible apply openGate_kept
    | with_reducible apply Kept.ite
    | split

theorem gatesDue_kept {σ τ : State} (hk : Kept σ τ) (t : Nat) :
    Kept σ (gatesDue t τ) := by
  unfold gatesDue
  try dsimp only
  repeat' first
    | (with_reducible intro _; try dsimp only)
    | with_reducible assumption
    | with_reducible apply gateDue_kept
    | with_reducible apply Kept.foldl

theorem gateEdge_kept {σ τ : State} (hk : Kept σ τ) (pin : Nat) (level : Bool) (tick : Nat) :
    Kept σ (gateEdge pin level tick τ) := by
  unfold gateEdge
  try dsimp only
  repeat' first
    | with_reducible assumption
    | with_reducible apply gatesDue_kept
    | with_reducible apply openGate_kept
    | with_reducible apply modGate_kept
    | with_reducible apply advanceToTick_kept
    | with_reducible apply Kept.ite
    | split

theorem gateStep_kept {σ τ : State} (hk : Kept σ τ) (pin : Nat) (p : Gate → Bool) :
    Kept σ (gateStep pin p τ) := by
  unfold gateStep
  try dsimp only
  repeat' first
    | with_reducible assumption
    | with_reducible apply gateDue_kept
    | with_reducible apply advanceToTick_kept
    | with_reducible apply Kept.ite
    | split

theorem tdcWrap_kept {σ τ : State} (hk : Kept σ τ)  :
    Kept σ (tdcWrap τ) := by
  unfold tdcWrap
  try dsimp only
  repeat' first
    | with_reducible assumption
    | with_reducible apply tdcMarkAll_kept
    | with_reducible apply advanceToTick_kept
    | with_reducible apply Kept.ite

theorem toTick_kept {σ τ : State} (hk : Kept σ τ) (t : Nat) :
    Kept σ (toTick t τ) := by
  unfold toTick
  try dsimp only
  repeat' first
    | with_reducible assumption
    | with_reducible apply tdcWrap_kept
    | with_reducible apply advanceToTick_kept
    | with_reducible apply Kept.ite

theorem applyAtEdge_kept {σ τ : State} (hk : Kept σ τ) (p : SetPending) (sub : Nat) :
    Kept σ (applyAtEdge p sub τ) := by
  unfold applyAtEdge
  try dsimp only
  repeat' first
    | with_reducible assumption
    | with_reducible apply setDeviceTime_kept
    | with_reducible apply completeDesc_kept

theorem ppsEdge_kept {σ τ : State} (hk : Kept σ τ) (tick sub : Nat) :
    Kept σ (ppsEdge tick sub τ) := by
  unfold ppsEdge
  try dsimp only
  repeat' first
    | with_reducible assumption
    | with_reducible apply applyAtEdge_kept
    | with_reducible apply judgePps_kept
    | with_reducible apply Kept.ite
    | split

theorem edgeArrives_kept {σ τ : State} (hk : Kept σ τ) (ch tick sub : Nat) (rising : Bool) (taken : Nat) :
    Kept σ (edgeArrives ch tick sub rising taken τ) := by
  unfold edgeArrives
  try dsimp only
  repeat' first
    | with_reducible assumption
    | with_reducible apply ppsEdge_kept
    | with_reducible apply toTick_kept
    | with_reducible apply gatesDue_kept
    | with_reducible apply trigStamp_kept
    | with_reducible apply stampEdge_kept
    | with_reducible apply takeStamps_kept
    | with_reducible apply Kept.ite

theorem stampsClose_kept {σ τ : State} (hk : Kept σ τ) (ch taken : Nat) :
    Kept σ (stampsClose ch taken τ) := by
  unfold stampsClose
  try dsimp only
  repeat' first
    | with_reducible assumption
    | with_reducible apply takeStamps_kept
    | with_reducible apply closeStamps_kept
    | with_reducible apply advanceToTick_kept
    | split

theorem calibrationDue_kept {σ τ : State} (hk : Kept σ τ) (ch tick rawOne rawTwo temp : Nat) :
    Kept σ (calibrationDue ch tick rawOne rawTwo temp τ) := by
  unfold calibrationDue
  try dsimp only
  repeat' first
    | with_reducible assumption
    | with_reducible apply toTick_kept
    | with_reducible apply calibrate_kept
    | with_reducible apply Kept.ite

theorem ppsLost_kept {σ τ : State} (hk : Kept σ τ)  :
    Kept σ (ppsLost τ) := by
  unfold ppsLost
  try dsimp only
  repeat' first
    | (with_reducible intro _; try dsimp only)
    | with_reducible assumption
    | with_reducible apply advanceToTick_kept
    | with_reducible apply modTim_kept
    | with_reducible apply sendAll_kept
    | with_reducible apply Kept.ite

theorem ppsOutLow_kept {σ τ : State} (hk : Kept σ τ) (tick : Nat) :
    Kept σ (ppsOutLow tick τ) := by
  unfold ppsOutLow
  try dsimp only
  repeat' first
    | (with_reducible intro _; try dsimp only)
    | with_reducible assumption
    | with_reducible apply modTim_kept
    | with_reducible apply emit_kept
    | with_reducible apply Kept.ite

theorem ppsOutRise_kept {σ τ : State} (hk : Kept σ τ)  :
    Kept σ (ppsOutRise τ) := by
  unfold ppsOutRise
  try dsimp only
  repeat' first
    | (with_reducible intro _; try dsimp only)
    | with_reducible assumption
    | with_reducible apply advanceToTick_kept
    | with_reducible apply modTim_kept
    | with_reducible apply emit_kept
    | with_reducible apply Kept.ite

theorem ppsOutFall_kept {σ τ : State} (hk : Kept σ τ)  :
    Kept σ (ppsOutFall τ) := by
  unfold ppsOutFall
  try dsimp only
  repeat' first
    | with_reducible assumption
    | with_reducible apply ppsOutLow_kept
    | with_reducible apply advanceToTick_kept
    | with_reducible apply Kept.ite

theorem anchorAt_kept {σ τ : State} (hk : Kept σ τ) (k : Nat) (meas : Option (Nat × Nat)) :
    Kept σ (anchorAt k meas τ) := by
  unfold anchorAt
  try dsimp only
  repeat' first
    | (with_reducible intro _; try dsimp only)
    | with_reducible assumption
    | with_reducible apply freezeRecorder_kept
    | with_reducible apply emitAnchor_kept
    | with_reducible apply modTim_kept
    | with_reducible apply sendAll_kept
    | with_reducible apply Kept.ite

theorem timeAnchor_kept {σ τ : State} (hk : Kept σ τ) (meas : Option (Nat × Nat)) :
    Kept σ (timeAnchor meas τ) := by
  unfold timeAnchor
  try dsimp only
  repeat' first
    | with_reducible assumption
    | with_reducible apply anchorAt_kept
    | with_reducible apply advanceToTime_kept
    | with_reducible apply Kept.ite

theorem freeTaps_kept {σ τ : State} (hk : Kept σ τ) (n : Nat) : Kept σ (freeTaps n τ).2 := by
  induction n generalizing τ with
  | zero => exact hk
  | succ n ih => exact ih (freshValue_kept hk 32)

theorem rateCommit_kept {σ τ : State} (hk : Kept σ τ) (n : Nat) :
    Kept σ (rateCommit n τ) := by
  unfold rateCommit
  try dsimp only
  repeat' first
    | with_reducible assumption
    | with_reducible apply freeTaps_kept
    | with_reducible apply modSkim_kept

theorem relock_kept {σ τ : State} (hk : Kept σ τ) (offset : Nat) :
    Kept σ (relock offset τ) := by
  unfold relock
  try dsimp only
  repeat' first
    | (with_reducible intro _; try dsimp only)
    | with_reducible assumption
    | with_reducible apply rateCommit_kept
    | with_reducible apply modAdc_kept
    | with_reducible apply emitAnchor_kept
    | with_reducible apply modTim_kept
    | with_reducible apply Kept.foldl
    | ((with_reducible refine (?_ : _ = _)); rfl)

theorem spllRelock_kept {σ τ : State} (hk : Kept σ τ) (offset : Nat) :
    Kept σ (spllRelock offset τ) := by
  unfold spllRelock
  try dsimp only
  repeat' first
    | with_reducible assumption
    | with_reducible apply relock_kept
    | with_reducible apply Kept.ite

theorem refclkLost_kept {σ τ : State} (hk : Kept σ τ)  :
    Kept σ (refclkLost τ) := by
  unfold refclkLost
  try dsimp only
  repeat' first
    | (with_reducible intro _; try dsimp only)
    | with_reducible assumption
    | with_reducible apply freezeRecorder_kept
    | with_reducible apply modTim_kept
    | with_reducible apply sendAll_kept
    | with_reducible apply Kept.ite

theorem refclkRestored_kept {σ τ : State} (hk : Kept σ τ) (ok : Bool) :
    Kept σ (refclkRestored ok τ) := by
  unfold refclkRestored
  try dsimp only
  repeat' first
    | (with_reducible intro _; try dsimp only)
    | with_reducible assumption
    | with_reducible apply modTim_kept
    | with_reducible apply sendAll_kept
    | with_reducible apply Kept.ite

theorem sclkLost_kept {σ τ : State} (hk : Kept σ τ)  :
    Kept σ (sclkLost τ) := by
  unfold sclkLost
  try dsimp only
  repeat' first
    | (with_reducible intro _; try dsimp only)
    | with_reducible assumption
    | with_reducible apply freezeRecorder_kept
    | with_reducible apply lostBegins_kept
    | with_reducible apply modTim_kept
    | with_reducible apply sendAll_kept
    | with_reducible apply Kept.ite
    | split
    | fail_if_no_progress (with_reducible refine Kept.mk ?_ rfl ?_ ?_ ?_ ?_ ?_ ?_ ?_ ?_ ?_ ?_) <;> try ((with_reducible refine (?_ : _ = _)); first | rfl | (split <;> rfl))

theorem sclkRestored_kept {σ τ : State} (hk : Kept σ τ) (offset : Nat) :
    Kept σ (sclkRestored offset τ) := by
  unfold sclkRestored
  try dsimp only
  repeat' first
    | with_reducible assumption
    | with_reducible apply relock_kept
    | with_reducible apply sendAll_kept
    | with_reducible apply Kept.ite
    | fail_if_no_progress (with_reducible refine Kept.mk ?_ rfl ?_ ?_ ?_ ?_ ?_ ?_ ?_ ?_ ?_ ?_) <;> try ((with_reducible refine (?_ : _ = _)); first | rfl | (split <;> rfl))

theorem heartbeatWrite_kept {σ τ : State} (hk : Kept σ τ)  :
    Kept σ (heartbeatWrite τ) := by
  unfold heartbeatWrite
  try dsimp only
  repeat' first
    | with_reducible assumption
    | with_reducible apply heartbeat_kept
    | with_reducible apply advanceToTick_kept
    | with_reducible apply Kept.ite

theorem idleTick_kept {σ τ : State} (hk : Kept σ τ)  :
    Kept σ (idleTick τ) := by
  unfold idleTick
  try dsimp only
  repeat' first
    | with_reducible assumption
    | with_reducible apply tdcMarkAll_kept
    | with_reducible apply tick_kept
    | with_reducible apply Kept.ite

theorem execTimeWaitRelease_kept {σ τ : State} (hk : Kept σ τ)  :
    Keeps σ (execTimeWaitRelease τ) := by
  unfold execTimeWaitRelease
  try dsimp only
  repeat' first
    | with_reducible assumption
    | with_reducible apply Keeps.next
    | with_reducible apply releaseTimeWait_kept

theorem execSetTimePpsTimeout_kept {σ τ : State} (hk : Kept σ τ)  :
    Keeps σ (execSetTimePpsTimeout τ) := by
  unfold execSetTimePpsTimeout
  try dsimp only
  repeat' first
    | with_reducible assumption
    | with_reducible apply Keeps.next
    | with_reducible apply settle_kept
    | with_reducible apply setTimePpsTimeout_kept

theorem execPpsInEdge_kept {σ τ : State} (hk : Kept σ τ) (tick : BitVec 64) (sub : Nat) (rising : Bool) (taken : Nat) :
    Keeps σ (execPpsInEdge tick sub rising taken τ) := by
  unfold execPpsInEdge
  try dsimp only
  repeat' first
    | with_reducible assumption
    | with_reducible apply Keeps.next
    | with_reducible apply edgeArrives_kept
    | with_reducible apply settle_kept

theorem execPpsLost_kept {σ τ : State} (hk : Kept σ τ)  :
    Keeps σ (execPpsLost τ) := by
  unfold execPpsLost
  try dsimp only
  repeat' first
    | with_reducible assumption
    | with_reducible apply Keeps.next
    | with_reducible apply ppsLost_kept
    | with_reducible apply settle_kept

theorem execPpsOutRise_kept {σ τ : State} (hk : Kept σ τ)  :
    Keeps σ (execPpsOutRise τ) := by
  unfold execPpsOutRise
  try dsimp only
  repeat' first
    | with_reducible assumption
    | with_reducible apply Keeps.next
    | with_reducible apply ppsOutRise_kept
    | with_reducible apply settle_kept

theorem execPpsOutFall_kept {σ τ : State} (hk : Kept σ τ)  :
    Keeps σ (execPpsOutFall τ) := by
  unfold execPpsOutFall
  try dsimp only
  repeat' first
    | with_reducible assumption
    | with_reducible apply Keeps.next
    | with_reducible apply ppsOutFall_kept
    | with_reducible apply settle_kept

theorem execTimeAnchor_kept {σ τ : State} (hk : Kept σ τ) (meas : Option (Nat × Nat)) :
    Keeps σ (execTimeAnchor meas τ) := by
  unfold execTimeAnchor
  try dsimp only
  repeat' first
    | with_reducible assumption
    | with_reducible apply Keeps.next
    | with_reducible apply timeAnchor_kept
    | with_reducible apply settle_kept

theorem execTdcWrap_kept {σ τ : State} (hk : Kept σ τ)  :
    Keeps σ (execTdcWrap τ) := by
  unfold execTdcWrap
  try dsimp only
  repeat' first
    | with_reducible assumption
    | with_reducible apply Keeps.next
    | with_reducible apply tdcWrap_kept
    | with_reducible apply settle_kept

theorem execTdcEdge_kept {σ τ : State} (hk : Kept σ τ) (ch : BitVec 3) (tick : BitVec 64) (sub : Nat) (rising : Bool) (taken : Nat) :
    Keeps σ (execTdcEdge ch tick sub rising taken τ) := by
  unfold execTdcEdge
  try dsimp only
  repeat' first
    | with_reducible assumption
    | with_reducible apply Keeps.next
    | with_reducible apply edgeArrives_kept
    | with_reducible apply settle_kept

theorem execTdcStampsClose_kept {σ τ : State} (hk : Kept σ τ) (ch : BitVec 3) (taken : Nat) :
    Keeps σ (execTdcStampsClose ch taken τ) := by
  unfold execTdcStampsClose
  try dsimp only
  repeat' first
    | with_reducible assumption
    | with_reducible apply Keeps.next
    | with_reducible apply stampsClose_kept
    | with_reducible apply settle_kept

theorem execTdcCalibration_kept {σ τ : State} (hk : Kept σ τ) (ch : BitVec 3) (tick : BitVec 64) (rawOne rawTwo : BitVec 32) (temp : BitVec 16) :
    Keeps σ (execTdcCalibration ch tick rawOne rawTwo temp τ) := by
  unfold execTdcCalibration
  try dsimp only
  repeat' first
    | with_reducible assumption
    | with_reducible apply Keeps.next
    | with_reducible apply calibrationDue_kept
    | with_reducible apply settle_kept

theorem execGateEdge_kept {σ τ : State} (hk : Kept σ τ) (gate : BitVec 1) (level : Bool) (tick : BitVec 64) :
    Keeps σ (execGateEdge gate level tick τ) := by
  unfold execGateEdge
  try dsimp only
  repeat' first
    | with_reducible assumption
    | with_reducible apply Keeps.next
    | with_reducible apply gateEdge_kept
    | with_reducible apply settle_kept

theorem execGateOpen_kept {σ τ : State} (hk : Kept σ τ) (gate : BitVec 1) :
    Keeps σ (execGateOpen gate τ) := by
  unfold execGateOpen
  try dsimp only
  repeat' first
    | with_reducible assumption
    | with_reducible apply Keeps.next
    | with_reducible apply gateStep_kept
    | with_reducible apply settle_kept

theorem execGateClose_kept {σ τ : State} (hk : Kept σ τ) (gate : BitVec 1) :
    Keeps σ (execGateClose gate τ) := by
  unfold execGateClose
  try dsimp only
  repeat' first
    | with_reducible assumption
    | with_reducible apply Keeps.next
    | with_reducible apply gateStep_kept
    | with_reducible apply settle_kept

theorem execGateMaxDuration_kept {σ τ : State} (hk : Kept σ τ) (gate : BitVec 1) :
    Keeps σ (execGateMaxDuration gate τ) := by
  unfold execGateMaxDuration
  try dsimp only
  repeat' first
    | with_reducible assumption
    | with_reducible apply Keeps.next
    | with_reducible apply gateStep_kept
    | with_reducible apply settle_kept

theorem execRefclkLost_kept {σ τ : State} (hk : Kept σ τ)  :
    Keeps σ (execRefclkLost τ) := by
  unfold execRefclkLost
  try dsimp only
  repeat' first
    | with_reducible assumption
    | with_reducible apply Keeps.next
    | with_reducible apply refclkLost_kept
    | with_reducible apply settle_kept

theorem execRefclkRestored_kept {σ τ : State} (hk : Kept σ τ) (ok : Bool) :
    Keeps σ (execRefclkRestored ok τ) := by
  unfold execRefclkRestored
  try dsimp only
  repeat' first
    | with_reducible assumption
    | with_reducible apply Keeps.next
    | with_reducible apply refclkRestored_kept
    | with_reducible apply settle_kept

theorem execRefOkChange_kept {σ τ : State} (hk : Kept σ τ) (ok : Bool) :
    Keeps σ (execRefOkChange ok τ) := by
  unfold execRefOkChange
  try dsimp only
  repeat' first
    | (with_reducible intro _; try dsimp only)
    | with_reducible assumption
    | with_reducible apply Keeps.next
    | with_reducible apply modTim_kept
    | with_reducible apply Kept.ite

theorem execSclkLost_kept {σ τ : State} (hk : Kept σ τ)  :
    Keeps σ (execSclkLost τ) := by
  unfold execSclkLost
  try dsimp only
  repeat' first
    | with_reducible assumption
    | with_reducible apply Keeps.next
    | with_reducible apply sclkLost_kept
    | with_reducible apply settle_kept

theorem execSclkRestored_kept {σ τ : State} (hk : Kept σ τ) (offset : BitVec 32) :
    Keeps σ (execSclkRestored offset τ) := by
  unfold execSclkRestored
  try dsimp only
  repeat' first
    | with_reducible assumption
    | with_reducible apply Keeps.next
    | with_reducible apply sclkRestored_kept
    | with_reducible apply settle_kept

theorem execSpllRelock_kept {σ τ : State} (hk : Kept σ τ) (offset : BitVec 32) :
    Keeps σ (execSpllRelock offset τ) := by
  unfold execSpllRelock
  try dsimp only
  repeat' first
    | with_reducible assumption
    | with_reducible apply Keeps.next
    | with_reducible apply spllRelock_kept
    | with_reducible apply settle_kept

theorem execHeartbeatWrite_kept {σ τ : State} (hk : Kept σ τ)  :
    Keeps σ (execHeartbeatWrite τ) := by
  unfold execHeartbeatWrite
  try dsimp only
  repeat' first
    | with_reducible assumption
    | with_reducible apply Keeps.next
    | with_reducible apply heartbeatWrite_kept
    | with_reducible apply settle_kept

end Sys2Proof.Machine
end

