-- ==== Sys2Proof/Laws/Kept/HostEvents.lean ====
section
/-!
SUPPORT. What the operations of HostEvents.lean keep: the queue, and the legal fields of Safety.
-/

namespace Sys2Proof.Machine

theorem changeStep_kept {σ τ : State} (hk : Kept σ τ) (ph : ChangePhase) (f : State → State) (hf : ∀ u, Kept σ u → Kept σ (f u)) :
    Kept σ (changeStep ph f τ) := by
  unfold changeStep
  try dsimp only
  repeat' first
    | with_reducible assumption
    | with_reducible apply hf
    | with_reducible apply Kept.ite

theorem changeEnds_kept {σ τ : State} (hk : Kept σ τ)  :
    Kept σ (changeEnds τ) := by
  unfold changeEnds
  try dsimp only
  repeat' first
    | with_reducible assumption
    | with_reducible apply beginRebuild_kept
    | with_reducible apply changeDone_kept
    | with_reducible apply lostEnds_kept
    | with_reducible apply Kept.ite

theorem execModeChangeDrain_kept {σ τ : State} (hk : Kept σ τ)  :
    Keeps σ (execModeChangeDrain τ) := by
  unfold execModeChangeDrain
  try dsimp only
  repeat' first
    | (with_reducible intro _; try dsimp only)
    | with_reducible assumption
    | with_reducible apply Keeps.next
    | with_reducible apply changeStep_kept
    | with_reducible apply settle_kept
    | with_reducible apply changeDrain_kept

theorem execModeChangeFlush_kept {σ τ : State} (hk : Kept σ τ)  :
    Keeps σ (execModeChangeFlush τ) := by
  unfold execModeChangeFlush
  try dsimp only
  repeat' first
    | (with_reducible intro _; try dsimp only)
    | with_reducible assumption
    | with_reducible apply Keeps.next
    | with_reducible apply changeStep_kept
    | with_reducible apply settle_kept
    | with_reducible apply changeFlush_kept

theorem execModeChangeRepartition_kept {σ τ : State} (hk : Kept σ τ)  :
    Keeps σ (execModeChangeRepartition τ) := by
  unfold execModeChangeRepartition
  try dsimp only
  repeat' first
    | (with_reducible intro _; try dsimp only)
    | with_reducible assumption
    | with_reducible apply Keeps.next
    | with_reducible apply changeStep_kept
    | with_reducible apply retireChannels_kept
    | with_reducible apply settle_kept
    | with_reducible apply changeRepartition_kept

theorem execModeChangeRecheck_kept {σ τ : State} (hk : Kept σ τ)  :
    Keeps σ (execModeChangeRecheck τ) := by
  unfold execModeChangeRecheck
  try dsimp only
  repeat' first
    | (with_reducible intro _; try dsimp only)
    | with_reducible assumption
    | with_reducible apply Keeps.next
    | with_reducible apply changeStep_kept
    | with_reducible apply settle_kept
    | with_reducible apply changeRecheck_kept

theorem execModeChanged_kept {σ τ : State} (hk : Kept σ τ)  :
    Keeps σ (execModeChanged τ) := by
  unfold execModeChanged
  try dsimp only
  repeat' first
    | (with_reducible intro _; try dsimp only)
    | with_reducible assumption
    | with_reducible apply Keeps.next
    | with_reducible apply changeEnds_kept
    | with_reducible apply changeStep_kept
    | with_reducible apply settle_kept

theorem execContextTeardownComplete_kept {σ τ : State} (hk : Kept σ τ) (ctx : BitVec 10) :
    Keeps σ (execContextTeardownComplete ctx τ) := by
  unfold execContextTeardownComplete
  try dsimp only
  repeat' first
    | with_reducible assumption
    | with_reducible apply Keeps.next
    | with_reducible apply settle_kept
    | with_reducible apply finishTeardown_kept

theorem execSpuStopTakesEffect_kept {σ τ : State} (hk : Kept σ τ) (n : BitVec 4) :
    Keeps σ (execSpuStopTakesEffect n τ) := by
  unfold execSpuStopTakesEffect
  try dsimp only
  repeat' first
    | with_reducible assumption
    | with_reducible apply Keeps.next
    | with_reducible apply settle_kept
    | with_reducible apply stopTakes_kept

theorem execHstDbCmd_kept {σ τ : State} (hk : Kept σ τ) (fn : BitVec 7) (page : BitVec 10) (v : BitVec 32) :
    Keeps σ (execHstDbCmd fn page v τ) := by
  unfold execHstDbCmd
  try dsimp only
  repeat' first
    | with_reducible assumption
    | with_reducible apply Keeps.next
    | with_reducible apply settle_kept
    | with_reducible apply dbCmd_kept

theorem execHstDbCpl_kept {σ τ : State} (hk : Kept σ τ) (fn : BitVec 7) (page : BitVec 10) (v : BitVec 32) :
    Keeps σ (execHstDbCpl fn page v τ) := by
  unfold execHstDbCpl
  try dsimp only
  repeat' first
    | with_reducible assumption
    | with_reducible apply Keeps.next
    | with_reducible apply settle_kept
    | with_reducible apply dbCpl_kept

theorem execHstDbEvt_kept {σ τ : State} (hk : Kept σ τ) (fn : BitVec 7) (page : BitVec 10) (v : BitVec 32) :
    Keeps σ (execHstDbEvt fn page v τ) := by
  unfold execHstDbEvt
  try dsimp only
  repeat' first
    | with_reducible assumption
    | with_reducible apply Keeps.next
    | with_reducible apply settle_kept
    | with_reducible apply dbEvt_kept

theorem execHstDbData_kept {σ τ : State} (hk : Kept σ τ) (fn : BitVec 7) (page : BitVec 10) (r : BitVec 3) (v : BitVec 32) :
    Keeps σ (execHstDbData fn page r v τ) := by
  unfold execHstDbData
  try dsimp only
  repeat' first
    | with_reducible assumption
    | with_reducible apply Keeps.next
    | with_reducible apply settle_kept
    | with_reducible apply dbData_kept

theorem execInterruptModTimer_kept {σ τ : State} (hk : Kept σ τ) (ctx : BitVec 10) (ring : BitVec 4) :
    Keeps σ (execInterruptModTimer ctx ring τ) := by
  unfold execInterruptModTimer
  try dsimp only
  repeat' first
    | with_reducible assumption
    | with_reducible apply Keeps.next
    | with_reducible apply settle_kept
    | with_reducible apply signalTimer_kept

theorem execDescriptorFetchError_kept {σ τ : State} (hk : Kept σ τ) (ctx : BitVec 10) :
    Keeps σ (execDescriptorFetchError ctx τ) := by
  unfold execDescriptorFetchError
  try dsimp only
  repeat' first
    | with_reducible assumption
    | with_reducible apply Keeps.next
    | with_reducible apply settle_kept
    | with_reducible apply startTeardown_kept

theorem functionReset_kept {σ τ : State} (hk : Kept σ τ) (f : Nat) :
    Kept σ (functionReset f τ) := by
  unfold functionReset
  try dsimp only
  repeat' first
    | with_reducible assumption
    | with_reducible apply tearFunction_kept
    | with_reducible apply modHost_kept

theorem execFunctionLevelReset_kept {σ τ : State} (hk : Kept σ τ) (fn : BitVec 7) :
    Keeps σ (execFunctionLevelReset fn τ) := by
  unfold execFunctionLevelReset
  try dsimp only
  repeat' first
    | with_reducible assumption
    | with_reducible apply Keeps.next
    | with_reducible apply functionReset_kept
    | with_reducible apply settle_kept

theorem execBusMasterEnableClear_kept {σ τ : State} (hk : Kept σ τ) (fn : BitVec 7) :
    Keeps σ (execBusMasterEnableClear fn τ) := by
  unfold execBusMasterEnableClear
  try dsimp only
  repeat' first
    | with_reducible assumption
    | with_reducible apply Keeps.next
    | with_reducible apply settle_kept
    | with_reducible apply tearFunction_kept

theorem execVfEnableClear_kept {σ τ : State} (hk : Kept σ τ) (port : BitVec 1) :
    Keeps σ (execVfEnableClear port τ) := by
  unfold execVfEnableClear
  try dsimp only
  repeat' first
    | with_reducible assumption
    | with_reducible apply Keeps.next
    | with_reducible apply settle_kept
    | with_reducible apply tearPort_kept

theorem portReset_kept {σ τ : State} (hk : Kept σ τ) (p : Nat) (asserted : Bool) :
    Kept σ (portReset p asserted τ) := by
  unfold portReset
  try dsimp only
  repeat' first
    | with_reducible assumption
    | with_reducible apply leaveTest_kept
    | with_reducible apply linkDown_kept
    | with_reducible apply modPort_kept
    | with_reducible apply Kept.ite

theorem execLinkDown_kept {σ τ : State} (hk : Kept σ τ) (port : BitVec 1) :
    Keeps σ (execLinkDown port τ) := by
  unfold execLinkDown
  try dsimp only
  repeat' first
    | with_reducible assumption
    | with_reducible apply Keeps.next
    | with_reducible apply settle_kept
    | with_reducible apply linkDown_kept
    | with_reducible apply Kept.ite

theorem execHotReset_kept {σ τ : State} (hk : Kept σ τ) (port : BitVec 1) :
    Keeps σ (execHotReset port τ) := by
  unfold execHotReset
  try dsimp only
  repeat' first
    | with_reducible assumption
    | with_reducible apply Keeps.next
    | with_reducible apply settle_kept
    | with_reducible apply linkDown_kept
    | with_reducible apply Kept.ite

theorem execPerst_kept {σ τ : State} (hk : Kept σ τ) (port : BitVec 1) (asserted : Bool) :
    Keeps σ (execPerst port asserted τ) := by
  unfold execPerst
  try dsimp only
  repeat' first
    | with_reducible assumption
    | with_reducible apply Keeps.next
    | with_reducible apply portReset_kept
    | with_reducible apply settle_kept

theorem execPcieRefclkLoss_kept {σ τ : State} (hk : Kept σ τ) (port : BitVec 1) :
    Keeps σ (execPcieRefclkLoss port τ) := by
  unfold execPcieRefclkLoss
  try dsimp only
  repeat' first
    | with_reducible assumption
    | with_reducible apply Keeps.next
    | with_reducible apply settle_kept
    | with_reducible apply portClockLoss_kept

theorem execPcieRefclkRestored_kept {σ τ : State} (hk : Kept σ τ) (port : BitVec 1) :
    Keeps σ (execPcieRefclkRestored port τ) := by
  unfold execPcieRefclkRestored
  try dsimp only
  repeat' first
    | with_reducible assumption
    | with_reducible apply Keeps.next
    | with_reducible apply modPort_kept

theorem execLinkTraining_kept {σ τ : State} (hk : Kept σ τ) (port : BitVec 1) (rate : BitVec 3) (width : BitVec 5) (recoveries : Nat) (lanes : List LaneTraining) :
    Keeps σ (execLinkTraining port rate width recoveries lanes τ) := by
  unfold execLinkTraining
  try dsimp only
  repeat' first
    | with_reducible assumption
    | with_reducible apply Keeps.next
    | with_reducible apply settle_kept
    | with_reducible apply trainLink_kept

theorem execL0sEntry_kept {σ τ : State} (hk : Kept σ τ) (port : BitVec 1) :
    Keeps σ (execL0sEntry port τ) := by
  unfold execL0sEntry
  try dsimp only
  repeat' first
    | with_reducible assumption
    | with_reducible apply Keeps.next
    | with_reducible apply enterL0s_kept

theorem execRxL0sEntry_kept {σ τ : State} (hk : Kept σ τ) (port : BitVec 1) :
    Keeps σ (execRxL0sEntry port τ) := by
  unfold execRxL0sEntry
  try dsimp only
  repeat' first
    | with_reducible assumption
    | with_reducible apply Keeps.next
    | with_reducible apply followL0s_kept

theorem execL1Entry_kept {σ τ : State} (hk : Kept σ τ) (port : BitVec 1) (sub : BitVec 2) :
    Keeps σ (execL1Entry port sub τ) := by
  unfold execL1Entry
  try dsimp only
  repeat' first
    | with_reducible assumption
    | with_reducible apply Keeps.next
    | with_reducible apply enterL1_kept

theorem execElectricalIdleExit_kept {σ τ : State} (hk : Kept σ τ) (lane : BitVec 5) :
    Keeps σ (execElectricalIdleExit lane τ) := by
  unfold execElectricalIdleExit
  try dsimp only
  repeat' first
    | with_reducible assumption
    | with_reducible apply Keeps.next
    | with_reducible apply leaveIdle_kept

theorem execMarginingCommand_kept {σ τ : State} (hk : Kept σ τ) (lane : BitVec 5) (start : Bool) :
    Keeps σ (execMarginingCommand lane start τ) := by
  unfold execMarginingCommand
  try dsimp only
  repeat' first
    | with_reducible assumption
    | with_reducible apply Keeps.next
    | with_reducible apply marginLane_kept

theorem execEyeScanDone_kept {σ τ : State} (hk : Kept σ τ) (errors : BitVec 48) :
    Keeps σ (execEyeScanDone errors τ) := by
  unfold execEyeScanDone
  try dsimp only
  repeat' first
    | with_reducible assumption
    | with_reducible apply Keeps.next
    | with_reducible apply scanDone_kept

theorem execEyeScanTimeout_kept {σ τ : State} (hk : Kept σ τ) (compared errors : BitVec 48) :
    Keeps σ (execEyeScanTimeout compared errors τ) := by
  unfold execEyeScanTimeout
  try dsimp only
  repeat' first
    | with_reducible assumption
    | with_reducible apply Keeps.next
    | with_reducible apply scanTimeout_kept

theorem execPrbsCheckerLock_kept {σ τ : State} (hk : Kept σ τ) (lane : BitVec 5) :
    Keeps σ (execPrbsCheckerLock lane τ) := by
  unfold execPrbsCheckerLock
  try dsimp only
  repeat' first
    | with_reducible assumption
    | with_reducible apply Keeps.next
    | with_reducible apply checkerLock_kept

theorem execPrbsCheckerLockLost_kept {σ τ : State} (hk : Kept σ τ) (lane : BitVec 5) (errors : BitVec 32) :
    Keeps σ (execPrbsCheckerLockLost lane errors τ) := by
  unfold execPrbsCheckerLockLost
  try dsimp only
  repeat' first
    | with_reducible assumption
    | with_reducible apply Keeps.next
    | with_reducible apply checkerLost_kept

theorem execLatchPoint_kept {σ τ : State} (hk : Kept σ τ) (o : BitVec 1) :
    Keeps σ (execLatchPoint o τ) := by
  unfold execLatchPoint
  try dsimp only
  repeat' first
    | with_reducible assumption
    | with_reducible apply Keeps.next
    | with_reducible apply settle_kept
    | with_reducible apply latchVideo_kept

theorem execTeEdge_kept {σ τ : State} (hk : Kept σ τ) (o : BitVec 1) (tick : BitVec 64) (lowNs pulseNs : Nat) :
    Keeps σ (execTeEdge o tick lowNs pulseNs τ) := by
  unfold execTeEdge
  try dsimp only
  repeat' first
    | with_reducible assumption
    | with_reducible apply Keeps.next
    | with_reducible apply settle_kept
    | with_reducible apply teEdge_kept
    | with_reducible apply advanceToTick_kept

theorem execDisplayTeTimeout_kept {σ τ : State} (hk : Kept σ τ) (o : BitVec 1) :
    Keeps σ (execDisplayTeTimeout o τ) := by
  unfold execDisplayTeTimeout
  try dsimp only
  repeat' first
    | with_reducible assumption
    | with_reducible apply Keeps.next
    | with_reducible apply settle_kept
    | with_reducible apply teTimeout_kept

theorem execSelfTimedTransfer_kept {σ τ : State} (hk : Kept σ τ) (o : BitVec 1) :
    Keeps σ (execSelfTimedTransfer o τ) := by
  unfold execSelfTimedTransfer
  try dsimp only
  repeat' first
    | with_reducible assumption
    | with_reducible apply Keeps.next
    | with_reducible apply settle_kept
    | with_reducible apply selfTimed_kept

theorem execBufferReleased_kept {σ τ : State} (hk : Kept σ τ) (o : BitVec 1) :
    Keeps σ (execBufferReleased o τ) := by
  unfold execBufferReleased
  try dsimp only
  repeat' first
    | with_reducible assumption
    | with_reducible apply Keeps.next
    | with_reducible apply settle_kept
    | with_reducible apply releaseBuffer_kept

theorem execPanelReadResponse_kept {σ τ : State} (hk : Kept σ τ) (o : BitVec 1) (data : Block) :
    Keeps σ (execPanelReadResponse o data τ) := by
  unfold execPanelReadResponse
  try dsimp only
  repeat' first
    | with_reducible assumption
    | with_reducible apply Keeps.next
    | with_reducible apply settle_kept
    | with_reducible apply panelResponse_kept

theorem execPanelTimeout_kept {σ τ : State} (hk : Kept σ τ) (o : BitVec 1) :
    Keeps σ (execPanelTimeout o τ) := by
  unfold execPanelTimeout
  try dsimp only
  repeat' first
    | with_reducible assumption
    | with_reducible apply Keeps.next
    | with_reducible apply settle_kept
    | with_reducible apply panelLate_kept

theorem execDiskActivate_kept {σ τ : State} (hk : Kept σ τ) (slot : BitVec 5) (qids : List (BitVec 32)) (maxKb : BitVec 32) (reserved : Bool) :
    Keeps σ (execDiskActivate slot qids maxKb reserved τ) := by
  unfold execDiskActivate
  try dsimp only
  repeat' first
    | with_reducible assumption
    | with_reducible apply Keeps.next
    | with_reducible apply settle_kept
    | with_reducible apply activateMember_kept

theorem execExtentTimeout_kept {σ τ : State} (hk : Kept σ τ) (slot : BitVec 5) :
    Keeps σ (execExtentTimeout slot τ) := by
  unfold execExtentTimeout
  try dsimp only
  repeat' first
    | with_reducible assumption
    | with_reducible apply Keeps.next
    | with_reducible apply settle_kept
    | with_reducible apply closeExtent_kept

theorem execNvmeCompletion_kept {σ τ : State} (hk : Kept σ τ) (slot : BitVec 5) (cid : Nat) (status : BitVec 15) (dnr : Bool) :
    Keeps σ (execNvmeCompletion slot cid status dnr τ) := by
  unfold execNvmeCompletion
  try dsimp only
  repeat' first
    | with_reducible assumption
    | with_reducible apply Keeps.next
    | with_reducible apply settle_kept
    | with_reducible apply nvmeDone_kept

theorem nvmeTimeout_kept {σ τ : State} (hk : Kept σ τ) (slot : Nat) :
    Kept σ (nvmeTimeout slot τ) := by
  unfold nvmeTimeout
  try dsimp only
  repeat' first
    | with_reducible assumption
    | with_reducible apply failMember_kept
    | with_reducible apply modBinding_kept
    | with_reducible apply Kept.ite
    | split

theorem execNvmeTimeout_kept {σ τ : State} (hk : Kept σ τ) (slot : BitVec 5) :
    Keeps σ (execNvmeTimeout slot τ) := by
  unfold execNvmeTimeout
  try dsimp only
  repeat' first
    | with_reducible assumption
    | with_reducible apply Keeps.next
    | with_reducible apply nvmeTimeout_kept
    | with_reducible apply settle_kept

end Sys2Proof.Machine
end

