-- ==== Sys2Proof/Laws/Kept/Boot.lean ====
section
/-!
SUPPORT. What the operations of Boot.lean keep: the queue, and the legal fields of Safety.
-/

namespace Sys2Proof.Machine

/-- The legal fields of the parts of the block that a reset of the Main domain makes new. -/
theorem newParts_legal : (10 ≤ Adc.reset.csu.windowLog2 ∧ Adc.reset.csu.windowLog2 ≤ 40) ∧ Adc.reset.amc.trimSel.toNat < 16
    ∧ (-32 ≤ Link.reset.scan.toff.toInt ∧ Link.reset.scan.toff.toInt ≤ 32) ∧ (-60 ≤ Link.reset.scan.voff.toInt ∧ Link.reset.scan.voff.toInt ≤ 60)
    ∧ (20 ≤ Link.reset.scan.dwell.toNat ∧ Link.reset.scan.dwell.toNat ≤ 40) ∧ (8 ≤ Dram.reset.log2p.toNat ∧ Dram.reset.log2p.toNat ≤ 16)
    ∧ (1 ≤ Pwr.reset.calPeriod.toNat ∧ Pwr.reset.calPeriod.toNat ≤ 3600) ∧ Spu.reset.injUnit.toNat ≤ 16 := by
  decide

theorem Tim.reset_ppsOutWidth : 1 ≤ Tim.reset.ppsOutWidth.toNat ∧ Tim.reset.ppsOutWidth.toNat ≤ 500 := by
  decide

theorem modHedge_kept {σ τ : State} (hk : Kept σ τ) (f : Hedge → Hedge) :
    Kept σ (modHedge f τ) := by
  exact hk.same rfl rfl rfl rfl rfl rfl rfl rfl rfl rfl rfl

theorem modTrust_kept {σ τ : State} (hk : Kept σ τ) (f : Trust → Trust) :
    Kept σ (modTrust f τ) := by
  exact hk.same rfl rfl rfl rfl rfl rfl rfl rfl rfl rfl rfl

theorem sendOnce_kept {σ τ : State} (hk : Kept σ τ) (code subject detail detail2 : Nat) :
    Kept σ (sendOnce code subject detail detail2 τ) := by
  unfold sendOnce
  try dsimp only
  repeat' first
    | with_reducible assumption
    | with_reducible apply modHedge_kept
    | with_reducible apply sendAdmin_kept
    | with_reducible apply Kept.ite

theorem saveAvail_kept {σ τ : State} (hk : Kept σ τ)  :
    Kept σ (saveAvail τ) := by
  unfold saveAvail
  try dsimp only
  repeat' first
    | with_reducible assumption
    | with_reducible apply modHedge_kept
    | fail_if_no_progress (with_reducible refine Kept.mk ?_ rfl ?_ ?_ ?_ ?_ ?_ ?_ ?_ ?_ ?_ ?_) <;> try ((with_reducible refine (?_ : _ = _)); first | rfl | (split <;> rfl))

theorem resetMain_kept {σ τ : State} (hk : Kept σ τ) (orderly : Bool) (cause : Nat) (keepTime : Bool) :
    Kept σ (resetMain orderly cause keepTime τ) := by
  unfold resetMain
  dsimp only
  have h : Kept σ (ppsOutLow (nowTick τ) (trigoutFall (nowTick τ) τ)) := ppsOutLow_kept (trigoutFall_kept hk _) _
  generalize ppsOutLow (nowTick τ) (trigoutFall (nowTick τ) τ) = a at h ⊢
  have g : Kept σ (if (orderly && decide (5 < a.host.stage.toNat)) = true then consolidate (freezeRecorder cause a) else a) :=
    Kept.ite (consolidate_kept (freezeRecorder_kept h _)) h
  generalize (if (orderly && decide (5 < a.host.stage.toNat)) = true then consolidate (freezeRecorder cause a) else a) = b at g ⊢
  have f : Kept σ (if (orderly && decide (b.host.stage ≠ 0)) = true then saveAvail b else b) := Kept.ite (saveAvail_kept g) g
  generalize (if (orderly && decide (b.host.stage ≠ 0)) = true then saveAvail b else b) = c at f ⊢
  refine f.legal rfl fun k => ⟨rfl, ?_, newParts_legal⟩
  dsimp only
  split
  · exact k.2.1
  · exact Tim.reset_ppsOutWidth

theorem startPrimer_kept {σ τ : State} (hk : Kept σ τ)  :
    Kept σ (startPrimer τ) := by
  unfold startPrimer
  try dsimp only
  repeat' first
    | with_reducible assumption
    | with_reducible apply modHedge_kept
    | with_reducible apply modHost_kept

theorem tryStart_kept {σ τ : State} (hk : Kept σ τ)  :
    Kept σ (tryStart τ) := by
  unfold tryStart
  try dsimp only
  repeat' first
    | with_reducible assumption
    | with_reducible apply startPrimer_kept
    | with_reducible apply Kept.ite

theorem warmRestart_kept {σ τ : State} (hk : Kept σ τ)  :
    Kept σ (warmRestart τ) := by
  unfold warmRestart
  try dsimp only
  repeat' first
    | with_reducible assumption
    | with_reducible apply tryStart_kept
    | with_reducible apply resetMain_kept
    | with_reducible apply Kept.ite

theorem powerLost_kept {σ τ : State} (hk : Kept σ τ) : Kept σ (powerLost τ) :=
  hk.legal rfl fun _ => ⟨rfl, Tim.reset_ppsOutWidth, newParts_legal⟩

theorem coldStart_kept {σ τ : State} (hk : Kept σ τ) (released rails : Bool) :
    Kept σ (coldStart released rails τ) := by
  unfold coldStart
  try dsimp only
  repeat' first
    | with_reducible assumption
    | with_reducible apply powerLost_kept
    | with_reducible apply tryStart_kept
    | with_reducible apply modHedge_kept

theorem fallBack_kept {σ τ : State} (hk : Kept σ τ) (kind top : Nat) :
    Kept σ (fallBack kind top τ) := by
  unfold fallBack
  try dsimp only
  repeat' first
    | with_reducible assumption
    | with_reducible apply sendOnce_kept
    | with_reducible apply modHedge_kept

theorem stageFuses_kept {σ τ : State} (hk : Kept σ τ) (f : Fuses) :
    Kept σ (stageFuses f τ) := by
  unfold stageFuses
  try dsimp only
  repeat' first
    | (with_reducible intro _; try dsimp only)
    | with_reducible assumption
    | with_reducible apply modTrust_kept
    | with_reducible apply modHedge_kept
    | with_reducible apply modTim_kept
    | with_reducible apply modHost_kept
    | fail_if_no_progress (with_reducible refine Kept.mk ?_ rfl ?_ ?_ ?_ ?_ ?_ ?_ ?_ ?_ ?_ ?_) <;> try ((with_reducible refine (?_ : _ = _)); first | rfl | (split <;> rfl))

theorem loadPolicy_kept {σ τ : State} (hk : Kept σ τ) (copies : List (Option Block)) :
    Kept σ (loadPolicy copies τ) := by
  unfold loadPolicy
  try dsimp only
  repeat' first
    | with_reducible assumption
    | with_reducible apply fallBack_kept
    | with_reducible apply modTrust_kept
    | with_reducible apply modHedge_kept
    | with_reducible apply Kept.ite

theorem stageFirmware_kept {σ τ : State} (hk : Kept σ τ) (slots : List (Option Firmware)) (policy : List (Option Block)) :
    Kept σ (stageFirmware slots policy τ) := by
  unfold stageFirmware
  try dsimp only
  repeat' first
    | with_reducible assumption
    | with_reducible apply loadPolicy_kept
    | with_reducible apply modTrust_kept
    | with_reducible apply modHedge_kept
    | with_reducible apply modHost_kept
    | with_reducible apply freshValue_kept
    | split
    | fail_if_no_progress (with_reducible refine Kept.mk ?_ rfl ?_ ?_ ?_ ?_ ?_ ?_ ?_ ?_ ?_ ?_) <;> try ((with_reducible refine (?_ : _ = _)); first | rfl | (split <;> rfl))

theorem loadPatch_kept {σ τ : State} (hk : Kept σ τ) (image : Option Block) :
    Kept σ (loadPatch image τ) := by
  unfold loadPatch
  try dsimp only
  repeat' first
    | with_reducible assumption
    | with_reducible apply sendOnce_kept
    | with_reducible apply modTrust_kept
    | split
    | fail_if_no_progress (with_reducible refine Kept.mk ?_ rfl ?_ ?_ ?_ ?_ ?_ ?_ ?_ ?_ ?_ ?_) <;> try ((with_reducible refine (?_ : _ = _)); first | rfl | (split <;> rfl))

theorem stageMicrocode_kept {σ τ : State} (hk : Kept σ τ) (image : Option Block) (romFails : BitVec 17) :
    Kept σ (stageMicrocode image romFails τ) := by
  unfold stageMicrocode
  try dsimp only
  repeat' first
    | with_reducible assumption
    | with_reducible apply loadPatch_kept
    | with_reducible apply modHost_kept
    | fail_if_no_progress (with_reducible refine Kept.mk ?_ rfl ?_ ?_ ?_ ?_ ?_ ?_ ?_ ?_ ?_ ?_) <;> try ((with_reducible refine (?_ : _ = _)); first | rfl | (split <;> rfl))

theorem applyBoard_kept {σ τ : State} (hk : Kept σ τ) (b : BoardTable) :
    Kept σ (applyBoard b τ) := by
  unfold applyBoard
  try dsimp only
  repeat' first
    | (with_reducible intro _; try dsimp only)
    | with_reducible assumption
    | with_reducible apply modLink_kept
    | with_reducible apply modFr_kept
    | with_reducible apply modAdc_kept
    | with_reducible apply modTim_kept
    | ((with_reducible refine (?_ : _ = _)); rfl)
    | split

theorem defaultBoard_kept {σ τ : State} (hk : Kept σ τ)  :
    Kept σ (defaultBoard τ) := by
  unfold defaultBoard
  try dsimp only
  repeat' first
    | (with_reducible intro _; try dsimp only)
    | with_reducible assumption
    | with_reducible apply modTim_kept

theorem gradeRate_kept {σ τ : State} (hk : Kept σ τ)  :
    Kept σ (gradeRate τ) := by
  unfold gradeRate
  try dsimp only
  repeat' first
    | (with_reducible intro _; try dsimp only)
    | with_reducible assumption
    | with_reducible apply modTim_kept
    | with_reducible apply Kept.ite

theorem startTiming_kept {σ τ : State} (hk : Kept σ τ) (refclk : Bool) :
    Kept σ (startTiming refclk τ) := by
  unfold startTiming
  try dsimp only
  repeat' first
    | (with_reducible intro _; try dsimp only)
    | with_reducible assumption
    | with_reducible apply modHedge_kept
    | with_reducible apply modTim_kept
    | with_reducible apply freshValue_kept
    | with_reducible apply Kept.ite

theorem boardDram_kept {σ τ : State} (hk : Kept σ τ) (b : Option BoardDram) :
    Kept σ (boardDram b τ) := by
  unfold boardDram
  try dsimp only
  repeat' first
    | (with_reducible intro _; try dsimp only)
    | with_reducible assumption
    | with_reducible apply modDram_kept
    | split

theorem stageBoard_kept {σ τ : State} (hk : Kept σ τ) (copies : List (Option BoardTable)) (certs : List Byte) (refclk : Bool) :
    Kept σ (stageBoard copies certs refclk τ) := by
  unfold stageBoard
  try dsimp only
  repeat' first
    | with_reducible assumption
    | with_reducible apply boardDram_kept
    | with_reducible apply startTiming_kept
    | with_reducible apply gradeRate_kept
    | with_reducible apply defaultBoard_kept
    | with_reducible apply applyBoard_kept
    | with_reducible apply fallBack_kept
    | with_reducible apply modTrust_kept
    | with_reducible apply setMaxRate_kept
    | with_reducible apply primerMode_kept
    | with_reducible apply modHost_kept
    | with_reducible apply Kept.ite
    | split

theorem openChannels_kept {σ τ : State} (hk : Kept σ τ) (failed mismatch : BitVec 12) :
    Kept σ (openChannels failed mismatch τ) := by
  unfold openChannels
  try dsimp only
  repeat' first
    | (with_reducible intro _; try dsimp only)
    | with_reducible assumption
    | with_reducible apply sendOnce_kept
    | with_reducible apply modDram_kept
    | with_reducible apply Kept.ite
    | with_reducible apply Kept.foldl

theorem reserveFirst_kept {σ τ : State} (hk : Kept σ τ) : Kept σ (reserveFirst τ) := by
  unfold reserveFirst
  rcases e : allocateAll _ τ with _ | v
  · exact hk
  · exact allocateAll_kept hk e

theorem powerPairs_kept {σ τ : State} (hk : Kept σ τ) (offset : Nat) :
    Kept σ (powerPairs offset τ) := by
  unfold powerPairs
  try dsimp only
  repeat' first
    | (with_reducible intro _; try dsimp only)
    | with_reducible assumption
    | with_reducible apply startForeground_kept
    | with_reducible apply modPair_kept
    | with_reducible apply emitAnchor_kept
    | with_reducible apply modTim_kept
    | with_reducible apply Kept.foldl
    | fail_if_no_progress (with_reducible refine Kept.mk ?_ rfl ?_ ?_ ?_ ?_ ?_ ?_ ?_ ?_ ?_ ?_) <;> try ((with_reducible refine (?_ : _ = _)); first | rfl | (split <;> rfl))

theorem stageMemory_kept {σ τ : State} (hk : Kept σ τ) (failed mismatch : BitVec 12) (offset : Nat) :
    Kept σ (stageMemory failed mismatch offset τ) := by
  unfold stageMemory
  try dsimp only
  repeat' first
    | with_reducible assumption
    | with_reducible apply powerPairs_kept
    | with_reducible apply reserveFirst_kept
    | with_reducible apply openChannels_kept
    | with_reducible apply modHedge_kept
    | with_reducible apply modHost_kept
    | with_reducible apply Kept.ite

theorem finishPrimer_kept {σ τ : State} (hk : Kept σ τ)  :
    Kept σ (finishPrimer τ) := by
  unfold finishPrimer
  try dsimp only
  repeat' first
    | (with_reducible intro _; try dsimp only)
    | with_reducible assumption
    | with_reducible apply modTrust_kept
    | with_reducible apply emit_kept
    | with_reducible apply Kept.ite
    | with_reducible apply Kept.foldl

theorem stageCalibration_kept {σ τ : State} (hk : Kept σ τ) (sets : List (List (List Int))) (trims : List Int) (lostMs : Nat) :
    Kept σ (stageCalibration sets trims lostMs τ) := by
  unfold stageCalibration
  try dsimp only
  repeat' first
    | (with_reducible intro _; try dsimp only)
    | with_reducible assumption
    | with_reducible apply finishPrimer_kept
    | with_reducible apply modHedge_kept
    | with_reducible apply foregroundEnd_kept
    | with_reducible apply countLost_kept
    | with_reducible apply modHost_kept
    | with_reducible apply Kept.foldl
    | split
    | fail_if_no_progress (with_reducible refine Kept.mk ?_ rfl ?_ ?_ ?_ ?_ ?_ ?_ ?_ ?_ ?_ ?_) <;> try ((with_reducible refine (?_ : _ = _)); first | rfl | (split <;> rfl))

theorem primerEnd_kept {σ τ : State} (hk : Kept σ τ) (w : PrimerWork) :
    Kept σ (primerEnd w τ) := by
  unfold primerEnd
  try dsimp only
  repeat' first
    | with_reducible assumption
    | with_reducible apply stageCalibration_kept
    | with_reducible apply stageMemory_kept
    | with_reducible apply stageBoard_kept
    | with_reducible apply stageMicrocode_kept
    | with_reducible apply stageFirmware_kept
    | with_reducible apply stageFuses_kept
    | with_reducible apply Kept.ite
    | split

theorem loadJtag_kept {σ τ : State} (hk : Kept σ τ) (i : JtagInstr) :
    Kept σ (loadJtag i τ) := by
  unfold loadJtag
  try dsimp only
  repeat' first
    | with_reducible assumption
    | with_reducible apply modHedge_kept
    | with_reducible apply emit_kept
    | with_reducible apply Kept.ite

theorem execColdStart_kept {σ τ : State} (hk : Kept σ τ) (released rails : Bool) :
    Keeps σ (execColdStart released rails τ) := by
  unfold execColdStart
  try dsimp only
  repeat' first
    | with_reducible assumption
    | with_reducible apply Keeps.next
    | with_reducible apply coldStart_kept

theorem execResetNRelease_kept {σ τ : State} (hk : Kept σ τ) (rails : Bool) :
    Keeps σ (execResetNRelease rails τ) := by
  unfold execResetNRelease
  try dsimp only
  repeat' first
    | with_reducible assumption
    | with_reducible apply Keeps.next
    | with_reducible apply tryStart_kept
    | with_reducible apply modHedge_kept

theorem execResetNAssert_kept {σ τ : State} (hk : Kept σ τ)  :
    Keeps σ (execResetNAssert τ) := by
  unfold execResetNAssert
  try dsimp only
  repeat' first
    | with_reducible assumption
    | with_reducible apply Keeps.next
    | with_reducible apply resetMain_kept
    | with_reducible apply modHedge_kept
    | with_reducible apply Kept.ite

theorem execMainRailsInWindow_kept {σ τ : State} (hk : Kept σ τ)  :
    Keeps σ (execMainRailsInWindow τ) := by
  unfold execMainRailsInWindow
  try dsimp only
  repeat' first
    | with_reducible assumption
    | with_reducible apply Keeps.next
    | with_reducible apply tryStart_kept
    | with_reducible apply modHedge_kept

theorem execAlwaysOnRailLoss_kept {σ τ : State} (hk : Kept σ τ)  :
    Keeps σ (execAlwaysOnRailLoss τ) := by
  unfold execAlwaysOnRailLoss
  try dsimp only
  repeat' first
    | with_reducible assumption
    | with_reducible apply Keeps.next
    | with_reducible apply powerLost_kept

theorem execWarmRestart_kept {σ τ : State} (hk : Kept σ τ)  :
    Keeps σ (execWarmRestart τ) := by
  unfold execWarmRestart
  try dsimp only
  repeat' first
    | with_reducible assumption
    | with_reducible apply Keeps.next
    | with_reducible apply warmRestart_kept

theorem execPrimerStageEnd_kept {σ τ : State} (hk : Kept σ τ) (w : PrimerWork) :
    Keeps σ (execPrimerStageEnd w τ) := by
  unfold execPrimerStageEnd
  try dsimp only
  repeat' first
    | with_reducible assumption
    | with_reducible apply Keeps.next
    | with_reducible apply primerEnd_kept
    | with_reducible apply settle_kept

theorem execConfigurationRequest_kept {σ τ : State} (hk : Kept σ τ) (port : BitVec 1) :
    Keeps σ (execConfigurationRequest port τ) := by
  unfold execConfigurationRequest
  try dsimp only
  repeat' first
    | with_reducible assumption
    | with_reducible apply Keeps.next
    | with_reducible apply emit_kept
    | with_reducible apply Kept.ite

theorem execJtagInstruction_kept {σ τ : State} (hk : Kept σ τ) (i : JtagInstr) :
    Keeps σ (execJtagInstruction i τ) := by
  unfold execJtagInstruction
  try dsimp only
  repeat' first
    | with_reducible assumption
    | with_reducible apply Keeps.next
    | with_reducible apply loadJtag_kept

end Sys2Proof.Machine
end

