-- ==== Sys2Proof/Laws/Kept/Descriptors.lean ====
section
/-!
SUPPORT. What the operations of Descriptors.lean keep: the queue, and the legal fields of Safety.
-/

namespace Sys2Proof.Machine

theorem execNoop_kept {σ τ : State} (hk : Kept σ τ) (d : Sub) :
    Keeps σ (execNoop d τ) := by
  unfold execNoop
  try dsimp only
  repeat' first
    | with_reducible assumption
    | with_reducible apply Keeps.next
    | with_reducible apply submitDesc_kept

theorem execBadOpcode_kept {σ τ : State} (hk : Kept σ τ) (d : Sub) (opcode : BitVec 8) :
    Keeps σ (execBadOpcode d opcode τ) := by
  unfold execBadOpcode
  try dsimp only
  repeat' first
    | with_reducible assumption
    | with_reducible apply Keeps.next
    | with_reducible apply submitDesc_kept

theorem execFence_kept {σ τ : State} (hk : Kept σ τ) (d : Sub) :
    Keeps σ (execFence d τ) := by
  unfold execFence
  try dsimp only
  repeat' first
    | with_reducible assumption
    | with_reducible apply Keeps.next
    | with_reducible apply submitDesc_kept

theorem execTimeWait_kept {σ τ : State} (hk : Kept σ τ) (d : Sub) :
    Keeps σ (execTimeWait d τ) := by
  unfold execTimeWait
  try dsimp only
  repeat' first
    | with_reducible assumption
    | with_reducible apply Keeps.next
    | with_reducible apply submitDesc_kept

theorem execModeSet_kept {σ τ : State} (hk : Kept σ τ) (d : Sub) :
    Keeps σ (execModeSet d τ) := by
  unfold execModeSet
  try dsimp only
  repeat' first
    | with_reducible assumption
    | with_reducible apply Keeps.next
    | with_reducible apply submitDesc_kept

theorem execContextCreate_kept {σ τ : State} (hk : Kept σ τ) (d : Sub) :
    Keeps σ (execContextCreate d τ) := by
  unfold execContextCreate
  try dsimp only
  repeat' first
    | with_reducible assumption
    | with_reducible apply Keeps.next
    | with_reducible apply submitDesc_kept

theorem execContextDestroy_kept {σ τ : State} (hk : Kept σ τ) (d : Sub) :
    Keeps σ (execContextDestroy d τ) := by
  unfold execContextDestroy
  try dsimp only
  repeat' first
    | with_reducible assumption
    | with_reducible apply Keeps.next
    | with_reducible apply submitDesc_kept

theorem execRingCreate_kept {σ τ : State} (hk : Kept σ τ) (d : Sub) :
    Keeps σ (execRingCreate d τ) := by
  unfold execRingCreate
  try dsimp only
  repeat' first
    | with_reducible assumption
    | with_reducible apply Keeps.next
    | with_reducible apply submitDesc_kept

theorem execRingDestroy_kept {σ τ : State} (hk : Kept σ τ) (d : Sub) :
    Keeps σ (execRingDestroy d τ) := by
  unfold execRingDestroy
  try dsimp only
  repeat' first
    | with_reducible assumption
    | with_reducible apply Keeps.next
    | with_reducible apply submitDesc_kept

theorem execPlanCreate_kept {σ τ : State} (hk : Kept σ τ) (d : Sub) (r : List HostRead) :
    Keeps σ (execPlanCreate d r τ) := by
  unfold execPlanCreate
  try dsimp only
  repeat' first
    | with_reducible assumption
    | with_reducible apply Keeps.next
    | with_reducible apply submitDesc_kept

theorem execPlanStart_kept {σ τ : State} (hk : Kept σ τ) (d : Sub) (r : List HostRead) :
    Keeps σ (execPlanStart d r τ) := by
  unfold execPlanStart
  try dsimp only
  repeat' first
    | with_reducible assumption
    | with_reducible apply Keeps.next
    | with_reducible apply submitDesc_kept

theorem execPlanStop_kept {σ τ : State} (hk : Kept σ τ) (d : Sub) :
    Keeps σ (execPlanStop d τ) := by
  unfold execPlanStop
  try dsimp only
  repeat' first
    | with_reducible assumption
    | with_reducible apply Keeps.next
    | with_reducible apply submitDesc_kept

theorem execPlanDestroy_kept {σ τ : State} (hk : Kept σ τ) (d : Sub) :
    Keeps σ (execPlanDestroy d τ) := by
  unfold execPlanDestroy
  try dsimp only
  repeat' first
    | with_reducible assumption
    | with_reducible apply Keeps.next
    | with_reducible apply submitDesc_kept

theorem execWindowLoadTable_kept {σ τ : State} (hk : Kept σ τ) (d : Sub) (r : List HostRead) :
    Keeps σ (execWindowLoadTable d r τ) := by
  unfold execWindowLoadTable
  try dsimp only
  repeat' first
    | with_reducible assumption
    | with_reducible apply Keeps.next
    | with_reducible apply submitDesc_kept

theorem execWindowLoadDrop_kept {σ τ : State} (hk : Kept σ τ) (d : Sub) :
    Keeps σ (execWindowLoadDrop d τ) := by
  unfold execWindowLoadDrop
  try dsimp only
  repeat' first
    | with_reducible assumption
    | with_reducible apply Keeps.next
    | with_reducible apply submitDesc_kept

theorem execWindowLoadReconfigure_kept {σ τ : State} (hk : Kept σ τ) (d : Sub) :
    Keeps σ (execWindowLoadReconfigure d τ) := by
  unfold execWindowLoadReconfigure
  try dsimp only
  repeat' first
    | with_reducible assumption
    | with_reducible apply Keeps.next
    | with_reducible apply submitDesc_kept

theorem execMaskLoad_kept {σ τ : State} (hk : Kept σ τ) (d : Sub) (r : List HostRead) :
    Keeps σ (execMaskLoad d r τ) := by
  unfold execMaskLoad
  try dsimp only
  repeat' first
    | with_reducible assumption
    | with_reducible apply Keeps.next
    | with_reducible apply submitDesc_kept

theorem execMaskDrop_kept {σ τ : State} (hk : Kept σ τ) (d : Sub) :
    Keeps σ (execMaskDrop d τ) := by
  unfold execMaskDrop
  try dsimp only
  repeat' first
    | with_reducible assumption
    | with_reducible apply Keeps.next
    | with_reducible apply submitDesc_kept

theorem execTriggerArm_kept {σ τ : State} (hk : Kept σ τ) (d : Sub) :
    Keeps σ (execTriggerArm d τ) := by
  unfold execTriggerArm
  try dsimp only
  repeat' first
    | with_reducible assumption
    | with_reducible apply Keeps.next
    | with_reducible apply submitDesc_kept

theorem execTriggerDisarm_kept {σ τ : State} (hk : Kept σ τ) (d : Sub) :
    Keeps σ (execTriggerDisarm d τ) := by
  unfold execTriggerDisarm
  try dsimp only
  repeat' first
    | with_reducible assumption
    | with_reducible apply Keeps.next
    | with_reducible apply submitDesc_kept

theorem execCaptureReadSegments_kept {σ τ : State} (hk : Kept σ τ) (d : Sub) :
    Keeps σ (execCaptureReadSegments d τ) := by
  unfold execCaptureReadSegments
  try dsimp only
  repeat' first
    | with_reducible assumption
    | with_reducible apply Keeps.next
    | with_reducible apply submitDesc_kept

theorem execCaptureReadWords_kept {σ τ : State} (hk : Kept σ τ) (d : Sub) :
    Keeps σ (execCaptureReadWords d τ) := by
  unfold execCaptureReadWords
  try dsimp only
  repeat' first
    | with_reducible assumption
    | with_reducible apply Keeps.next
    | with_reducible apply submitDesc_kept

theorem execCaptureRelease_kept {σ τ : State} (hk : Kept σ τ) (d : Sub) :
    Keeps σ (execCaptureRelease d τ) := by
  unfold execCaptureRelease
  try dsimp only
  repeat' first
    | with_reducible assumption
    | with_reducible apply Keeps.next
    | with_reducible apply submitDesc_kept

theorem execSpuLoad_kept {σ τ : State} (hk : Kept σ τ) (d : Sub) (r : List HostRead) :
    Keeps σ (execSpuLoad d r τ) := by
  unfold execSpuLoad
  try dsimp only
  repeat' first
    | with_reducible assumption
    | with_reducible apply Keeps.next
    | with_reducible apply submitDesc_kept

theorem execSpuLaunch_kept {σ τ : State} (hk : Kept σ τ) (d : Sub) (r : List HostRead) :
    Keeps σ (execSpuLaunch d r τ) := by
  unfold execSpuLaunch
  try dsimp only
  repeat' first
    | with_reducible assumption
    | with_reducible apply Keeps.next
    | with_reducible apply submitDesc_kept

theorem execSpuSignal_kept {σ τ : State} (hk : Kept σ τ) (d : Sub) :
    Keeps σ (execSpuSignal d τ) := by
  unfold execSpuSignal
  try dsimp only
  repeat' first
    | with_reducible assumption
    | with_reducible apply Keeps.next
    | with_reducible apply submitDesc_kept

theorem execSpuStop_kept {σ τ : State} (hk : Kept σ τ) (d : Sub) :
    Keeps σ (execSpuStop d τ) := by
  unfold execSpuStop
  try dsimp only
  repeat' first
    | with_reducible assumption
    | with_reducible apply Keeps.next
    | with_reducible apply submitDesc_kept

theorem execStreamOpenRing_kept {σ τ : State} (hk : Kept σ τ) (d : Sub) :
    Keeps σ (execStreamOpenRing d τ) := by
  unfold execStreamOpenRing
  try dsimp only
  repeat' first
    | with_reducible assumption
    | with_reducible apply Keeps.next
    | with_reducible apply submitDesc_kept

theorem execStreamOpenDisk_kept {σ τ : State} (hk : Kept σ τ) (d : Sub) :
    Keeps σ (execStreamOpenDisk d τ) := by
  unfold execStreamOpenDisk
  try dsimp only
  repeat' first
    | with_reducible assumption
    | with_reducible apply Keeps.next
    | with_reducible apply submitDesc_kept

theorem execStreamClose_kept {σ τ : State} (hk : Kept σ τ) (d : Sub) :
    Keeps σ (execStreamClose d τ) := by
  unfold execStreamClose
  try dsimp only
  repeat' first
    | with_reducible assumption
    | with_reducible apply Keeps.next
    | with_reducible apply submitDesc_kept

theorem execDiskBind_kept {σ τ : State} (hk : Kept σ τ) (d : Sub) (r : List HostRead) :
    Keeps σ (execDiskBind d r τ) := by
  unfold execDiskBind
  try dsimp only
  repeat' first
    | with_reducible assumption
    | with_reducible apply Keeps.next
    | with_reducible apply submitDesc_kept

theorem execDiskUnbind_kept {σ τ : State} (hk : Kept σ τ) (d : Sub) :
    Keeps σ (execDiskUnbind d τ) := by
  unfold execDiskUnbind
  try dsimp only
  repeat' first
    | with_reducible assumption
    | with_reducible apply Keeps.next
    | with_reducible apply submitDesc_kept

theorem execDisplayOutput_kept {σ τ : State} (hk : Kept σ τ) (d : Sub) (r : List HostRead) :
    Keeps σ (execDisplayOutput d r τ) := by
  unfold execDisplayOutput
  try dsimp only
  repeat' first
    | with_reducible assumption
    | with_reducible apply Keeps.next
    | with_reducible apply submitDesc_kept

theorem execDisplayLayer_kept {σ τ : State} (hk : Kept σ τ) (d : Sub) :
    Keeps σ (execDisplayLayer d τ) := by
  unfold execDisplayLayer
  try dsimp only
  repeat' first
    | with_reducible assumption
    | with_reducible apply Keeps.next
    | with_reducible apply submitDesc_kept

theorem execDisplayLutLoad_kept {σ τ : State} (hk : Kept σ τ) (d : Sub) (r : List HostRead) :
    Keeps σ (execDisplayLutLoad d r τ) := by
  unfold execDisplayLutLoad
  try dsimp only
  repeat' first
    | with_reducible assumption
    | with_reducible apply Keeps.next
    | with_reducible apply submitDesc_kept

theorem execPanelCmd_kept {σ τ : State} (hk : Kept σ τ) (d : Sub) (r : List HostRead) :
    Keeps σ (execPanelCmd d r τ) := by
  unfold execPanelCmd
  try dsimp only
  repeat' first
    | with_reducible assumption
    | with_reducible apply Keeps.next
    | with_reducible apply submitDesc_kept

theorem execLayerOff_kept {σ τ : State} (hk : Kept σ τ) (d : Sub) :
    Keeps σ (execLayerOff d τ) := by
  unfold execLayerOff
  try dsimp only
  repeat' first
    | with_reducible assumption
    | with_reducible apply Keeps.next
    | with_reducible apply submitDesc_kept

theorem execOutputOff_kept {σ τ : State} (hk : Kept σ τ) (d : Sub) :
    Keeps σ (execOutputOff d τ) := by
  unfold execOutputOff
  try dsimp only
  repeat' first
    | with_reducible assumption
    | with_reducible apply Keeps.next
    | with_reducible apply submitDesc_kept

theorem execDisplayFlip_kept {σ τ : State} (hk : Kept σ τ) (d : Sub) :
    Keeps σ (execDisplayFlip d τ) := by
  unfold execDisplayFlip
  try dsimp only
  repeat' first
    | with_reducible assumption
    | with_reducible apply Keeps.next
    | with_reducible apply submitDesc_kept

theorem execTdcEnable_kept {σ τ : State} (hk : Kept σ τ) (d : Sub) :
    Keeps σ (execTdcEnable d τ) := by
  unfold execTdcEnable
  try dsimp only
  repeat' first
    | with_reducible assumption
    | with_reducible apply Keeps.next
    | with_reducible apply submitDesc_kept

theorem execTdcRelease_kept {σ τ : State} (hk : Kept σ τ) (d : Sub) :
    Keeps σ (execTdcRelease d τ) := by
  unfold execTdcRelease
  try dsimp only
  repeat' first
    | with_reducible assumption
    | with_reducible apply Keeps.next
    | with_reducible apply submitDesc_kept

theorem execTdcGateInterval_kept {σ τ : State} (hk : Kept σ τ) (d : Sub) (r : List HostRead) :
    Keeps σ (execTdcGateInterval d r τ) := by
  unfold execTdcGateInterval
  try dsimp only
  repeat' first
    | with_reducible assumption
    | with_reducible apply Keeps.next
    | with_reducible apply submitDesc_kept

theorem execTdcGateFrequency_kept {σ τ : State} (hk : Kept σ τ) (d : Sub) (r : List HostRead) :
    Keeps σ (execTdcGateFrequency d r τ) := by
  unfold execTdcGateFrequency
  try dsimp only
  repeat' first
    | with_reducible assumption
    | with_reducible apply Keeps.next
    | with_reducible apply submitDesc_kept

theorem execCalSetMode_kept {σ τ : State} (hk : Kept σ τ) (d : Sub) :
    Keeps σ (execCalSetMode d τ) := by
  unfold execCalSetMode
  try dsimp only
  repeat' first
    | with_reducible assumption
    | with_reducible apply Keeps.next
    | with_reducible apply submitDesc_kept

theorem execCalManualLoad_kept {σ τ : State} (hk : Kept σ τ) (d : Sub) (r : List HostRead) :
    Keeps σ (execCalManualLoad d r τ) := by
  unfold execCalManualLoad
  try dsimp only
  repeat' first
    | with_reducible assumption
    | with_reducible apply Keeps.next
    | with_reducible apply submitDesc_kept

theorem execCalFence_kept {σ τ : State} (hk : Kept σ τ) (d : Sub) :
    Keeps σ (execCalFence d τ) := by
  unfold execCalFence
  try dsimp only
  repeat' first
    | with_reducible assumption
    | with_reducible apply Keeps.next
    | with_reducible apply submitDesc_kept

theorem execCalRampLength_kept {σ τ : State} (hk : Kept σ τ) (d : Sub) :
    Keeps σ (execCalRampLength d τ) := by
  unfold execCalRampLength
  try dsimp only
  repeat' first
    | with_reducible assumption
    | with_reducible apply Keeps.next
    | with_reducible apply submitDesc_kept

theorem execRunForeground_kept {σ τ : State} (hk : Kept σ τ) (d : Sub) :
    Keeps σ (execRunForeground d τ) := by
  unfold execRunForeground
  try dsimp only
  repeat' first
    | with_reducible assumption
    | with_reducible apply Keeps.next
    | with_reducible apply submitDesc_kept

theorem execTableReset_kept {σ τ : State} (hk : Kept σ τ) (d : Sub) :
    Keeps σ (execTableReset d τ) := by
  unfold execTableReset
  try dsimp only
  repeat' first
    | with_reducible assumption
    | with_reducible apply Keeps.next
    | with_reducible apply submitDesc_kept

theorem execSetTimeNextPps_kept {σ τ : State} (hk : Kept σ τ) (d : Sub) :
    Keeps σ (execSetTimeNextPps d τ) := by
  unfold execSetTimeNextPps
  try dsimp only
  repeat' first
    | with_reducible assumption
    | with_reducible apply Keeps.next
    | with_reducible apply submitDesc_kept

theorem execSetTimeImmediate_kept {σ τ : State} (hk : Kept σ τ) (d : Sub) :
    Keeps σ (execSetTimeImmediate d τ) := by
  unfold execSetTimeImmediate
  try dsimp only
  repeat' first
    | with_reducible assumption
    | with_reducible apply Keeps.next
    | with_reducible apply submitDesc_kept

theorem execPowerHintCap_kept {σ τ : State} (hk : Kept σ τ) (d : Sub) :
    Keeps σ (execPowerHintCap d τ) := by
  unfold execPowerHintCap
  try dsimp only
  repeat' first
    | with_reducible assumption
    | with_reducible apply Keeps.next
    | with_reducible apply submitDesc_kept

theorem execPowerHintNextEvent_kept {σ τ : State} (hk : Kept σ τ) (d : Sub) :
    Keeps σ (execPowerHintNextEvent d τ) := by
  unfold execPowerHintNextEvent
  try dsimp only
  repeat' first
    | with_reducible assumption
    | with_reducible apply Keeps.next
    | with_reducible apply submitDesc_kept

theorem execPowerHintUncap_kept {σ τ : State} (hk : Kept σ τ) (d : Sub) :
    Keeps σ (execPowerHintUncap d τ) := by
  unfold execPowerHintUncap
  try dsimp only
  repeat' first
    | with_reducible assumption
    | with_reducible apply Keeps.next
    | with_reducible apply submitDesc_kept

theorem execFlightRead_kept {σ τ : State} (hk : Kept σ τ) (d : Sub) :
    Keeps σ (execFlightRead d τ) := by
  unfold execFlightRead
  try dsimp only
  repeat' first
    | with_reducible assumption
    | with_reducible apply Keeps.next
    | with_reducible apply submitDesc_kept

theorem execReplayLoadHost_kept {σ τ : State} (hk : Kept σ τ) (d : Sub) (r : List HostRead) :
    Keeps σ (execReplayLoadHost d r τ) := by
  unfold execReplayLoadHost
  try dsimp only
  repeat' first
    | with_reducible assumption
    | with_reducible apply Keeps.next
    | with_reducible apply submitDesc_kept

theorem execReplayLoadFlight_kept {σ τ : State} (hk : Kept σ τ) (d : Sub) :
    Keeps σ (execReplayLoadFlight d τ) := by
  unfold execReplayLoadFlight
  try dsimp only
  repeat' first
    | with_reducible assumption
    | with_reducible apply Keeps.next
    | with_reducible apply submitDesc_kept

theorem execReplayUnload_kept {σ τ : State} (hk : Kept σ τ) (d : Sub) :
    Keeps σ (execReplayUnload d τ) := by
  unfold execReplayUnload
  try dsimp only
  repeat' first
    | with_reducible assumption
    | with_reducible apply Keeps.next
    | with_reducible apply submitDesc_kept

theorem execAttestBind_kept {σ τ : State} (hk : Kept σ τ) (d : Sub) :
    Keeps σ (execAttestBind d τ) := by
  unfold execAttestBind
  try dsimp only
  repeat' first
    | with_reducible assumption
    | with_reducible apply Keeps.next
    | with_reducible apply submitDesc_kept

theorem execSelftest_kept {σ τ : State} (hk : Kept σ τ) (d : Sub) :
    Keeps σ (execSelftest d τ) := by
  unfold execSelftest
  try dsimp only
  repeat' first
    | with_reducible assumption
    | with_reducible apply Keeps.next
    | with_reducible apply submitDesc_kept

theorem execClearRetirement_kept {σ τ : State} (hk : Kept σ τ) (d : Sub) :
    Keeps σ (execClearRetirement d τ) := by
  unfold execClearRetirement
  try dsimp only
  repeat' first
    | with_reducible assumption
    | with_reducible apply Keeps.next
    | with_reducible apply submitDesc_kept

theorem execLaneTestEnter_kept {σ τ : State} (hk : Kept σ τ) (d : Sub) :
    Keeps σ (execLaneTestEnter d τ) := by
  unfold execLaneTestEnter
  try dsimp only
  repeat' first
    | with_reducible assumption
    | with_reducible apply Keeps.next
    | with_reducible apply submitDesc_kept

theorem execLaneTestExit_kept {σ τ : State} (hk : Kept σ τ) (d : Sub) :
    Keeps σ (execLaneTestExit d τ) := by
  unfold execLaneTestExit
  try dsimp only
  repeat' first
    | with_reducible assumption
    | with_reducible apply Keeps.next
    | with_reducible apply submitDesc_kept

theorem execDramTest_kept {σ τ : State} (hk : Kept σ τ) (d : Sub) :
    Keeps σ (execDramTest d τ) := by
  unfold execDramTest
  try dsimp only
  repeat' first
    | with_reducible assumption
    | with_reducible apply Keeps.next
    | with_reducible apply submitDesc_kept

end Sys2Proof.Machine
end

