-- ==== Sys2Proof/Laws/Kept/Guard.lean ====
section
/-!
SUPPORT. What the operations of Guard.lean keep: the queue, and the legal fields of Safety.
-/

namespace Sys2Proof.Machine

theorem engage_kept {σ τ : State} (hk : Kept σ τ) (i reason : Nat) :
    Kept σ (engage i reason τ) := by
  unfold engage
  try dsimp only
  repeat' first
    | (with_reducible intro _; try dsimp only)
    | with_reducible assumption
    | with_reducible apply modHedge_kept
    | with_reducible apply sendEvent_kept
    | with_reducible apply Kept.ite
    | with_reducible apply Kept.foldl

theorem rfTrip_kept {σ τ : State} (hk : Kept σ τ) (i : Nat) (tripped : Bool) :
    Kept σ (rfTrip i tripped τ) := by
  unfold rfTrip
  try dsimp only
  repeat' first
    | with_reducible assumption
    | with_reducible apply engage_kept
    | with_reducible apply Kept.ite

theorem rfRelease_kept {σ τ : State} (hk : Kept σ τ) (i : Nat) :
    Kept σ (rfRelease i τ) := by
  unfold rfRelease
  try dsimp only
  repeat' first
    | (with_reducible intro _; try dsimp only)
    | with_reducible assumption
    | with_reducible apply modHedge_kept
    | with_reducible apply modPair_kept
    | with_reducible apply advanceToTick_kept
    | with_reducible apply Kept.ite
    | with_reducible apply Kept.foldl

theorem sense_kept {σ τ : State} (hk : Kept σ τ) (sensor : Nat) (temp : Int) :
    Kept σ (sense sensor temp τ) := by
  unfold sense
  try dsimp only
  repeat' first
    | with_reducible assumption
    | with_reducible apply modHedge_kept

theorem ladderStream_kept {σ τ : State} (hk : Kept σ τ) (plan idx : Nat) :
    Kept σ (ladderStream plan idx τ) := by
  unfold ladderStream
  try dsimp only
  repeat' first
    | with_reducible assumption
    | with_reducible apply askSwitch_kept
    | with_reducible apply modX_kept
    | with_reducible apply Kept.ite
    | split

theorem restoreSlots_kept {σ τ : State} (hk : Kept σ τ) (before : State) :
    Kept σ (restoreSlots before τ) := by
  unfold restoreSlots
  try dsimp only
  repeat' first
    | (with_reducible intro _; try dsimp only)
    | with_reducible assumption
    | with_reducible apply startChain_kept
    | with_reducible apply Kept.ite
    | with_reducible apply Kept.foldl

theorem ladderTo_kept {σ τ : State} (hk : Kept σ τ) (step : Nat) (up : Bool) :
    Kept σ (ladderTo step up τ) := by
  unfold ladderTo
  try dsimp only
  repeat' first
    | (with_reducible intro _; try dsimp only)
    | with_reducible assumption
    | with_reducible apply restoreSlots_kept
    | with_reducible apply ladderStream_kept
    | with_reducible apply journalMode_kept
    | with_reducible apply sendAll_kept
    | with_reducible apply Kept.ite
    | with_reducible apply Kept.foldl
    | split
    | fail_if_no_progress (with_reducible refine Kept.mk ?_ rfl ?_ ?_ ?_ ?_ ?_ ?_ ?_ ?_ ?_ ?_) <;> try ((with_reducible refine (?_ : _ = _)); first | rfl | (split <;> rfl))

theorem ladderDown_kept {σ τ : State} (hk : Kept σ τ)  :
    Kept σ (ladderDown τ) := by
  unfold ladderDown
  try dsimp only
  repeat' first
    | with_reducible assumption
    | with_reducible apply ladderTo_kept
    | with_reducible apply Kept.ite

theorem throttleSet_kept {σ τ : State} (hk : Kept σ τ) (sensor : Nat) (temp : Int) :
    Kept σ (throttleSet sensor temp τ) := by
  unfold throttleSet
  try dsimp only
  repeat' first
    | with_reducible assumption
    | with_reducible apply ladderDown_kept
    | with_reducible apply sense_kept
    | with_reducible apply modHedge_kept
    | with_reducible apply sendAdmin_kept
    | with_reducible apply Kept.ite

theorem throttleClear_kept {σ τ : State} (hk : Kept σ τ) (sensor : Nat) (temp : Int) :
    Kept σ (throttleClear sensor temp τ) := by
  unfold throttleClear
  try dsimp only
  repeat' first
    | with_reducible assumption
    | with_reducible apply sense_kept
    | with_reducible apply modHedge_kept
    | with_reducible apply sendAdmin_kept
    | with_reducible apply Kept.ite
    | fail_if_no_progress (with_reducible refine Kept.mk ?_ rfl ?_ ?_ ?_ ?_ ?_ ?_ ?_ ?_ ?_ ?_) <;> try ((with_reducible refine (?_ : _ = _)); first | rfl | (split <;> rfl))

theorem thermalStep_kept {σ τ : State} (hk : Kept σ τ)  :
    Kept σ (thermalStep τ) := by
  unfold thermalStep
  try dsimp only
  repeat' first
    | with_reducible assumption
    | with_reducible apply ladderDown_kept
    | with_reducible apply advanceToTick_kept
    | with_reducible apply Kept.ite

theorem thermalUndo_kept {σ τ : State} (hk : Kept σ τ)  :
    Kept σ (thermalUndo τ) := by
  unfold thermalUndo
  try dsimp only
  repeat' first
    | with_reducible assumption
    | with_reducible apply ladderTo_kept
    | with_reducible apply advanceToTick_kept
    | with_reducible apply Kept.ite

theorem thermalTrip_kept {σ τ : State} (hk : Kept σ τ) (sensor : Nat) (temp : Int) :
    Kept σ (thermalTrip sensor temp τ) := by
  unfold thermalTrip
  try dsimp only
  repeat' first
    | with_reducible assumption
    | with_reducible apply sense_kept
    | with_reducible apply resetMain_kept
    | with_reducible apply modHedge_kept
    | with_reducible apply Kept.ite
    | fail_if_no_progress (with_reducible refine Kept.mk ?_ rfl ?_ ?_ ?_ ?_ ?_ ?_ ?_ ?_ ?_ ?_) <;> try ((with_reducible refine (?_ : _ = _)); first | rfl | (split <;> rfl))

theorem supplyFault_kept {σ τ : State} (hk : Kept σ τ) (rail reading : Nat) :
    Kept σ (supplyFault rail reading τ) := by
  unfold supplyFault
  try dsimp only
  repeat' first
    | with_reducible assumption
    | with_reducible apply resetMain_kept
    | with_reducible apply modHedge_kept
    | with_reducible apply Kept.ite

theorem supplyRecovered_kept {σ τ : State} (hk : Kept σ τ)  :
    Kept σ (supplyRecovered τ) := by
  unfold supplyRecovered
  try dsimp only
  repeat' first
    | with_reducible assumption
    | with_reducible apply tryStart_kept
    | with_reducible apply modHedge_kept
    | with_reducible apply Kept.ite

theorem resetMp_kept {σ τ : State} (hk : Kept σ τ)  :
    Kept σ (resetMp τ) := by
  unfold resetMp
  try dsimp only
  repeat' first
    | with_reducible assumption
    | with_reducible apply warmRestart_kept
    | with_reducible apply modHedge_kept
    | with_reducible apply freezeRecorder_kept
    | with_reducible apply sendAdmin_kept
    | with_reducible apply Kept.ite
    | fail_if_no_progress (with_reducible refine Kept.mk ?_ rfl ?_ ?_ ?_ ?_ ?_ ?_ ?_ ?_ ?_ ?_) <;> try ((with_reducible refine (?_ : _ = _)); first | rfl | (split <;> rfl))

theorem watchdogMiss_kept {σ τ : State} (hk : Kept σ τ)  :
    Kept σ (watchdogMiss τ) := by
  unfold watchdogMiss
  try dsimp only
  repeat' first
    | with_reducible assumption
    | with_reducible apply resetMp_kept
    | with_reducible apply Kept.ite

theorem mpRestarted_kept {σ τ : State} (hk : Kept σ τ)  :
    Kept σ (mpRestarted τ) := by
  unfold mpRestarted
  try dsimp only
  repeat' first
    | with_reducible assumption
    | with_reducible apply Kept.ite
    | fail_if_no_progress (with_reducible refine Kept.mk ?_ rfl ?_ ?_ ?_ ?_ ?_ ?_ ?_ ?_ ?_ ?_) <;> try ((with_reducible refine (?_ : _ = _)); first | rfl | (split <;> rfl))

theorem granted_kept {σ τ : State} (hk : Kept σ τ) (code arg : Nat) :
    Kept σ (granted code arg τ) := by
  unfold granted
  try dsimp only
  repeat' first
    | (with_reducible intro _; try dsimp only)
    | with_reducible assumption
    | with_reducible apply resetMp_kept
    | with_reducible apply engage_kept
    | with_reducible apply warmRestart_kept
    | with_reducible apply modHedge_kept
    | with_reducible apply Kept.foldl
    | split

theorem hedgeRequest_kept {σ τ : State} (hk : Kept σ τ) (fn code arg : Nat) :
    Kept σ (hedgeRequest fn code arg τ) := by
  unfold hedgeRequest
  try dsimp only
  repeat' first
    | with_reducible assumption
    | with_reducible apply granted_kept
    | with_reducible apply modFn_kept
    | with_reducible apply Kept.ite
    | split

theorem resetSpus_kept {σ τ : State} (hk : Kept σ τ)  :
    Kept σ (resetSpus τ) := by
  unfold resetSpus
  try dsimp only
  repeat' first
    | (with_reducible intro _; try dsimp only)
    | with_reducible assumption
    | with_reducible apply endInstance_kept
    | with_reducible apply Kept.ite
    | with_reducible apply Kept.foldl

theorem resetDisplay_kept {σ τ : State} (hk : Kept σ τ)  :
    Kept σ (resetDisplay τ) := by
  unfold resetDisplay
  try dsimp only
  repeat' first
    | (with_reducible intro _; try dsimp only)
    | with_reducible assumption
    | with_reducible apply disableOutput_kept
    | with_reducible apply sendEvent_kept
    | with_reducible apply Kept.foldl

theorem resetHost_kept {σ τ : State} (hk : Kept σ τ)  :
    Kept σ (resetHost τ) := by
  unfold resetHost
  try dsimp only
  repeat' first
    | (with_reducible intro _; try dsimp only)
    | with_reducible assumption
    | with_reducible apply startTeardown_kept
    | with_reducible apply Kept.foldl

theorem measureAgeing_kept {σ τ : State} (hk : Kept σ τ) (shifts : List (BitVec 16)) (hours : Nat) :
    Kept σ (measureAgeing shifts hours τ) := by
  unfold measureAgeing
  try dsimp only
  repeat' first
    | with_reducible assumption
    | with_reducible apply modHedge_kept
    | with_reducible apply Kept.ite

theorem execRfTrip_kept {σ τ : State} (hk : Kept σ τ) (input : BitVec 2) (tripped : Bool) :
    Keeps σ (execRfTrip input tripped τ) := by
  unfold execRfTrip
  try dsimp only
  repeat' first
    | with_reducible assumption
    | with_reducible apply Keeps.next
    | with_reducible apply rfTrip_kept

theorem execRfHoldExpiry_kept {σ τ : State} (hk : Kept σ τ) (input : BitVec 2) :
    Keeps σ (execRfHoldExpiry input τ) := by
  unfold execRfHoldExpiry
  try dsimp only
  repeat' first
    | with_reducible assumption
    | with_reducible apply Keeps.next
    | with_reducible apply rfRelease_kept
    | with_reducible apply settle_kept

theorem execThermalThrottle_kept {σ τ : State} (hk : Kept σ τ) (sensor : BitVec 4) (temp : BitVec 16) :
    Keeps σ (execThermalThrottle sensor temp τ) := by
  unfold execThermalThrottle
  try dsimp only
  repeat' first
    | with_reducible assumption
    | with_reducible apply Keeps.next
    | with_reducible apply throttleSet_kept
    | with_reducible apply settle_kept

theorem execThrottleClear_kept {σ τ : State} (hk : Kept σ τ) (sensor : BitVec 4) (temp : BitVec 16) :
    Keeps σ (execThrottleClear sensor temp τ) := by
  unfold execThrottleClear
  try dsimp only
  repeat' first
    | with_reducible assumption
    | with_reducible apply Keeps.next
    | with_reducible apply throttleClear_kept
    | with_reducible apply settle_kept

theorem execThermalTrip_kept {σ τ : State} (hk : Kept σ τ) (sensor : BitVec 4) (temp : BitVec 16) :
    Keeps σ (execThermalTrip sensor temp τ) := by
  unfold execThermalTrip
  try dsimp only
  repeat' first
    | with_reducible assumption
    | with_reducible apply Keeps.next
    | with_reducible apply thermalTrip_kept

theorem execThermalStep_kept {σ τ : State} (hk : Kept σ τ)  :
    Keeps σ (execThermalStep τ) := by
  unfold execThermalStep
  try dsimp only
  repeat' first
    | with_reducible assumption
    | with_reducible apply Keeps.next
    | with_reducible apply thermalStep_kept
    | with_reducible apply settle_kept

theorem execThermalStepUndo_kept {σ τ : State} (hk : Kept σ τ)  :
    Keeps σ (execThermalStepUndo τ) := by
  unfold execThermalStepUndo
  try dsimp only
  repeat' first
    | with_reducible assumption
    | with_reducible apply Keeps.next
    | with_reducible apply thermalUndo_kept
    | with_reducible apply settle_kept

theorem execSupplyFault_kept {σ τ : State} (hk : Kept σ τ) (rail : BitVec 3) (reading : BitVec 16) :
    Keeps σ (execSupplyFault rail reading τ) := by
  unfold execSupplyFault
  try dsimp only
  repeat' first
    | with_reducible assumption
    | with_reducible apply Keeps.next
    | with_reducible apply supplyFault_kept

theorem execSupplyRecovered_kept {σ τ : State} (hk : Kept σ τ)  :
    Keeps σ (execSupplyRecovered τ) := by
  unfold execSupplyRecovered
  try dsimp only
  repeat' first
    | with_reducible assumption
    | with_reducible apply Keeps.next
    | with_reducible apply supplyRecovered_kept

theorem execWatchdogMiss_kept {σ τ : State} (hk : Kept σ τ)  :
    Keeps σ (execWatchdogMiss τ) := by
  unfold execWatchdogMiss
  try dsimp only
  repeat' first
    | with_reducible assumption
    | with_reducible apply Keeps.next
    | with_reducible apply watchdogMiss_kept

theorem execMpRestartComplete_kept {σ τ : State} (hk : Kept σ τ)  :
    Keeps σ (execMpRestartComplete τ) := by
  unfold execMpRestartComplete
  try dsimp only
  repeat' first
    | with_reducible assumption
    | with_reducible apply Keeps.next
    | with_reducible apply mpRestarted_kept
    | with_reducible apply settle_kept

theorem execAtten_kept {σ τ : State} (hk : Kept σ τ) (fn : BitVec 7) (arg : BitVec 4) :
    Keeps σ (execAtten fn arg τ) := by
  unfold execAtten
  try dsimp only
  repeat' first
    | with_reducible assumption
    | with_reducible apply Keeps.next
    | with_reducible apply hedgeRequest_kept

theorem execFaultClear_kept {σ τ : State} (hk : Kept σ τ) (fn : BitVec 7) (arg : BitVec 4) :
    Keeps σ (execFaultClear fn arg τ) := by
  unfold execFaultClear
  try dsimp only
  repeat' first
    | with_reducible assumption
    | with_reducible apply Keeps.next
    | with_reducible apply hedgeRequest_kept

theorem execMpReset_kept {σ τ : State} (hk : Kept σ τ) (fn : BitVec 7) (arg : BitVec 4) :
    Keeps σ (execMpReset fn arg τ) := by
  unfold execMpReset
  try dsimp only
  repeat' first
    | with_reducible assumption
    | with_reducible apply Keeps.next
    | with_reducible apply hedgeRequest_kept

theorem execHedgeReqWarmRestart_kept {σ τ : State} (hk : Kept σ τ) (fn : BitVec 7) (arg : BitVec 4) :
    Keeps σ (execHedgeReqWarmRestart fn arg τ) := by
  unfold execHedgeReqWarmRestart
  try dsimp only
  repeat' first
    | with_reducible assumption
    | with_reducible apply Keeps.next
    | with_reducible apply hedgeRequest_kept

theorem execSpuIslandReset_kept {σ τ : State} (hk : Kept σ τ)  :
    Keeps σ (execSpuIslandReset τ) := by
  unfold execSpuIslandReset
  try dsimp only
  repeat' first
    | with_reducible assumption
    | with_reducible apply Keeps.next
    | with_reducible apply resetSpus_kept
    | with_reducible apply settle_kept

theorem execDisplayIslandReset_kept {σ τ : State} (hk : Kept σ τ)  :
    Keeps σ (execDisplayIslandReset τ) := by
  unfold execDisplayIslandReset
  try dsimp only
  repeat' first
    | with_reducible assumption
    | with_reducible apply Keeps.next
    | with_reducible apply resetDisplay_kept
    | with_reducible apply settle_kept

theorem execHostIslandReset_kept {σ τ : State} (hk : Kept σ τ)  :
    Keeps σ (execHostIslandReset τ) := by
  unfold execHostIslandReset
  try dsimp only
  repeat' first
    | with_reducible assumption
    | with_reducible apply Keeps.next
    | with_reducible apply resetHost_kept
    | with_reducible apply settle_kept

theorem execAvailabilitySave_kept {σ τ : State} (hk : Kept σ τ)  :
    Keeps σ (execAvailabilitySave τ) := by
  unfold execAvailabilitySave
  try dsimp only
  repeat' first
    | with_reducible assumption
    | with_reducible apply Keeps.next
    | with_reducible apply saveAvail_kept

theorem execAgeingMeasure_kept {σ τ : State} (hk : Kept σ τ) (shifts : List (BitVec 16)) (hours : Nat) :
    Keeps σ (execAgeingMeasure shifts hours τ) := by
  unfold execAgeingMeasure
  try dsimp only
  repeat' first
    | with_reducible assumption
    | with_reducible apply Keeps.next
    | with_reducible apply measureAgeing_kept

theorem execPowerStateEntryDone_kept {σ τ : State} (hk : Kept σ τ)  :
    Keeps σ (execPowerStateEntryDone τ) := by
  unfold execPowerStateEntryDone
  try dsimp only
  repeat' first
    | with_reducible assumption
    | with_reducible apply Keeps.next
    | with_reducible apply settle_kept
    | with_reducible apply entryDone_kept

theorem execPowerStateExitStart_kept {σ τ : State} (hk : Kept σ τ)  :
    Keeps σ (execPowerStateExitStart τ) := by
  unfold execPowerStateExitStart
  try dsimp only
  repeat' first
    | with_reducible assumption
    | with_reducible apply Keeps.next
    | with_reducible apply settle_kept
    | with_reducible apply exitStart_kept

theorem execPowerStateExitDone_kept {σ τ : State} (hk : Kept σ τ)  :
    Keeps σ (execPowerStateExitDone τ) := by
  unfold execPowerStateExitDone
  try dsimp only
  repeat' first
    | with_reducible assumption
    | with_reducible apply Keeps.next
    | with_reducible apply settle_kept
    | with_reducible apply exitDone_kept

end Sys2Proof.Machine
end

