-- ==== Sys2Proof/Laws/Kept/Trust.lean ====
section
/-!
SUPPORT. What the operations of Trust.lean keep: the queue, and the legal fields of Safety.
-/

namespace Sys2Proof.Machine

theorem spdmSend_kept {σ τ : State} (hk : Kept σ τ) (port code : Nat) (body : List Fld) :
    Kept σ (spdmSend port code body τ) := by
  unfold spdmSend
  try dsimp only
  repeat' first
    | with_reducible assumption
    | with_reducible apply emit_kept

theorem spdmError_kept {σ τ : State} (hk : Kept σ τ) (port code : Nat) :
    Kept σ (spdmError port code τ) := by
  unfold spdmError
  try dsimp only
  repeat' first
    | with_reducible assumption
    | with_reducible apply spdmSend_kept

theorem setNego_kept {σ τ : State} (hk : Kept σ τ) (port stage : Nat) :
    Kept σ (setNego port stage τ) := by
  unfold setNego
  try dsimp only
  repeat' first
    | with_reducible assumption
    | with_reducible apply modTrust_kept

theorem spdmReach_kept {σ τ : State} (hk : Kept σ τ) (port : Nat) (f : State → State) (hf : ∀ u, Kept σ u → Kept σ (f u)) :
    Kept σ (spdmReach port f τ) := by
  unfold spdmReach
  try dsimp only
  repeat' first
    | with_reducible assumption
    | with_reducible apply hf
    | with_reducible apply Kept.ite

theorem spdmAfter_kept {σ τ : State} (hk : Kept σ τ) (port stage : Nat) (f : State → State) (hf : ∀ u, Kept σ u → Kept σ (f u)) :
    Kept σ (spdmAfter port stage f τ) := by
  unfold spdmAfter
  try dsimp only
  repeat' first
    | (with_reducible intro _; try dsimp only)
    | with_reducible assumption
    | with_reducible apply hf
    | with_reducible apply spdmReach_kept
    | with_reducible apply spdmError_kept
    | with_reducible apply Kept.ite

theorem spdmKeyed_kept {σ τ : State} (hk : Kept σ τ) (port : Nat) (f : State → State) (hf : ∀ u, Kept σ u → Kept σ (f u)) :
    Kept σ (spdmKeyed port f τ) := by
  unfold spdmKeyed
  try dsimp only
  repeat' first
    | (with_reducible intro _; try dsimp only)
    | with_reducible assumption
    | with_reducible apply hf
    | with_reducible apply spdmAfter_kept
    | with_reducible apply spdmError_kept
    | with_reducible apply Kept.ite

theorem getVersion_kept {σ τ : State} (hk : Kept σ τ) (port : Nat) :
    Kept σ (getVersion port τ) := by
  unfold getVersion
  try dsimp only
  repeat' first
    | (with_reducible intro _; try dsimp only)
    | with_reducible assumption
    | with_reducible apply spdmReach_kept
    | with_reducible apply setNego_kept
    | with_reducible apply spdmSend_kept

theorem getCapabilities_kept {σ τ : State} (hk : Kept σ τ) (port : Nat) :
    Kept σ (getCapabilities port τ) := by
  unfold getCapabilities
  try dsimp only
  repeat' first
    | (with_reducible intro _; try dsimp only)
    | with_reducible assumption
    | with_reducible apply spdmAfter_kept
    | with_reducible apply setNego_kept
    | with_reducible apply spdmSend_kept

theorem negotiate_kept {σ τ : State} (hk : Kept σ τ) (port : Nat) (offered : Bool) :
    Kept σ (negotiate port offered τ) := by
  unfold negotiate
  try dsimp only
  repeat' first
    | (with_reducible intro _; try dsimp only)
    | with_reducible assumption
    | with_reducible apply spdmAfter_kept
    | with_reducible apply setNego_kept
    | with_reducible apply spdmError_kept
    | with_reducible apply spdmSend_kept
    | with_reducible apply Kept.ite

theorem getDigests_kept {σ τ : State} (hk : Kept σ τ) (port : Nat) :
    Kept σ (getDigests port τ) := by
  unfold getDigests
  try dsimp only
  repeat' first
    | (with_reducible intro _; try dsimp only)
    | with_reducible assumption
    | with_reducible apply spdmKeyed_kept
    | with_reducible apply spdmSend_kept

theorem getCertificate_kept {σ τ : State} (hk : Kept σ τ) (port slot off len : Nat) :
    Kept σ (getCertificate port slot off len τ) := by
  unfold getCertificate
  try dsimp only
  repeat' first
    | (with_reducible intro _; try dsimp only)
    | with_reducible assumption
    | with_reducible apply spdmKeyed_kept
    | with_reducible apply spdmError_kept
    | with_reducible apply spdmSend_kept
    | with_reducible apply Kept.ite

theorem challenge_kept {σ τ : State} (hk : Kept σ τ) (port slot : Nat) (request : List Byte) :
    Kept σ (challenge port slot request τ) := by
  unfold challenge
  try dsimp only
  repeat' first
    | (with_reducible intro _; try dsimp only)
    | with_reducible assumption
    | with_reducible apply spdmKeyed_kept
    | with_reducible apply spdmError_kept
    | with_reducible apply spdmSend_kept
    | with_reducible apply Kept.ite

theorem getMeasurements_kept {σ τ : State} (hk : Kept σ τ) (port op : Nat) (signed : Bool) (request : List Byte) :
    Kept σ (getMeasurements port op signed request τ) := by
  unfold getMeasurements
  try dsimp only
  repeat' first
    | (with_reducible intro _; try dsimp only)
    | with_reducible assumption
    | with_reducible apply spdmAfter_kept
    | with_reducible apply spdmError_kept
    | with_reducible apply spdmSend_kept
    | with_reducible apply Kept.ite

theorem modSession_kept {σ τ : State} (hk : Kept σ τ) (port id : Nat) (f : Session → Session) :
    Kept σ (modSession port id f τ) := by
  exact hk.same rfl rfl rfl rfl rfl rfl rfl rfl rfl rfl rfl

theorem endSession_kept {σ τ : State} (hk : Kept σ τ) (port id : Nat) :
    Kept σ (endSession port id τ) := by
  unfold endSession
  try dsimp only
  repeat' first
    | with_reducible assumption
    | with_reducible apply modTrust_kept

theorem keyExchange_kept {σ τ : State} (hk : Kept σ τ) (port id : Nat) (request : List Byte) :
    Kept σ (keyExchange port id request τ) := by
  unfold keyExchange
  try dsimp only
  repeat' first
    | (with_reducible intro _; try dsimp only)
    | with_reducible assumption
    | with_reducible apply spdmKeyed_kept
    | with_reducible apply spdmError_kept
    | with_reducible apply spdmSend_kept
    | with_reducible apply modTrust_kept
    | with_reducible apply Kept.ite

theorem onSession_kept {σ τ : State} (hk : Kept σ τ) (port id : Nat) (f : Session → State → State) (hf : ∀ x u, Kept σ u → Kept σ (f x u)) :
    Kept σ (onSession port id f τ) := by
  unfold onSession
  try dsimp only
  repeat' first
    | (with_reducible intro _; try dsimp only)
    | with_reducible assumption
    | with_reducible apply hf
    | with_reducible apply spdmAfter_kept
    | with_reducible apply spdmError_kept
    | split

theorem finishSession_kept {σ τ : State} (hk : Kept σ τ) (port id : Nat) (valid : Bool) :
    Kept σ (finishSession port id valid τ) := by
  unfold finishSession
  try dsimp only
  repeat' first
    | (with_reducible intro _; try dsimp only)
    | with_reducible assumption
    | with_reducible apply onSession_kept
    | with_reducible apply endSession_kept
    | with_reducible apply modSession_kept
    | with_reducible apply spdmError_kept
    | with_reducible apply spdmSend_kept
    | with_reducible apply Kept.ite

theorem onFinished_kept {σ τ : State} (hk : Kept σ τ) (port id : Nat) (f : State → State) (hf : ∀ u, Kept σ u → Kept σ (f u)) :
    Kept σ (onFinished port id f τ) := by
  unfold onFinished
  try dsimp only
  repeat' first
    | (with_reducible intro _; try dsimp only)
    | with_reducible assumption
    | with_reducible apply hf
    | with_reducible apply onSession_kept
    | with_reducible apply spdmError_kept
    | with_reducible apply Kept.ite

theorem keyUpdate_kept {σ τ : State} (hk : Kept σ τ) (port id op : Nat) :
    Kept σ (keyUpdate port id op τ) := by
  unfold keyUpdate
  try dsimp only
  repeat' first
    | (with_reducible intro _; try dsimp only)
    | with_reducible assumption
    | with_reducible apply onFinished_kept
    | with_reducible apply modSession_kept
    | with_reducible apply spdmError_kept
    | with_reducible apply spdmSend_kept
    | with_reducible apply Kept.ite

theorem modIde_kept {σ τ : State} (hk : Kept σ τ) (port id : Nat) (f : IdeStream → IdeStream) :
    Kept σ (modIde port id f τ) := by
  unfold modIde
  try dsimp only
  repeat' first
    | with_reducible assumption
    | with_reducible apply modTrust_kept

theorem ideKm_kept {σ τ : State} (hk : Kept σ τ) (port id stream op : Nat) :
    Kept σ (ideKm port id stream op τ) := by
  unfold ideKm
  try dsimp only
  repeat' first
    | (with_reducible intro _; try dsimp only)
    | with_reducible assumption
    | with_reducible apply modIde_kept
    | with_reducible apply onFinished_kept
    | with_reducible apply spdmError_kept
    | with_reducible apply spdmSend_kept
    | with_reducible apply Kept.ite

theorem ideFails_kept {σ τ : State} (hk : Kept σ τ) (port stream : Nat) :
    Kept σ (ideFails port stream τ) := by
  unfold ideFails
  try dsimp only
  repeat' first
    | with_reducible assumption
    | with_reducible apply modIde_kept
    | with_reducible apply modTrust_kept
    | with_reducible apply sendAdmin_kept
    | with_reducible apply Kept.ite
    | split

theorem debugToken_kept {σ τ : State} (hk : Kept σ τ) (port : Option Nat) (devId : BitVec 384) (nonce : BitVec 128) (sig : List Byte) :
    Kept σ (debugToken port devId nonce sig τ) := by
  unfold debugToken
  try dsimp only
  repeat' first
    | with_reducible assumption
    | with_reducible apply warmRestart_kept
    | with_reducible apply modTrust_kept
    | with_reducible apply freshValue_kept
    | with_reducible apply Kept.ite

theorem execGetVersion_kept {σ τ : State} (hk : Kept σ τ) (port : BitVec 1) :
    Keeps σ (execGetVersion port τ) := by
  unfold execGetVersion
  try dsimp only
  repeat' first
    | with_reducible assumption
    | with_reducible apply Keeps.next
    | with_reducible apply getVersion_kept

theorem execGetCapabilities_kept {σ τ : State} (hk : Kept σ τ) (port : BitVec 1) :
    Keeps σ (execGetCapabilities port τ) := by
  unfold execGetCapabilities
  try dsimp only
  repeat' first
    | with_reducible assumption
    | with_reducible apply Keeps.next
    | with_reducible apply getCapabilities_kept

theorem execNegotiateAlgorithms_kept {σ τ : State} (hk : Kept σ τ) (port : BitVec 1) (offered : Bool) :
    Keeps σ (execNegotiateAlgorithms port offered τ) := by
  unfold execNegotiateAlgorithms
  try dsimp only
  repeat' first
    | with_reducible assumption
    | with_reducible apply Keeps.next
    | with_reducible apply negotiate_kept

theorem execGetDigests_kept {σ τ : State} (hk : Kept σ τ) (port : BitVec 1) :
    Keeps σ (execGetDigests port τ) := by
  unfold execGetDigests
  try dsimp only
  repeat' first
    | with_reducible assumption
    | with_reducible apply Keeps.next
    | with_reducible apply getDigests_kept

theorem execGetCertificate_kept {σ τ : State} (hk : Kept σ τ) (port : BitVec 1) (slot : BitVec 4) (off len : BitVec 16) :
    Keeps σ (execGetCertificate port slot off len τ) := by
  unfold execGetCertificate
  try dsimp only
  repeat' first
    | with_reducible assumption
    | with_reducible apply Keeps.next
    | with_reducible apply getCertificate_kept

theorem execChallenge_kept {σ τ : State} (hk : Kept σ τ) (port : BitVec 1) (slot : BitVec 4) (request : List Byte) :
    Keeps σ (execChallenge port slot request τ) := by
  unfold execChallenge
  try dsimp only
  repeat' first
    | with_reducible assumption
    | with_reducible apply Keeps.next
    | with_reducible apply challenge_kept

theorem execGetMeasurements_kept {σ τ : State} (hk : Kept σ τ) (port : BitVec 1) (op : BitVec 8) (signed : Bool) (request : List Byte) :
    Keeps σ (execGetMeasurements port op signed request τ) := by
  unfold execGetMeasurements
  try dsimp only
  repeat' first
    | with_reducible assumption
    | with_reducible apply Keeps.next
    | with_reducible apply getMeasurements_kept

theorem execKeyExchange_kept {σ τ : State} (hk : Kept σ τ) (port : BitVec 1) (session : BitVec 32) (request : List Byte) :
    Keeps σ (execKeyExchange port session request τ) := by
  unfold execKeyExchange
  try dsimp only
  repeat' first
    | with_reducible assumption
    | with_reducible apply Keeps.next
    | with_reducible apply keyExchange_kept

theorem execFinish_kept {σ τ : State} (hk : Kept σ τ) (port : BitVec 1) (session : BitVec 32) (valid : Bool) :
    Keeps σ (execFinish port session valid τ) := by
  unfold execFinish
  try dsimp only
  repeat' first
    | with_reducible assumption
    | with_reducible apply Keeps.next
    | with_reducible apply finishSession_kept

theorem execHeartbeat_kept {σ τ : State} (hk : Kept σ τ) (port : BitVec 1) (session : BitVec 32) :
    Keeps σ (execHeartbeat port session τ) := by
  unfold execHeartbeat
  try dsimp only
  repeat' first
    | (with_reducible intro _; try dsimp only)
    | with_reducible assumption
    | with_reducible apply Keeps.next
    | with_reducible apply onFinished_kept
    | with_reducible apply spdmSend_kept

theorem execKeyUpdate_kept {σ τ : State} (hk : Kept σ τ) (port : BitVec 1) (session : BitVec 32) (op : BitVec 8) :
    Keeps σ (execKeyUpdate port session op τ) := by
  unfold execKeyUpdate
  try dsimp only
  repeat' first
    | with_reducible assumption
    | with_reducible apply Keeps.next
    | with_reducible apply keyUpdate_kept

theorem execEndSession_kept {σ τ : State} (hk : Kept σ τ) (port : BitVec 1) (session : BitVec 32) :
    Keeps σ (execEndSession port session τ) := by
  unfold execEndSession
  try dsimp only
  repeat' first
    | (with_reducible intro _; try dsimp only)
    | with_reducible assumption
    | with_reducible apply Keeps.next
    | with_reducible apply onFinished_kept
    | with_reducible apply endSession_kept
    | with_reducible apply spdmSend_kept

theorem execIdeKm_kept {σ τ : State} (hk : Kept σ τ) (port : BitVec 1) (session : BitVec 32) (stream op : BitVec 8) :
    Keeps σ (execIdeKm port session stream op τ) := by
  unfold execIdeKm
  try dsimp only
  repeat' first
    | with_reducible assumption
    | with_reducible apply Keeps.next
    | with_reducible apply ideKm_kept

theorem execIdeIntegrityFail_kept {σ τ : State} (hk : Kept σ τ) (port : BitVec 1) (stream : BitVec 8) :
    Keeps σ (execIdeIntegrityFail port stream τ) := by
  unfold execIdeIntegrityFail
  try dsimp only
  repeat' first
    | with_reducible assumption
    | with_reducible apply Keeps.next
    | with_reducible apply ideFails_kept

theorem execDebugUnlockToken_kept {σ τ : State} (hk : Kept σ τ) (port : Option (BitVec 1)) (devId : BitVec 384) (nonce : BitVec 128) (sig : List Byte) :
    Keeps σ (execDebugUnlockToken port devId nonce sig τ) := by
  unfold execDebugUnlockToken
  try dsimp only
  repeat' first
    | with_reducible assumption
    | with_reducible apply Keeps.next
    | with_reducible apply debugToken_kept

end Sys2Proof.Machine
end

