-- ==== Sys2Proof/Laws/Kept/SpuCore.lean ====
section
/-!
SUPPORT. What the operations of SpuCore.lean keep: the queue, and the legal fields of Safety.
-/

namespace Sys2Proof.Machine

theorem illegal_kept {σ τ : State} (hk : Kept σ τ) (n : Nat) :
    Kept σ (illegal n τ) := by
  unfold illegal
  try dsimp only
  repeat' first
    | with_reducible assumption
    | with_reducible apply endInstance_kept
    | with_reducible apply modLsu_kept

theorem wakeUnit_kept {σ τ : State} (hk : Kept σ τ) (n : Nat) :
    Kept σ (wakeUnit n τ) := by
  unfold wakeUnit
  try dsimp only
  repeat' first
    | with_reducible assumption
    | with_reducible apply modLsu_kept
    | with_reducible apply freshValue_kept
    | with_reducible apply Kept.ite

theorem issue_kept {σ τ : State} (hk : Kept σ τ) (opc : Nat) (f : Form) (n : BitVec 4) (w : BitVec 56) (go : Lsu → State → Option State)
    (hgo : ∀ l u v, Kept σ u → go l u = some v → Kept σ v) : Kept σ (issue opc f n w go τ) := by
  unfold issue
  dsimp only
  have h := wakeUnit_kept hk n.toNat
  refine Kept.ite hk (Kept.ite ?_ (illegal_kept h _))
  rcases e : go (getLsu n.toNat (wakeUnit n.toNat τ)) (wakeUnit n.toNat τ) with _ | v
  · exact illegal_kept h _
  · exact hgo _ _ _ h e

theorem issueUnit_kept {σ τ : State} (hk : Kept σ τ) (opc : Nat) (f : Form) (n : BitVec 4) (w : BitVec 56) (go : State → Lsu → Option Lsu) :
    Kept σ (issueUnit opc f n w go τ) := by
  refine issue_kept hk _ _ _ _ _ fun l u v hu h => ?_
  obtain ⟨x, -, rfl⟩ := Option.map_eq_some_iff.1 h
  exact modLsu_kept hu _ _

theorem issueRegs_kept {σ τ : State} (hk : Kept σ τ) (opc : Nat) (f : Form) (n : BitVec 4) (w : BitVec 56) (go : Lsu → Option (List Retire)) :
    Kept σ (issueRegs opc f n w go τ) := by
  unfold issueRegs
  try dsimp only
  repeat' first
    | with_reducible assumption
    | with_reducible apply issueUnit_kept

end Sys2Proof.Machine
end

