-- ==== Sys2Proof/Laws/Kept/SpuScalar.lean ====
section
/-!
SUPPORT. What the operations of SpuScalar.lean keep: the queue, and the legal fields of Safety.
-/

namespace Sys2Proof.Machine

theorem execNop_kept {σ τ : State} (hk : Kept σ τ) (n : BitVec 4) (w : BitVec 56) :
    Keeps σ (execNop n w τ) := by
  unfold execNop
  try dsimp only
  repeat' first
    | with_reducible assumption
    | with_reducible apply Keeps.next
    | with_reducible apply issueRegs_kept
    | with_reducible apply settle_kept

theorem execHalt_kept {σ τ : State} (hk : Kept σ τ) (n : BitVec 4) (w : BitVec 56) :
    Keeps σ (execHalt n w τ) := by
  unfold execHalt
  try dsimp only
  repeat' first
    | with_reducible assumption
    | with_reducible apply Keeps.next
    | with_reducible apply issueUnit_kept
    | with_reducible apply settle_kept
    | with_reducible apply haltTakes_kept

theorem execReti_kept {σ τ : State} (hk : Kept σ τ) (n : BitVec 4) (w : BitVec 56) :
    Keeps σ (execReti n w τ) := by
  unfold execReti
  try dsimp only
  repeat' first
    | with_reducible assumption
    | with_reducible apply Keeps.next
    | with_reducible apply issueUnit_kept
    | with_reducible apply settle_kept

theorem execWaiti_kept {σ τ : State} (hk : Kept σ τ) (n : BitVec 4) (w : BitVec 56) :
    Keeps σ (execWaiti n w τ) := by
  unfold execWaiti
  try dsimp only
  repeat' first
    | with_reducible assumption
    | with_reducible apply Keeps.next
    | with_reducible apply issueUnit_kept
    | with_reducible apply settle_kept

theorem execRep_kept {σ τ : State} (hk : Kept σ τ) (n : BitVec 4) (w : BitVec 56) :
    Keeps σ (execRep n w τ) := by
  unfold execRep
  try dsimp only
  repeat' first
    | with_reducible assumption
    | with_reducible apply Keeps.next
    | with_reducible apply issueUnit_kept
    | with_reducible apply settle_kept

theorem execRepa_kept {σ τ : State} (hk : Kept σ τ) (n : BitVec 4) (w : BitVec 56) :
    Keeps σ (execRepa n w τ) := by
  unfold execRepa
  try dsimp only
  repeat' first
    | with_reducible assumption
    | with_reducible apply Keeps.next
    | with_reducible apply issueUnit_kept
    | with_reducible apply settle_kept

theorem execLoopr_kept {σ τ : State} (hk : Kept σ τ) (n : BitVec 4) (w : BitVec 56) :
    Keeps σ (execLoopr n w τ) := by
  unfold execLoopr
  try dsimp only
  repeat' first
    | with_reducible assumption
    | with_reducible apply Keeps.next
    | with_reducible apply issueUnit_kept
    | with_reducible apply settle_kept

theorem execBr_kept {σ τ : State} (hk : Kept σ τ) (n : BitVec 4) (w : BitVec 56) :
    Keeps σ (execBr n w τ) := by
  unfold execBr
  try dsimp only
  repeat' first
    | with_reducible assumption
    | with_reducible apply Keeps.next
    | with_reducible apply issueUnit_kept
    | with_reducible apply settle_kept

theorem execBc_kept {σ τ : State} (hk : Kept σ τ) (n : BitVec 4) (w : BitVec 56) :
    Keeps σ (execBc n w τ) := by
  unfold execBc
  try dsimp only
  repeat' first
    | with_reducible assumption
    | with_reducible apply Keeps.next
    | with_reducible apply issueUnit_kept
    | with_reducible apply settle_kept

theorem execBp_kept {σ τ : State} (hk : Kept σ τ) (n : BitVec 4) (w : BitVec 56) :
    Keeps σ (execBp n w τ) := by
  unfold execBp
  try dsimp only
  repeat' first
    | with_reducible assumption
    | with_reducible apply Keeps.next
    | with_reducible apply issueUnit_kept
    | with_reducible apply settle_kept

theorem execCall_kept {σ τ : State} (hk : Kept σ τ) (n : BitVec 4) (w : BitVec 56) :
    Keeps σ (execCall n w τ) := by
  unfold execCall
  try dsimp only
  repeat' first
    | with_reducible assumption
    | with_reducible apply Keeps.next
    | with_reducible apply issueUnit_kept
    | with_reducible apply settle_kept

theorem execJr_kept {σ τ : State} (hk : Kept σ τ) (n : BitVec 4) (w : BitVec 56) :
    Keeps σ (execJr n w τ) := by
  unfold execJr
  try dsimp only
  repeat' first
    | with_reducible assumption
    | with_reducible apply Keeps.next
    | with_reducible apply issueUnit_kept
    | with_reducible apply settle_kept

theorem execVld_kept {σ τ : State} (hk : Kept σ τ) (n : BitVec 4) (w : BitVec 56) :
    Keeps σ (execVld n w τ) := by
  unfold execVld
  try dsimp only
  repeat' first
    | with_reducible assumption
    | with_reducible apply Keeps.next
    | with_reducible apply issueUnit_kept
    | with_reducible apply settle_kept

theorem execVst_kept {σ τ : State} (hk : Kept σ τ) (n : BitVec 4) (w : BitVec 56) :
    Keeps σ (execVst n w τ) := by
  unfold execVst
  try dsimp only
  repeat' first
    | with_reducible assumption
    | with_reducible apply Keeps.next
    | with_reducible apply issueUnit_kept
    | with_reducible apply settle_kept

theorem execLdw_kept {σ τ : State} (hk : Kept σ τ) (n : BitVec 4) (w : BitVec 56) :
    Keeps σ (execLdw n w τ) := by
  unfold execLdw
  try dsimp only
  repeat' first
    | with_reducible assumption
    | with_reducible apply Keeps.next
    | with_reducible apply issueUnit_kept
    | with_reducible apply settle_kept

theorem execStw_kept {σ τ : State} (hk : Kept σ τ) (n : BitVec 4) (w : BitVec 56) :
    Keeps σ (execStw n w τ) := by
  unfold execStw
  try dsimp only
  repeat' first
    | with_reducible assumption
    | with_reducible apply Keeps.next
    | with_reducible apply issueUnit_kept
    | with_reducible apply settle_kept

theorem execAupd_kept {σ τ : State} (hk : Kept σ τ) (n : BitVec 4) (w : BitVec 56) :
    Keeps σ (execAupd n w τ) := by
  unfold execAupd
  try dsimp only
  repeat' first
    | with_reducible assumption
    | with_reducible apply Keeps.next
    | with_reducible apply issueUnit_kept
    | with_reducible apply settle_kept

theorem execAmovi_kept {σ τ : State} (hk : Kept σ τ) (n : BitVec 4) (w : BitVec 56) :
    Keeps σ (execAmovi n w τ) := by
  unfold execAmovi
  try dsimp only
  repeat' first
    | with_reducible assumption
    | with_reducible apply Keeps.next
    | with_reducible apply issueRegs_kept
    | with_reducible apply settle_kept

theorem execAaddi_kept {σ τ : State} (hk : Kept σ τ) (n : BitVec 4) (w : BitVec 56) :
    Keeps σ (execAaddi n w τ) := by
  unfold execAaddi
  try dsimp only
  repeat' first
    | with_reducible assumption
    | with_reducible apply Keeps.next
    | with_reducible apply issueRegs_kept
    | with_reducible apply settle_kept

theorem execAadd_kept {σ τ : State} (hk : Kept σ τ) (n : BitVec 4) (w : BitVec 56) :
    Keeps σ (execAadd n w τ) := by
  unfold execAadd
  try dsimp only
  repeat' first
    | with_reducible assumption
    | with_reducible apply Keeps.next
    | with_reducible apply issueRegs_kept
    | with_reducible apply settle_kept

theorem execAsub_kept {σ τ : State} (hk : Kept σ τ) (n : BitVec 4) (w : BitVec 56) :
    Keeps σ (execAsub n w τ) := by
  unfold execAsub
  try dsimp only
  repeat' first
    | with_reducible assumption
    | with_reducible apply Keeps.next
    | with_reducible apply issueRegs_kept
    | with_reducible apply settle_kept

theorem execAand_kept {σ τ : State} (hk : Kept σ τ) (n : BitVec 4) (w : BitVec 56) :
    Keeps σ (execAand n w τ) := by
  unfold execAand
  try dsimp only
  repeat' first
    | with_reducible assumption
    | with_reducible apply Keeps.next
    | with_reducible apply issueRegs_kept
    | with_reducible apply settle_kept

theorem execAor_kept {σ τ : State} (hk : Kept σ τ) (n : BitVec 4) (w : BitVec 56) :
    Keeps σ (execAor n w τ) := by
  unfold execAor
  try dsimp only
  repeat' first
    | with_reducible assumption
    | with_reducible apply Keeps.next
    | with_reducible apply issueRegs_kept
    | with_reducible apply settle_kept

theorem execAxor_kept {σ τ : State} (hk : Kept σ τ) (n : BitVec 4) (w : BitVec 56) :
    Keeps σ (execAxor n w τ) := by
  unfold execAxor
  try dsimp only
  repeat' first
    | with_reducible assumption
    | with_reducible apply Keeps.next
    | with_reducible apply issueRegs_kept
    | with_reducible apply settle_kept

theorem execAshl_kept {σ τ : State} (hk : Kept σ τ) (n : BitVec 4) (w : BitVec 56) :
    Keeps σ (execAshl n w τ) := by
  unfold execAshl
  try dsimp only
  repeat' first
    | with_reducible assumption
    | with_reducible apply Keeps.next
    | with_reducible apply issueRegs_kept
    | with_reducible apply settle_kept

theorem execAshr_kept {σ τ : State} (hk : Kept σ τ) (n : BitVec 4) (w : BitVec 56) :
    Keeps σ (execAshr n w τ) := by
  unfold execAshr
  try dsimp only
  repeat' first
    | with_reducible assumption
    | with_reducible apply Keeps.next
    | with_reducible apply issueRegs_kept
    | with_reducible apply settle_kept

theorem execAsra_kept {σ τ : State} (hk : Kept σ τ) (n : BitVec 4) (w : BitVec 56) :
    Keeps σ (execAsra n w τ) := by
  unfold execAsra
  try dsimp only
  repeat' first
    | with_reducible assumption
    | with_reducible apply Keeps.next
    | with_reducible apply issueRegs_kept
    | with_reducible apply settle_kept

theorem execAmul_kept {σ τ : State} (hk : Kept σ τ) (n : BitVec 4) (w : BitVec 56) :
    Keeps σ (execAmul n w τ) := by
  unfold execAmul
  try dsimp only
  repeat' first
    | with_reducible assumption
    | with_reducible apply Keeps.next
    | with_reducible apply issueRegs_kept
    | with_reducible apply settle_kept

theorem execMtm_kept {σ τ : State} (hk : Kept σ τ) (n : BitVec 4) (w : BitVec 56) :
    Keeps σ (execMtm n w τ) := by
  unfold execMtm
  try dsimp only
  repeat' first
    | with_reducible assumption
    | with_reducible apply Keeps.next
    | with_reducible apply issueRegs_kept
    | with_reducible apply settle_kept

theorem execMfm_kept {σ τ : State} (hk : Kept σ τ) (n : BitVec 4) (w : BitVec 56) :
    Keeps σ (execMfm n w τ) := by
  unfold execMfm
  try dsimp only
  repeat' first
    | with_reducible assumption
    | with_reducible apply Keeps.next
    | with_reducible apply issueRegs_kept
    | with_reducible apply settle_kept

theorem execPset_kept {σ τ : State} (hk : Kept σ τ) (n : BitVec 4) (w : BitVec 56) :
    Keeps σ (execPset n w τ) := by
  unfold execPset
  try dsimp only
  repeat' first
    | with_reducible assumption
    | with_reducible apply Keeps.next
    | with_reducible apply issueRegs_kept
    | with_reducible apply settle_kept

theorem execPand_kept {σ τ : State} (hk : Kept σ τ) (n : BitVec 4) (w : BitVec 56) :
    Keeps σ (execPand n w τ) := by
  unfold execPand
  try dsimp only
  repeat' first
    | with_reducible assumption
    | with_reducible apply Keeps.next
    | with_reducible apply issueRegs_kept
    | with_reducible apply settle_kept

theorem execPor_kept {σ τ : State} (hk : Kept σ τ) (n : BitVec 4) (w : BitVec 56) :
    Keeps σ (execPor n w τ) := by
  unfold execPor
  try dsimp only
  repeat' first
    | with_reducible assumption
    | with_reducible apply Keeps.next
    | with_reducible apply issueRegs_kept
    | with_reducible apply settle_kept

theorem execPxor_kept {σ τ : State} (hk : Kept σ τ) (n : BitVec 4) (w : BitVec 56) :
    Keeps σ (execPxor n w τ) := by
  unfold execPxor
  try dsimp only
  repeat' first
    | with_reducible assumption
    | with_reducible apply Keeps.next
    | with_reducible apply issueRegs_kept
    | with_reducible apply settle_kept

theorem execPnot_kept {σ τ : State} (hk : Kept σ τ) (n : BitVec 4) (w : BitVec 56) :
    Keeps σ (execPnot n w τ) := by
  unfold execPnot
  try dsimp only
  repeat' first
    | with_reducible assumption
    | with_reducible apply Keeps.next
    | with_reducible apply issueRegs_kept
    | with_reducible apply settle_kept

theorem execPfroma_kept {σ τ : State} (hk : Kept σ τ) (n : BitVec 4) (w : BitVec 56) :
    Keeps σ (execPfroma n w τ) := by
  unfold execPfroma
  try dsimp only
  repeat' first
    | with_reducible assumption
    | with_reducible apply Keeps.next
    | with_reducible apply issueRegs_kept
    | with_reducible apply settle_kept

theorem execPtoa_kept {σ τ : State} (hk : Kept σ τ) (n : BitVec 4) (w : BitVec 56) :
    Keeps σ (execPtoa n w τ) := by
  unfold execPtoa
  try dsimp only
  repeat' first
    | with_reducible assumption
    | with_reducible apply Keeps.next
    | with_reducible apply issueRegs_kept
    | with_reducible apply settle_kept

theorem execMfc_kept {σ τ : State} (hk : Kept σ τ) (n : BitVec 4) (w : BitVec 56) :
    Keeps σ (execMfc n w τ) := by
  unfold execMfc
  try dsimp only
  repeat' first
    | with_reducible assumption
    | with_reducible apply Keeps.next
    | with_reducible apply issueUnit_kept
    | with_reducible apply settle_kept

theorem execMtc_kept {σ τ : State} (hk : Kept σ τ) (n : BitVec 4) (w : BitVec 56) :
    Keeps σ (execMtc n w τ) := by
  unfold execMtc
  try dsimp only
  repeat' first
    | with_reducible assumption
    | with_reducible apply Keeps.next
    | with_reducible apply issueRegs_kept
    | with_reducible apply settle_kept

theorem execMfs_kept {σ τ : State} (hk : Kept σ τ) (n : BitVec 4) (w : BitVec 56) :
    Keeps σ (execMfs n w τ) := by
  unfold execMfs
  try dsimp only
  repeat' first
    | with_reducible assumption
    | with_reducible apply Keeps.next
    | with_reducible apply issueUnit_kept
    | with_reducible apply settle_kept

theorem execMts_kept {σ τ : State} (hk : Kept σ τ) (n : BitVec 4) (w : BitVec 56) :
    Keeps σ (execMts n w τ) := by
  unfold execMts
  try dsimp only
  repeat' first
    | with_reducible assumption
    | with_reducible apply Keeps.next
    | with_reducible apply issueUnit_kept
    | with_reducible apply settle_kept

theorem execMfb_kept {σ τ : State} (hk : Kept σ τ) (n : BitVec 4) (w : BitVec 56) :
    Keeps σ (execMfb n w τ) := by
  unfold execMfb
  try dsimp only
  repeat' first
    | with_reducible assumption
    | with_reducible apply Keeps.next
    | with_reducible apply issueUnit_kept
    | with_reducible apply settle_kept

theorem execMtb_kept {σ τ : State} (hk : Kept σ τ) (n : BitVec 4) (w : BitVec 56) :
    Keeps σ (execMtb n w τ) := by
  unfold execMtb
  try dsimp only
  repeat' first
    | with_reducible assumption
    | with_reducible apply Keeps.next
    | with_reducible apply issueUnit_kept
    | with_reducible apply settle_kept

end Sys2Proof.Machine
end

