-- ==== Sys2Proof/Laws/Kept/SpuVector.lean ====
section
/-!
SUPPORT. What the operations of SpuVector.lean keep: the queue, and the legal fields of Safety.
-/

namespace Sys2Proof.Machine

theorem vecOp_kept {σ τ : State} (hk : Kept σ τ) (opc : Nat) (f : Form) (n : BitVec 4) (w : BitVec 56) (lat : Nat) (go : Lsu → Nat → Option (Int × Nat)) :
    Kept σ (vecOp opc f n w lat go τ) := by
  unfold vecOp
  try dsimp only
  repeat' first
    | with_reducible assumption
    | with_reducible apply issueRegs_kept

theorem execVadd_kept {σ τ : State} (hk : Kept σ τ) (n : BitVec 4) (w : BitVec 56) :
    Keeps σ (execVadd n w τ) := by
  unfold execVadd
  try dsimp only
  repeat' first
    | with_reducible assumption
    | with_reducible apply Keeps.next
    | with_reducible apply vecOp_kept
    | with_reducible apply settle_kept

theorem execVsub_kept {σ τ : State} (hk : Kept σ τ) (n : BitVec 4) (w : BitVec 56) :
    Keeps σ (execVsub n w τ) := by
  unfold execVsub
  try dsimp only
  repeat' first
    | with_reducible assumption
    | with_reducible apply Keeps.next
    | with_reducible apply vecOp_kept
    | with_reducible apply settle_kept

theorem execVneg_kept {σ τ : State} (hk : Kept σ τ) (n : BitVec 4) (w : BitVec 56) :
    Keeps σ (execVneg n w τ) := by
  unfold execVneg
  try dsimp only
  repeat' first
    | with_reducible assumption
    | with_reducible apply Keeps.next
    | with_reducible apply vecOp_kept
    | with_reducible apply settle_kept

theorem execVabs_kept {σ τ : State} (hk : Kept σ τ) (n : BitVec 4) (w : BitVec 56) :
    Keeps σ (execVabs n w τ) := by
  unfold execVabs
  try dsimp only
  repeat' first
    | with_reducible assumption
    | with_reducible apply Keeps.next
    | with_reducible apply vecOp_kept
    | with_reducible apply settle_kept

theorem execVmin_kept {σ τ : State} (hk : Kept σ τ) (n : BitVec 4) (w : BitVec 56) :
    Keeps σ (execVmin n w τ) := by
  unfold execVmin
  try dsimp only
  repeat' first
    | with_reducible assumption
    | with_reducible apply Keeps.next
    | with_reducible apply vecOp_kept
    | with_reducible apply settle_kept

theorem execVmax_kept {σ τ : State} (hk : Kept σ τ) (n : BitVec 4) (w : BitVec 56) :
    Keeps σ (execVmax n w τ) := by
  unfold execVmax
  try dsimp only
  repeat' first
    | with_reducible assumption
    | with_reducible apply Keeps.next
    | with_reducible apply vecOp_kept
    | with_reducible apply settle_kept

theorem vecBits_kept {σ τ : State} (hk : Kept σ τ) (opc : Nat) (f : Form) (n : BitVec 4) (w : BitVec 56) (go : Lsu → BitVec 128) :
    Kept σ (vecBits opc f n w go τ) := by
  unfold vecBits
  try dsimp only
  repeat' first
    | with_reducible assumption
    | with_reducible apply issueRegs_kept

theorem execVand_kept {σ τ : State} (hk : Kept σ τ) (n : BitVec 4) (w : BitVec 56) :
    Keeps σ (execVand n w τ) := by
  unfold execVand
  try dsimp only
  repeat' first
    | with_reducible assumption
    | with_reducible apply Keeps.next
    | with_reducible apply vecBits_kept
    | with_reducible apply settle_kept

theorem execVor_kept {σ τ : State} (hk : Kept σ τ) (n : BitVec 4) (w : BitVec 56) :
    Keeps σ (execVor n w τ) := by
  unfold execVor
  try dsimp only
  repeat' first
    | with_reducible assumption
    | with_reducible apply Keeps.next
    | with_reducible apply vecBits_kept
    | with_reducible apply settle_kept

theorem execVxor_kept {σ τ : State} (hk : Kept σ τ) (n : BitVec 4) (w : BitVec 56) :
    Keeps σ (execVxor n w τ) := by
  unfold execVxor
  try dsimp only
  repeat' first
    | with_reducible assumption
    | with_reducible apply Keeps.next
    | with_reducible apply vecBits_kept
    | with_reducible apply settle_kept

theorem execVnot_kept {σ τ : State} (hk : Kept σ τ) (n : BitVec 4) (w : BitVec 56) :
    Keeps σ (execVnot n w τ) := by
  unfold execVnot
  try dsimp only
  repeat' first
    | with_reducible assumption
    | with_reducible apply Keeps.next
    | with_reducible apply vecBits_kept
    | with_reducible apply settle_kept

theorem vecShift_kept {σ τ : State} (hk : Kept σ τ) (opc : Nat) (sat : Bool) (n : BitVec 4) (w : BitVec 56) (go : Lsu → Nat → Int × Nat) :
    Kept σ (vecShift opc sat n w go τ) := by
  unfold vecShift
  try dsimp only
  repeat' first
    | with_reducible assumption
    | with_reducible apply vecOp_kept

theorem execVshl_kept {σ τ : State} (hk : Kept σ τ) (n : BitVec 4) (w : BitVec 56) :
    Keeps σ (execVshl n w τ) := by
  unfold execVshl
  try dsimp only
  repeat' first
    | with_reducible assumption
    | with_reducible apply Keeps.next
    | with_reducible apply vecShift_kept
    | with_reducible apply settle_kept

theorem execVshr_kept {σ τ : State} (hk : Kept σ τ) (n : BitVec 4) (w : BitVec 56) :
    Keeps σ (execVshr n w τ) := by
  unfold execVshr
  try dsimp only
  repeat' first
    | with_reducible assumption
    | with_reducible apply Keeps.next
    | with_reducible apply vecShift_kept
    | with_reducible apply settle_kept

theorem execVasr_kept {σ τ : State} (hk : Kept σ τ) (n : BitVec 4) (w : BitVec 56) :
    Keeps σ (execVasr n w τ) := by
  unfold execVasr
  try dsimp only
  repeat' first
    | with_reducible assumption
    | with_reducible apply Keeps.next
    | with_reducible apply vecShift_kept
    | with_reducible apply settle_kept

theorem execVlsr_kept {σ τ : State} (hk : Kept σ τ) (n : BitVec 4) (w : BitVec 56) :
    Keeps σ (execVlsr n w τ) := by
  unfold execVlsr
  try dsimp only
  repeat' first
    | with_reducible assumption
    | with_reducible apply Keeps.next
    | with_reducible apply vecShift_kept
    | with_reducible apply settle_kept

theorem execVcmp_kept {σ τ : State} (hk : Kept σ τ) (n : BitVec 4) (w : BitVec 56) :
    Keeps σ (execVcmp n w τ) := by
  unfold execVcmp
  try dsimp only
  repeat' first
    | with_reducible assumption
    | with_reducible apply Keeps.next
    | with_reducible apply issueRegs_kept
    | with_reducible apply settle_kept

theorem execVmov_kept {σ τ : State} (hk : Kept σ τ) (n : BitVec 4) (w : BitVec 56) :
    Keeps σ (execVmov n w τ) := by
  unfold execVmov
  try dsimp only
  repeat' first
    | with_reducible assumption
    | with_reducible apply Keeps.next
    | with_reducible apply vecBits_kept
    | with_reducible apply settle_kept

theorem execVsplat_kept {σ τ : State} (hk : Kept σ τ) (n : BitVec 4) (w : BitVec 56) :
    Keeps σ (execVsplat n w τ) := by
  unfold execVsplat
  try dsimp only
  repeat' first
    | with_reducible assumption
    | with_reducible apply Keeps.next
    | with_reducible apply vecBits_kept
    | with_reducible apply settle_kept

theorem execVext_kept {σ τ : State} (hk : Kept σ τ) (n : BitVec 4) (w : BitVec 56) :
    Keeps σ (execVext n w τ) := by
  unfold execVext
  try dsimp only
  repeat' first
    | with_reducible assumption
    | with_reducible apply Keeps.next
    | with_reducible apply issueRegs_kept
    | with_reducible apply settle_kept

theorem execVins_kept {σ τ : State} (hk : Kept σ τ) (n : BitVec 4) (w : BitVec 56) :
    Keeps σ (execVins n w τ) := by
  unfold execVins
  try dsimp only
  repeat' first
    | with_reducible assumption
    | with_reducible apply Keeps.next
    | with_reducible apply issueRegs_kept
    | with_reducible apply settle_kept

theorem execVperm_kept {σ τ : State} (hk : Kept σ τ) (n : BitVec 4) (w : BitVec 56) :
    Keeps σ (execVperm n w τ) := by
  unfold execVperm
  try dsimp only
  repeat' first
    | with_reducible assumption
    | with_reducible apply Keeps.next
    | with_reducible apply vecBits_kept
    | with_reducible apply settle_kept

theorem execVconj_kept {σ τ : State} (hk : Kept σ τ) (n : BitVec 4) (w : BitVec 56) :
    Keeps σ (execVconj n w τ) := by
  unfold execVconj
  try dsimp only
  repeat' first
    | with_reducible assumption
    | with_reducible apply Keeps.next
    | with_reducible apply vecOp_kept
    | with_reducible apply settle_kept

theorem execVnarrow_kept {σ τ : State} (hk : Kept σ τ) (n : BitVec 4) (w : BitVec 56) :
    Keeps σ (execVnarrow n w τ) := by
  unfold execVnarrow
  try dsimp only
  repeat' first
    | with_reducible assumption
    | with_reducible apply Keeps.next
    | with_reducible apply vecOp_kept
    | with_reducible apply settle_kept

theorem execVwiden_kept {σ τ : State} (hk : Kept σ τ) (n : BitVec 4) (w : BitVec 56) :
    Keeps σ (execVwiden n w τ) := by
  unfold execVwiden
  try dsimp only
  repeat' first
    | with_reducible assumption
    | with_reducible apply Keeps.next
    | with_reducible apply vecOp_kept
    | with_reducible apply settle_kept

theorem execVcvt_kept {σ τ : State} (hk : Kept σ τ) (n : BitVec 4) (w : BitVec 56) :
    Keeps σ (execVcvt n w τ) := by
  unfold execVcvt
  try dsimp only
  repeat' first
    | with_reducible assumption
    | with_reducible apply Keeps.next
    | with_reducible apply vecOp_kept
    | with_reducible apply settle_kept

theorem execVmul_kept {σ τ : State} (hk : Kept σ τ) (n : BitVec 4) (w : BitVec 56) :
    Keeps σ (execVmul n w τ) := by
  unfold execVmul
  try dsimp only
  repeat' first
    | with_reducible assumption
    | with_reducible apply Keeps.next
    | with_reducible apply vecOp_kept
    | with_reducible apply settle_kept

theorem execVmulq_kept {σ τ : State} (hk : Kept σ τ) (n : BitVec 4) (w : BitVec 56) :
    Keeps σ (execVmulq n w τ) := by
  unfold execVmulq
  try dsimp only
  repeat' first
    | with_reducible assumption
    | with_reducible apply Keeps.next
    | with_reducible apply vecOp_kept
    | with_reducible apply settle_kept

theorem execVcmulq_kept {σ τ : State} (hk : Kept σ τ) (n : BitVec 4) (w : BitVec 56) :
    Keeps σ (execVcmulq n w τ) := by
  unfold execVcmulq
  try dsimp only
  repeat' first
    | with_reducible assumption
    | with_reducible apply Keeps.next
    | with_reducible apply vecOp_kept
    | with_reducible apply settle_kept

theorem execVfma_kept {σ τ : State} (hk : Kept σ τ) (n : BitVec 4) (w : BitVec 56) :
    Keeps σ (execVfma n w τ) := by
  unfold execVfma
  try dsimp only
  repeat' first
    | with_reducible assumption
    | with_reducible apply Keeps.next
    | with_reducible apply vecOp_kept
    | with_reducible apply settle_kept

theorem accOp_kept {σ τ : State} (hk : Kept σ τ) (opc : Nat) (types : List Nat) (op : AccOp) (conj : Bool) (n : BitVec 4) (w : BitVec 56) :
    Kept σ (accOp opc types op conj n w τ) := by
  unfold accOp
  try dsimp only
  repeat' first
    | with_reducible assumption
    | with_reducible apply issueRegs_kept

theorem execVmac_kept {σ τ : State} (hk : Kept σ τ) (n : BitVec 4) (w : BitVec 56) :
    Keeps σ (execVmac n w τ) := by
  unfold execVmac
  try dsimp only
  repeat' first
    | with_reducible assumption
    | with_reducible apply Keeps.next
    | with_reducible apply accOp_kept
    | with_reducible apply settle_kept

theorem execVmsu_kept {σ τ : State} (hk : Kept σ τ) (n : BitVec 4) (w : BitVec 56) :
    Keeps σ (execVmsu n w τ) := by
  unfold execVmsu
  try dsimp only
  repeat' first
    | with_reducible assumption
    | with_reducible apply Keeps.next
    | with_reducible apply accOp_kept
    | with_reducible apply settle_kept

theorem execVmpy_kept {σ τ : State} (hk : Kept σ τ) (n : BitVec 4) (w : BitVec 56) :
    Keeps σ (execVmpy n w τ) := by
  unfold execVmpy
  try dsimp only
  repeat' first
    | with_reducible assumption
    | with_reducible apply Keeps.next
    | with_reducible apply accOp_kept
    | with_reducible apply settle_kept

theorem execVcmacj_kept {σ τ : State} (hk : Kept σ τ) (n : BitVec 4) (w : BitVec 56) :
    Keeps σ (execVcmacj n w τ) := by
  unfold execVcmacj
  try dsimp only
  repeat' first
    | with_reducible assumption
    | with_reducible apply Keeps.next
    | with_reducible apply accOp_kept
    | with_reducible apply settle_kept

theorem execAccx_kept {σ τ : State} (hk : Kept σ τ) (n : BitVec 4) (w : BitVec 56) :
    Keeps σ (execAccx n w τ) := by
  unfold execAccx
  try dsimp only
  repeat' first
    | with_reducible assumption
    | with_reducible apply Keeps.next
    | with_reducible apply vecOp_kept
    | with_reducible apply settle_kept

theorem execAcclr_kept {σ τ : State} (hk : Kept σ τ) (n : BitVec 4) (w : BitVec 56) :
    Keeps σ (execAcclr n w τ) := by
  unfold execAcclr
  try dsimp only
  repeat' first
    | with_reducible assumption
    | with_reducible apply Keeps.next
    | with_reducible apply issueRegs_kept
    | with_reducible apply settle_kept

end Sys2Proof.Machine
end

