-- ==== Sys2Proof/Laws/Kept/SpuActions.lean ====
section
/-!
SUPPORT. What the operations of SpuActions.lean keep: the queue, and the legal fields of Safety.
-/

namespace Sys2Proof.Machine

theorem execDmaq_kept {σ τ : State} (hk : Kept σ τ) (n : BitVec 4) (w : BitVec 56) :
    Keeps σ (execDmaq n w τ) := by
  unfold execDmaq
  try dsimp only
  repeat' first
    | with_reducible assumption
    | with_reducible apply Keeps.next
    | with_reducible apply issueUnit_kept
    | with_reducible apply settle_kept

theorem postTrigger_kept {σ τ υ : State} (hk : Kept σ τ) {w : BitVec 56} {l : Lsu} (h : postTrigger w l τ = some υ) : Kept σ υ := by
  simp only [postTrigger, Option.bind_eq_some_iff] at h
  obtain ⟨p, -, u, -, g⟩ := h
  split at g
  · cases g; exact trigSpu_kept hk _ _
  · cases g

theorem postRetune_kept {σ τ υ : State} (hk : Kept σ τ) {w : BitVec 56} {l : Lsu} (h : postRetune w l τ = some υ) : Kept σ υ := by
  simp only [postRetune, Option.bind_eq_some_iff, Option.map_eq_some_iff] at h
  obtain ⟨p, -, k, -, rfl⟩ := h
  repeat' first
    | with_reducible assumption
    | with_reducible apply modSlot_kept
    | with_reducible apply modFront_kept
    | with_reducible apply journal_kept
    | with_reducible apply Kept.ite

theorem issuePost_kept {σ τ : State} (hk : Kept σ τ) (opc : Nat) (f : Form) (n : BitVec 4) (w : BitVec 56) (post : Lsu → State → Option State)
    (hp : ∀ l u v, Kept σ u → post l u = some v → Kept σ v) : Kept σ (issuePost opc f n w post τ) := by
  refine issue_kept hk _ _ _ _ _ fun l u v hu h => ?_
  cases h
  refine modLsu_kept ?_ _ _
  rcases e : post l u with _ | v
  · exact modLsu_kept hu _ _
  · exact hp _ _ _ hu e

theorem execTrigp_kept {σ τ : State} (hk : Kept σ τ) (n : BitVec 4) (w : BitVec 56) :
    Keeps σ (execTrigp n w τ) := by
  unfold execTrigp
  try dsimp only
  repeat' first
    | (with_reducible intro _; try dsimp only)
    | with_reducible assumption
    | with_reducible apply Keeps.next
    | with_reducible apply issuePost_kept
    | with_reducible exact postTrigger_kept (by assumption) (by assumption)
    | with_reducible apply settle_kept

theorem execTune_kept {σ τ : State} (hk : Kept σ τ) (n : BitVec 4) (w : BitVec 56) :
    Keeps σ (execTune n w τ) := by
  unfold execTune
  try dsimp only
  repeat' first
    | (with_reducible intro _; try dsimp only)
    | with_reducible assumption
    | with_reducible apply Keeps.next
    | with_reducible apply issuePost_kept
    | with_reducible exact postRetune_kept (by assumption) (by assumption)
    | with_reducible apply settle_kept

theorem execEmit_kept {σ τ : State} (hk : Kept σ τ) (n : BitVec 4) (w : BitVec 56) :
    Keeps σ (execEmit n w τ) := by
  unfold execEmit
  try dsimp only
  repeat' first
    | with_reducible assumption
    | with_reducible apply Keeps.next
    | with_reducible apply issueUnit_kept
    | with_reducible apply settle_kept

end Sys2Proof.Machine
end

