-- ==== Sys2Proof/Laws/Kept/SpuLong.lean ====
section
/-!
SUPPORT. What the operations of SpuLong.lean keep: the queue, and the legal fields of Safety.
-/

namespace Sys2Proof.Machine

theorem issueLong_kept {σ τ : State} (hk : Kept σ τ) (opc : Nat) (f : Form) (n : BitVec 4) (w : BitVec 56) (regs : Lsu → List Nat) (ok : LongRun → Bool) :
    Kept σ (issueLong opc f n w regs ok τ) := by
  unfold issueLong
  try dsimp only
  repeat' first
    | with_reducible assumption
    | with_reducible apply issueUnit_kept

theorem execVpeaks_kept {σ τ : State} (hk : Kept σ τ) (n : BitVec 4) (w : BitVec 56) :
    Keeps σ (execVpeaks n w τ) := by
  unfold execVpeaks
  try dsimp only
  repeat' first
    | with_reducible assumption
    | with_reducible apply Keeps.next
    | with_reducible apply issueLong_kept
    | with_reducible apply settle_kept

theorem execVmaxidx_kept {σ τ : State} (hk : Kept σ τ) (n : BitVec 4) (w : BitVec 56) :
    Keeps σ (execVmaxidx n w τ) := by
  unfold execVmaxidx
  try dsimp only
  repeat' first
    | with_reducible assumption
    | with_reducible apply Keeps.next
    | with_reducible apply issueLong_kept
    | with_reducible apply settle_kept

theorem execVminidx_kept {σ τ : State} (hk : Kept σ τ) (n : BitVec 4) (w : BitVec 56) :
    Keeps σ (execVminidx n w τ) := by
  unfold execVminidx
  try dsimp only
  repeat' first
    | with_reducible assumption
    | with_reducible apply Keeps.next
    | with_reducible apply issueLong_kept
    | with_reducible apply settle_kept

theorem execVsortk_kept {σ τ : State} (hk : Kept σ τ) (n : BitVec 4) (w : BitVec 56) :
    Keeps σ (execVsortk n w τ) := by
  unfold execVsortk
  try dsimp only
  repeat' first
    | with_reducible assumption
    | with_reducible apply Keeps.next
    | with_reducible apply issueLong_kept
    | with_reducible apply settle_kept

theorem execVlog2_kept {σ τ : State} (hk : Kept σ τ) (n : BitVec 4) (w : BitVec 56) :
    Keeps σ (execVlog2 n w τ) := by
  unfold execVlog2
  try dsimp only
  repeat' first
    | with_reducible assumption
    | with_reducible apply Keeps.next
    | with_reducible apply issueLong_kept
    | with_reducible apply settle_kept

theorem execCrc32c_kept {σ τ : State} (hk : Kept σ τ) (n : BitVec 4) (w : BitVec 56) :
    Keeps σ (execCrc32c n w τ) := by
  unfold execCrc32c
  try dsimp only
  repeat' first
    | with_reducible assumption
    | with_reducible apply Keeps.next
    | with_reducible apply issueLong_kept
    | with_reducible apply settle_kept

theorem execVsk_kept {σ τ : State} (hk : Kept σ τ) (n : BitVec 4) (w : BitVec 56) :
    Keeps σ (execVsk n w τ) := by
  unfold execVsk
  try dsimp only
  repeat' first
    | with_reducible assumption
    | with_reducible apply Keeps.next
    | with_reducible apply issueLong_kept
    | with_reducible apply settle_kept

theorem execHisto_kept {σ τ : State} (hk : Kept σ τ) (n : BitVec 4) (w : BitVec 56) :
    Keeps σ (execHisto n w τ) := by
  unfold execHisto
  try dsimp only
  repeat' first
    | with_reducible assumption
    | with_reducible apply Keeps.next
    | with_reducible apply issueLong_kept
    | with_reducible apply settle_kept

theorem execRcopy_kept {σ τ : State} (hk : Kept σ τ) (n : BitVec 4) (w : BitVec 56) :
    Keeps σ (execRcopy n w τ) := by
  unfold execRcopy
  try dsimp only
  repeat' first
    | with_reducible assumption
    | with_reducible apply Keeps.next
    | with_reducible apply issueLong_kept
    | with_reducible apply settle_kept

theorem execRfill_kept {σ τ : State} (hk : Kept σ τ) (n : BitVec 4) (w : BitVec 56) :
    Keeps σ (execRfill n w τ) := by
  unfold execRfill
  try dsimp only
  repeat' first
    | with_reducible assumption
    | with_reducible apply Keeps.next
    | with_reducible apply issueLong_kept
    | with_reducible apply settle_kept

end Sys2Proof.Machine
end

