-- ==== Sys2Proof/Laws/Kept/SpuEvents.lean ====
section
/-!
SUPPORT. What the operations of SpuEvents.lean keep: the queue, and the legal fields of Safety.
-/

namespace Sys2Proof.Machine

theorem execInterruptTaken_kept {σ τ : State} (hk : Kept σ τ) (n : BitVec 4) :
    Keeps σ (execInterruptTaken n τ) := by
  unfold execInterruptTaken
  try dsimp only
  repeat' first
    | with_reducible assumption
    | with_reducible apply Keeps.next
    | with_reducible apply wakeUnit_kept
    | with_reducible apply settle_kept
    | with_reducible apply modLsu_kept
    | with_reducible apply Kept.ite

theorem execLongChunkEnd_kept {σ τ : State} (hk : Kept σ τ) (n : BitVec 4) :
    Keeps σ (execLongChunkEnd n τ) := by
  unfold execLongChunkEnd
  try dsimp only
  repeat' first
    | with_reducible assumption
    | with_reducible apply Keeps.next
    | with_reducible apply settle_kept
    | with_reducible apply modLsu_kept
    | with_reducible apply Kept.ite
    | split

theorem execSpuDmaComplete_kept {σ τ : State} (hk : Kept σ τ) (n : BitVec 4) (q : BitVec 2) :
    Keeps σ (execSpuDmaComplete n q τ) := by
  unfold execSpuDmaComplete
  try dsimp only
  repeat' first
    | with_reducible assumption
    | with_reducible apply Keeps.next
    | with_reducible apply settle_kept
    | with_reducible apply dmaComplete_kept

theorem execTapItem_kept {σ τ : State} (hk : Kept σ τ) (n : BitVec 4) :
    Keeps σ (execTapItem n τ) := by
  unfold execTapItem
  try dsimp only
  repeat' first
    | with_reducible assumption
    | with_reducible apply Keeps.next
    | with_reducible apply settle_kept
    | with_reducible apply modLsu_kept

theorem execSpuTimer_kept {σ τ : State} (hk : Kept σ τ) (n : BitVec 4) :
    Keeps σ (execSpuTimer n τ) := by
  unfold execSpuTimer
  try dsimp only
  repeat' first
    | with_reducible assumption
    | with_reducible apply Keeps.next
    | with_reducible apply settle_kept
    | with_reducible apply modLsu_kept

theorem execEmitReadout_kept {σ τ : State} (hk : Kept σ τ) (n : BitVec 4) :
    Keeps σ (execEmitReadout n τ) := by
  unfold execEmitReadout
  try dsimp only
  repeat' first
    | with_reducible assumption
    | with_reducible apply Keeps.next
    | with_reducible apply settle_kept
    | with_reducible apply emitReadout_kept

theorem openMc_kept {σ τ : State} (hk : Kept σ τ) (e : McLog) :
    Kept σ (openMc e τ) := by
  unfold openMc
  try dsimp only
  repeat' first
    | (with_reducible intro _; try dsimp only)
    | with_reducible assumption
    | with_reducible apply modSpu_kept

theorem closeMc_kept {σ τ : State} (hk : Kept σ τ) (seq outcome flags ns : Nat) :
    Kept σ (closeMc seq outcome flags ns τ) := by
  unfold closeMc
  try dsimp only
  repeat' first
    | (with_reducible intro _; try dsimp only)
    | with_reducible assumption
    | with_reducible apply freezeRecorder_kept
    | with_reducible apply modSpu_kept
    | with_reducible apply journal_kept
    | with_reducible apply Kept.ite
    | split

theorem machineCheck_kept {σ τ : State} (hk : Kept σ τ) (n : Nat) (f : WordFailure) :
    Kept σ (machineCheck n f τ) := by
  unfold machineCheck
  try dsimp only
  repeat' first
    | (with_reducible intro _; try dsimp only)
    | with_reducible assumption
    | with_reducible apply openMc_kept
    | with_reducible apply endInstance_kept
    | with_reducible apply modLsu_kept
    | with_reducible apply modSpu_kept
    | with_reducible apply Kept.ite
    | split

theorem execMachineCheck_kept {σ τ : State} (hk : Kept σ τ) (n : BitVec 4) (f : WordFailure) :
    Keeps σ (execMachineCheck n f τ) := by
  unfold execMachineCheck
  try dsimp only
  repeat' first
    | with_reducible assumption
    | with_reducible apply Keeps.next
    | with_reducible apply machineCheck_kept
    | with_reducible apply settle_kept

theorem mcEvents_kept {σ τ : State} (hk : Kept σ τ) (n : Nat) (r : Recovery) (outcome flags ns : Nat) :
    Kept σ (mcEvents n r outcome flags ns τ) := by
  unfold mcEvents
  try dsimp only
  repeat' first
    | (with_reducible intro _; try dsimp only)
    | with_reducible assumption
    | with_reducible apply closeMc_kept
    | with_reducible apply sendEvent_kept
    | with_reducible apply Kept.ite
    | with_reducible apply Kept.foldl

theorem releaseUnit_kept {σ τ : State} (hk : Kept σ τ) (n ns : Nat) :
    Kept σ (releaseUnit n ns τ) := by
  unfold releaseUnit
  try dsimp only
  repeat' first
    | with_reducible assumption
    | with_reducible apply modLsu_kept
    | with_reducible apply countLost_kept
    | with_reducible apply Kept.ite

theorem patchReloadDone_kept {σ τ : State} (hk : Kept σ τ) (n ns : Nat) (ok : Bool) :
    Kept σ (patchReloadDone n ns ok τ) := by
  unfold patchReloadDone
  try dsimp only
  repeat' first
    | with_reducible assumption
    | with_reducible apply releaseUnit_kept
    | with_reducible apply mcEvents_kept
    | with_reducible apply endInstance_kept
    | with_reducible apply modLsu_kept
    | with_reducible apply Kept.ite
    | split

theorem execPatchReloadDone_kept {σ τ : State} (hk : Kept σ τ) (n : BitVec 4) (ns : BitVec 32) (ok : Bool) :
    Keeps σ (execPatchReloadDone n ns ok τ) := by
  unfold execPatchReloadDone
  try dsimp only
  repeat' first
    | with_reducible assumption
    | with_reducible apply Keeps.next
    | with_reducible apply patchReloadDone_kept
    | with_reducible apply settle_kept

theorem retireUnit_kept {σ τ : State} (hk : Kept σ τ) (phys : Nat) :
    Kept σ (retireUnit phys τ) := by
  unfold retireUnit
  try dsimp only
  repeat' first
    | (with_reducible intro _; try dsimp only)
    | with_reducible assumption
    | with_reducible apply modSpu_kept
    | with_reducible apply emit_kept

theorem useSpare_kept {σ τ : State} (hk : Kept σ τ) (n : Nat) :
    Kept σ (useSpare n τ) := by
  unfold useSpare
  try dsimp only
  repeat' first
    | (with_reducible intro _; try dsimp only)
    | with_reducible assumption
    | with_reducible apply modLsu_kept
    | with_reducible apply modSpu_kept

theorem spareTakeover_kept {σ τ : State} (hk : Kept σ τ) (n ns : Nat) :
    Kept σ (spareTakeover n ns τ) := by
  unfold spareTakeover
  try dsimp only
  repeat' first
    | (with_reducible intro _; try dsimp only)
    | with_reducible assumption
    | with_reducible apply useSpare_kept
    | with_reducible apply retireUnit_kept
    | with_reducible apply releaseUnit_kept
    | with_reducible apply mcEvents_kept
    | with_reducible apply endInstance_kept
    | with_reducible apply modLsu_kept
    | with_reducible apply modSpu_kept
    | with_reducible apply Kept.ite
    | split

theorem execSpareTakeover_kept {σ τ : State} (hk : Kept σ τ) (n : BitVec 4) (ns : BitVec 32) :
    Keeps σ (execSpareTakeover n ns τ) := by
  unfold execSpareTakeover
  try dsimp only
  repeat' first
    | with_reducible assumption
    | with_reducible apply Keeps.next
    | with_reducible apply spareTakeover_kept
    | with_reducible apply settle_kept

theorem patchScrub_kept {σ τ : State} (hk : Kept σ τ) (found : List (BitVec 5 × BitVec 10 × BitVec 176)) :
    Kept σ (patchScrub found τ) := by
  unfold patchScrub
  try dsimp only
  repeat' first
    | (with_reducible intro _; try dsimp only)
    | with_reducible assumption
    | with_reducible apply closeMc_kept
    | with_reducible apply openMc_kept
    | with_reducible apply modSpu_kept
    | with_reducible apply Kept.ite
    | with_reducible apply Kept.foldl

theorem execPatchScrub_kept {σ τ : State} (hk : Kept σ τ) (found : List (BitVec 5 × BitVec 10 × BitVec 176)) :
    Keeps σ (execPatchScrub found τ) := by
  unfold execPatchScrub
  try dsimp only
  repeat' first
    | with_reducible assumption
    | with_reducible apply Keeps.next
    | with_reducible apply patchScrub_kept
    | with_reducible apply settle_kept

theorem romScan_kept {σ τ : State} (hk : Kept σ τ) (unit : Nat) (rom : BitVec 14) (w : BitVec 176) :
    Kept σ (romScan unit rom w τ) := by
  unfold romScan
  try dsimp only
  repeat' first
    | (with_reducible intro _; try dsimp only)
    | with_reducible assumption
    | with_reducible apply useSpare_kept
    | with_reducible apply retireUnit_kept
    | with_reducible apply closeMc_kept
    | with_reducible apply openMc_kept
    | with_reducible apply modLsu_kept
    | with_reducible apply modSpu_kept
    | with_reducible apply Kept.ite
    | split

theorem execRomScan_kept {σ τ : State} (hk : Kept σ τ) (unit : BitVec 5) (fails : Option (BitVec 14 × BitVec 176)) :
    Keeps σ (execRomScan unit fails τ) := by
  unfold execRomScan
  try dsimp only
  repeat' first
    | with_reducible assumption
    | with_reducible apply Keeps.next
    | with_reducible apply romScan_kept
    | with_reducible apply settle_kept
    | split

end Sys2Proof.Machine
end

