-- ==== Sys2Proof/Laws/Kept/Regs.lean ====
section
/-!
SUPPORT. What the operations of Regs.lean keep: the queue, and the legal fields of Safety.
-/

namespace Sys2Proof.Machine

/-- A write of CSU_CFG. -/
theorem csuWrite_kept {σ τ : State} (hk : Kept σ τ) (v i : Nat) : Kept σ (modCsu (Csu.write v i) τ) := by
  refine hk.legal rfl fun k => ?_
  obtain ⟨m, w, c, k⟩ := k
  refine ⟨m, w, ?_, k⟩
  change 10 ≤ (Csu.write v i τ.adc.csu).windowLog2 ∧ (Csu.write v i τ.adc.csu).windowLog2 ≤ 40
  rw [Csu.write_windowLog2]
  split
  · assumption
  · exact c

/-- A write of AMC_CFG. -/
theorem amcWrite_kept {σ τ : State} (hk : Kept σ τ) (v : Nat) : Kept σ (modAmc (Amc.write v) τ) := by
  refine hk.legal rfl fun k => ?_
  obtain ⟨m, w, c, t, k⟩ := k
  refine ⟨m, w, c, ?_, k⟩
  change (Amc.write v τ.adc.amc).trimSel.toNat < 16
  rw [Amc.write_trimSel]
  split
  · rw [BitVec.toNat_ofNat, Nat.mod_eq_of_lt (by omega)]
    assumption
  · exact t

theorem readReg_kept {σ τ : State} (hk : Kept σ τ) (bar : Nat) (r : Reg) :
    Kept σ ((readReg bar r τ).2) := by
  unfold readReg
  try dsimp only
  repeat' first
    | (with_reducible intro _; try dsimp only)
    | with_reducible assumption
    | with_reducible apply freshValue_kept
    | with_reducible apply Kept.foldl_snd
    | split

theorem clearRc0_kept {σ τ : State} (hk : Kept σ τ) (f o : Nat) :
    Kept σ (clearRc0 f o τ) := by
  unfold clearRc0
  try dsimp only
  repeat' first
    | (with_reducible intro _; try dsimp only)
    | with_reducible assumption
    | with_reducible apply modTrust_kept
    | with_reducible apply modPwr_kept
    | with_reducible apply modDram_kept
    | with_reducible apply modFr_kept
    | with_reducible apply modDsp_kept
    | with_reducible apply modSpu_kept
    | with_reducible apply modAmc_kept
    | with_reducible apply modTim_kept
    | with_reducible apply modFn_kept
    | with_reducible apply modHost_kept
    | split
    | fail_if_no_progress (with_reducible refine Kept.mk ?_ rfl ?_ ?_ ?_ ?_ ?_ ?_ ?_ ?_ ?_ ?_) <;> try ((with_reducible refine (?_ : _ = _)); first | rfl | (split <;> rfl))

theorem clearTables_kept {σ τ : State} (hk : Kept σ τ) {t : Nat × Nat × Nat × (Nat → Nat → State → State)} (h : t ∈ clearTables) (n r : Nat) :
    Kept σ (t.2.2.2 n r τ) := by
  simp only [clearTables, List.mem_cons, List.not_mem_nil, or_false] at h
  obtain rfl | rfl | rfl | rfl | rfl | rfl | rfl | rfl | rfl | rfl | rfl | rfl | rfl | rfl | rfl | rfl | rfl | rfl := h <;> dsimp only
  repeat' first
    | exact hk
    | split

theorem clearRc_kept {σ τ : State} (hk : Kept σ τ) (f bar o : Nat) :
    Kept σ (clearRc f bar o τ) := by
  unfold clearRc
  try dsimp only
  repeat' first
    | with_reducible assumption
    | with_reducible apply clearRc0_kept
    | with_reducible apply modRing_kept
    | with_reducible apply modCtx_kept
    | with_reducible apply Kept.ite
    | with_reducible refine clearTables_kept hk (List.mem_of_find?_eq_some (by assumption)) _ _
    | split

theorem readPart_kept {σ τ : State} (hk : Kept σ τ) (f bar off width : Nat) (r : Reg) :
    Kept σ ((readPart f bar off width r τ).2) := by
  unfold readPart
  try dsimp only
  repeat' first
    | with_reducible assumption
    | with_reducible apply clearRc_kept
    | with_reducible apply readReg_kept
    | with_reducible apply modHost_kept
    | with_reducible apply Kept.ite
    | split

theorem violation_kept {σ τ : State} (hk : Kept σ τ) (f : Nat) :
    Kept σ (violation f τ) := by
  unfold violation
  try dsimp only
  repeat' first
    | with_reducible assumption
    | with_reducible apply modFn_kept

theorem readAccess_kept {σ τ : State} (hk : Kept σ τ) (f bar off width : Nat) :
    Kept σ (readAccess f bar off width τ) := by
  unfold readAccess
  try dsimp only
  repeat' first
    | (with_reducible intro _; try dsimp only)
    | with_reducible assumption
    | with_reducible apply violation_kept
    | with_reducible apply readPart_kept
    | with_reducible apply freshValue_kept
    | with_reducible apply emit_kept
    | with_reducible apply Kept.ite
    | with_reducible apply Kept.foldl_snd

theorem writeClk_kept {σ τ : State} (hk : Kept σ τ) (v : Nat) :
    Kept σ (writeClk v τ) := by
  unfold writeClk
  try dsimp only
  repeat' first
    | (with_reducible intro _; try dsimp only)
    | with_reducible assumption
    | with_reducible apply modTim_kept
    | with_reducible apply Kept.ite

theorem writePpsCfg_kept {σ τ : State} (hk : Kept σ τ) (v : Nat) :
    Kept σ (writePpsCfg v τ) := by
  unfold writePpsCfg
  try dsimp only
  repeat' first
    | (with_reducible intro _; try dsimp only)
    | with_reducible assumption
    | with_reducible apply modTim_kept
    | with_reducible apply Kept.ite

theorem writePpsOut_kept {σ τ : State} (hk : Kept σ τ) (v : Nat) : Kept σ (writePpsOut v τ) := by
  unfold writePpsOut
  try dsimp only
  have h : Kept σ (modTim (fun t => { t with
      ppsOutEnable := bit v 0, ppsOutOffset := BitVec.ofNat 16 (bits v 16 16)
      ppsOutWidth := if decide (1 ≤ bits v 1 9) && decide (bits v 1 9 ≤ 500) then BitVec.ofNat 9 (bits v 1 9) else t.ppsOutWidth }) τ) := by
    refine hk.legal rfl fun k => ⟨k.1, ?_, k.2.2⟩
    dsimp only [modTim]
    split
    · rename_i e
      rw [Bool.and_eq_true, decide_eq_true_eq, decide_eq_true_eq] at e
      rw [BitVec.toNat_ofNat, Nat.mod_eq_of_lt (by omega)]
      exact e
    · exact k.2.1
  split
  · exact h
  · exact ppsOutLow_kept h _

theorem writeAttach_kept {σ τ : State} (hk : Kept σ τ) (f v : Nat) :
    Kept σ (writeAttach f v τ) := by
  unfold writeAttach
  try dsimp only
  repeat' first
    | with_reducible assumption
    | with_reducible apply detach_kept
    | with_reducible apply attach_kept
    | with_reducible apply modFn_kept
    | with_reducible apply Kept.ite

theorem writeQuota_kept {σ τ : State} (hk : Kept σ τ) (g v : Nat) :
    Kept σ (writeQuota g v τ) := by
  unfold writeQuota
  try dsimp only
  repeat' first
    | with_reducible assumption
    | with_reducible apply modFn_kept
    | with_reducible apply Kept.ite

theorem writeInject_kept {σ τ : State} (hk : Kept σ τ) (f v : Nat) : Kept σ (writeInject f v τ) := by
  unfold writeInject
  try dsimp only
  split
  · refine hk.legal rfl fun k => ?_
    obtain ⟨m, w, c, t, o, x, d, l, q, i⟩ := k
    refine ⟨m, w, c, t, o, x, d, l, q, ?_⟩
    unfold modSpu
    dsimp only
    split
    · rename_i e
      rw [BitVec.toNat_ofNat, Nat.mod_eq_of_lt (by omega)]
      exact e
    · exact i
  · exact hk

theorem writeNbr_kept {σ τ : State} (hk : Kept σ τ) (v : Nat) : Kept σ (writeNbr v τ) := by
  unfold writeNbr
  try dsimp only
  refine hk.legal rfl fun k => ?_
  obtain ⟨m, w, c, t, o, x, d, l, q, i⟩ := k
  refine ⟨m, w, c, t, o, x, d, ?_, q, i⟩
  dsimp only [modDram]
  split
  · rename_i e
    rw [Bool.and_eq_true, decide_eq_true_eq, decide_eq_true_eq] at e
    rw [BitVec.toNat_ofNat, Nat.mod_eq_of_lt (by omega)]
    exact e
  · exact l

theorem writePwrCfg_kept {σ τ : State} (hk : Kept σ τ) (v : Nat) : Kept σ (writePwrCfg v τ) := by
  unfold writePwrCfg
  try dsimp only
  split
  · refine hk.legal rfl fun k => ?_
    obtain ⟨m, w, c, t, o, x, d, l, q, i⟩ := k
    refine ⟨m, w, c, t, o, x, d, l, ?_, i⟩
    rename_i e
    rw [Bool.and_eq_true, decide_eq_true_eq, decide_eq_true_eq] at e
    dsimp only [modPwr]
    rw [BitVec.toNat_ofNat, Nat.mod_eq_of_lt (by omega)]
    exact e
  · exact hk

theorem write0_kept {σ τ : State} (hk : Kept σ τ) (f o v : Nat) :
    Kept σ (write0 f o v τ) := by
  unfold write0
  try dsimp only
  repeat' first
    | (with_reducible intro _; try dsimp only)
    | with_reducible assumption
    | with_reducible exact csuWrite_kept hk _ _
    | with_reducible exact amcWrite_kept hk _
    | with_reducible apply writePwrCfg_kept
    | with_reducible apply writeNbr_kept
    | with_reducible apply writeInject_kept
    | with_reducible apply writeQuota_kept
    | with_reducible apply writeAttach_kept
    | with_reducible apply writePpsOut_kept
    | with_reducible apply writePpsCfg_kept
    | with_reducible apply writeClk_kept
    | with_reducible apply hedgeRequest_kept
    | with_reducible apply writePrbsCfg_kept
    | with_reducible apply writeScanCtl_kept
    | with_reducible apply modPort_kept
    | with_reducible apply modDram_kept
    | with_reducible apply writeViewCtl_kept
    | with_reducible apply modAmc_kept
    | with_reducible apply modFn_kept
    | with_reducible apply Kept.ite
    | with_reducible refine Amc.writeSeq_trimSel _ _ _
    | with_reducible refine Amc.clear_trimSel _ _
    | split

theorem setWide_kept {σ τ : State} (hk : Kept σ τ) (f o : Nat) (v : BitVec 64) :
    Kept σ (setWide f o v τ) := by
  unfold setWide
  try dsimp only
  repeat' first
    | with_reducible assumption
    | with_reducible apply modLane_kept
    | with_reducible apply modFn_kept
    | split

theorem dropStaged_kept {σ τ : State} (hk : Kept σ τ) (f o : Nat) :
    Kept σ (dropStaged f o τ) := by
  unfold dropStaged
  try dsimp only
  repeat' first
    | with_reducible assumption
    | with_reducible apply modHost_kept

theorem writeWide_kept {σ τ : State} (hk : Kept σ τ) (f o : Nat) (lo hi : Option Nat) :
    Kept σ (writeWide f o lo hi τ) := by
  unfold writeWide
  try dsimp only
  repeat' first
    | with_reducible assumption
    | with_reducible apply dropStaged_kept
    | with_reducible apply setWide_kept
    | with_reducible apply modHost_kept
    | split

theorem setMask_kept {σ τ : State} (hk : Kept σ τ) (f v : Nat) (masked : Bool) :
    Kept σ (setMask f v masked τ) := by
  unfold setMask
  try dsimp only
  repeat' first
    | with_reducible assumption
    | with_reducible apply modFn_kept
    | with_reducible apply emit_kept
    | with_reducible apply Kept.ite
    | split

theorem write2_kept {σ τ : State} (hk : Kept σ τ) (f o v : Nat) :
    Kept σ (write2 f o v τ) := by
  unfold write2
  try dsimp only
  repeat' first
    | with_reducible assumption
    | with_reducible apply setMask_kept
    | with_reducible apply dbData_kept
    | with_reducible apply dbEvt_kept
    | with_reducible apply dbCpl_kept
    | with_reducible apply dbCmd_kept
    | with_reducible apply modFn_kept
    | with_reducible apply Kept.ite
    | split

theorem writeUnit_kept {σ τ : State} (hk : Kept σ τ) (f bar o : Nat) (lo hi : Option Nat) :
    Kept σ (writeUnit f bar o lo hi τ) := by
  unfold writeUnit
  try dsimp only
  repeat' first
    | with_reducible assumption
    | with_reducible apply write2_kept
    | with_reducible apply writeWide_kept
    | with_reducible apply write0_kept
    | with_reducible apply Kept.ite
    | split

theorem writeAccess_kept {σ τ : State} (hk : Kept σ τ) (f bar off width v : Nat) :
    Kept σ (writeAccess f bar off width v τ) := by
  unfold writeAccess
  try dsimp only
  repeat' first
    | (with_reducible intro _; try dsimp only)
    | with_reducible assumption
    | with_reducible apply writeUnit_kept
    | with_reducible apply violation_kept
    | with_reducible apply Kept.ite
    | with_reducible apply Kept.foldl

theorem freshBytes_kept {σ τ : State} (hk : Kept σ τ) (n : Nat) : Kept σ (freshBytes n τ).2 := by
  induction n generalizing τ with
  | zero => exact hk
  | succ n ih => exact ih (freshValue_kept hk 8)

theorem bar4Read_kept {σ τ : State} (hk : Kept σ τ) (port a n : Nat) :
    Kept σ (bar4Read port a n τ) := by
  unfold bar4Read
  try dsimp only
  repeat' first
    | with_reducible assumption
    | with_reducible apply freshBytes_kept
    | with_reducible apply dramRead_kept
    | with_reducible apply emit_kept
    | with_reducible apply Kept.ite

theorem bar4Write_kept {σ τ : State} (hk : Kept σ τ) (port a : Nat) (data : List Byte) (poisoned : Bool) :
    Kept σ (bar4Write port a data poisoned τ) := by
  unfold bar4Write
  try dsimp only
  repeat' first
    | with_reducible assumption
    | with_reducible apply violation_kept
    | with_reducible apply dramWrite_kept
    | with_reducible apply Kept.ite

theorem execRegisterWrite_kept {σ τ : State} (hk : Kept σ τ) (fn : BitVec 7) (bar : BitVec 2) (off : BitVec 23) (width : BitVec 5) (v : BitVec 128) :
    Keeps σ (execRegisterWrite fn bar off width v τ) := by
  unfold execRegisterWrite
  try dsimp only
  repeat' first
    | with_reducible assumption
    | with_reducible apply Keeps.next
    | with_reducible apply writeAccess_kept
    | with_reducible apply settle_kept

theorem execRcRead_kept {σ τ : State} (hk : Kept σ τ) (fn : BitVec 7) (bar : BitVec 2) (off : BitVec 23) (width : BitVec 5) :
    Keeps σ (execRcRead fn bar off width τ) := by
  unfold execRcRead
  try dsimp only
  repeat' first
    | with_reducible assumption
    | with_reducible apply Keeps.next
    | with_reducible apply readAccess_kept
    | with_reducible apply settle_kept

theorem execSplitReadLow_kept {σ τ : State} (hk : Kept σ τ) (fn : BitVec 7) (off : BitVec 23) :
    Keeps σ (execSplitReadLow fn off τ) := by
  unfold execSplitReadLow
  try dsimp only
  repeat' first
    | with_reducible assumption
    | with_reducible apply Keeps.next
    | with_reducible apply readAccess_kept
    | with_reducible apply settle_kept

theorem execSplitWriteLow_kept {σ τ : State} (hk : Kept σ τ) (fn : BitVec 7) (off : BitVec 23) (v : BitVec 32) :
    Keeps σ (execSplitWriteLow fn off v τ) := by
  unfold execSplitWriteLow
  try dsimp only
  repeat' first
    | with_reducible assumption
    | with_reducible apply Keeps.next
    | with_reducible apply writeAccess_kept
    | with_reducible apply settle_kept

theorem execBarAccessInvalid_kept {σ τ : State} (hk : Kept σ τ) (fn : BitVec 7) (bar : BitVec 2) (off : BitVec 23) (width : BitVec 5) (write : Bool) :
    Keeps σ (execBarAccessInvalid fn bar off width write τ) := by
  unfold execBarAccessInvalid
  try dsimp only
  repeat' first
    | with_reducible assumption
    | with_reducible apply Keeps.next
    | with_reducible apply violation_kept
    | with_reducible apply emit_kept
    | with_reducible apply Kept.ite

theorem execBar4Access_kept {σ τ : State} (hk : Kept σ τ) (port : BitVec 1) (a : BitVec 36) (n : BitVec 13) (data : Option (List Byte)) (poisoned : Bool) :
    Keeps σ (execBar4Access port a n data poisoned τ) := by
  unfold execBar4Access
  try dsimp only
  repeat' first
    | with_reducible assumption
    | with_reducible apply Keeps.next
    | with_reducible apply bar4Write_kept
    | with_reducible apply bar4Read_kept
    | with_reducible apply settle_kept
    | split

theorem execMsixUnmask_kept {σ τ : State} (hk : Kept σ τ) (fn : BitVec 7) (vec : BitVec 11) :
    Keeps σ (execMsixUnmask fn vec τ) := by
  unfold execMsixUnmask
  try dsimp only
  repeat' first
    | with_reducible assumption
    | with_reducible apply Keeps.next
    | with_reducible apply setMask_kept

theorem execAttach_kept {σ τ : State} (hk : Kept σ τ) (fn : BitVec 7) (v : BitVec 32) :
    Keeps σ (execAttach fn v τ) := by
  unfold execAttach
  try dsimp only
  repeat' first
    | with_reducible assumption
    | with_reducible apply Keeps.next
    | with_reducible apply writeAccess_kept
    | with_reducible apply settle_kept

theorem execDetach_kept {σ τ : State} (hk : Kept σ τ) (fn : BitVec 7) (v : BitVec 32) :
    Keeps σ (execDetach fn v τ) := by
  unfold execDetach
  try dsimp only
  repeat' first
    | with_reducible assumption
    | with_reducible apply Keeps.next
    | with_reducible apply writeAccess_kept
    | with_reducible apply settle_kept

theorem execCsuRestart_kept {σ τ : State} (hk : Kept σ τ) (fn : BitVec 7) (v : BitVec 32) :
    Keeps σ (execCsuRestart fn v τ) := by
  unfold execCsuRestart
  try dsimp only
  repeat' first
    | with_reducible assumption
    | with_reducible apply Keeps.next
    | with_reducible apply writeAccess_kept

theorem execCsuCfgWrite_kept {σ τ : State} (hk : Kept σ τ) (fn : BitVec 7) (v : BitVec 32) :
    Keeps σ (execCsuCfgWrite fn v τ) := by
  unfold execCsuCfgWrite
  try dsimp only
  repeat' first
    | with_reducible assumption
    | with_reducible apply Keeps.next
    | with_reducible apply writeAccess_kept

theorem execAmcClr_kept {σ τ : State} (hk : Kept σ τ) (fn : BitVec 7) (v : BitVec 32) :
    Keeps σ (execAmcClr fn v τ) := by
  unfold execAmcClr
  try dsimp only
  repeat' first
    | with_reducible assumption
    | with_reducible apply Keeps.next
    | with_reducible apply writeAccess_kept

theorem execAmcCfgWrite_kept {σ τ : State} (hk : Kept σ τ) (fn : BitVec 7) (v : BitVec 32) :
    Keeps σ (execAmcCfgWrite fn v τ) := by
  unfold execAmcCfgWrite
  try dsimp only
  repeat' first
    | with_reducible assumption
    | with_reducible apply Keeps.next
    | with_reducible apply writeAccess_kept

theorem execUcsInject_kept {σ τ : State} (hk : Kept σ τ) (fn : BitVec 7) (v : BitVec 32) :
    Keeps σ (execUcsInject fn v τ) := by
  unfold execUcsInject
  try dsimp only
  repeat' first
    | with_reducible assumption
    | with_reducible apply Keeps.next
    | with_reducible apply writeAccess_kept

theorem execEsStart_kept {σ τ : State} (hk : Kept σ τ) (fn : BitVec 7) (v : BitVec 32) :
    Keeps σ (execEsStart fn v τ) := by
  unfold execEsStart
  try dsimp only
  repeat' first
    | with_reducible assumption
    | with_reducible apply Keeps.next
    | with_reducible apply writeAccess_kept

theorem execEsAbort_kept {σ τ : State} (hk : Kept σ τ) (fn : BitVec 7) (v : BitVec 32) :
    Keeps σ (execEsAbort fn v τ) := by
  unfold execEsAbort
  try dsimp only
  repeat' first
    | with_reducible assumption
    | with_reducible apply Keeps.next
    | with_reducible apply writeAccess_kept

theorem execInjGo_kept {σ τ : State} (hk : Kept σ τ) (fn : BitVec 7) (lane : BitVec 5) (v : BitVec 32) :
    Keeps σ (execInjGo fn lane v τ) := by
  unfold execInjGo
  try dsimp only
  repeat' first
    | with_reducible assumption
    | with_reducible apply Keeps.next
    | with_reducible apply writeAccess_kept

theorem execPrbsClear_kept {σ τ : State} (hk : Kept σ τ) (fn : BitVec 7) (lane : BitVec 5) (v : BitVec 32) :
    Keeps σ (execPrbsClear fn lane v τ) := by
  unfold execPrbsClear
  try dsimp only
  repeat' first
    | with_reducible assumption
    | with_reducible apply Keeps.next
    | with_reducible apply writeAccess_kept

end Sys2Proof.Machine
end

