-- ==== Sys2Proof/Laws/Spu.lean ====
section
/-!
SUPPORT. What an SPU instruction does when it issues: one lemma for each shared operation of issue, and the arithmetic of `fit`.
-/

namespace Sys2Proof.Machine

/-- What an instruction that may issue meets: the unit may issue and does not wait, the word obeys its row. -/
theorem Issues.ready {i : Instr} {s : State} {n : BitVec 4} {w : BitVec 56} {opc : Nat} {f : Form} (h : Issues i s)
    (hr : spuRow i = some (n, w, opc, f)) : (getLsu n.toNat s).mayIssue = true ∧ (getLsu n.toNat s).waiting = false
      ∧ f.ok w = true ∧ (getLsu n.toNat s).inBody opc = true := by
  obtain ⟨r, h0, h⟩ := h
  rw [hr] at h0
  cases h0
  exact h

/-- A unit that does not wait is not woken. -/
theorem wakeUnit_idle {n : Nat} {s : State} (h : (getLsu n s).waiting = false) : wakeUnit n s = s := by simp [wakeUnit, h]

/-- An instruction that may issue does what `go` says, or is illegal. -/
theorem issue_ready {opc : Nat} {f : Form} {n : BitVec 4} {w : BitVec 56} {go : Lsu → State → Option State} {s : State}
    (h : (getLsu n.toNat s).mayIssue = true ∧ (getLsu n.toNat s).waiting = false ∧ f.ok w = true ∧ (getLsu n.toNat s).inBody opc = true) :
    issue opc f n w go s = (go (getLsu n.toNat s) s).getD (illegal n.toNat s) := by
  simp [issue, h.1, wakeUnit_idle h.2.1, h.2.2.1, h.2.2.2]

/-- A word that breaks its row, or an opcode that may not stand in the body that runs, is illegal. -/
theorem issue_illegal {opc : Nat} {f : Form} {n : BitVec 4} {w : BitVec 56} {go : Lsu → State → Option State} {s : State}
    (h1 : (getLsu n.toNat s).mayIssue = true) (h2 : (getLsu n.toNat s).waiting = false)
    (h3 : f.ok w = false ∨ (getLsu n.toNat s).inBody opc = false) : issue opc f n w go s = illegal n.toNat s := by
  rcases h3 with h3 | h3 <;> simp [issue, h1, wakeUnit_idle h2, h3]

/-- An instruction that acts on its unit alone leaves the unit as `go` says. -/
theorem issueUnit_ready {opc : Nat} {f : Form} {n : BitVec 4} {w : BitVec 56} {go : State → Lsu → Option Lsu} {s : State} {l : Lsu}
    (h : (getLsu n.toNat s).mayIssue = true ∧ (getLsu n.toNat s).waiting = false ∧ f.ok w = true ∧ (getLsu n.toNat s).inBody opc = true)
    (hg : go s (getLsu n.toNat s) = some l) : issueUnit opc f n w go s = modLsu n.toNat (fun _ => l) s := by
  simp [issueUnit, issue_ready h, hg]

/-- An instruction whose only effects are results leaves them in flight. -/
theorem issueRegs_ready {opc : Nat} {f : Form} {n : BitVec 4} {w : BitVec 56} {go : Lsu → Option (List Retire)} {s : State} {rs : List Retire}
    (h : (getLsu n.toNat s).mayIssue = true ∧ (getLsu n.toNat s).waiting = false ∧ f.ok w = true ∧ (getLsu n.toNat s).inBody opc = true)
    (hg : go (getLsu n.toNat s) = some rs) :
    issueRegs opc f n w go s = modLsu n.toNat (fun _ => (getLsu n.toNat s).done rs) s := by
  simp [issueRegs, issueUnit_ready h, hg]

/-- `issueRegs_ready` in the form of the statements. -/
theorem issueRegs_inFlight {opc : Nat} {f : Form} {n : BitVec 4} {w : BitVec 56} {go : Lsu → Option (List Retire)} {s : State}
    {rs : Lsu → List Retire}
    (h : (getLsu n.toNat s).mayIssue = true ∧ (getLsu n.toNat s).waiting = false ∧ f.ok w = true ∧ (getLsu n.toNat s).inBody opc = true)
    (hg : go (getLsu n.toNat s) = some (rs (getLsu n.toNat s))) :
    Host.Outcome.next (settle (issueRegs opc f n w go s)) = inFlight n rs s := by
  rw [issueRegs_ready h hg]
  rfl

/-- `issueUnit_ready` in the form of the statements. -/
theorem issueUnit_unitIs {opc : Nat} {f : Form} {n : BitVec 4} {w : BitVec 56} {go : State → Lsu → Option Lsu} {s : State} {l : Lsu}
    (h : (getLsu n.toNat s).mayIssue = true ∧ (getLsu n.toNat s).waiting = false ∧ f.ok w = true ∧ (getLsu n.toNat s).inBody opc = true)
    (hg : go s (getLsu n.toNat s) = some l) : Host.Outcome.next (settle (issueUnit opc f n w go s)) = unitIs n l s := by
  rw [issueUnit_ready h hg]
  rfl

/-- The low 32 bits of an integer, read as signed and stored again, are the same bits. -/
theorem ofInt_sext_wrapInt (x : Int) : BitVec.ofInt 32 (sext 32 (wrapInt 32 x)) = BitVec.ofInt 32 x := by
  apply BitVec.eq_of_toInt_eq
  simp only [BitVec.toInt_ofInt, sext, wrapInt]
  norm_num [Int.bmod]
  split <;> split <;> split <;> omega

/-- `fit` to 32 bits as a register value. -/
theorem fitTo_value (w : BitVec 56) (x : Int) : BitVec.ofInt 32 (fitTo (wSat w) 32 x).1 = fit32 w x := by
  unfold fitTo fit32 clampInt
  cases wSat w
  · simp [ofInt_sext_wrapInt]
  · norm_num
    split <;> [skip; split] <;> simp_all

/-- SR's flag of `fit` to 32 bits. -/
theorem fitTo_flag (w : BitVec 56) (x : Int) : BitVec.ofNat 32 (satFlag (fitTo (wSat w) 32 x).2) = sat32 w x := by
  unfold fitTo sat32 satFlag
  cases wSat w
  · simp
  · by_cases h : x < -2147483648
    · simp [h]
    · by_cases h' : 2147483647 < x <;> simp [h, h']

/-- The results of a scalar instruction with saturation. -/
theorem fitOut_fitted (w : BitVec 56) (lat : Nat) (x : Int) (l : Lsu) : l.fitOut w lat x = some (fitted w lat x l) := by
  simp [Lsu.fitOut, fitted, fitTo_value, fitTo_flag]

/-- A 32-bit field read as signed. -/
theorem sext_toInt (v : Nat) (h : v < 2 ^ 32) : sext 32 v = (BitVec.ofNat 32 v).toInt := by
  simp only [sext, BitVec.toInt, BitVec.toNat_ofNat]
  norm_num
  split <;> split <;> omega

/-- `fit` to a lane's width as the statements say it. -/
theorem fitLane_fitC (w : BitVec 56) (t : Nat) (x : Int) : fitLane w t x = fitC w t x := by
  unfold fitLane fitC fitTo clampInt satFlag
  cases wSat w
  · simp
  · simp only [if_true]
    split
    · simp_all
    · split <;> simp_all

/-- A lane-wise instruction whose every component has a value. -/
theorem vecOp_lanes {opc : Nat} {f : Form} {n : BitVec 4} {w : BitVec 56} {lat : Nat} {go : Lsu → Nat → Option (Int × Nat)}
    {g : Lsu → Nat → Int × Nat} {s : State}
    (h : (getLsu n.toNat s).mayIssue = true ∧ (getLsu n.toNat s).waiting = false ∧ f.ok w = true ∧ (getLsu n.toNat s).inBody opc = true)
    (hg : ∀ i, go (getLsu n.toNat s) i = some (g (getLsu n.toNat s) i)) :
    Host.Outcome.next (settle (vecOp opc f n w lat go s)) = lanes n w lat g s := by
  refine issueRegs_inFlight h ?_
  simp [hg]

end Sys2Proof.Machine
end

