-- ==== Sys2Proof/Laws/State.lean ====
section
/-!
SUPPORT. The fields of State under each of its updates, by rfl: one lemma per field per update. Below them, reading an indexed part of the
block after it was changed.
-/

namespace Sys2Proof.Machine

/-! `modAdc` changes `adc` alone. -/

@[simp] theorem modAdc_pending (f : Adc → Adc) (s : State) : (modAdc f s).pending = s.pending := rfl
@[simp] theorem modAdc_out (f : Adc → Adc) (s : State) : (modAdc f s).out = s.out := rfl
@[simp] theorem modAdc_fresh (f : Adc → Adc) (s : State) : (modAdc f s).fresh = s.fresh := rfl
@[simp] theorem modAdc_tim (f : Adc → Adc) (s : State) : (modAdc f s).tim = s.tim := rfl
@[simp] theorem modAdc_adc (f : Adc → Adc) (s : State) : (modAdc f s).adc = f s.adc := rfl
@[simp] theorem modAdc_skm (f : Adc → Adc) (s : State) : (modAdc f s).skm = s.skm := rfl
@[simp] theorem modAdc_zdc (f : Adc → Adc) (s : State) : (modAdc f s).zdc = s.zdc := rfl
@[simp] theorem modAdc_dsp (f : Adc → Adc) (s : State) : (modAdc f s).dsp = s.dsp := rfl
@[simp] theorem modAdc_trg (f : Adc → Adc) (s : State) : (modAdc f s).trg = s.trg := rfl
@[simp] theorem modAdc_dpy (f : Adc → Adc) (s : State) : (modAdc f s).dpy = s.dpy := rfl
@[simp] theorem modAdc_dram (f : Adc → Adc) (s : State) : (modAdc f s).dram = s.dram := rfl
@[simp] theorem modAdc_spu (f : Adc → Adc) (s : State) : (modAdc f s).spu = s.spu := rfl
@[simp] theorem modAdc_pwr (f : Adc → Adc) (s : State) : (modAdc f s).pwr = s.pwr := rfl
@[simp] theorem modAdc_link (f : Adc → Adc) (s : State) : (modAdc f s).link = s.link := rfl
@[simp] theorem modAdc_hedge (f : Adc → Adc) (s : State) : (modAdc f s).hedge = s.hedge := rfl
@[simp] theorem modAdc_mode (f : Adc → Adc) (s : State) : (modAdc f s).mode = s.mode := rfl
@[simp] theorem modAdc_host (f : Adc → Adc) (s : State) : (modAdc f s).host = s.host := rfl
@[simp] theorem modAdc_disk (f : Adc → Adc) (s : State) : (modAdc f s).disk = s.disk := rfl
@[simp] theorem modAdc_trust (f : Adc → Adc) (s : State) : (modAdc f s).trust = s.trust := rfl
@[simp] theorem modAdc_fr (f : Adc → Adc) (s : State) : (modAdc f s).fr = s.fr := rfl
@[simp] theorem modAdc_plans (f : Adc → Adc) (s : State) : (modAdc f s).plans = s.plans := rfl
@[simp] theorem modAdc_nextPlan (f : Adc → Adc) (s : State) : (modAdc f s).nextPlan = s.nextPlan := rfl
@[simp] theorem modAdc_nextOrder (f : Adc → Adc) (s : State) : (modAdc f s).nextOrder = s.nextOrder := rfl

/-! `modHedge` changes `hedge` alone. -/

@[simp] theorem modHedge_pending (f : Hedge → Hedge) (s : State) : (modHedge f s).pending = s.pending := rfl
@[simp] theorem modHedge_out (f : Hedge → Hedge) (s : State) : (modHedge f s).out = s.out := rfl
@[simp] theorem modHedge_fresh (f : Hedge → Hedge) (s : State) : (modHedge f s).fresh = s.fresh := rfl
@[simp] theorem modHedge_tim (f : Hedge → Hedge) (s : State) : (modHedge f s).tim = s.tim := rfl
@[simp] theorem modHedge_adc (f : Hedge → Hedge) (s : State) : (modHedge f s).adc = s.adc := rfl
@[simp] theorem modHedge_skm (f : Hedge → Hedge) (s : State) : (modHedge f s).skm = s.skm := rfl
@[simp] theorem modHedge_zdc (f : Hedge → Hedge) (s : State) : (modHedge f s).zdc = s.zdc := rfl
@[simp] theorem modHedge_dsp (f : Hedge → Hedge) (s : State) : (modHedge f s).dsp = s.dsp := rfl
@[simp] theorem modHedge_trg (f : Hedge → Hedge) (s : State) : (modHedge f s).trg = s.trg := rfl
@[simp] theorem modHedge_dpy (f : Hedge → Hedge) (s : State) : (modHedge f s).dpy = s.dpy := rfl
@[simp] theorem modHedge_dram (f : Hedge → Hedge) (s : State) : (modHedge f s).dram = s.dram := rfl
@[simp] theorem modHedge_spu (f : Hedge → Hedge) (s : State) : (modHedge f s).spu = s.spu := rfl
@[simp] theorem modHedge_pwr (f : Hedge → Hedge) (s : State) : (modHedge f s).pwr = s.pwr := rfl
@[simp] theorem modHedge_link (f : Hedge → Hedge) (s : State) : (modHedge f s).link = s.link := rfl
@[simp] theorem modHedge_hedge (f : Hedge → Hedge) (s : State) : (modHedge f s).hedge = f s.hedge := rfl
@[simp] theorem modHedge_mode (f : Hedge → Hedge) (s : State) : (modHedge f s).mode = s.mode := rfl
@[simp] theorem modHedge_host (f : Hedge → Hedge) (s : State) : (modHedge f s).host = s.host := rfl
@[simp] theorem modHedge_disk (f : Hedge → Hedge) (s : State) : (modHedge f s).disk = s.disk := rfl
@[simp] theorem modHedge_trust (f : Hedge → Hedge) (s : State) : (modHedge f s).trust = s.trust := rfl
@[simp] theorem modHedge_fr (f : Hedge → Hedge) (s : State) : (modHedge f s).fr = s.fr := rfl
@[simp] theorem modHedge_plans (f : Hedge → Hedge) (s : State) : (modHedge f s).plans = s.plans := rfl
@[simp] theorem modHedge_nextPlan (f : Hedge → Hedge) (s : State) : (modHedge f s).nextPlan = s.nextPlan := rfl
@[simp] theorem modHedge_nextOrder (f : Hedge → Hedge) (s : State) : (modHedge f s).nextOrder = s.nextOrder := rfl

/-! `modTrust` changes `trust` alone. -/

@[simp] theorem modTrust_pending (f : Trust → Trust) (s : State) : (modTrust f s).pending = s.pending := rfl
@[simp] theorem modTrust_out (f : Trust → Trust) (s : State) : (modTrust f s).out = s.out := rfl
@[simp] theorem modTrust_fresh (f : Trust → Trust) (s : State) : (modTrust f s).fresh = s.fresh := rfl
@[simp] theorem modTrust_tim (f : Trust → Trust) (s : State) : (modTrust f s).tim = s.tim := rfl
@[simp] theorem modTrust_adc (f : Trust → Trust) (s : State) : (modTrust f s).adc = s.adc := rfl
@[simp] theorem modTrust_skm (f : Trust → Trust) (s : State) : (modTrust f s).skm = s.skm := rfl
@[simp] theorem modTrust_zdc (f : Trust → Trust) (s : State) : (modTrust f s).zdc = s.zdc := rfl
@[simp] theorem modTrust_dsp (f : Trust → Trust) (s : State) : (modTrust f s).dsp = s.dsp := rfl
@[simp] theorem modTrust_trg (f : Trust → Trust) (s : State) : (modTrust f s).trg = s.trg := rfl
@[simp] theorem modTrust_dpy (f : Trust → Trust) (s : State) : (modTrust f s).dpy = s.dpy := rfl
@[simp] theorem modTrust_dram (f : Trust → Trust) (s : State) : (modTrust f s).dram = s.dram := rfl
@[simp] theorem modTrust_spu (f : Trust → Trust) (s : State) : (modTrust f s).spu = s.spu := rfl
@[simp] theorem modTrust_pwr (f : Trust → Trust) (s : State) : (modTrust f s).pwr = s.pwr := rfl
@[simp] theorem modTrust_link (f : Trust → Trust) (s : State) : (modTrust f s).link = s.link := rfl
@[simp] theorem modTrust_hedge (f : Trust → Trust) (s : State) : (modTrust f s).hedge = s.hedge := rfl
@[simp] theorem modTrust_mode (f : Trust → Trust) (s : State) : (modTrust f s).mode = s.mode := rfl
@[simp] theorem modTrust_host (f : Trust → Trust) (s : State) : (modTrust f s).host = s.host := rfl
@[simp] theorem modTrust_disk (f : Trust → Trust) (s : State) : (modTrust f s).disk = s.disk := rfl
@[simp] theorem modTrust_trust (f : Trust → Trust) (s : State) : (modTrust f s).trust = f s.trust := rfl
@[simp] theorem modTrust_fr (f : Trust → Trust) (s : State) : (modTrust f s).fr = s.fr := rfl
@[simp] theorem modTrust_plans (f : Trust → Trust) (s : State) : (modTrust f s).plans = s.plans := rfl
@[simp] theorem modTrust_nextPlan (f : Trust → Trust) (s : State) : (modTrust f s).nextPlan = s.nextPlan := rfl
@[simp] theorem modTrust_nextOrder (f : Trust → Trust) (s : State) : (modTrust f s).nextOrder = s.nextOrder := rfl

/-! `modTrg` changes `trg` alone. -/

@[simp] theorem modTrg_pending (f : Trig → Trig) (s : State) : (modTrg f s).pending = s.pending := rfl
@[simp] theorem modTrg_out (f : Trig → Trig) (s : State) : (modTrg f s).out = s.out := rfl
@[simp] theorem modTrg_fresh (f : Trig → Trig) (s : State) : (modTrg f s).fresh = s.fresh := rfl
@[simp] theorem modTrg_tim (f : Trig → Trig) (s : State) : (modTrg f s).tim = s.tim := rfl
@[simp] theorem modTrg_adc (f : Trig → Trig) (s : State) : (modTrg f s).adc = s.adc := rfl
@[simp] theorem modTrg_skm (f : Trig → Trig) (s : State) : (modTrg f s).skm = s.skm := rfl
@[simp] theorem modTrg_zdc (f : Trig → Trig) (s : State) : (modTrg f s).zdc = s.zdc := rfl
@[simp] theorem modTrg_dsp (f : Trig → Trig) (s : State) : (modTrg f s).dsp = s.dsp := rfl
@[simp] theorem modTrg_trg (f : Trig → Trig) (s : State) : (modTrg f s).trg = f s.trg := rfl
@[simp] theorem modTrg_dpy (f : Trig → Trig) (s : State) : (modTrg f s).dpy = s.dpy := rfl
@[simp] theorem modTrg_dram (f : Trig → Trig) (s : State) : (modTrg f s).dram = s.dram := rfl
@[simp] theorem modTrg_spu (f : Trig → Trig) (s : State) : (modTrg f s).spu = s.spu := rfl
@[simp] theorem modTrg_pwr (f : Trig → Trig) (s : State) : (modTrg f s).pwr = s.pwr := rfl
@[simp] theorem modTrg_link (f : Trig → Trig) (s : State) : (modTrg f s).link = s.link := rfl
@[simp] theorem modTrg_hedge (f : Trig → Trig) (s : State) : (modTrg f s).hedge = s.hedge := rfl
@[simp] theorem modTrg_mode (f : Trig → Trig) (s : State) : (modTrg f s).mode = s.mode := rfl
@[simp] theorem modTrg_host (f : Trig → Trig) (s : State) : (modTrg f s).host = s.host := rfl
@[simp] theorem modTrg_disk (f : Trig → Trig) (s : State) : (modTrg f s).disk = s.disk := rfl
@[simp] theorem modTrg_trust (f : Trig → Trig) (s : State) : (modTrg f s).trust = s.trust := rfl
@[simp] theorem modTrg_fr (f : Trig → Trig) (s : State) : (modTrg f s).fr = s.fr := rfl
@[simp] theorem modTrg_plans (f : Trig → Trig) (s : State) : (modTrg f s).plans = s.plans := rfl
@[simp] theorem modTrg_nextPlan (f : Trig → Trig) (s : State) : (modTrg f s).nextPlan = s.nextPlan := rfl
@[simp] theorem modTrg_nextOrder (f : Trig → Trig) (s : State) : (modTrg f s).nextOrder = s.nextOrder := rfl

/-! `modDpy` changes `dpy` alone. -/

@[simp] theorem modDpy_pending (f : Disp → Disp) (s : State) : (modDpy f s).pending = s.pending := rfl
@[simp] theorem modDpy_out (f : Disp → Disp) (s : State) : (modDpy f s).out = s.out := rfl
@[simp] theorem modDpy_fresh (f : Disp → Disp) (s : State) : (modDpy f s).fresh = s.fresh := rfl
@[simp] theorem modDpy_tim (f : Disp → Disp) (s : State) : (modDpy f s).tim = s.tim := rfl
@[simp] theorem modDpy_adc (f : Disp → Disp) (s : State) : (modDpy f s).adc = s.adc := rfl
@[simp] theorem modDpy_skm (f : Disp → Disp) (s : State) : (modDpy f s).skm = s.skm := rfl
@[simp] theorem modDpy_zdc (f : Disp → Disp) (s : State) : (modDpy f s).zdc = s.zdc := rfl
@[simp] theorem modDpy_dsp (f : Disp → Disp) (s : State) : (modDpy f s).dsp = s.dsp := rfl
@[simp] theorem modDpy_trg (f : Disp → Disp) (s : State) : (modDpy f s).trg = s.trg := rfl
@[simp] theorem modDpy_dpy (f : Disp → Disp) (s : State) : (modDpy f s).dpy = f s.dpy := rfl
@[simp] theorem modDpy_dram (f : Disp → Disp) (s : State) : (modDpy f s).dram = s.dram := rfl
@[simp] theorem modDpy_spu (f : Disp → Disp) (s : State) : (modDpy f s).spu = s.spu := rfl
@[simp] theorem modDpy_pwr (f : Disp → Disp) (s : State) : (modDpy f s).pwr = s.pwr := rfl
@[simp] theorem modDpy_link (f : Disp → Disp) (s : State) : (modDpy f s).link = s.link := rfl
@[simp] theorem modDpy_hedge (f : Disp → Disp) (s : State) : (modDpy f s).hedge = s.hedge := rfl
@[simp] theorem modDpy_mode (f : Disp → Disp) (s : State) : (modDpy f s).mode = s.mode := rfl
@[simp] theorem modDpy_host (f : Disp → Disp) (s : State) : (modDpy f s).host = s.host := rfl
@[simp] theorem modDpy_disk (f : Disp → Disp) (s : State) : (modDpy f s).disk = s.disk := rfl
@[simp] theorem modDpy_trust (f : Disp → Disp) (s : State) : (modDpy f s).trust = s.trust := rfl
@[simp] theorem modDpy_fr (f : Disp → Disp) (s : State) : (modDpy f s).fr = s.fr := rfl
@[simp] theorem modDpy_plans (f : Disp → Disp) (s : State) : (modDpy f s).plans = s.plans := rfl
@[simp] theorem modDpy_nextPlan (f : Disp → Disp) (s : State) : (modDpy f s).nextPlan = s.nextPlan := rfl
@[simp] theorem modDpy_nextOrder (f : Disp → Disp) (s : State) : (modDpy f s).nextOrder = s.nextOrder := rfl

/-! `modPwr` changes `pwr` alone. -/

@[simp] theorem modPwr_pending (f : Pwr → Pwr) (s : State) : (modPwr f s).pending = s.pending := rfl
@[simp] theorem modPwr_out (f : Pwr → Pwr) (s : State) : (modPwr f s).out = s.out := rfl
@[simp] theorem modPwr_fresh (f : Pwr → Pwr) (s : State) : (modPwr f s).fresh = s.fresh := rfl
@[simp] theorem modPwr_tim (f : Pwr → Pwr) (s : State) : (modPwr f s).tim = s.tim := rfl
@[simp] theorem modPwr_adc (f : Pwr → Pwr) (s : State) : (modPwr f s).adc = s.adc := rfl
@[simp] theorem modPwr_skm (f : Pwr → Pwr) (s : State) : (modPwr f s).skm = s.skm := rfl
@[simp] theorem modPwr_zdc (f : Pwr → Pwr) (s : State) : (modPwr f s).zdc = s.zdc := rfl
@[simp] theorem modPwr_dsp (f : Pwr → Pwr) (s : State) : (modPwr f s).dsp = s.dsp := rfl
@[simp] theorem modPwr_trg (f : Pwr → Pwr) (s : State) : (modPwr f s).trg = s.trg := rfl
@[simp] theorem modPwr_dpy (f : Pwr → Pwr) (s : State) : (modPwr f s).dpy = s.dpy := rfl
@[simp] theorem modPwr_dram (f : Pwr → Pwr) (s : State) : (modPwr f s).dram = s.dram := rfl
@[simp] theorem modPwr_spu (f : Pwr → Pwr) (s : State) : (modPwr f s).spu = s.spu := rfl
@[simp] theorem modPwr_pwr (f : Pwr → Pwr) (s : State) : (modPwr f s).pwr = f s.pwr := rfl
@[simp] theorem modPwr_link (f : Pwr → Pwr) (s : State) : (modPwr f s).link = s.link := rfl
@[simp] theorem modPwr_hedge (f : Pwr → Pwr) (s : State) : (modPwr f s).hedge = s.hedge := rfl
@[simp] theorem modPwr_mode (f : Pwr → Pwr) (s : State) : (modPwr f s).mode = s.mode := rfl
@[simp] theorem modPwr_host (f : Pwr → Pwr) (s : State) : (modPwr f s).host = s.host := rfl
@[simp] theorem modPwr_disk (f : Pwr → Pwr) (s : State) : (modPwr f s).disk = s.disk := rfl
@[simp] theorem modPwr_trust (f : Pwr → Pwr) (s : State) : (modPwr f s).trust = s.trust := rfl
@[simp] theorem modPwr_fr (f : Pwr → Pwr) (s : State) : (modPwr f s).fr = s.fr := rfl
@[simp] theorem modPwr_plans (f : Pwr → Pwr) (s : State) : (modPwr f s).plans = s.plans := rfl
@[simp] theorem modPwr_nextPlan (f : Pwr → Pwr) (s : State) : (modPwr f s).nextPlan = s.nextPlan := rfl
@[simp] theorem modPwr_nextOrder (f : Pwr → Pwr) (s : State) : (modPwr f s).nextOrder = s.nextOrder := rfl

/-! `modDram` changes `dram` alone. -/

@[simp] theorem modDram_pending (f : Dram → Dram) (s : State) : (modDram f s).pending = s.pending := rfl
@[simp] theorem modDram_out (f : Dram → Dram) (s : State) : (modDram f s).out = s.out := rfl
@[simp] theorem modDram_fresh (f : Dram → Dram) (s : State) : (modDram f s).fresh = s.fresh := rfl
@[simp] theorem modDram_tim (f : Dram → Dram) (s : State) : (modDram f s).tim = s.tim := rfl
@[simp] theorem modDram_adc (f : Dram → Dram) (s : State) : (modDram f s).adc = s.adc := rfl
@[simp] theorem modDram_skm (f : Dram → Dram) (s : State) : (modDram f s).skm = s.skm := rfl
@[simp] theorem modDram_zdc (f : Dram → Dram) (s : State) : (modDram f s).zdc = s.zdc := rfl
@[simp] theorem modDram_dsp (f : Dram → Dram) (s : State) : (modDram f s).dsp = s.dsp := rfl
@[simp] theorem modDram_trg (f : Dram → Dram) (s : State) : (modDram f s).trg = s.trg := rfl
@[simp] theorem modDram_dpy (f : Dram → Dram) (s : State) : (modDram f s).dpy = s.dpy := rfl
@[simp] theorem modDram_dram (f : Dram → Dram) (s : State) : (modDram f s).dram = f s.dram := rfl
@[simp] theorem modDram_spu (f : Dram → Dram) (s : State) : (modDram f s).spu = s.spu := rfl
@[simp] theorem modDram_pwr (f : Dram → Dram) (s : State) : (modDram f s).pwr = s.pwr := rfl
@[simp] theorem modDram_link (f : Dram → Dram) (s : State) : (modDram f s).link = s.link := rfl
@[simp] theorem modDram_hedge (f : Dram → Dram) (s : State) : (modDram f s).hedge = s.hedge := rfl
@[simp] theorem modDram_mode (f : Dram → Dram) (s : State) : (modDram f s).mode = s.mode := rfl
@[simp] theorem modDram_host (f : Dram → Dram) (s : State) : (modDram f s).host = s.host := rfl
@[simp] theorem modDram_disk (f : Dram → Dram) (s : State) : (modDram f s).disk = s.disk := rfl
@[simp] theorem modDram_trust (f : Dram → Dram) (s : State) : (modDram f s).trust = s.trust := rfl
@[simp] theorem modDram_fr (f : Dram → Dram) (s : State) : (modDram f s).fr = s.fr := rfl
@[simp] theorem modDram_plans (f : Dram → Dram) (s : State) : (modDram f s).plans = s.plans := rfl
@[simp] theorem modDram_nextPlan (f : Dram → Dram) (s : State) : (modDram f s).nextPlan = s.nextPlan := rfl
@[simp] theorem modDram_nextOrder (f : Dram → Dram) (s : State) : (modDram f s).nextOrder = s.nextOrder := rfl

/-! `modDisk` changes `disk` alone. -/

@[simp] theorem modDisk_pending (f : Disk → Disk) (s : State) : (modDisk f s).pending = s.pending := rfl
@[simp] theorem modDisk_out (f : Disk → Disk) (s : State) : (modDisk f s).out = s.out := rfl
@[simp] theorem modDisk_fresh (f : Disk → Disk) (s : State) : (modDisk f s).fresh = s.fresh := rfl
@[simp] theorem modDisk_tim (f : Disk → Disk) (s : State) : (modDisk f s).tim = s.tim := rfl
@[simp] theorem modDisk_adc (f : Disk → Disk) (s : State) : (modDisk f s).adc = s.adc := rfl
@[simp] theorem modDisk_skm (f : Disk → Disk) (s : State) : (modDisk f s).skm = s.skm := rfl
@[simp] theorem modDisk_zdc (f : Disk → Disk) (s : State) : (modDisk f s).zdc = s.zdc := rfl
@[simp] theorem modDisk_dsp (f : Disk → Disk) (s : State) : (modDisk f s).dsp = s.dsp := rfl
@[simp] theorem modDisk_trg (f : Disk → Disk) (s : State) : (modDisk f s).trg = s.trg := rfl
@[simp] theorem modDisk_dpy (f : Disk → Disk) (s : State) : (modDisk f s).dpy = s.dpy := rfl
@[simp] theorem modDisk_dram (f : Disk → Disk) (s : State) : (modDisk f s).dram = s.dram := rfl
@[simp] theorem modDisk_spu (f : Disk → Disk) (s : State) : (modDisk f s).spu = s.spu := rfl
@[simp] theorem modDisk_pwr (f : Disk → Disk) (s : State) : (modDisk f s).pwr = s.pwr := rfl
@[simp] theorem modDisk_link (f : Disk → Disk) (s : State) : (modDisk f s).link = s.link := rfl
@[simp] theorem modDisk_hedge (f : Disk → Disk) (s : State) : (modDisk f s).hedge = s.hedge := rfl
@[simp] theorem modDisk_mode (f : Disk → Disk) (s : State) : (modDisk f s).mode = s.mode := rfl
@[simp] theorem modDisk_host (f : Disk → Disk) (s : State) : (modDisk f s).host = s.host := rfl
@[simp] theorem modDisk_disk (f : Disk → Disk) (s : State) : (modDisk f s).disk = f s.disk := rfl
@[simp] theorem modDisk_trust (f : Disk → Disk) (s : State) : (modDisk f s).trust = s.trust := rfl
@[simp] theorem modDisk_fr (f : Disk → Disk) (s : State) : (modDisk f s).fr = s.fr := rfl
@[simp] theorem modDisk_plans (f : Disk → Disk) (s : State) : (modDisk f s).plans = s.plans := rfl
@[simp] theorem modDisk_nextPlan (f : Disk → Disk) (s : State) : (modDisk f s).nextPlan = s.nextPlan := rfl
@[simp] theorem modDisk_nextOrder (f : Disk → Disk) (s : State) : (modDisk f s).nextOrder = s.nextOrder := rfl

/-! `modLink` changes `link` alone. -/

@[simp] theorem modLink_pending (f : Link → Link) (s : State) : (modLink f s).pending = s.pending := rfl
@[simp] theorem modLink_out (f : Link → Link) (s : State) : (modLink f s).out = s.out := rfl
@[simp] theorem modLink_fresh (f : Link → Link) (s : State) : (modLink f s).fresh = s.fresh := rfl
@[simp] theorem modLink_tim (f : Link → Link) (s : State) : (modLink f s).tim = s.tim := rfl
@[simp] theorem modLink_adc (f : Link → Link) (s : State) : (modLink f s).adc = s.adc := rfl
@[simp] theorem modLink_skm (f : Link → Link) (s : State) : (modLink f s).skm = s.skm := rfl
@[simp] theorem modLink_zdc (f : Link → Link) (s : State) : (modLink f s).zdc = s.zdc := rfl
@[simp] theorem modLink_dsp (f : Link → Link) (s : State) : (modLink f s).dsp = s.dsp := rfl
@[simp] theorem modLink_trg (f : Link → Link) (s : State) : (modLink f s).trg = s.trg := rfl
@[simp] theorem modLink_dpy (f : Link → Link) (s : State) : (modLink f s).dpy = s.dpy := rfl
@[simp] theorem modLink_dram (f : Link → Link) (s : State) : (modLink f s).dram = s.dram := rfl
@[simp] theorem modLink_spu (f : Link → Link) (s : State) : (modLink f s).spu = s.spu := rfl
@[simp] theorem modLink_pwr (f : Link → Link) (s : State) : (modLink f s).pwr = s.pwr := rfl
@[simp] theorem modLink_link (f : Link → Link) (s : State) : (modLink f s).link = f s.link := rfl
@[simp] theorem modLink_hedge (f : Link → Link) (s : State) : (modLink f s).hedge = s.hedge := rfl
@[simp] theorem modLink_mode (f : Link → Link) (s : State) : (modLink f s).mode = s.mode := rfl
@[simp] theorem modLink_host (f : Link → Link) (s : State) : (modLink f s).host = s.host := rfl
@[simp] theorem modLink_disk (f : Link → Link) (s : State) : (modLink f s).disk = s.disk := rfl
@[simp] theorem modLink_trust (f : Link → Link) (s : State) : (modLink f s).trust = s.trust := rfl
@[simp] theorem modLink_fr (f : Link → Link) (s : State) : (modLink f s).fr = s.fr := rfl
@[simp] theorem modLink_plans (f : Link → Link) (s : State) : (modLink f s).plans = s.plans := rfl
@[simp] theorem modLink_nextPlan (f : Link → Link) (s : State) : (modLink f s).nextPlan = s.nextPlan := rfl
@[simp] theorem modLink_nextOrder (f : Link → Link) (s : State) : (modLink f s).nextOrder = s.nextOrder := rfl

/-! `modMode` changes `mode` alone. -/

@[simp] theorem modMode_pending (f : ModeSt → ModeSt) (s : State) : (modMode f s).pending = s.pending := rfl
@[simp] theorem modMode_out (f : ModeSt → ModeSt) (s : State) : (modMode f s).out = s.out := rfl
@[simp] theorem modMode_fresh (f : ModeSt → ModeSt) (s : State) : (modMode f s).fresh = s.fresh := rfl
@[simp] theorem modMode_tim (f : ModeSt → ModeSt) (s : State) : (modMode f s).tim = s.tim := rfl
@[simp] theorem modMode_adc (f : ModeSt → ModeSt) (s : State) : (modMode f s).adc = s.adc := rfl
@[simp] theorem modMode_skm (f : ModeSt → ModeSt) (s : State) : (modMode f s).skm = s.skm := rfl
@[simp] theorem modMode_zdc (f : ModeSt → ModeSt) (s : State) : (modMode f s).zdc = s.zdc := rfl
@[simp] theorem modMode_dsp (f : ModeSt → ModeSt) (s : State) : (modMode f s).dsp = s.dsp := rfl
@[simp] theorem modMode_trg (f : ModeSt → ModeSt) (s : State) : (modMode f s).trg = s.trg := rfl
@[simp] theorem modMode_dpy (f : ModeSt → ModeSt) (s : State) : (modMode f s).dpy = s.dpy := rfl
@[simp] theorem modMode_dram (f : ModeSt → ModeSt) (s : State) : (modMode f s).dram = s.dram := rfl
@[simp] theorem modMode_spu (f : ModeSt → ModeSt) (s : State) : (modMode f s).spu = s.spu := rfl
@[simp] theorem modMode_pwr (f : ModeSt → ModeSt) (s : State) : (modMode f s).pwr = s.pwr := rfl
@[simp] theorem modMode_link (f : ModeSt → ModeSt) (s : State) : (modMode f s).link = s.link := rfl
@[simp] theorem modMode_hedge (f : ModeSt → ModeSt) (s : State) : (modMode f s).hedge = s.hedge := rfl
@[simp] theorem modMode_mode (f : ModeSt → ModeSt) (s : State) : (modMode f s).mode = f s.mode := rfl
@[simp] theorem modMode_host (f : ModeSt → ModeSt) (s : State) : (modMode f s).host = s.host := rfl
@[simp] theorem modMode_disk (f : ModeSt → ModeSt) (s : State) : (modMode f s).disk = s.disk := rfl
@[simp] theorem modMode_trust (f : ModeSt → ModeSt) (s : State) : (modMode f s).trust = s.trust := rfl
@[simp] theorem modMode_fr (f : ModeSt → ModeSt) (s : State) : (modMode f s).fr = s.fr := rfl
@[simp] theorem modMode_plans (f : ModeSt → ModeSt) (s : State) : (modMode f s).plans = s.plans := rfl
@[simp] theorem modMode_nextPlan (f : ModeSt → ModeSt) (s : State) : (modMode f s).nextPlan = s.nextPlan := rfl
@[simp] theorem modMode_nextOrder (f : ModeSt → ModeSt) (s : State) : (modMode f s).nextOrder = s.nextOrder := rfl

/-! `modHost` changes `host` alone. -/

@[simp] theorem modHost_pending (f : HostSt → HostSt) (s : State) : (modHost f s).pending = s.pending := rfl
@[simp] theorem modHost_out (f : HostSt → HostSt) (s : State) : (modHost f s).out = s.out := rfl
@[simp] theorem modHost_fresh (f : HostSt → HostSt) (s : State) : (modHost f s).fresh = s.fresh := rfl
@[simp] theorem modHost_tim (f : HostSt → HostSt) (s : State) : (modHost f s).tim = s.tim := rfl
@[simp] theorem modHost_adc (f : HostSt → HostSt) (s : State) : (modHost f s).adc = s.adc := rfl
@[simp] theorem modHost_skm (f : HostSt → HostSt) (s : State) : (modHost f s).skm = s.skm := rfl
@[simp] theorem modHost_zdc (f : HostSt → HostSt) (s : State) : (modHost f s).zdc = s.zdc := rfl
@[simp] theorem modHost_dsp (f : HostSt → HostSt) (s : State) : (modHost f s).dsp = s.dsp := rfl
@[simp] theorem modHost_trg (f : HostSt → HostSt) (s : State) : (modHost f s).trg = s.trg := rfl
@[simp] theorem modHost_dpy (f : HostSt → HostSt) (s : State) : (modHost f s).dpy = s.dpy := rfl
@[simp] theorem modHost_dram (f : HostSt → HostSt) (s : State) : (modHost f s).dram = s.dram := rfl
@[simp] theorem modHost_spu (f : HostSt → HostSt) (s : State) : (modHost f s).spu = s.spu := rfl
@[simp] theorem modHost_pwr (f : HostSt → HostSt) (s : State) : (modHost f s).pwr = s.pwr := rfl
@[simp] theorem modHost_link (f : HostSt → HostSt) (s : State) : (modHost f s).link = s.link := rfl
@[simp] theorem modHost_hedge (f : HostSt → HostSt) (s : State) : (modHost f s).hedge = s.hedge := rfl
@[simp] theorem modHost_mode (f : HostSt → HostSt) (s : State) : (modHost f s).mode = s.mode := rfl
@[simp] theorem modHost_host (f : HostSt → HostSt) (s : State) : (modHost f s).host = f s.host := rfl
@[simp] theorem modHost_disk (f : HostSt → HostSt) (s : State) : (modHost f s).disk = s.disk := rfl
@[simp] theorem modHost_trust (f : HostSt → HostSt) (s : State) : (modHost f s).trust = s.trust := rfl
@[simp] theorem modHost_fr (f : HostSt → HostSt) (s : State) : (modHost f s).fr = s.fr := rfl
@[simp] theorem modHost_plans (f : HostSt → HostSt) (s : State) : (modHost f s).plans = s.plans := rfl
@[simp] theorem modHost_nextPlan (f : HostSt → HostSt) (s : State) : (modHost f s).nextPlan = s.nextPlan := rfl
@[simp] theorem modHost_nextOrder (f : HostSt → HostSt) (s : State) : (modHost f s).nextOrder = s.nextOrder := rfl

/-! `modFr` changes `fr` alone. -/

@[simp] theorem modFr_pending (f : Recorder → Recorder) (s : State) : (modFr f s).pending = s.pending := rfl
@[simp] theorem modFr_out (f : Recorder → Recorder) (s : State) : (modFr f s).out = s.out := rfl
@[simp] theorem modFr_fresh (f : Recorder → Recorder) (s : State) : (modFr f s).fresh = s.fresh := rfl
@[simp] theorem modFr_tim (f : Recorder → Recorder) (s : State) : (modFr f s).tim = s.tim := rfl
@[simp] theorem modFr_adc (f : Recorder → Recorder) (s : State) : (modFr f s).adc = s.adc := rfl
@[simp] theorem modFr_skm (f : Recorder → Recorder) (s : State) : (modFr f s).skm = s.skm := rfl
@[simp] theorem modFr_zdc (f : Recorder → Recorder) (s : State) : (modFr f s).zdc = s.zdc := rfl
@[simp] theorem modFr_dsp (f : Recorder → Recorder) (s : State) : (modFr f s).dsp = s.dsp := rfl
@[simp] theorem modFr_trg (f : Recorder → Recorder) (s : State) : (modFr f s).trg = s.trg := rfl
@[simp] theorem modFr_dpy (f : Recorder → Recorder) (s : State) : (modFr f s).dpy = s.dpy := rfl
@[simp] theorem modFr_dram (f : Recorder → Recorder) (s : State) : (modFr f s).dram = s.dram := rfl
@[simp] theorem modFr_spu (f : Recorder → Recorder) (s : State) : (modFr f s).spu = s.spu := rfl
@[simp] theorem modFr_pwr (f : Recorder → Recorder) (s : State) : (modFr f s).pwr = s.pwr := rfl
@[simp] theorem modFr_link (f : Recorder → Recorder) (s : State) : (modFr f s).link = s.link := rfl
@[simp] theorem modFr_hedge (f : Recorder → Recorder) (s : State) : (modFr f s).hedge = s.hedge := rfl
@[simp] theorem modFr_mode (f : Recorder → Recorder) (s : State) : (modFr f s).mode = s.mode := rfl
@[simp] theorem modFr_host (f : Recorder → Recorder) (s : State) : (modFr f s).host = s.host := rfl
@[simp] theorem modFr_disk (f : Recorder → Recorder) (s : State) : (modFr f s).disk = s.disk := rfl
@[simp] theorem modFr_trust (f : Recorder → Recorder) (s : State) : (modFr f s).trust = s.trust := rfl
@[simp] theorem modFr_fr (f : Recorder → Recorder) (s : State) : (modFr f s).fr = f s.fr := rfl
@[simp] theorem modFr_plans (f : Recorder → Recorder) (s : State) : (modFr f s).plans = s.plans := rfl
@[simp] theorem modFr_nextPlan (f : Recorder → Recorder) (s : State) : (modFr f s).nextPlan = s.nextPlan := rfl
@[simp] theorem modFr_nextOrder (f : Recorder → Recorder) (s : State) : (modFr f s).nextOrder = s.nextOrder := rfl

/-! `modSpu` changes `spu` alone. -/

@[simp] theorem modSpu_pending (f : Spu → Spu) (s : State) : (modSpu f s).pending = s.pending := rfl
@[simp] theorem modSpu_out (f : Spu → Spu) (s : State) : (modSpu f s).out = s.out := rfl
@[simp] theorem modSpu_fresh (f : Spu → Spu) (s : State) : (modSpu f s).fresh = s.fresh := rfl
@[simp] theorem modSpu_tim (f : Spu → Spu) (s : State) : (modSpu f s).tim = s.tim := rfl
@[simp] theorem modSpu_adc (f : Spu → Spu) (s : State) : (modSpu f s).adc = s.adc := rfl
@[simp] theorem modSpu_skm (f : Spu → Spu) (s : State) : (modSpu f s).skm = s.skm := rfl
@[simp] theorem modSpu_zdc (f : Spu → Spu) (s : State) : (modSpu f s).zdc = s.zdc := rfl
@[simp] theorem modSpu_dsp (f : Spu → Spu) (s : State) : (modSpu f s).dsp = s.dsp := rfl
@[simp] theorem modSpu_trg (f : Spu → Spu) (s : State) : (modSpu f s).trg = s.trg := rfl
@[simp] theorem modSpu_dpy (f : Spu → Spu) (s : State) : (modSpu f s).dpy = s.dpy := rfl
@[simp] theorem modSpu_dram (f : Spu → Spu) (s : State) : (modSpu f s).dram = s.dram := rfl
@[simp] theorem modSpu_spu (f : Spu → Spu) (s : State) : (modSpu f s).spu = f s.spu := rfl
@[simp] theorem modSpu_pwr (f : Spu → Spu) (s : State) : (modSpu f s).pwr = s.pwr := rfl
@[simp] theorem modSpu_link (f : Spu → Spu) (s : State) : (modSpu f s).link = s.link := rfl
@[simp] theorem modSpu_hedge (f : Spu → Spu) (s : State) : (modSpu f s).hedge = s.hedge := rfl
@[simp] theorem modSpu_mode (f : Spu → Spu) (s : State) : (modSpu f s).mode = s.mode := rfl
@[simp] theorem modSpu_host (f : Spu → Spu) (s : State) : (modSpu f s).host = s.host := rfl
@[simp] theorem modSpu_disk (f : Spu → Spu) (s : State) : (modSpu f s).disk = s.disk := rfl
@[simp] theorem modSpu_trust (f : Spu → Spu) (s : State) : (modSpu f s).trust = s.trust := rfl
@[simp] theorem modSpu_fr (f : Spu → Spu) (s : State) : (modSpu f s).fr = s.fr := rfl
@[simp] theorem modSpu_plans (f : Spu → Spu) (s : State) : (modSpu f s).plans = s.plans := rfl
@[simp] theorem modSpu_nextPlan (f : Spu → Spu) (s : State) : (modSpu f s).nextPlan = s.nextPlan := rfl
@[simp] theorem modSpu_nextOrder (f : Spu → Spu) (s : State) : (modSpu f s).nextOrder = s.nextOrder := rfl

/-! `modTim` changes `tim` alone. -/

@[simp] theorem modTim_pending (f : Tim → Tim) (s : State) : (modTim f s).pending = s.pending := rfl
@[simp] theorem modTim_out (f : Tim → Tim) (s : State) : (modTim f s).out = s.out := rfl
@[simp] theorem modTim_fresh (f : Tim → Tim) (s : State) : (modTim f s).fresh = s.fresh := rfl
@[simp] theorem modTim_tim (f : Tim → Tim) (s : State) : (modTim f s).tim = f s.tim := rfl
@[simp] theorem modTim_adc (f : Tim → Tim) (s : State) : (modTim f s).adc = s.adc := rfl
@[simp] theorem modTim_skm (f : Tim → Tim) (s : State) : (modTim f s).skm = s.skm := rfl
@[simp] theorem modTim_zdc (f : Tim → Tim) (s : State) : (modTim f s).zdc = s.zdc := rfl
@[simp] theorem modTim_dsp (f : Tim → Tim) (s : State) : (modTim f s).dsp = s.dsp := rfl
@[simp] theorem modTim_trg (f : Tim → Tim) (s : State) : (modTim f s).trg = s.trg := rfl
@[simp] theorem modTim_dpy (f : Tim → Tim) (s : State) : (modTim f s).dpy = s.dpy := rfl
@[simp] theorem modTim_dram (f : Tim → Tim) (s : State) : (modTim f s).dram = s.dram := rfl
@[simp] theorem modTim_spu (f : Tim → Tim) (s : State) : (modTim f s).spu = s.spu := rfl
@[simp] theorem modTim_pwr (f : Tim → Tim) (s : State) : (modTim f s).pwr = s.pwr := rfl
@[simp] theorem modTim_link (f : Tim → Tim) (s : State) : (modTim f s).link = s.link := rfl
@[simp] theorem modTim_hedge (f : Tim → Tim) (s : State) : (modTim f s).hedge = s.hedge := rfl
@[simp] theorem modTim_mode (f : Tim → Tim) (s : State) : (modTim f s).mode = s.mode := rfl
@[simp] theorem modTim_host (f : Tim → Tim) (s : State) : (modTim f s).host = s.host := rfl
@[simp] theorem modTim_disk (f : Tim → Tim) (s : State) : (modTim f s).disk = s.disk := rfl
@[simp] theorem modTim_trust (f : Tim → Tim) (s : State) : (modTim f s).trust = s.trust := rfl
@[simp] theorem modTim_fr (f : Tim → Tim) (s : State) : (modTim f s).fr = s.fr := rfl
@[simp] theorem modTim_plans (f : Tim → Tim) (s : State) : (modTim f s).plans = s.plans := rfl
@[simp] theorem modTim_nextPlan (f : Tim → Tim) (s : State) : (modTim f s).nextPlan = s.nextPlan := rfl
@[simp] theorem modTim_nextOrder (f : Tim → Tim) (s : State) : (modTim f s).nextOrder = s.nextOrder := rfl

/-! `modDsp` changes `dsp` alone. -/

@[simp] theorem modDsp_pending (f : Dsp → Dsp) (s : State) : (modDsp f s).pending = s.pending := rfl
@[simp] theorem modDsp_out (f : Dsp → Dsp) (s : State) : (modDsp f s).out = s.out := rfl
@[simp] theorem modDsp_fresh (f : Dsp → Dsp) (s : State) : (modDsp f s).fresh = s.fresh := rfl
@[simp] theorem modDsp_tim (f : Dsp → Dsp) (s : State) : (modDsp f s).tim = s.tim := rfl
@[simp] theorem modDsp_adc (f : Dsp → Dsp) (s : State) : (modDsp f s).adc = s.adc := rfl
@[simp] theorem modDsp_skm (f : Dsp → Dsp) (s : State) : (modDsp f s).skm = s.skm := rfl
@[simp] theorem modDsp_zdc (f : Dsp → Dsp) (s : State) : (modDsp f s).zdc = s.zdc := rfl
@[simp] theorem modDsp_dsp (f : Dsp → Dsp) (s : State) : (modDsp f s).dsp = f s.dsp := rfl
@[simp] theorem modDsp_trg (f : Dsp → Dsp) (s : State) : (modDsp f s).trg = s.trg := rfl
@[simp] theorem modDsp_dpy (f : Dsp → Dsp) (s : State) : (modDsp f s).dpy = s.dpy := rfl
@[simp] theorem modDsp_dram (f : Dsp → Dsp) (s : State) : (modDsp f s).dram = s.dram := rfl
@[simp] theorem modDsp_spu (f : Dsp → Dsp) (s : State) : (modDsp f s).spu = s.spu := rfl
@[simp] theorem modDsp_pwr (f : Dsp → Dsp) (s : State) : (modDsp f s).pwr = s.pwr := rfl
@[simp] theorem modDsp_link (f : Dsp → Dsp) (s : State) : (modDsp f s).link = s.link := rfl
@[simp] theorem modDsp_hedge (f : Dsp → Dsp) (s : State) : (modDsp f s).hedge = s.hedge := rfl
@[simp] theorem modDsp_mode (f : Dsp → Dsp) (s : State) : (modDsp f s).mode = s.mode := rfl
@[simp] theorem modDsp_host (f : Dsp → Dsp) (s : State) : (modDsp f s).host = s.host := rfl
@[simp] theorem modDsp_disk (f : Dsp → Dsp) (s : State) : (modDsp f s).disk = s.disk := rfl
@[simp] theorem modDsp_trust (f : Dsp → Dsp) (s : State) : (modDsp f s).trust = s.trust := rfl
@[simp] theorem modDsp_fr (f : Dsp → Dsp) (s : State) : (modDsp f s).fr = s.fr := rfl
@[simp] theorem modDsp_plans (f : Dsp → Dsp) (s : State) : (modDsp f s).plans = s.plans := rfl
@[simp] theorem modDsp_nextPlan (f : Dsp → Dsp) (s : State) : (modDsp f s).nextPlan = s.nextPlan := rfl
@[simp] theorem modDsp_nextOrder (f : Dsp → Dsp) (s : State) : (modDsp f s).nextOrder = s.nextOrder := rfl

/-! Reading a part by its number. -/

theorem nth_modNth {α : Type} (l : List α) (i k : Nat) (f : α → α) (d : α) :
    nth (modNth l i f) k d = if k = i ∧ i < l.length then f (nth l k d) else nth l k d := by
  unfold nth modNth
  rw [List.getD_eq_getElem?_getD, List.getD_eq_getElem?_getD, List.getElem?_modify]
  by_cases h : i = k
  · subst h
    by_cases g : i < l.length
    · simp [g]
    · simp [g]
  · simp [h, Ne.symm h]

/-- A part with a number in range is as the update leaves it. -/
theorem getPair_modPair_same {n : Nat} {f : Pair → Pair} {s : State} (h : n < s.adc.pairs.length) : getPair n (modPair n f s) = f (getPair n s) :=
  (nth_modNth _ n n f _).trans (if_pos ⟨rfl, h⟩)

/-- Every other part is as it was. -/
theorem getPair_modPair_ne {n k : Nat} {f : Pair → Pair} {s : State} (h : k ≠ n) : getPair k (modPair n f s) = getPair k s :=
  (nth_modNth _ n k f _).trans (if_neg fun e => h e.1)

/-- A part with a number in range is as the update leaves it. -/
theorem getSkim_modSkim_same {n : Nat} {f : Skim → Skim} {s : State} (h : n < s.skm.pairs.length) : getSkim n (modSkim n f s) = f (getSkim n s) :=
  (nth_modNth _ n n f _).trans (if_pos ⟨rfl, h⟩)

/-- Every other part is as it was. -/
theorem getSkim_modSkim_ne {n k : Nat} {f : Skim → Skim} {s : State} (h : k ≠ n) : getSkim k (modSkim n f s) = getSkim k s :=
  (nth_modNth _ n k f _).trans (if_neg fun e => h e.1)

/-- A part with a number in range is as the update leaves it. -/
theorem getFront_modFront_same {n : Nat} {f : Front → Front} {s : State} (h : n < s.zdc.fronts.length) : getFront n (modFront n f s) = f (getFront n s) :=
  (nth_modNth _ n n f _).trans (if_pos ⟨rfl, h⟩)

/-- Every other part is as it was. -/
theorem getFront_modFront_ne {n k : Nat} {f : Front → Front} {s : State} (h : k ≠ n) : getFront k (modFront n f s) = getFront k s :=
  (nth_modNth _ n k f _).trans (if_neg fun e => h e.1)

/-- A part with a number in range is as the update leaves it. -/
theorem getSlot_modSlot_same {n : Nat} {f : Slot → Slot} {s : State} (h : n < s.zdc.slots.length) : getSlot n (modSlot n f s) = f (getSlot n s) :=
  (nth_modNth _ n n f _).trans (if_pos ⟨rfl, h⟩)

/-- Every other part is as it was. -/
theorem getSlot_modSlot_ne {n k : Nat} {f : Slot → Slot} {s : State} (h : k ≠ n) : getSlot k (modSlot n f s) = getSlot k s :=
  (nth_modNth _ n k f _).trans (if_neg fun e => h e.1)

/-- A part with a number in range is as the update leaves it. -/
theorem getUnit_modUnit_same {n : Nat} {f : TUnit → TUnit} {s : State} (h : n < s.trg.units.length) : getUnit n (modUnit n f s) = f (getUnit n s) :=
  (nth_modNth _ n n f _).trans (if_pos ⟨rfl, h⟩)

/-- Every other part is as it was. -/
theorem getUnit_modUnit_ne {n k : Nat} {f : TUnit → TUnit} {s : State} (h : k ≠ n) : getUnit k (modUnit n f s) = getUnit k s :=
  (nth_modNth _ n k f _).trans (if_neg fun e => h e.1)

/-- A part with a number in range is as the update leaves it. -/
theorem getOut_modOut_same {n : Nat} {f : DOut → DOut} {s : State} (h : n < s.dpy.outs.length) : getOut n (modOut n f s) = f (getOut n s) :=
  (nth_modNth _ n n f _).trans (if_pos ⟨rfl, h⟩)

/-- Every other part is as it was. -/
theorem getOut_modOut_ne {n k : Nat} {f : DOut → DOut} {s : State} (h : k ≠ n) : getOut k (modOut n f s) = getOut k s :=
  (nth_modNth _ n k f _).trans (if_neg fun e => h e.1)

/-- A part with a number in range is as the update leaves it. -/
theorem getChan_modChan_same {n : Nat} {f : Chan → Chan} {s : State} (h : n < s.dram.chans.length) : getChan n (modChan n f s) = f (getChan n s) :=
  (nth_modNth _ n n f _).trans (if_pos ⟨rfl, h⟩)

/-- Every other part is as it was. -/
theorem getChan_modChan_ne {n k : Nat} {f : Chan → Chan} {s : State} (h : k ≠ n) : getChan k (modChan n f s) = getChan k s :=
  (nth_modNth _ n k f _).trans (if_neg fun e => h e.1)

/-- A part with a number in range is as the update leaves it. -/
theorem getLsu_modLsu_same {n : Nat} {f : Lsu → Lsu} {s : State} (h : n < s.spu.lsus.length) : getLsu n (modLsu n f s) = f (getLsu n s) :=
  (nth_modNth _ n n f _).trans (if_pos ⟨rfl, h⟩)

/-- Every other part is as it was. -/
theorem getLsu_modLsu_ne {n k : Nat} {f : Lsu → Lsu} {s : State} (h : k ≠ n) : getLsu k (modLsu n f s) = getLsu k s :=
  (nth_modNth _ n k f _).trans (if_neg fun e => h e.1)

/-- A part with a number in range is as the update leaves it. -/
theorem getPort_modPort_same {n : Nat} {f : Port → Port} {s : State} (h : n < s.link.ports.length) : getPort n (modPort n f s) = f (getPort n s) :=
  (nth_modNth _ n n f _).trans (if_pos ⟨rfl, h⟩)

/-- Every other part is as it was. -/
theorem getPort_modPort_ne {n k : Nat} {f : Port → Port} {s : State} (h : k ≠ n) : getPort k (modPort n f s) = getPort k s :=
  (nth_modNth _ n k f _).trans (if_neg fun e => h e.1)

/-- A part with a number in range is as the update leaves it. -/
theorem getLane_modLane_same {n : Nat} {f : Lane → Lane} {s : State} (h : n < s.link.lanes.length) : getLane n (modLane n f s) = f (getLane n s) :=
  (nth_modNth _ n n f _).trans (if_pos ⟨rfl, h⟩)

/-- Every other part is as it was. -/
theorem getLane_modLane_ne {n k : Nat} {f : Lane → Lane} {s : State} (h : k ≠ n) : getLane k (modLane n f s) = getLane k s :=
  (nth_modNth _ n k f _).trans (if_neg fun e => h e.1)

/-- A part with a number in range is as the update leaves it. -/
theorem getTdc_modTdc_same {n : Nat} {f : TdcCh → TdcCh} {s : State} (h : n < s.tim.chans.length) : getTdc n (modTdc n f s) = f (getTdc n s) :=
  (nth_modNth _ n n f _).trans (if_pos ⟨rfl, h⟩)

/-- Every other part is as it was. -/
theorem getTdc_modTdc_ne {n k : Nat} {f : TdcCh → TdcCh} {s : State} (h : k ≠ n) : getTdc k (modTdc n f s) = getTdc k s :=
  (nth_modNth _ n k f _).trans (if_neg fun e => h e.1)

/-! Reading a part by what it holds. -/

theorem find?_mapIf {α : Type} (p q : α → Bool) (f : α → α) (l : List α) (hp : ∀ x, p (f x) = p x) :
    (mapIf q f l).find? p = (l.find? p).map fun x => if q x then f x else x := by
  unfold mapIf
  induction l with
  | nil => rfl
  | cons x l ih =>
    rw [List.map_cons, List.find?_cons, List.find?_cons, ih]
    have e : p (if q x then f x else x) = p x := by
      split
      · exact hp x
      · rfl
    rw [e]
    cases p x <;> rfl

/-- Ctx `k` after Ctx `n` was changed and kept its number. -/
theorem getCtx_modCtx {n k : Nat} {f : Ctx → Ctx} {s : State} (h : ∀ x : Ctx, (f x).num = x.num) :
    getCtx k (modCtx n f s) = (getCtx k s).map fun x => if x.num = n then f x else x :=
  (find?_mapIf _ _ f _ fun x => by simp only [h]).trans (congrArg (fun g => Option.map g _) (funext fun x => by simp only [decide_eq_true_eq]))

/-- Stream `k` after Stream `n` was changed and kept its number. -/
theorem getStream_modStream {n k : Nat} {f : Stream → Stream} {s : State} (h : ∀ x : Stream, (f x).id = x.id) :
    getStream k (modStream n f s) = (getStream k s).map fun x => if x.id = n then f x else x :=
  (find?_mapIf _ _ f _ fun x => by simp only [h]).trans (congrArg (fun g => Option.map g _) (funext fun x => by simp only [decide_eq_true_eq]))

/-- CapRing `k` after CapRing `n` was changed and kept its number. -/
theorem getCap_modCap {n k : Nat} {f : CapRing → CapRing} {s : State} (h : ∀ x : CapRing, (f x).r = x.r) :
    getCap k (modCap n f s) = (getCap k s).map fun x => if x.r = n then f x else x :=
  (find?_mapIf _ _ f _ fun x => by simp only [h]).trans (congrArg (fun g => Option.map g _) (funext fun x => by simp only [decide_eq_true_eq]))

/-- Export `k` after Export `n` was changed and kept its number. -/
theorem getExport_modExport {n k : Nat} {f : Export → Export} {s : State} (h : ∀ x : Export, (f x).slot = x.slot) :
    getExport k (modExport n f s) = (getExport k s).map fun x => if x.slot = n then f x else x :=
  (find?_mapIf _ _ f _ fun x => by simp only [h]).trans (congrArg (fun g => Option.map g _) (funext fun x => by simp only [decide_eq_true_eq]))

/-- Binding `k` after Binding `n` was changed and kept its number. -/
theorem getBinding_modBinding {n k : Nat} {f : Binding → Binding} {s : State} (h : ∀ x : Binding, (f x).slot = x.slot) :
    getBinding k (modBinding n f s) = (getBinding k s).map fun x => if x.slot = n then f x else x :=
  (find?_mapIf _ _ f _ fun x => by simp only [h]).trans (congrArg (fun g => Option.map g _) (funext fun x => by simp only [decide_eq_true_eq]))

/-- Kernel `k` after Kernel `n` was changed and kept its number. -/
theorem getKernel_modKernel {n k : Nat} {f : Kernel → Kernel} {s : State} (h : ∀ x : Kernel, (f x).id = x.id) :
    getKernel k (modKernel n f s) = (getKernel k s).map fun x => if x.id = n then f x else x :=
  (find?_mapIf _ _ f _ fun x => by simp only [h]).trans (congrArg (fun g => Option.map g _) (funext fun x => by simp only [decide_eq_true_eq]))

/-- Plan `k` after Plan `n` was changed and kept its number. -/
theorem getPlan_modPlan {n k : Nat} {f : Plan → Plan} {s : State} (h : ∀ x : Plan, (f x).id = x.id) :
    getPlan k (modPlan n f s) = (getPlan k s).map fun x => if x.id = n then f x else x :=
  (find?_mapIf _ _ f _ fun x => by simp only [h]).trans (congrArg (fun g => Option.map g _) (funext fun x => by simp only [decide_eq_true_eq]))

end Sys2Proof.Machine
end

