-- ==== Sys2Proof/WellFormed.lean ====
section
/-!
DEFINITION. Well-formed commands: the operand values that can reach the block. A command outside these ranges is no command of the
table; the meanings are total and answer for it all the same.
-/

namespace Sys2Proof

/-- A BAR that the register commands reach: BAR0 or BAR2 (R367). -/
def barOk (bar : BitVec 2) : Bool := decide (bar = 0) || decide (bar = 2)

/-- A doorbell page of a function: any on PF0, 0-15 on a VF (R367). -/
def pageOk (fn : BitVec 7) (page : BitVec 10) : Bool := decide (fn.toNat % 64 = 0) || decide (page.toNat < 16)

/-- A channel of capture memory (R442). -/
def chanOk (ch : BitVec 4) : Bool := decide (ch.toNat < 12)

/-- What a Primer stage finds has the shape that its sources have (R126, R473, R492). -/
def workOk (w : PrimerWork) : Bool :=
  match w with
  | .fuses f => decide (f.skim.length = 4) && f.skim.all fun k => decide (k.factory.length = 34)
  | .firmware slots policy => decide (slots.length = 2) && decide (policy.length = 3)
  | .microcode _ _ => true
  | .board copies _ _ => decide (copies.length = 3) && copies.all fun c => c.all fun t => decide (t.steps.length = 4) && decide (t.eq.length = 96)
  | .memory _ _ _ => true
  | .calibration sets trims _ =>
    decide (sets.length = 4) && sets.all (fun p => decide (p.length = 16) && p.all fun c => decide (c.length = 34)) && decide (trims.length = 4)

/-- Well-formed commands. -/
def Instr.wf (i : Instr) : Bool :=
  match i with
  | .hstDbCmd fn page _ => pageOk fn page
  | .hstDbCpl fn page _ => pageOk fn page
  | .hstDbEvt fn page _ => pageOk fn page
  | .hstDbData fn page _ _ => pageOk fn page
  | .rcRead _ bar _ _ => barOk bar
  | .registerWrite _ bar _ _ _ => barOk bar
  | .barAccessInvalid _ bar _ _ _ => barOk bar
  | .bar4Access _ _ n data _ => decide (n.toNat ≤ 4096) && data.all fun d => decide (d.length = n.toNat)
  | .msixUnmask fn vec => decide (fn.toNat % 64 = 0) || decide (vec.toNat < 64)
  | .ppsInEdge _ sub _ _ => decide (sub < 81920)
  | .tdcEdge _ _ sub _ _ => decide (sub < 81920)
  | .sampleWord _ vals _ _ _ => decide (vals.length = 8)
  | .amcUrgentRequest _ _ trim => decide (trim.toNat < 16)
  | .skimSolve _ cand _ => decide (cand.length = 34)
  | .foregroundEnd _ sets trims => decide (sets.length = 16) && sets.all (fun c => decide (c.length = 34)) && decide (trims.length = 4)
  | .linkTraining _ rate width _ lanes => decide (1 ≤ rate.toNat) && decide (rate.toNat ≤ 5) && [4, 8, 16].contains width.toNat && decide (lanes.length = width.toNat)
  | .l1Entry _ sub => decide (sub.toNat ≤ 2)
  | .patchScrub found => found.all fun f => decide (f.1.toNat ≤ 16)
  | .romScan unit _ => decide (unit.toNat ≤ 16)
  | .refreshDue ch _ _ _ => chanOk ch
  | .refreshIdlePullin ch _ => chanOk ch
  | .mr4Result ch _ _ => chanOk ch
  | .patrolScrub _ found => match found with | .symbol n => decide (n < 68) | _ => true
  | .wckTracking ch _ _ _ _ => chanOk ch
  | .commandParityError ch _ => chanOk ch
  | .neighbourRefresh ch _ _ _ => chanOk ch
  | .ageingMeasure shifts _ => decide (shifts.length = 16)
  | .primerStageEnd w => workOk w
  | .noop _ | .badOpcode _ _ | .fence _ | .timeWait _ | .timeWaitRelease | .modeSet _ | .modeChangeDrain | .modeChangeFlush
  | .modeChangeRepartition | .modeChangeRecheck | .modeChanged | .contextCreate _ | .contextDestroy _ | .contextTeardownComplete _
  | .ringCreate _ | .ringDestroy _ | .planCreate _ _ | .planStart _ _ | .planFirstWord _ | .planStop _ | .planStopComplete _
  | .planDestroy _ | .windowLoadTable _ _ | .windowLoadDrop _ | .windowLoadReconfigure _ | .transformSwitch _ _ | .maskLoad _ _
  | .maskDrop _ | .triggerArm _ | .triggerDisarm _ | .captureReadSegments _ | .captureReadWords _ | .captureRelease _ | .spuLoad _ _
  | .spuLaunch _ _ | .spuSignal _ | .spuStop _ | .spuStopTakesEffect _ | .streamOpenRing _ | .streamOpenDisk _ | .streamClose _
  | .diskBind _ _ | .diskUnbind _ | .diskActivate _ _ _ _ | .displayOutput _ _ | .displayLayer _ | .displayLutLoad _ _ | .panelCmd _ _
  | .layerOff _ | .outputOff _ | .displayFlip _ | .tdcEnable _ | .tdcRelease _ | .tdcGateInterval _ _ | .tdcGateFrequency _ _
  | .calSetMode _ | .calManualLoad _ _ | .calFence _ | .calRampLength _ | .runForeground _ | .tableReset _ | .setTimeNextPps _
  | .setTimeImmediate _ | .setTimePpsTimeout | .powerHintCap _ | .powerHintNextEvent _ | .powerHintUncap _ | .flightRead _
  | .replayLoadHost _ _ | .replayLoadFlight _ | .replayUnload _ | .attestBind _ | .selftest _ | .clearRetirement _ | .laneTestEnter _
  | .laneTestExit _ | .dramTest _ | .attach _ _ | .detach _ _ | .atten _ _ | .faultClear _ _ | .mpReset _ _ | .hedgeReqWarmRestart _ _
  | .csuRestart _ _ | .csuCfgWrite _ _ | .amcClr _ _ | .amcCfgWrite _ _ | .ucsInject _ _ | .esStart _ _ | .esAbort _ _ | .injGo _ _ _
  | .prbsClear _ _ _ | .splitReadLow _ _ | .splitWriteLow _ _ _ | .ppsLost | .ppsOutRise | .ppsOutFall | .timeAnchor _ | .tdcWrap
  | .tdcStampsClose _ _ | .tdcCalibration _ _ _ _ _ | .gateEdge _ _ _ | .gateOpen _ | .gateClose _ | .gateMaxDuration _ | .refclkLost
  | .refclkRestored _ | .sclkLost | .sclkRestored _ | .spllRelock _ | .heartbeatWrite | .csuWindowEnd | .amcSlotComplete _
  | .skimBlock _ _ _ | .skimFenceEnd _ | .skimFenceExpired _ | .zoomHop _ _ | .zoomRetune _ _ | .zoomWord _ | .spectrumFormed _ _
  | .intDrainEnd _ | .triggerEventRelease _ | .autoForce _ | .captureSegmentClose _ _ | .captureRearm _ _ | .missedTriggerDelivery _
  | .trigoutRise | .trigoutFall | .latchPoint _ | .teEdge _ _ _ _ | .displayTeTimeout _ | .selfTimedTransfer _ | .bufferReleased _
  | .panelTimeout _ | .interruptModTimer _ _ | .descriptorFetchError _ | .functionLevelReset _ | .busMasterEnableClear _
  | .vfEnableClear _ | .linkDown _ | .hotReset _ | .perst _ _ | .pcieRefclkLoss _ | .l0sEntry _ | .marginingCommand _ _
  | .eyeScanDone _ | .eyeScanTimeout _ _ | .ideIntegrityFail _ _ | .getVersion _ | .getCapabilities _ | .negotiateAlgorithms _ _
  | .getDigests _ | .getCertificate _ _ _ _ | .challenge _ _ _ | .getMeasurements _ _ _ _ | .keyExchange _ _ _ | .finish _ _ _
  | .heartbeat _ _ | .keyUpdate _ _ _ | .endSession _ _ | .ideKm _ _ _ _ | .debugUnlockToken _ _ _ _ | .interruptTaken _
  | .longChunkEnd _ | .spuDmaComplete _ _ | .tapItem _ | .spuTimer _ | .emitReadout _ | .machineCheck _ _ | .patchReloadDone _ _ _
  | .spareTakeover _ _ | .nop _ _ | .halt _ _ | .reti _ _ | .waiti _ _ | .rep _ _ | .repa _ _ | .loopr _ _ | .br _ _ | .bc _ _
  | .bp _ _ | .call _ _ | .jr _ _ | .vld _ _ | .vst _ _ | .ldw _ _ | .stw _ _ | .aupd _ _ | .amovi _ _ | .aaddi _ _ | .aadd _ _
  | .asub _ _ | .aand _ _ | .aor _ _ | .axor _ _ | .ashl _ _ | .ashr _ _ | .asra _ _ | .amul _ _ | .mtm _ _ | .mfm _ _ | .pset _ _
  | .pand _ _ | .por _ _ | .pxor _ _ | .pnot _ _ | .pfroma _ _ | .ptoa _ _ | .vadd _ _ | .vsub _ _ | .vneg _ _ | .vabs _ _ | .vmin _ _
  | .vmax _ _ | .vand _ _ | .vor _ _ | .vxor _ _ | .vnot _ _ | .vshl _ _ | .vshr _ _ | .vasr _ _ | .vlsr _ _ | .vcmp _ _ | .vmov _ _
  | .vsplat _ _ | .vext _ _ | .vins _ _ | .vperm _ _ | .vconj _ _ | .vnarrow _ _ | .vwiden _ _ | .vcvt _ _ | .vmul _ _ | .vmulq _ _
  | .vcmulq _ _ | .vfma _ _ | .vmac _ _ | .vmsu _ _ | .vmpy _ _ | .vcmacj _ _ | .accx _ _ | .acclr _ _ | .mfc _ _ | .mtc _ _
  | .mfs _ _ | .mts _ _ | .mfb _ _ | .mtb _ _ | .dmaq _ _ | .trigp _ _ | .tune _ _ | .emit _ _ | .vpeaks _ _ | .vmaxidx _ _
  | .vminidx _ _ | .vsortk _ _ | .vlog2 _ _ | .crc32c _ _ | .vsk _ _ | .histo _ _ | .rcopy _ _ | .rfill _ _ | .extentTimeout _
  | .nvmeCompletion _ _ _ _ | .nvmeTimeout _ | .mr4Poll | .rfTrip _ _ | .rfHoldExpiry _ | .thermalThrottle _ _ | .throttleClear _ _
  | .thermalTrip _ _ | .supplyFault _ _ | .supplyRecovered | .watchdogMiss | .powerStateEntryDone | .powerStateExitStart
  | .powerStateExitDone | .dutyWindowEnd _ | .dutyWindowStart _ | .thermalStep | .thermalStepUndo | .availabilitySave | .coldStart _ _
  | .resetNRelease _ | .resetNAssert | .warmRestart | .alwaysOnRailLoss | .spuIslandReset | .displayIslandReset | .hostIslandReset
  | .replayWord | .replayEnd | .configurationRequest _ | .panelReadResponse _ _ | .electricalIdleExit _ | .rxL0sEntry _
  | .prbsCheckerLock _ | .prbsCheckerLockLost _ _ | .pcieRefclkRestored _ | .mainRailsInWindow | .refOkChange _ | .mpRestartComplete
  | .jtagInstruction _ => true

end Sys2Proof
end

