-- ==== Sys2Proof/Tests/Slice0.lean ====
section
/-!
SUPPORT. Tests: an ill-formed command for each check of WellFormed, a few values that the spec states, and for every statement with hypotheses
states and operands that meet them (theorems named witness_, one per statement or per group of its clauses).
-/

namespace Sys2Proof.Tests

open Sys2Proof Sys2Proof.Machine

set_option Elab.async false

/-! ### Well-formed commands -/

theorem test_wf_bar : Instr.wf (.rcRead 0 0 0 4) = true ∧ Instr.wf (.rcRead 0 1 0 4) = false := by decide
theorem test_wf_page : Instr.wf (.hstDbCmd 64 16 0) = true ∧ Instr.wf (.hstDbCmd 65 16 0) = false := by decide
theorem test_wf_chan : Instr.wf (.commandParityError 11 false) = true ∧ Instr.wf (.commandParityError 12 false) = false := by decide
theorem test_wf_work : Instr.wf (.primerStageEnd (.firmware [none, none] [])) = false := by decide
theorem test_wf_bytes : Instr.wf (.bar4Access 0 0 2 (some [1, 2]) false) = true ∧ Instr.wf (.bar4Access 0 0 2 (some [1]) false) = false := by decide
theorem test_wf_vector : Instr.wf (.msixUnmask 1 63) = true ∧ Instr.wf (.msixUnmask 1 64) = false := by decide
theorem test_wf_sub : Instr.wf (.ppsInEdge 0 81919 true 0) = true ∧ Instr.wf (.ppsInEdge 0 81920 true 0) = false
    ∧ Instr.wf (.tdcEdge 1 0 81920 true 0) = false := by decide
theorem test_wf_lengths : Instr.wf (.sampleWord 0 [1] 0 false false) = false ∧ Instr.wf (.skimSolve 0 [1] true) = false
    ∧ Instr.wf (.foregroundEnd 0 [] []) = false ∧ Instr.wf (.ageingMeasure [1] 0) = false := by decide
theorem test_wf_ranges : Instr.wf (.amcUrgentRequest true 30 16) = false ∧ Instr.wf (.linkTraining 0 6 16 0 []) = false
    ∧ Instr.wf (.l1Entry 0 3) = false ∧ Instr.wf (.patchScrub [(17, 0, 0)]) = false ∧ Instr.wf (.romScan 17 none) = false
    ∧ Instr.wf (.patrolScrub 0 (.symbol 68)) = false := by decide

/-! ### SPU instructions -/

/-- The block with an instance of kernel 1 on unit 0. -/
def unitOf (f : Lsu → Lsu) : State := modLsu 0 (fun l => f { l with kernel := 1, state := 1 }) State.reset

/-- The same, in MAINTENANCE. -/
def unitInTest (f : Lsu → Lsu) : State := { unitOf f with mode := { State.reset.mode with mode := 12 } }

/-- The same, every a register holding a value. -/
def unitWith (a : BitVec 32) : State := unitOf fun l => { l with b0 := { l.b0 with a := List.replicate 16 a } }

/-- `Issues`, as a test. -/
def mayIssueNow (i : Instr) (s : State) : Bool :=
  match spuRow i with
  | none => false
  | some r => (getLsu r.1.toNat s).mayIssue && !(getLsu r.1.toNat s).waiting && r.2.2.2.ok r.2.1 && (getLsu r.1.toNat s).inBody r.2.2.1

theorem issues_of_now {i : Instr} {s : State} (h : mayIssueNow i s = true) : Issues i s := by
  unfold mayIssueNow at h
  split at h
  · cases h
  · rename_i r e
    simp only [Bool.and_eq_true, Bool.not_eq_true'] at h
    exact ⟨r, e, h.1.1.1, h.1.1.2, h.1.2, h.2⟩

/-- A word of TYPE t. -/
def typed (t : Nat) : BitVec 56 := BitVec.ofNat 56 (t * 2 ^ 48)

theorem witness_ScalarAndPredicateResults : ∀ i ∈ [Instr.aaddi 0 0, .aadd 0 0, .asub 0 0, .ashl 0 0, .amul 0 0, .amovi 0 0, .aand 0 0, .aor 0 0,
    .axor 0 0, .ashr 0 0, .asra 0 0, .mtm 0 0, .mfm 0 0, .pset 0 0, .pand 0 0, .por 0 0, .pxor 0 0, .pnot 0 0, .pfroma 0 0, .ptoa 0 0],
    mayIssueNow i (unitOf id) = true := by decide

/-- The control instructions issue; a body of one NOP is one that R293 allows. -/
theorem witness_ControlInstructions : (∀ i ∈ [Instr.nop 0 0, .halt 0 0xFFFF, .waiti 0 0, .rep 0 0, .rep 0 4096, .repa 0 0, .br 0 8, .bc 0 0, .bc 0 0x500000000,
    .bp 0 0, .call 0 0x3FFF8, .jr 0 0], mayIssueNow i (unitOf id) = true)
    ∧ mayIssueNow (.reti 0 0) (unitOf fun l => { l with inB1 := true }) = true
    ∧ (∀ i ∈ [Instr.loopr 0 0, .loopr 0 0x1000000], mayIssueNow i (unitInTest id) = true) ∧ effMode (unitInTest id) = 12
    ∧ (getLsu 0 (unitOf id)).follows 1 = [0] ∧ (getLsu 0 (unitOf id)).repOk 4096 1 ∧ (getLsu 0 (unitOf id)).repOk 0 1
    ∧ mayIssueNow (.repa 0 0) (unitWith 4096) = true
    ∧ (getLsu 0 (unitWith 4096)).repOk 4096 1 := by
  refine ⟨by decide, by decide, by decide, by decide, by decide, ⟨by decide, by decide⟩, ⟨by decide, by decide⟩, by decide, ⟨by decide, by decide⟩⟩

theorem witness_MemoryInstructions : (∀ i ∈ [Instr.vld 0 0, .vst 0 0, .ldw 0 0, .stw 0 0, .aupd 0 0], mayIssueNow i (unitOf id) = true)
    ∧ addrUpdate ((getLsu 0 (unitOf id)).ar 0) 0 0 = some 0 ∧ addrUpdate 0xFFFFFFFF 1 0 = some 0 := by decide

theorem witness_RegisterMoves : (∀ i ∈ [Instr.mfc 0 0, .mfc 0 0x50000, .mtc 0 0x50000, .mfs 0 0x40000, .mfs 0 0x80000, .mfs 0 0x1F0000, .mts 0 0x80000],
      mayIssueNow i (unitOf id) = true)
    ∧ (∀ i ∈ [Instr.mfb 0 0, .mtb 0 0, .mfb 0 0xA000000], mayIssueNow i (unitOf fun l => { l with inB1 := true }) = true)
    ∧ b0Ok 0 31 = true ∧ b1Ok 0 31 = true ∧ b0Ok 5 5 = true ∧ b1Ok 5 15 = true := by decide

theorem witness_VectorArithmetic : ∀ i ∈ [Instr.vadd 0 0, .vadd 0 (typed 5), .vsub 0 (typed 4), .vneg 0 (typed 3), .vabs 0 (typed 2), .vmin 0 (typed 5),
    .vmax 0 (typed 1), .vconj 0 (typed 3), .vnarrow 0 (typed 1), .vwiden 0 (typed 2), .vcvt 0 (typed 5), .vcvt 0 (typed 5 ||| 0x4000000),
    .vshl 0 0x70000, .vshr 0 (typed 2 ||| 0x1F0000), .vasr 0 (typed 1 ||| 0xF0000), .vlsr 0 0], mayIssueNow i (unitOf id) = true := by decide

theorem witness_VectorBitsAndMoves : ∀ i ∈ [Instr.vand 0 0, .vor 0 0, .vxor 0 0, .vnot 0 0, .vmov 0 0, .vsplat 0 (typed 4), .vperm 0 0, .vext 0 0xF0000,
    .vins 0 (typed 2 ||| 0x30000), .vcmp 0 (typed 5 ||| 0x50000), .vcmp 0 0], mayIssueNow i (unitOf id) = true := by decide

theorem witness_MultiplyAndAccumulate : ∀ i ∈ [Instr.vmul 0 (typed 5), .vmulq 0 (typed 1), .vcmulq 0 (typed 3), .vfma 0 (typed 5), .vmac 0 0, .vmsu 0 (typed 4),
    .vmpy 0 (typed 3), .vcmacj 0 (typed 4), .accx 0 (typed 1 ||| 0x270000), .acclr 0 0], mayIssueNow i (unitOf id) = true := by decide

/-- DMAQ, TRIGP, TUNE and EMIT issue; a queue full, a length at each limit and a ring that the context has. -/
theorem witness_ActionInstructions : (∀ i ∈ [Instr.dmaq 0 0, .trigp 0 0, .tune 0 0, .emit 0 0], mayIssueNow i (unitOf id) = true)
    ∧ mayIssueNow (.dmaq 0 0x30000) (unitOf fun l => { l with dma := [[], [], [], List.replicate 16 (0, 0)] }) = true
    ∧ (nth (getLsu 0 (unitOf fun l => { l with dma := [[], [], [], List.replicate 16 (0, 0)] })).dma 3 []).length = 16
    ∧ (nth (getLsu 0 (unitOf id)).dma 3 []).length < 16
    ∧ postTrigger 0 (getLsu 0 (unitOf id)) (unitOf id) = none ∧ postRetune 0 (getLsu 0 (unitOf id)) (unitOf id) = none
    ∧ ((getKernel (getLsu 0 (unitOf id)).kernel (unitOf id)).any fun k => hasRing k.ctx 1 (unitOf id)) = false
    ∧ mayIssueNow (.emit 0 0) (unitWith 16) = true ∧ mayIssueNow (.emit 0 0) (unitWith 65536) = true :=
  ⟨by decide, by decide, by decide, by decide, rfl, rfl, by decide, by decide, by decide⟩

theorem witness_LongInstructions : (∀ i ∈ [Instr.vpeaks 0 (typed 1), .vmaxidx 0 (typed 5), .vminidx 0 (typed 2), .vsortk 0 (typed 2), .vlog2 0 (typed 5), .crc32c 0 0,
    .vsk 0 0x400000, .vsk 0 0x6000000, .rcopy 0 0, .rfill 0 0], mayIssueNow i (unitOf id) = true)
    ∧ (∀ i ∈ [Instr.vsortk 0 (typed 2), .vsk 0 0x400000, .histo 0 (typed 1), .rcopy 0 0, .vpeaks 0 (typed 1)], mayIssueNow i (unitWith 16384) = true)
    ∧ mayIssueNow (.vpeaks 0 (typed 1)) (unitWith 65536) = true ∧ mayIssueNow (.histo 0 (typed 1)) (unitWith 65536) = true :=
  ⟨by decide, by decide, by decide, by decide⟩

/-! ### Descriptors -/

/-- What `Fetched` asks of a descriptor, as a test: its context. -/
def fetched (D : Desc) (s : State) : Option Ctx :=
  match s.host.ctxs.filter (fun y => decide (y.num = D.sub.ctx.toNat)) with
  | [x] =>
    if decide (x.state = .live) && x.held.isEmpty && decide (x.cmdHead ≠ x.cmdTail) && s.host.ctxs.all (fun y => y.posted.isEmpty && y.acc.isEmpty)
      && decide (s.host.stage ≠ 7) then some x else none
  | _ => none

theorem fetched_fetched {D : Desc} {s : State} {x : Ctx} (h : fetched D s = some x) : Fetched D x s := by
  unfold fetched at h
  split at h
  · rename_i y hy
    split at h
    · rename_i hc
      cases h
      simp only [Bool.and_eq_true, decide_eq_true_eq, List.isEmpty_iff, List.all_eq_true, ne_eq] at hc
      obtain ⟨⟨⟨⟨h1, h2⟩, h3⟩, h4⟩, h5⟩ := hc
      refine ⟨hy, h1, h2, h3, h4, ?_⟩
      have : (postedOn D s).host.stage ≠ 7 := by simpa [postedOn, modCtx, modHost] using h5
      unfold powerStep
      exact if_pos (by rw [decide_eq_true this]; rfl)
    · cases h
  · cases h

/-- What `Begins` asks of a descriptor command, as a test: the context, sid, descriptor and block that it starts from. -/
def begun (i : Instr) (s : State) : Option (Nat × Nat × Desc × State) :=
  match descOf i with
  | none => none
  | some D =>
    match fetched D s with
    | some x =>
      if (acceptCheck D x s).isNone && (runsUncalibrated D.op || s.host.calReady) && stateServes D.op s && (!needsMp D.op || s.pwr.mpUp)
          && (!heldByChange D.op || s.mode.change.isNone) && !readWaits D.sub.ctx.toNat D s
      then some (D.sub.ctx.toNat, x.nextSid, D, takenOn true D x s) else none
    | none => none

theorem begun_begins {i : Instr} {s b : State} {c sid : Nat} {D : Desc} (h : begun i s = some (c, sid, D, b)) : Begins i s c sid D b := by
  unfold begun at h
  split at h
  · cases h
  rename_i D' hD
  split at h
  · rename_i x hx
    split at h
    · rename_i hc
      simp only [Option.some.injEq, Prod.mk.injEq] at h
      obtain ⟨rfl, rfl, rfl, rfl⟩ := h
      simp only [Bool.and_eq_true, Option.isNone_iff_eq_none, Bool.or_eq_true, Bool.not_eq_true'] at hc
      obtain ⟨⟨⟨⟨⟨h1, h2⟩, h3⟩, h4⟩, h5⟩, h6⟩ := hc
      exact ⟨x, hD, fetched_fetched hx, rfl, rfl, rfl, h1, h2, h3, fun hm => h4.resolve_left (by simp [hm]), fun hm => h5.resolve_left (by simp [hm]), h6⟩
    · cases h
  · cases h

/-- A command meets a clause: its descriptor begins, and what the clause asks beside holds. -/
def meets (i : Instr) (s : State) (h : Nat → Nat → Desc → State → Bool) : Bool :=
  match begun i s with
  | some (c, sid, D, b) => h c sid D b
  | none => false

theorem meets_begins {i : Instr} {s : State} {h : Nat → Nat → Desc → State → Bool} (e : meets i s h = true) :
    ∃ c sid D b, Begins i s c sid D b ∧ h c sid D b = true := by
  unfold meets at e
  split at e
  · exact ⟨_, _, _, _, begun_begins ‹_›, e⟩
  · cases e

/-- A descriptor of context `c` with a few fields of its body set. -/
def sub (c : Nat) (l : List (Nat × Nat)) : Sub :=
  ⟨BitVec.ofNat 10 c, 0, 7, BitVec.ofNat 384 (l.foldl (fun v f => v + f.2 * 2 ^ (8 * (f.1 - 16))) 0)⟩

/-- A ring the device writes. -/
def devRing : DevRing := ⟨4096, 4, 0, 0, true, 0, false, 0, 0, 0, false⟩

/-- A live context of function 0 with free entries and data ring 1. -/
def liveCtx (n : Nat) : Ctx :=
  { num := n, fn := 0, page := n, state := .live, cause := 0, cmdBase := 4096, cmdLog2 := 4, cmdHead := 15, cmdTail := 0, posted := [], acc := [], nextSid := 1
    cpl := devRing, held := [], evt := devRing, eventsLost := 0, lostUnsent := 0, dbErrors := 0, dbRaised := false, hbBase := 0, beats := 0
    rings := [⟨1, 8192, 4, 16, 0, false, 0, 0, 0, 0, true, 0, 0, false, 1⟩], windows := [], kernels := [], nextEvent := none, destroyer := none }

/-- The block with live contexts 0 and 1, each with data ring 1 of a stream of its own, and calibrated data. -/
def ready : State :=
  { State.reset with
    host := { State.reset.host with
      ctxs := [liveCtx 0, { liveCtx 1 with rings := (liveCtx 1).rings.map fun r => { r with streamId := 2 } }]
      streams := [newStream 1 0 [(0, 1)] 0, newStream 2 1 [(1, 1)] 0], nextStream := 3, calReady := true }
    pwr := { State.reset.pwr with mpUp := true }
    mode := { State.reset.mode with mode := 1 } }

/-- `n` bytes with a few little-endian fields set. -/
def blk (n : Nat) (l : List (Nat × Nat)) : Block :=
  (List.range n).map fun k => BitVec.ofNat 8 ((l.foldl (fun v f => v + f.2 * 2 ^ (8 * f.1)) 0) / 2 ^ (8 * k))

/-- A plan object without sub-blocks, at 12.8 GS/s. -/
def planObj : Block := blk 64 [(0, 64), (4, 1), (8, 12800000000), (0x10, 1)]

/-- The same with one TRIGGER block, of source AUTO. -/
def planTrig : Block := blk 192 [(0, 192), (4, 1), (6, 1), (8, 12800000000), (0x10, 1), (0x40, 6), (0x42, 128), (0x48, 9), (0x4A, 1), (0x50, 1), (0x70, 1)]

/-- A plan of context 1. -/
def aPlan (ph : PlanPhase) (subs : List SubBlk) : Plan := { viewPlan 1 planObj with id := 1, subs := subs, phase := ph, reserved := decide (ph = .running) }

/-- `ready` with one plan of context 1. -/
def withPlan (ph : PlanPhase) (subs : List SubBlk) : State := { ready with plans := [aPlan ph subs], nextPlan := 2 }

theorem witness_DescriptorsBeginOrFail :
    meets (.noop (sub 1 [])) (ready) (fun _ _ _ _ => true) = true
    ∧ (fetched ⟨.fence, sub 1 [(0x10, 2)], []⟩ ready).any (fun x => (acceptCheck ⟨.fence, sub 1 [(0x10, 2)], []⟩ x ready).isSome) = true
    ∧ (fetched ⟨.spuSignal, sub 0 [], []⟩ ready).any (fun x => (acceptCheck ⟨.spuSignal, sub 0 [], []⟩ x ready).isSome) = true
    ∧ (selectorOf (0x7F : BitVec 8).toNat).isNone = true ∧ (fetched ⟨.bad 0x7F, sub 1 [], []⟩ ready).isSome = true := by decide +kernel

theorem witness_ContextAndRingDescriptors :
    meets (.noop (sub 1 [])) (ready) (fun _ _ _ _ => true) = true
    ∧ meets (.fence (sub 1 [])) (ready) (fun _ _ _ _ => true) = true
    ∧ meets (.fence (sub 1 [(0x10, 1)])) (ready) (fun _ _ D _ => bit (D.f 0x10 1) 0) = true
    ∧ meets (.timeWait (sub 1 [(0x20, 100)])) (ready) (fun _ _ _ _ => true) = true
    ∧ meets (.contextCreate (sub 1 [(0x10, 4096), (0x18, 8192), (0x20, 12288), (0x30, 4), (0x31, 4), (0x32, 4)])) ({ ready with host := { ready.host with adminReady := true } }) (fun c _ D b => (getCtx c b).any fun x => (attachCheck x.fn (createRequest D) b).isNone) = true
    ∧ meets (.contextDestroy (sub 1 [(0x10, 1)])) (ready) (fun c _ D b => ((getCtx c b).any fun x => (getCtx (D.f 0x10 2) b).any fun y => decide (y.state = .live) && decide (y.fn = x.fn))) = true
    ∧ meets (.contextDestroy (sub 0 [(0x10, 1)])) (ready) (fun c _ D b => decide (c = 0) && (getCtx (D.f 0x10 2) b).any fun y => decide (y.state = .live)) = true
    ∧ meets (.contextDestroy (sub 0 [(0x10, 0)])) (ready) (fun c _ D b => decide (c = 0) && (getCtx (D.f 0x10 2) b).any fun y => decide (y.state = .live)) = true
    ∧ meets (.ringCreate (sub 1 [(0x10, 4096), (0x18, 2), (0x19, 4), (0x1A, 16)])) (ready) (fun c _ D b => !hasRing c (D.f 0x18 1) b && decide (D.f 0x24 4 = 0)) = true
    ∧ meets (.ringDestroy (sub 1 [(0x10, 1)])) (ready) (fun c _ D b => decide (ringStream c (D.f 0x10 1) b = some 2) && !ringBound c (D.f 0x10 1) b) = true
    ∧ meets (.attestBind (sub 1 [(0x10, 1), (0x14, 3)])) ({ ready with trust := { ready.trust with sessions := [⟨0, 3, 9, true, 0⟩] } }) (fun c _ D b => decide (ringStream c (D.f 0x10 1) b = some 2) && !b.trust.debug && (b.trust.sessions.find? (fun x => decide (x.id = D.f 0x14 4) && x.finished)).isSome
    && (getStream 2 b).any fun st => decide (st.seq = 0) && st.bound.isNone) = true := by decide +kernel

theorem witness_ModeAndPlanDescriptors :
    meets (.modeSet (sub 0 [(0x10, 1)])) (ready) (fun _ _ D b => decide (D.f 0x10 1 = b.mode.mode.toNat)) = true
    ∧ meets (.modeSet (sub 0 [(0x10, 12)])) (ready) (fun _ _ D b => decide (D.f 0x10 1 ≠ b.mode.mode.toNat) && decide (D.f 0x11 1 ≠ 1)) = true
    ∧ meets (.modeSet (sub 0 [(0x10, 2)])) (ready) (fun _ _ D b => decide (D.f 0x10 1 ≠ b.mode.mode.toNat) && decide (D.f 0x11 1 ≠ 1)) = true
    ∧ meets (.planCreate (sub 1 [(0x10, 4096), (0x18, 192)]) [some planTrig]) (ready) (fun c _ D b => (D.block 0 (D.f 0x18 4)).any fun o => (planObjectCheck c (D.f 0x18 4) o b).isNone && fitsNow { viewPlan c o with id := b.nextPlan, ctx := c } b) = true
    ∧ meets (.planStart (sub 1 [(0x10, 1)]) []) (withPlan .created []) (fun c _ D b => (ownPlan c (D.f 0x10 4) b).any fun p0 => decide (p0.phase = .created) && p0.ringNames.all (fun k => hasRing c k b) && handlesHeld p0 b
    && (readLuts D 0 p0.lutUses).any (fun l => startFits { p0 with luts := l } b && (match reserve { p0 with luts := l } b with | .ok _ => true | .error _ => false)
    && !Plan.lacksTdc { p0 with luts := l } b) && (misfit p0 b).isNone) = true
    ∧ meets (.planStop (sub 1 [(0x10, 1)])) (withPlan .running []) (fun c _ D b => (ownPlan c (D.f 0x10 4) b).any fun p => decide (p.phase = .running)) = true
    ∧ meets (.planStop (sub 1 [(0x10, 1)])) (withPlan .waiting []) (fun c _ D b => (ownPlan c (D.f 0x10 4) b).any fun p => decide (p.phase = .waiting)) = true
    ∧ meets (.planDestroy (sub 1 [(0x10, 1)])) (withPlan .running []) (fun c _ D b => (ownPlan c (D.f 0x10 4) b).isSome) = true
    ∧ meets (.planDestroy (sub 1 [(0x10, 1)])) (withPlan .created []) (fun c _ D b => (ownPlan c (D.f 0x10 4) b).isSome) = true
    ∧ meets (.modeSet (sub 0 [(0x10, 11)])) ({ ready with fr := { ready.fr with loaded := some (flightBundle ready) } }) (fun _ _ D b => decide (D.f 0x10 1 ≠ b.mode.mode.toNat) && b.fr.loaded.isSome && decide (D.f 0x11 1 ≠ 1)) = true := by decide +kernel

theorem witness_CompletionsArePosted :
    ((takenOn true ⟨.noop, sub 1 [], []⟩ (liveCtx 1) ready).host.ctxs.filter fun y => decide (y.num = 1)).any (fun x => x.held.isEmpty && x.cpl.hasRoom && (x.acc.find? (·.sid = 1)).isSome) = true
    ∧ ((modCtx 1 (fun y => { y with cpl := { y.cpl with tail := 15 } }) (takenOn true ⟨.noop, sub 1 [], []⟩ (liveCtx 1) ready)).host.ctxs.filter fun y => decide (y.num = 1)).any (fun x => !x.cpl.hasRoom && (x.acc.find? (·.sid = 1)).isSome) = true := by decide +kernel

/-- `ready` with its memory channels in service and MAINTENANCE's stand-ins where a clause asks for a mode. -/
def withDram (m : BitVec 4) (s : State) : State :=
  { s with dram := { s.dram with chans := List.replicate 12 Chan.reset }, mode := { s.mode with mode := m } }

/-- A stream of plan 1. -/
def aStream : XStream := ⟨1, 0, 0, 0, ⟨1, 8, 0, 0, none⟩, 0, 0, 0, [], 0, false, false, none, none, [], none⟩

/-- `ready` with a running plan of one TRANSFORM block and its stream. -/
def withStream : State :=
  { withPlan .running [⟨3, 0, 64, blk 0x70 [(0, 3), (2, 0x70), (0x0A, 8), (0x10, 10), (0x12, 1)]⟩] with dsp := { Dsp.reset with streams := [aStream] } }

/-- A mask image of one bin. -/
def aMask : Block := blk 72 [(0, 1), (0x40, 0x7FFF0000), (0x44, 1)]

/-- `ready` with a running plan of one TRIGGER block, its unit, ring 0 of pair A and a complete capture of one segment. -/
def withCapture : State :=
  let s := withPlan .running [⟨6, 0, 64, blk 128 [(0, 6), (2, 128)]⟩, ⟨7, 0, 192, blk 32 [(0, 7), (2, 32), (8, 1)]⟩]
  { s with
    trg := { s.trg with
      units := modNth s.trg.units 0 fun u => { u with plan := some 1 }
      rings := [CapRing.empty 0 1 0 256 0]
      caps := [⟨1, 1, 0, 0, 0, 1, [⟨0, 0, ⟨false, 9, 0, 0, 0, false⟩, false, false, 0, 0, 0, 0, false, false, 0, false, [], 0, false, true, 0, 0, 0⟩], true⟩] } }

theorem witness_WindowAndMaskDescriptors :
    meets (.windowLoadTable (sub 1 [(0x10, 1), (0x11, 1), (0x12, 8), (0x18, 4096)]) [some (blk 1024 [(0, 1)])]) (withDram 1 ready) (fun c _ D b => let h := D.f 0x11 1
    (D.block 0 (4 * 2 ^ D.f 0x12 1)).any fun o => (tableReserved (tableCoefs o (D.f 0x12 1))).isNone && !tableUnbounded (tableCoefs o (D.f 0x12 1)) && (tableStreams c h b).isEmpty
    && (let b1 := freeAllocs (fun k => decide (k = .window c h)) (modCtx c (fun x => { x with windows := x.windows.filter fun w => decide (w.handle ≠ h) }) b)
    roomFor { Regions.zero with t := tableBytes (D.f 0x12 1) } b1 && (allocate (.window c h) (4 * 2 ^ D.f 0x12 1) b1).isSome)) = true
    ∧ meets (.windowLoadDrop (sub 1 [(0x10, 2), (0x11, 8)])) (ready) (fun c _ D b => (tableStreams c (D.f 0x11 1) b).isEmpty) = true
    ∧ meets (.windowLoadReconfigure (sub 1 [(0x10, 3), (0x14, 1), (0x20, 0), (0x21, 2), (0x22, 8)])) (withStream) (fun c _ D b => (ownPlan c (D.f 0x14 4) b).any fun p => (p.sub? 3 (D.f 0x20 1)).any fun g => decide (D.f 0x21 1 ≤ 32) && (reconfigureBad p g D b).isNone && (getX p.id g.idx b).any fun x =>
    decide (D.f 0x21 1 ≠ x.cfg.window)) = true
    ∧ meets (.windowLoadReconfigure (sub 1 [(0x10, 3), (0x14, 1), (0x20, 0), (0x21, 1), (0x22, 8)])) (withStream) (fun c _ D b => (ownPlan c (D.f 0x14 4) b).any fun p => (p.sub? 3 (D.f 0x20 1)).any fun g => decide (D.f 0x21 1 ≤ 32) && (reconfigureBad p g D b).isNone && (getX p.id g.idx b).any fun x =>
    decide (D.f 0x21 1 = x.cfg.window ∧ D.f 0x22 1 = x.cfg.lg)) = true
    ∧ meets (.maskLoad (sub 1 [(0x10, 1), (0x11, 1), (0x14, 72), (0x18, 4096)]) [some aMask]) (withDram 5 ready) (fun c _ D b => let h := D.f 0x11 1
    (D.block 0 (D.f 0x14 4)).any fun o => ((maskCheck o (D.f 0x14 4)).toOption.any fun img => !noMasks b && (maskStages c h b).isEmpty && decide (stagedMasks (dropMask c h b) < 64)
    && roomFor { Regions.zero with m := maskBytes img.lower.length } (dropMask c h b)
    && (allocate (.mask c h) (D.f 0x14 4) (dropMask c h b)).isSome)) = true
    ∧ meets (.maskDrop (sub 1 [(0x10, 2), (0x11, 64)])) (ready) (fun c _ D b => (maskStages c (D.f 0x11 1) b).isEmpty) = true := by decide +kernel

theorem witness_TriggerAndCaptureDescriptors :
    meets (.triggerArm (sub 1 [(0x10, 1), (0x14, 1)])) (withCapture) (fun c _ D b => (ownPlan c (D.f 0x10 4) b).any fun p => decide (p.phase = .running) && (maskIdx (D.f 0x14 1) 8).all fun u => (p.sub? 6 u).isSome) = true
    ∧ meets (.triggerDisarm (sub 1 [(0x10, 1), (0x14, 1)])) (withCapture) (fun c _ D b => (ownPlan c (D.f 0x10 4) b).any fun p => decide (p.phase = .running) && (maskIdx (D.f 0x14 1) 8).all fun u => (p.sub? 6 u).isSome) = true
    ∧ meets (.captureReadSegments (sub 1 [(0x10, 1), (0x15, 1), (0x16, 1), (0x24, 1)])) (withCapture) (fun c _ D b => capturePlan c (D.f 0x10 4) b && hasRing c (D.f 0x16 1) b && (ownCapture c (D.f 0x10 4) (D.f 0x14 1) (D.f 0x18 8) b).any fun x => decide (D.f 0x20 4 + D.f 0x24 4 ≤ x.segs.length) && (getCap x.ring b).isSome) = true
    ∧ meets (.captureReadWords (sub 1 [(0x10, 1), (0x15, 2), (0x16, 1), (0x30, 1)])) (withCapture) (fun c _ D b => (ownPlan c (D.f 0x10 4) b).any fun p => hasRing c (D.f 0x16 1) b && (b.trg.rings.find? (fun r => decide (r.r = D.f 0x34 1) && (p.kindSubs 7).any (fun g => decide (g.f 0x08 1 = r.source))
    && (decide (r.r < 4) || decide (r.plan = p.id)))).any fun r => decide (D.f 0x30 4 ≠ 0) && decide (D.f 0x30 4 ≤ r.length)) = true
    ∧ meets (.captureRelease (sub 1 [(0x10, 1)])) (withCapture) (fun c _ D b => capturePlan c (D.f 0x10 4) b && (ownCapture c (D.f 0x10 4) (D.f 0x14 1) (D.f 0x18 8) b).any fun x => x.complete && decide (ownCapture c (D.f 0x10 4) x.slot x.num b = some x) && (getCap x.ring b).isSome) = true := by decide +kernel

/-- A kernel image of one word. -/
def anImage : Block := blk 80 [(0, 0x4B494731), (4, 1), (8, 16)]

/-- `ready` with context 1 holding that image in handle 1. -/
def withImage : State :=
  let s := withDram 1 ready
  { s with host := { s.host with ctxs := s.host.ctxs.map fun x => { x with kernels := [⟨1, anImage⟩] } } }

/-- A kernel of context 1 with one instance. -/
def aKernel : Kernel := ⟨1, 1, 1, 1, 0, [], 0, false, 1, 0, 0, false, 0, []⟩

/-- `ready` with kernel 1 of context 1, an instance of it on unit 0 with `n` values in its signal queue. -/
def withKernel (n : Nat) : State :=
  modLsu 0 (fun l => { l with kernel := 1, state := 1, sigq := List.replicate n 5 }) { ready with spu := { ready.spu with kernels := [aKernel] } }

/-- `withPlan` in a mode, with exports. -/
def withExports (m : BitVec 4) (l : List Export) (bs : List Binding) : State :=
  let s := withDram m (withPlan .running [])
  { s with plans := [{ aPlan .running [] with head := blk 64 [(0, 64), (4, 1), (8, 12800000000), (0x10, 1), (0x14, 1)] }], disk := { s.disk with exports := l, bindings := bs } }

/-- An export of pair 0 of plan 1 to ring 1. -/
def anExport : Export := ⟨0, 1, 1, 1, false, 1, 1, 1, 0, 1024, 2, true, [⟨0, [], 0, 0⟩], 0, 0, none, none⟩

/-- An active binding of context 1's set 1. -/
def aBinding : Binding :=
  ⟨0, 1, 1, 1, 1, 4, 9, 1, 7, 0, 4096, 0, 0x1000000, 0x400000, .active, 128, 0, [1], 0, [], [], 0, 0, 0, 0, 0, 0, none⟩

theorem witness_KernelDescriptors :
    meets (.spuLoad (sub 1 [(0x10, 1), (0x14, 80), (0x18, 4096)]) [some anImage]) (withDram 1 ready) (fun c _ D b => (D.block 0 (D.f 0x14 4)).any fun o => (layoutCheck true (firstReserved (blkByte o) 0 64 (imageFds (D.f 0x14 4) o)) (imageFds (D.f 0x14 4) o)).isNone && !handleRuns c (D.f 0x10 1) b
    && (allocate (.kernel c (D.f 0x10 1)) (D.f 0x14 4) (freeAllocs (fun k => decide (k = .kernel c (D.f 0x10 1))) b)).isSome) = true
    ∧ meets (.spuLaunch (sub 1 [(0x10, 4096), (0x18, 464)]) [some (blk 464 [(0, 1), (1, 16), (4, 1), (0x14, 1)])]) (withImage) (fun c _ D b => (D.block 0 464).any fun o => (blockCheck o (launchFds c o b)).isNone && (((getCtx c b).bind fun x => x.kernels.find? fun k => decide (k.handle = blkFld o 0 1))).any fun img =>
    decide (blkFld o 8 4 = 0) && decide (blkFld o 2 1 = 0) && hasRing c (blkFld o 4 1) b && !bit (blkFld img.bytes 6 2) 0 && decide (effMode b ≠ 12)
    && (launchWindows c o (ownPlan c (blkFld o 8 4) b) b 1 (blkFld o 3 1)).any fun ws => (launch { id := b.spu.nextKernel, ctx := c, handle := blkFld o 0 1, instances := blkFld o 1 1, plan := blkFld o 8 4, windows := [], scratchKb := blkFld o 0x0C 4, scratchInS := false, emitRing := blkFld o 4 1, emitMb := blkFld o 0x14 4, dmaMb := blkFld o 0x10 4, maintOnly := false, irqEntry := blkFld img.bytes 0x10 4 % 2 ^ 18, stops := [] } img.bytes o ws (((List.range (blkFld o 2 1)).map (tapEntry o)).map fun t => { t with isOpen := (getPlan t.plan b).any (·.takes b) }) b).toOption.isSome) = true
    ∧ meets (.spuSignal (sub 1 [(0x10, 1), (0x12, 1), (0x14, 1), (0x18, 9)])) (withKernel 15) (fun c _ D b => (ownKernel c (D.f 0x14 4) b).any fun k => decide (selected k.id (D.f 0x12 2) b = [0]) && (selected k.id (D.f 0x12 2) b).all fun n => decide ((getLsu n b).sigq.length < 16)) = true
    ∧ meets (.spuSignal (sub 1 [(0x10, 1), (0x12, 1), (0x14, 1), (0x18, 9)])) (withKernel 16) (fun c _ D b => (ownKernel c (D.f 0x14 4) b).any fun k => (selected k.id (D.f 0x12 2) b).any fun n => decide (16 ≤ (getLsu n b).sigq.length)) = true
    ∧ meets (.spuStop (sub 1 [(0x10, 2), (0x12, 1), (0x14, 1)])) (withKernel 0) (fun c _ D b => (ownKernel c (D.f 0x14 4) b).any fun k => decide (selected k.id (D.f 0x12 2) b ≠ [])) = true := by decide +kernel

theorem witness_ExportAndDiskDescriptors :
    meets (.streamOpenRing (sub 1 [(0x10, 1), (0x14, 1), (0x15, 1), (0x16, 1), (0x17, 1), (0x1C, 1024)])) (withExports 6 [] []) (fun c _ D b => (ownPlan c (D.f 0x10 4) b).any fun p => p.reserved && decide (ringStream c (D.f 0x15 1) b = some 2) && hasRing c (D.f 0x15 1) b && (sourcesBad p D).isNone
    && decide (checkMode b = 6) && !replaying b && !sourceTaken D b && decide ((List.range 8).find? (fun n => (getExport n b).isNone) = some 0)
    && (let t := modDisk (fun x => { x with exports := x.exports ++ [exportOf c 0 b.disk.nextExport 2 false (p.takes b) D], nextExport := x.nextExport + 1 }) b; exportFits (reservedPlans t) t && (regionsOf (reservedPlans t) t).within 6)) = true
    ∧ meets (.streamOpenDisk (sub 1 [(0x10, 1), (0x14, 2), (0x15, 1), (0x16, 1), (0x17, 1), (0x1C, 16384)])) (withExports 7 [] [aBinding]) (fun c _ D b => (ownPlan c (D.f 0x10 4) b).any fun p => p.reserved && (sourcesBad p D).isNone
    && decide (checkMode b = 7) && !replaying b && !sourceTaken D b && (b.disk.bindings.any fun m => decide (m.ctx = c ∧ m.set = D.f 0x15 1 ∧ m.state = .active)) && decide ((List.range 8).find? (fun n => (getExport n b).isNone) = some 0)
    && (let t := modHost (fun h => { h with streams := h.streams ++ [newStream h.nextStream c [] (D.f 0x15 1)], nextStream := h.nextStream + 1 }) (modDisk (fun x => { x with exports := x.exports ++ [exportOf c 0 b.disk.nextExport b.host.nextStream true (p.takes b) D], nextExport := x.nextExport + 1 }) b); exportFits (reservedPlans t) t && (regionsOf (reservedPlans t) t).within 7)) = true
    ∧ meets (.streamClose (sub 1 [(0x10, 1), (0x14, 1)])) (withExports 6 [anExport] []) (fun c _ D b => (ownPlan c (D.f 0x10 4) b).any fun p => (b.disk.exports.find? (fun e => decide (e.id = D.f 0x14 4) && decide (e.plan = p.id) && e.closing.isNone)).isSome) = true
    ∧ meets (.diskBind (sub 1 [(0x10, 1), (0x11, 1), (0x12, 4), (0x13, 9), (0x14, 1), (0x18, 4096), (0x28, 4096)]) [some (blk 8 [(0, 15)])]) (withExports 7 [] []) (fun _ _ D b => (D.block 0 8).any fun cap => decide (checkMode b = 7) && decide (2 ^ D.f 0x12 1 ≤ blkFld cap 0 2 + 1) && b.disk.bindings.isEmpty && decide (D.f 0x11 1 ≤ 32)
    && roomFor { Regions.zero with s := roundUp (windowSize (D.f 0x11 1) (D.f 0x12 1)) granule } b && (stagingPlace (windowSize (D.f 0x11 1) (D.f 0x12 1)) b).isSome
    && ((List.range 32).find? (fun k => (getBinding k b).isNone)).isSome) = true
    ∧ meets (.diskUnbind (sub 1 [(0x10, 1)])) (withExports 7 [] [aBinding]) (fun c _ D b => (b.disk.bindings.find? (fun m => decide (m.id = D.f 0x10 4) && decide (m.ctx = c))).any fun m => m.unbinder.isNone) = true := by decide +kernel

/-- An OUTPUT block of 64 by 64 pixels on one lane set. -/
def anOutput : Block := blk 64 [(0, 64), (2, 64), (4, 100), (6, 100), (8, 1), (0xA, 1), (0xC, 1), (0xE, 1), (0x10, 60), (0x14, 2500), (0x16, 1), (0x18, 1), (0x1A, 1)]

/-- `ready` with output 0 of context 1 enabled, its layer 0 reading its display area. -/
def withOutput : State :=
  modOut 0 (fun o => { o with enabled := true, owner := 1, areaMb := 1 })
    (modLayer 0 0 (fun y => { y with enabled := true, source := 1, format := 1, width := 16, height := 16 }) (withDram 1 ready))

/-- `ready` with a running plan of a stream, a DENSITY block and its surface. -/
def withSurface : State :=
  let s := withPlan .running [⟨8, 0, 64, blk 64 [(0, 8), (2, 64), (0x0E, 1)]⟩]
  { s with dpy := { s.dpy with surfs := s.dpy.surfs.set 0 (some ⟨1, 0, 0, [], 0, 0, [], [], [], none, [], [], 0, 0, false, 0⟩) } }

/-- A nominal coefficient set as MANUAL_LOAD reads it. -/
def aSet : Block := blk 160 (((rangeFrom 1 11) ++ (rangeFrom 13 11) ++ [27]).map fun i => (4 * i, 2 ^ 30))

/-- `ready` in MAINTENANCE. -/
def inTest : State := withDram 12 ready

/-- A bundle of a HEADER and an END part. -/
def aBundle : Block :=
  blk 512 [(0, 512), (4, bundleType), (0x40, 7), (0x48, 1), (0x180, 2)] ++ blk 512 [(0, 512), (4, bundleType), (0x40, 7), (0x48, 4), (0x4C, 1)]

theorem witness_DisplayDescriptors :
    meets (.displayOutput (sub 1 [(0x10, 1), (0x28, 4096), (0x30, 64)]) [some anOutput]) (withDram 1 ready) (fun c _ D b => let o := D.f 0x11 1; (D.block 0 64).any fun k => (blockCheck k (outputFds o k)).isNone && !(getOut o b).enabled && (!decide (o = 1) || !(getOut 0 b).lockstep) && decide (blkFld k 0x19 1 ≠ 1)
    && (displayArea o (blkFld k 0x16 2) b).any fun p => let t1 := modOut o (outputOf c p.1 (nowTick b) k) (supersedeFlips o 1 p.2)
    decide (dramDemand (reservedPlans t1) t1 ≤ t1.dram.bandwidth)) = true
    ∧ meets (.displayLayer (sub 1 [(0x10, 2), (0x13, 1), (0x14, 1), (0x15, 1), (0x1C, 16), (0x1E, 16)])) (withOutput) (fun c _ D b => let o := D.f 0x11 1; (outputDenied c o b).isNone && decide ((layerOf D).source = 1) && (layerOf D).inArea (layerOf D).cur.base (getOut o b).areaMb
    && (let t1 := modLayer o (D.f 0x12 1) (fun _ => layerOf D) (stopLayer o (D.f 0x12 1) b); decide (dramDemand (reservedPlans t1) t1 ≤ t1.dram.bandwidth))) = true
    ∧ meets (.displayLutLoad (sub 1 [(0x10, 3), (0x28, 4096), (0x30, 1024), (0x34, 1)]) [some (blk 1024 [])]) (withSurface) (fun c _ D b => (ownPlan c (D.f 0x34 4) b).any fun p => (p.sub? 8 (D.f 0x17 1)).any fun g => (D.block 0 1024).isSome && (surfOf p.id g.idx b).isSome) = true
    ∧ meets (.panelCmd (sub 1 [(0x10, 4), (0x28, 4096), (0x30, 16), (0x32, 1)]) [none]) (withOutput) (fun c _ D b => (outputDenied c (D.f 0x11 1) b).isNone && bit (D.f 0x32 1) 0 && (getCtx c b).isSome) = true
    ∧ meets (.panelCmd (sub 1 [(0x10, 4), (0x28, 4096), (0x30, 256)]) [some (blk 256 [])]) (withOutput) (fun c _ D b => (outputDenied c (D.f 0x11 1) b).isNone && !bit (D.f 0x32 1) 0 && (D.block 0 (D.f 0x30 2)).isSome) = true
    ∧ meets (.layerOff (sub 1 [(0x10, 5)])) (withOutput) (fun c _ D b => (outputDenied c (D.f 0x11 1) b).isNone) = true
    ∧ meets (.outputOff (sub 1 [(0x10, 6)])) (withOutput) (fun c _ D b => (outputDenied c (D.f 0x11 1) b).isNone) = true
    ∧ meets (.displayFlip (sub 1 [(0x11, 1), (0x14, 5)])) (withOutput) (fun c _ D b => (outputDenied c (D.f 0x10 1) b).isNone && (flipBad (D.f 0x10 1) D b).isNone) = true := by decide +kernel

theorem witness_TimeDescriptors :
    meets (.tdcEnable (sub 1 [(0x10, 7), (0x11, 1), (0x12, 3), (0x14, 1)])) (ready) (fun c _ D b => hasRing c (D.f 0x14 1) b && decide (D.f 0x18 4 = 0) && !tdcTaken c (D.f 0x10 1) b) = true
    ∧ meets (.tdcRelease (sub 1 [(0x10, 7), (0x11, 2)])) (modTdc 7 (fun x => { x with owner := some 1 }) ready) (fun c _ D b => !tdcTaken c (D.f 0x10 1) b && decide ((getTdc (D.f 0x10 1) b).owner = some c)) = true
    ∧ meets (.tdcGateInterval (sub 1 [(0x10, 1), (0x11, 1), (0x12, 1), (0x13, 0), (0x14, 7), (0x15, 1), (0x20, 1000000000)]) []) (ready) (fun c _ D b => hasRing c (D.f 0x15 1) b && decide (nth b.tim.gates (D.f 0x10 1) none = none)) = true
    ∧ meets (.tdcGateFrequency (sub 1 [(0x10, 0), (0x11, 2), (0x12, 2), (0x13, 7), (0x15, 1), (0x20, 1)]) []) (ready) (fun c _ D b => hasRing c (D.f 0x15 1) b && decide (nth b.tim.gates (D.f 0x10 1) none = none)) = true
    ∧ meets (.setTimeNextPps (sub 0 [(0x10, 1), (0x28, 77)])) (ready) (fun _ _ _ _ => true) = true
    ∧ meets (.setTimeImmediate (sub 0 [(0x10, 2), (0x20, 5), (0x28, 77)])) (ready) (fun _ _ _ _ => true) = true := by decide +kernel

theorem witness_CalibrationDescriptors :
    meets (.calSetMode (sub 0 [(0x10, 1), (0x11, 15), (0x12, 2)])) (ready) (fun _ _ _ _ => true) = true
    ∧ meets (.calManualLoad (sub 0 [(0x10, 2), (0x11, 1), (0x18, 4096)]) [some aSet]) (ready) (fun _ _ D _ => (D.block 0 160).any fun o => (setCheck o).isNone) = true
    ∧ meets (.calFence (sub 0 [(0x10, 3), (0x11, 8), (0x14, 10000)])) (ready) (fun c _ _ _ => decide (c = 0)) = true
    ∧ meets (.calRampLength (sub 0 [(0x10, 4), (0x11, 1), (0x13, 22)])) (ready) (fun _ _ _ _ => true) = true
    ∧ meets (.runForeground (sub 0 [(0x10, 5), (0x11, 3)])) (inTest) (fun _ _ D b => decide (effMode b = 12) && (calPairs D).all fun n => !pairHeld n b && decide ((getSkim n b).mode ≠ 4)) = true
    ∧ meets (.runForeground (sub 0 [(0x10, 5), (0x11, 3)])) (ready) (fun _ _ _ b => decide (effMode b ≠ 12)) = true
    ∧ meets (.tableReset (sub 0 [(0x10, 6), (0x11, 15)])) (ready) (fun _ _ _ _ => true) = true := by decide +kernel

theorem witness_PowerRecorderAndTestDescriptors :
    meets (.powerHintCap (sub 0 [(0x10, 1), (0x11, 6)])) (ready) (fun _ _ _ _ => true) = true
    ∧ meets (.powerHintNextEvent (sub 1 [(0x10, 2), (0x20, 1000)])) (ready) (fun _ _ _ _ => true) = true
    ∧ meets (.powerHintUncap (sub 0 [(0x10, 3)])) (ready) (fun c _ _ _ => decide (c = 0)) = true
    ∧ meets (.flightRead (sub 0 [(0x10, 1), (0x11, 1), (0x30, 10)])) (ready) (fun c _ D b => (ringStream c (D.f 0x10 1) b).isSome) = true
    ∧ meets (.replayLoadHost (sub 0 [(0x10, 1), (0x18, 4096), (0x20, 1024)]) [some aBundle]) (ready) (fun _ _ D _ => (D.block 0 (D.f 0x20 8)).any fun o => (splitRecords (D.f 0x20 8 / 64 + 1) o).any fun l => partsOk l) = true
    ∧ meets (.replayLoadFlight (sub 0 [(0x10, 2)])) (ready) (fun _ _ _ _ => true) = true
    ∧ meets (.replayUnload (sub 0 [(0x10, 3)])) ({ ready with fr := { ready.fr with loaded := some (flightBundle ready) } }) (fun _ _ _ b => b.fr.loaded.isSome && !replaying b) = true
    ∧ meets (.selftest (sub 0 [(0x10, 1)])) (inTest) (fun _ _ _ b => decide (effMode b = 12)) = true
    ∧ meets (.clearRetirement (sub 0 [(0x10, 2)])) (inTest) (fun _ _ _ b => decide (effMode b = 12)) = true
    ∧ meets (.laneTestEnter (sub 0 [(0x10, 3), (0x11, 2), (0x18, 1), (0x20, 1)])) (inTest) (fun _ _ D b => let p := D.f 0x11 1 - 1; decide (D.f 0x20 8 ≤ advertised p (getPort p b).width.toNat b) && ((getCtx 0 b).all fun x => decide (fnPort x.fn ≠ p)) && !(getPort p b).test) = true
    ∧ meets (.laneTestExit (sub 0 [(0x10, 3), (0x11, 2), (0x18, 2)])) (modPort 1 (fun x => { x with test := true, state := 11 }) inTest) (fun _ _ _ _ => true) = true
    ∧ meets (.dramTest (sub 0 [(0x10, 4)])) (inTest) (fun _ _ _ _ => true) = true := by decide +kernel

/-- `withPlan` as a change to mode `m` stands in a phase. -/
def changing (ph : ChangePhase) (m : BitVec 4) : State :=
  let s := withPlan .running []
  { s with mode := { s.mode with target := m, change := some ⟨ph, some (0, 1), [1]⟩ } }

/-- `ready` with pair 0 forming words and the time base running. -/
def ticking : State :=
  let s := withDram 1 ready
  { s with
    adc := { s.adc with pairs := modNth s.adc.pairs 0 fun p => { p with running := true } }
    tim := { s.tim with running := true, sclkLock := true, refOk := true, tpllLock := true } }

/-- A plan of context 1 that holds pair 0, with a duty cycle or none. -/
def pairPlan (ph : PlanPhase) (d : Option Duty) : State :=
  { ticking with plans := [{ aPlan ph [] with head := blk 64 [(0, 64), (4, 1), (8, 12800000000), (0x10, 1), (0x14, 1), (0x20, 100), (0x24, 10)], reserved := true, duty := d }], nextPlan := 2 }

theorem witness_ModeChangeSteps :
    (let s : State := changing .accepted 2; decide (inPhase .accepted s = true)) = true
    ∧ (let s : State := changing .drained 2; decide (s.mode.change.any fun c => c.phase = .drained)) = true
    ∧ (let s : State := changing .flushed 2; decide (inPhase .flushed s = true ∧ s.mode.target ≠ 11 ∧ (s.mode.mode ≠ 7 ∨ s.mode.target = 7))) = true
    ∧ (let s : State := { changing .flushed 7 with mode := { (changing .flushed 7).mode with mode := 7 } }; decide (inPhase .flushed s = true ∧ s.mode.target ≠ 11 ∧ (s.mode.mode ≠ 7 ∨ s.mode.target = 7))) = true
    ∧ (let s : State := changing .repartitioned 2; decide (s.mode.change.any fun c => c.phase = .repartitioned)) = true
    ∧ (let s : State := changing .rechecked 2; decide (s.mode.change.any fun c => c.phase = .rechecked)) = true := by decide +kernel

theorem witness_PlanSteps :
    (let s : State := pairPlan .waiting none; decide ((getPlan 1 s).any fun p => p.phase = .waiting ∧ drained s = false ∧ (if maskIdx (p.h 0x14 1) 4 = [] then [0] else maskIdx (p.h 0x14 1) 4).find?
    (fun n => wordsArrive n s && decide (p.firstTagNow s ≤ pairNext n s)) = some 0)) = true
    ∧ (let s : State := withPlan .stopping []; decide ((getPlan 1 s).any fun p => p.phase = .stopping)) = true
    ∧ (let s : State := { withStream with dsp := { Dsp.reset with streams := [{ aStream with engine := 4, hist := [(0, ⟨0, 0, 0, []⟩)], switch := some ⟨⟨2, 8, 0, 0, none⟩, 0, (1, 1), false⟩ }] } }; decide ((getX 1 0 s).any fun x => 4 ≤ x.engine ∧ x.switch.any (fun w => x.hist.head?.any (fun h => w.point ≤ h.1 + x.width ∧ w.load = false)))) = true
    ∧ (let s : State := pairPlan .running (some ⟨0, 0, false, false⟩); decide ((getPlan 1 s).any fun p => planClock 1 s = some 0 ∧ p.duty.any (fun d => d.paused = false) ∧ wordsArrive 0 s = true)) = true
    ∧ (let s : State := pairPlan .running (some ⟨0, 0, true, false⟩); decide ((getPlan 1 s).any fun p => planClock 1 s = some 0 ∧ p.duty.any (fun d => d.paused = true) ∧ wordsArrive 0 s = true)) = true := by decide +kernel

theorem witness_ContextEvents :
    decide ((1 : BitVec 32).getLsbD 0 = true) = true
    ∧ decide ((3 : BitVec 32).getLsbD 1 = true) = true
    ∧ decide ((0xFFFFFFFC : BitVec 32).getLsbD 1 = false) = true
    ∧ decide ((0x10000 : BitVec 32).getLsbD 0 = false) = true
    ∧ (getFn 0 ready).any (fun r => !r.attHeld && ready.pwr.state ≠ 6 && (attachCheck 0 r.request ready).isSome) = true
    ∧ (let s : State := modFn 0 (fun r => { r with cmdBase := 4096, cplBase := 8192, evtBase := 12288, cfg := 0x1084 }) { ready with host := { ready.host with adminReady := true } }; (getFn 0 s).any fun r => !r.attHeld && s.pwr.state ≠ 6 && (attachCheck 0 r.request s).isNone && s.mode.change.isNone) = true
    ∧ (let s : State := modFn 0 (fun r => { r with ctlContext := 1 }) ready; (getFn 0 s).any fun r => (getCtx r.ctlContext.toNat s).any fun x => decide (x.fn = 0) && decide (x.state = .live)) = true
    ∧ decide (True) = true
    ∧ decide (True) = true
    ∧ decide (True) = true
    ∧ decide (True) = true
    ∧ (let s : State := modCtx 1 (fun x => { x with state := .tearingDown, cause := 2 }) ready; decide ((getCtx 1 s).any fun x => x.state = .tearingDown ∧ x.destroyer.map (·.1) ≠ some 1)) = true := by decide +kernel

theorem witness_DoorbellsAndInterrupts :
    (let s : State := ready; decide ((pageCtx 0 900 s).isNone)) = true
    ∧ (let s : State := ready; decide ((pageCtx 0 1 s).any fun x => x.state = .live ∧ 14 < 2 ^ x.cmdLog2 ∧ (14 + 2 ^ x.cmdLog2 - x.cmdHead) % 2 ^ x.cmdLog2 ≥ (x.cmdTail + 2 ^ x.cmdLog2 - x.cmdHead) % 2 ^ x.cmdLog2)) = true
    ∧ (let s : State := ready; decide ((pageCtx 0 1 s).any fun x => 2 ^ x.cmdLog2 ≤ 16 ∧ x.dbRaised = false)) = true
    ∧ (let s : State := modCtx 1 (fun x => { x with cpl := { x.cpl with tail := 5 } }) ready; decide ((pageCtx 0 1 s).any fun x => x.state = .live ∧ headOk x.cpl.log2 x.cpl.head x.cpl.tail 5 = true)) = true
    ∧ (let s : State := ready; decide ((pageCtx 0 1 s).any fun x => x.state = .live ∧ headOk x.evt.log2 x.evt.head x.evt.tail 0 = true)) = true
    ∧ (let s : State := ready; decide ((pageCtx 0 1 s).any fun x => (x.ring 1).any fun y => x.state = .live ∧ headOk y.log2 y.head y.w 0 = true)) = true
    ∧ (let s : State := modCtx 1 (fun x => { x with cpl := { x.cpl with armed := true, vecEn := true, count := 1 } }) ready; decide ((getCtx 1 s).any fun x => x.cpl.armed = true ∧ x.cpl.vecEn = true ∧ 0 < x.cpl.count)) = true
    ∧ (let s : State := modCtx 1 (fun x => { x with evt := { x.evt with armed := true, vecEn := true, count := 1 } }) ready; decide ((getCtx 1 s).any fun x => x.evt.armed = true ∧ x.evt.vecEn = true ∧ 0 < x.evt.count)) = true
    ∧ (let s : State := modFn 0 (fun r => { r with pba := [2047] }) ready; decide ((getFn 0 s).isSome ∧ 2047 < fnVectors 0)) = true
    ∧ (let s : State := ticking; decide (s.tim.running = true)) = true := by decide +kernel

theorem witness_DroppedEventsAreReported :
    (getCtx 1 ready).any (fun x => x.evt.hasRoom && decide (x.lostUnsent = 0)) = true
    ∧ (getCtx 1 (modCtx 1 (fun y => { y with evt := { y.evt with tail := 15 } }) ready)).any (fun x => !x.evt.hasRoom) = true
    ∧ (let s := modCtx 1 (fun y => { y with lostUnsent := 3 }) ready; (pageCtx 0 1 s).any fun x => x.evt.hasRoom && decide (x.lostUnsent = 3) && decide (x.state = .live) && headOk x.evt.log2 x.evt.head x.evt.tail 0) = true := by decide +kernel

/-- `ticking` with a measurement on pin 0 in a phase. -/
def measuring (ph : GatePhase) : State :=
  { ticking with tim := { ticking.tim with gates := [some ⟨true, 1, 2, true, 1, 0, 100, 1, ph, 10, 0, false, [], [], 0, 0, 0, false, false, 0, 0, 0, 0, 0, 0, false, 0⟩, none] } }

theorem witness_TimeBaseEvents :
    (let s : State := modCtx 1 (fun x => { x with acc := [⟨1, 0, ⟨.timeWait, sub 1 [(0x20, 100)], []⟩, true, [], none⟩] }) ticking; decide (timeWaits s = [100])) = true
    ∧ (let s : State := { ticking with tim := { ticking.tim with setPending := some ⟨0, 1, 5, 0⟩ } }; decide (s.tim.setPending.isSome = true)) = true
    ∧ (let s : State := { ticking with tim := { ticking.tim with setApplied := true } }; decide (s.tim.running = true ∧ s.tim.setApplied = true ∧ s.tim.ppsLostRaised = false)) = true
    ∧ (let s : State := { ticking with tim := { ticking.tim with setApplied := true, ppsOutEnable := true } }; decide (s.tim.running = true ∧ s.tim.ppsOutEnable = true ∧ s.tim.ppsOutHigh = false ∧ s.tim.setApplied = true)) = true
    ∧ (let s : State := { ticking with tim := { ticking.tim with ppsOutHigh := true, ppsOutFall := 9 } }; decide (s.tim.ppsOutHigh = true)) = true
    ∧ (let s : State := ticking; decide (s.tim.running = true)) = true
    ∧ (let s : State := ticking; decide (s.tim.refclkLost = false)) = true
    ∧ (let s : State := { ticking with tim := { ticking.tim with refclkLost := true } }; decide (s.tim.refclkLost = true)) = true
    ∧ (let s : State := ticking; decide (s.tim.refclkLost = false)) = true
    ∧ (let s : State := { ticking with tim := { ticking.tim with sclkIn := true } }; decide (s.hedge.sclkLost = false ∧ s.tim.sclkIn = true)) = true
    ∧ (let s : State := { ticking with hedge := { ticking.hedge with sclkLost := true } }; decide (s.hedge.sclkLost = true)) = true
    ∧ (let s : State := { ticking with tim := { ticking.tim with relocking := true } }; decide (s.tim.relocking = true ∧ s.hedge.sclkLost = false)) = true := by decide +kernel

theorem witness_TimestampEvents :
    (let s : State := ticking; decide (s.tim.running = true ∧ 81919 < tickSub ∧ edgeExists 1 s = true ∧ (1 : BitVec 3) ≠ 0)) = true
    ∧ (let s : State := ticking; decide (s.tim.running = true ∧ 0 < tickSub)) = true
    ∧ (let s : State := ticking; decide ((getTdc 1 (takeStamps 1 0 s)).openRec = [])) = true
    ∧ (let s : State := modTdc 1 (fun c => { c with owner := some 1, ring := 1, queue := [⟨50, 3, true, false, false⟩] }) ticking; decide (((getTdc 1 (takeStamps 1 1 s)).openRec.head?.any fun p => p.tick = 50) = true)) = true
    ∧ (let s : State := ticking; decide (s.tim.running = true)) = true
    ∧ (let s : State := modTdc 1 (fun c => { c with owner := some 1, ring := 1, stampsSinceCal := 65536 }) ticking; decide ((getTdc 1 s).owner.isSome = true ∧ 2 ^ 16 ≤ (getTdc 1 s).stampsSinceCal)) = true
    ∧ (let s : State := modTdc 1 (fun c => { c with owner := some 1, ring := 1, stampsSinceCal := 65535 }) ticking; decide ((getTdc 1 s).owner.isSome = true ∧ (getTdc 1 s).stampsSinceCal < 2 ^ 16 ∧ (getTdc 1 s).lastCal + 800000 ≤ 800000)) = true := by decide +kernel

theorem witness_EdgesAreStampedOrCounted :
    (let c := getTdc 1 (modTdc 1 (fun c => { c with lastEdge := some 100 }) ready); c.lastEdge.any fun l => decide (100 + 81919 < l + tickSub) && decide (l + tickSub ≤ 100 + 81920)) = true
    ∧ (let c := getTdc 1 (modTdc 1 (fun c => { c with owner := some 1, edges := 3 }) ready); c.owner.isSome && decide (c.edges = 3) && decide (c.queue.length < c.queueRoom)) = true
    ∧ (let c := getTdc 1 (modTdc 1 (fun c => { c with owner := some 1, edges := 1, queue := List.replicate c.queueRoom ⟨0, 0, true, false, false⟩ }) ready); decide (c.queueRoom ≤ c.queue.length) && c.lastEdge.isNone) = true := by decide +kernel

theorem witness_GateEvents :
    (let s : State := measuring .armed; decide ((let t := gatesDue 5 (advanceToTick 5 s); (getGate 0 t).any fun g => g.phase = .armed ∧ true = g.high))) = true
    ∧ (let s : State := measuring .opened; decide ((let t := gatesDue 15 (advanceToTick 15 s); (getGate 0 t).any fun g => g.phase = .opened ∧ false ≠ g.high))) = true
    ∧ (let s : State := measuring .opened; decide ((let t := gatesDue 15 (advanceToTick 15 s); (getGate 0 t).any fun g => g.phase = .opened ∧ true = g.high))) = true
    ∧ (let s : State := measuring (.asserting 8); decide ((getGate 0 s).any fun g => g.phase = .asserting 8)) = true
    ∧ (let s : State := measuring (.closing 20); decide ((getGate 0 s).any fun g => g.phase = .closing 20 ∧ 20 + 2 ≤ g.openTick + g.maxUs * 800)) = true
    ∧ (let s : State := measuring .opened; decide ((getGate 0 s).any fun g => g.phase = .opened)) = true := by decide +kernel

/-- `ready` with a window of 4 KB at 0 of BAR4 and one of a disk's staging. -/
def withWindow : State := { withDram 1 ready with host := { ready.host with windows := [(0, 4096), (stagingBase, 4096)] } }

/-- `inTest` with lane 0 of port 0 in pattern test. -/
def withLane : State := modPort 0 (fun p => { p with test := true, state := 11, width := 16 }) (modLane 0 (fun x => { x with active := true }) inTest)

theorem witness_RegisterAccesses :
    (let s : State := ready; decide (accessBad 0 8 = false ∧ debugOpen 0 0 0 s = false ∧ (match regsIn 0 0 0 8 s with | [r] => decide (r.off = 0 ∧ r.bytes = 8) | _ => false) = true)) = true
    ∧ decide (accessBad 2 4 = true) = true
    ∧ (let s : State := ready; decide (debugOpen 0 0 0x410 s = false ∧ (match regsIn 0 0 0x410 8 s with | [r] => decide (r.off = 0x410 ∧ r.bytes = 16) | _ => false) = true)) = true
    ∧ (let s : State := ready; decide (accessBad 0x418 8 = false ∧ debugOpen 0 0 0x418 s = false ∧ (match regsIn 0 0 0x418 8 s with | [r] => decide (r.off + 8 = 0x418 ∧ r.bytes = 16) | _ => false) = true)) = true
    ∧ (let s : State := ready; decide (vfForbidden 0 0 0x40 = false ∧ fnNumber 0 = 0 ∧ (wideReg 0 0x40 s).any (fun w => w.2) = true)) = true
    ∧ (let s : State := ready; decide (fnNumber 0 = 0 ∧ 0x60 % 8 = 0 ∧ wideReg 0 0x60 s = none)) = true
    ∧ (let s : State := ready; decide (fnNumber 64 = 0 ∧ 0x48 % 8 = 0 ∧ (wideReg 64 0x48 s).any (fun w => w.2) = true)) = true
    ∧ decide (0 % 4 = 0) = true
    ∧ decide (vfForbidden 1 0 0x400 = true) = true
    ∧ decide (accessBad 1 4 = true) = true
    ∧ decide (accessBad 0 2 = true) = true
    ∧ (let s : State := withWindow; decide (inWindow 4088 8 s = true ∧ 4088 < stagingBase)) = true
    ∧ (let s : State := withWindow; decide (inWindow 4089 8 s = false)) = true
    ∧ (let s : State := withWindow; decide (inWindow 4095 1 s = true ∧ 4095 < stagingBase)) = true
    ∧ (let s : State := withWindow; decide (inWindow stagingBase 1 s = true ∧ (BitVec.ofNat 36 stagingBase).toNat = stagingBase)) = true
    ∧ (let s : State := withWindow; decide (inWindow 4096 1 s = false)) = true := by decide +kernel

theorem witness_WindowWritesStoreTheirBytesOnly :
    Memory.wf withWindow.dram.mem = true ∧ inWindow 4095 1 withWindow = true ∧ 4095 < stagingBase := by decide +kernel

theorem witness_ActingWrites :
    decide (fnNumber 0 = 0) = true
    ∧ decide (fnNumber 64 = 0) = true
    ∧ decide (fnNumber 0 = 0) = true
    ∧ decide ((0x1FFE : BitVec 32).getLsbD 0 = false) = true
    ∧ (let s : State := modAmc (fun a => { a with run := false }) ready; decide ((0x0F03 : BitVec 32).getLsbD 0 = true ∧ s.adc.amc.run = false)) = true
    ∧ (let s : State := inTest; decide (effMode s = 12 ∧ (getCtx 0 s).any (fun x => x.fn = 0) ∧ ((0x84005 : BitVec 32).extractLsb' 15 5).toNat ≤ 16)) = true
    ∧ (let s : State := ready; decide (effMode s ≠ 12)) = true
    ∧ decide ((0x1000000 : BitVec 32).getLsbD 26 = false) = true
    ∧ (let s : State := { withLane with link := { withLane.link with scan := { withLane.link.scan with state := 1 } } }; decide ((0 : BitVec 32).getLsbD 25 = false ∧ s.link.scan.state = 1)) = true
    ∧ (let s : State := ready; decide (testLane 0 s = false)) = true
    ∧ (let s : State := ready; decide (testLane 0 s = false)) = true
    ∧ (let s : State := withLane; decide (testLane 0 s = true ∧ (getLane 0 s).locked = false)) = true
    ∧ (let s : State := withLane; decide (testLane 0 s = true ∧ (getLane 0 s).locked = false ∧ (5 : BitVec 32).getLsbD 19 = false)) = true := by decide +kernel

/-- `ready` as Hedge is changed. -/
def guarded (f : Hedge → Hedge) : State := modHedge f ready

/-- `ready` in a power state on its way to another, with pairs and an exit. -/
def powered (st tg : BitVec 3) (e : Option PwrExit) : State := { ticking with pwr := { ticking.pwr with state := st, target := tg, exiting := e } }

/-- The block as Primer's stage `n` ends. -/
def stage (n : BitVec 3) : State := { State.reset with host := { State.reset.host with stage := n }, hedge := { State.reset.hedge with resetN := true, mainOk := true } }

theorem witness_HedgeGuards :
    (let s : State := ready; decide (s.hedge.aoOk = true)) = true
    ∧ (let s : State := ready; decide (s.hedge.protect.getLsbD 1 = false)) = true
    ∧ (let s : State := guarded (fun h => { h with protect := 2 }); decide (s.hedge.protect.getLsbD 1 = true)) = true
    ∧ (let s : State := ready; decide (s.hedge.throttle = false ∧ 64 * s.hedge.throttleC.toNat ≤ (6080 : BitVec 16).toInt)) = true
    ∧ (let s : State := guarded (fun h => { h with throttle := true }); decide (s.hedge.throttle = true)) = true
    ∧ (let s : State := guarded (fun h => { h with throttle := true }); decide ((let hot := modHedge (fun h => { h with temps := modNth h.temps 0 fun _ => (5887 : BitVec 16).toInt, tjPeak := max h.tjPeak (5887 : BitVec 16).toInt }) s
    hot.hedge.throttle = true ∧ tj hot < 64 * s.hedge.throttleC.toNat - 192))) = true
    ∧ (let s : State := guarded (fun h => { h with throttle := true }); decide (s.hedge.throttle = true ∧ s.pwr.mpUp = true ∧ s.pwr.step.toNat < 6)) = true
    ∧ (let s : State := { ready with pwr := { ready.pwr with step := 6 } }; decide (s.hedge.throttle = false ∧ s.pwr.mpUp = true ∧ s.pwr.step ≠ 0)) = true
    ∧ (let s : State := ready; decide (s.hedge.tripped = false ∧ 64 * s.hedge.tripC.toNat ≤ (7040 : BitVec 16).toInt)) = true
    ∧ (let s : State := stage 4; decide (s.hedge.railsOut = [] ∧ s.host.stage ≠ 0)) = true
    ∧ (let s : State := guarded (fun h => { h with railsOut := [16] }); decide (s.hedge.railsOut ≠ [])) = true
    ∧ (let s : State := guarded (fun h => { h with wdogTicks := [0] }); decide (s.pwr.mpUp = true ∧ (recentResets s).length < 2)) = true
    ∧ (let s : State := stage 3; decide (s.pwr.mpUp = false ∧ 2 < s.host.stage.toNat)) = true := by decide +kernel

theorem witness_HedgeRequests :
    (let s : State := ready; decide (requestAllowed 0 1 s = true ∧ (getFn 0 s).isSome = true)) = true
    ∧ (let s : State := guarded (fun h => { h with mboxAllow := 0 }); decide (requestAllowed 0 1 s = false)) = true
    ∧ (let s : State := ready; decide (requestAllowed 0 1 s = true)) = true
    ∧ (let s : State := ready; decide (requestAllowed 0 2 s = true ∧ s.hedge.railsOut = [])) = true
    ∧ (let s : State := guarded (fun h => { h with railsOut := [16] }); decide (requestAllowed 0 2 s = true ∧ s.hedge.railsOut ≠ [])) = true
    ∧ (let s : State := ready; decide (requestAllowed 0 3 s = true ∧ s.pwr.mpUp = true)) = true
    ∧ (let s : State := { ready with host := { ready.host with stage := 7 } }; decide (requestAllowed 0 4 s = true ∧ s.host.stage = 7)) = true
    ∧ (let s : State := ready; decide (requestAllowed 0 4 s = true ∧ s.host.stage ≠ 7)) = true := by decide +kernel

theorem witness_PowerStateEvents :
    (let s : State := powered 1 2 none; decide (s.pwr.state.toNat < s.pwr.target.toNat ∧ s.pwr.exiting = none ∧ s.pwr.target.toNat < 3)) = true
    ∧ (let s : State := powered 1 3 none; decide (s.pwr.state.toNat < s.pwr.target.toNat ∧ s.pwr.exiting = none ∧ 3 ≤ s.pwr.target.toNat ∧ s.pwr.target.toNat < 5)) = true
    ∧ (let s : State := powered 3 6 none; decide (s.pwr.state.toNat < s.pwr.target.toNat ∧ s.pwr.exiting = none ∧ 5 ≤ s.pwr.target.toNat)) = true
    ∧ (let s : State := powered 3 3 none; decide ((nextEvent s).isSome = true ∧ s.pwr.state ≠ 1 ∧ s.pwr.exiting = none)) = true
    ∧ (let s : State := modPair 0 (fun p => { p with invalidLeft := 0 }) (powered 3 1 (some ⟨none⟩)); decide ((s.pwr.exiting.any fun e => e.serves = none) = true ∧ pairsReady s = true ∧ s.pwr.state.toNat < 5)) = true
    ∧ (let s : State := modPair 0 (fun p => { p with invalidLeft := 0 }) (powered 3 1 (some ⟨some 0⟩)); decide ((s.pwr.exiting.any fun e => e.serves = some 0) = true ∧ pairsReady s = true ∧ s.pwr.state.toNat < 5)) = true
    ∧ (let s : State := modPair 0 (fun p => { p with invalidLeft := 0 }) (powered 6 1 (some ⟨none⟩)); decide ((s.pwr.exiting.any fun e => e.serves = none) = true ∧ pairsReady s = true ∧ 5 ≤ s.pwr.state.toNat)) = true := by decide +kernel

theorem witness_PrimerStages :
    (let s : State := stage 1; decide (s.host.stage = 1 ∧ s.hedge.stopped = false)) = true
    ∧ (let s : State := stage 2; decide (s.host.stage = 2 ∧ s.hedge.stopped = false)) = true
    ∧ (let s : State := stage 3; decide (s.host.stage = 3 ∧ s.hedge.stopped = false)) = true
    ∧ (let s : State := stage 4; decide (s.host.stage = 4 ∧ s.hedge.stopped = false)) = true
    ∧ (let s : State := stage 5; decide (s.host.stage = 5 ∧ s.hedge.stopped = false)) = true
    ∧ (let s : State := stage 6; decide (s.host.stage = 6 ∧ s.hedge.stopped = false)) = true
    ∧ (let s : State := stage 7; decide (s.host.stage = 7 ∧ s.hedge.stopped = false)) = true
    ∧ (let s : State := stage 0; decide (s.host.stage = 0 ∧ s.hedge.stopped = false)) = true := by decide +kernel

theorem witness_StartsAndResets :
    decide (True) = true
    ∧ decide (True) = true
    ∧ decide (True) = true
    ∧ (let s : State := stage 3; decide (s.hedge.resetN = true ∧ s.host.stage ≠ 0)) = true
    ∧ (let s : State := modHedge (fun h => { h with mainOk := false }) (stage 0); decide (mayStart { s with hedge := { s.hedge with mainOk := true } } = true ∧ s.host.stage = 0)) = true
    ∧ decide (True) = true
    ∧ (let s : State := State.reset; decide (s.host.stage = 0)) = true
    ∧ (let s : State := stage 7; decide (mayStart s = true ∧ s.host.stage ≠ 0)) = true
    ∧ decide (True) = true
    ∧ decide (True) = true
    ∧ decide (True) = true
    ∧ (let s : State := stage 2; decide (s.hedge.stopped = false ∧ 2 ≤ s.host.stage.toNat)) = true
    ∧ (let s : State := stage 5; decide (s.hedge.stopped = false ∧ 2 ≤ s.host.stage.toNat)) = true
    ∧ (let s : State := stage 1; decide (s.hedge.resetN = true)) = true
    ∧ decide (True) = true
    ∧ decide (True) = true
    ∧ decide (True) = true
    ∧ (let s : State := ready; decide (s.pwr.mpUp = true ∧ (List.replicate 16 (3 : BitVec 8)).length = 16)) = true := by decide +kernel

/-- `ready` as port 0 is changed. -/
def port0 (f : Port → Port) : State := modPort 0 (fun x => f { x with refOk := true }) ready

/-- The link of port 0 is up, sixteen lanes wide, in L0. -/
def linked : State := modPort 0 (fun x => { x with linkUp := true, width := 16, rate := 5, state := 3 }) { ready with host := { ready.host with stage := 7 } }

/-- `linked` with lane 1 active at a rate. -/
def lane1 (f : Lane → Lane) : State := modLane 1 (fun x => f { x with active := true, rate := 4 }) linked

/-- `linked` with the negotiation at a stage and keys. -/
def spoken (n : Nat) : State := { linked with trust := { linked.trust with nego := [(0, n)], keysValid := true } }

/-- `spoken` with session 5, finished or not. -/
def inSession (f : Bool) : State := { spoken 3 with trust := { (spoken 3).trust with sessions := [⟨0, 5, 9, f, 0⟩] } }

/-- `ready` with a binding in slot 0. -/
def withDisk (f : Binding → Binding) : State := withExports 7 [] [f aBinding]

/-- A command under way. -/
def aCmd : DiskCmd := ⟨3, 0, 8, 4096, [⟨2, 0, 0, 8, 4096, 0, 0⟩], false, false⟩

theorem witness_LinkEvents :
    (let s : State := linked; decide ((getPort 0 s).linkUp = true)) = true
    ∧ (let s : State := linked; decide ((getPort 0 s).linkUp = true)) = true
    ∧ decide (True) = true
    ∧ decide (True) = true
    ∧ (let s : State := linked; decide ((getPort 0 s).linkUp = true ∧ ((getPort 0 s).state ≠ 6 ∨ (getPort 0 s).l1Sub ≠ 2))) = true
    ∧ (let s : State := linked; decide ((getPort 1 s).linkUp = false)) = true
    ∧ decide (True) = true
    ∧ (let s : State := { port0 id with host := { ready.host with stage := 4 } }; decide ((let x := getPort 0 s; 3 ≤ s.host.stage.toNat ∧ x.test = false ∧ x.perst = false ∧ x.refOk = true ∧ x.linkUp = false ∧
    (2 : BitVec 3).toNat ≠ 0 ∧ (16 : BitVec 5).toNat ∈ [4, 8, 16] ∧ (2 : BitVec 3).toNat ≤ advertised 0 16 s))) = true
    ∧ (let s : State := linked; decide ((getPort 0 s).linkUp = true ∧ (getPort 0 s).state = 3 ∧ (getPort 0 s).l0sIdle ≠ 0)) = true
    ∧ (let s : State := linked; decide ((getPort 0 s).linkUp = true ∧ (getPort 0 s).state = 3)) = true
    ∧ (let s : State := linked; decide ((getPort 0 s).linkUp = true ∧ (getPort 0 s).state = 3 ∧ (getPort 0 s).l1Idle ≠ 0 ∧ portReserved 0 s = false)) = true
    ∧ (let s : State := { withExports 6 [anExport] [] with link := linked.link }; decide ((getPort 0 s).linkUp = true ∧ portReserved 0 s = true)) = true
    ∧ (let s : State := modPort 0 (fun x => { x with state := 6, l1Sub := 1 }) (lane1 fun x => { x with elecIdle := true }); decide ((getLane 1 s).active = true ∧ (getLane 1 s).elecIdle = true ∧ (getPort 0 s).state = 6 ∧ 0 < s.link.ports.length)) = true
    ∧ (let s : State := lane1 id; decide ((getLane 1 s).active = true ∧ 4 ≤ (getLane 1 s).rate.toNat)) = true
    ∧ (let s : State := lane1 id; decide ((getLane 1 s).active = true ∧ 4 ≤ (getLane 1 s).rate.toNat ∧ s.link.scan.runLane ≠ 1)) = true := by decide +kernel

theorem witness_LaneTestEvents :
    (let s : State := modScan (fun x => { x with state := 1 }) withLane; decide (s.link.scan.state = 1 ∧ (getLane s.link.scan.runLane.toNat s).elecIdle = false)) = true
    ∧ (let s : State := modScan (fun x => { x with state := 1 }) withLane; decide (s.link.scan.state = 1)) = true
    ∧ (let s : State := withLane; decide (s.link.scan.state ≠ 1)) = true
    ∧ (let s : State := modLane 0 (fun x => { x with chkEn := true, pattern := 1 }) withLane; decide (testLane 0 s = true ∧ (getLane 0 s).chkEn = true ∧ (getLane 0 s).pattern ≠ 0 ∧ (getLane 0 s).locked = false)) = true
    ∧ (let s : State := modLane 0 (fun x => { x with chkEn := true, pattern := 1, locked := true }) withLane; decide (testLane 0 s = true ∧ (getLane 0 s).locked = true ∧ 0 < s.link.lanes.length)) = true
    ∧ (let s : State := withLane; decide (testLane 1 s = false)) = true := by decide +kernel

theorem witness_AttestationRequests :
    (let s : State := linked; decide ((getPort 0 s).linkUp = true)) = true
    ∧ (let s : State := spoken 1; decide ((getPort 0 s).linkUp = true ∧ 1 ≤ negoStage 0 s)) = true
    ∧ (let s : State := spoken 2; decide ((getPort 0 s).linkUp = true ∧ 2 ≤ negoStage 0 s)) = true
    ∧ (let s : State := spoken 2; decide ((getPort 0 s).linkUp = true ∧ 2 ≤ negoStage 0 s)) = true
    ∧ (let s : State := linked; decide ((getPort 0 s).linkUp = true ∧ negoStage 0 s = 0)) = true
    ∧ (let s : State := { spoken 3 with trust := { (spoken 3).trust with debug := true } }; decide ((getPort 0 s).linkUp = true ∧ 3 ≤ negoStage 0 s ∧ s.trust.debug = true)) = true
    ∧ (let s : State := spoken 3; decide ((getPort 0 s).linkUp = true ∧ 3 ≤ negoStage 0 s ∧ s.trust.debug = false ∧ s.trust.keysValid = true)) = true
    ∧ decide (True) = true
    ∧ decide (True) = true
    ∧ (let s : State := spoken 3; decide (1 ∈ s.trust.meas.map (·.1))) = true
    ∧ (let s : State := spoken 3; decide ((s.trust.sessions.filter fun x => decide (x.port = 0)).length < 4 ∧ ∀ x ∈ s.trust.sessions, x.id ≠ 5)) = true := by decide +kernel

theorem witness_SessionsAndTrustEvents :
    (let s : State := inSession false; decide ((getPort 0 s).linkUp = true ∧ 3 ≤ negoStage 0 s ∧ (findSession 0 5 s).any (fun x => x.finished = false))) = true
    ∧ decide (True) = true
    ∧ (let s : State := inSession true; decide ((getPort 0 s).linkUp = true ∧ 3 ≤ negoStage 0 s ∧ (findSession 0 5 s).any (fun x => x.finished = true))) = true
    ∧ decide (True) = true
    ∧ decide (True) = true
    ∧ decide (True) = true
    ∧ decide ((4 : BitVec 8).toNat ≤ 4) = true
    ∧ (let s : State := inSession true; decide (∀ y ∈ s.trust.ide, y.port = 0 → y.id = 4 → y.keySet = false)) = true
    ∧ (let s : State := ready; decide (∀ x ∈ s.trust.ide, x.port = 0 → x.id = 4 → x.secure = false)) = true
    ∧ (let s : State := { State.reset with trust := { State.reset.trust with ide := [⟨0, 4, true, true⟩] } }; decide ((s.trust.ide.any fun x => x.port = 0 ∧ x.id = 4 ∧ x.secure = true) = true ∧ getCtx 0 s = none)) = true
    ∧ (let s : State := linked; decide (3 ≤ s.host.stage.toNat ∧ 2 ≠ s.trust.dbgNonce)) = true
    ∧ (let s : State := linked; decide (3 ≤ s.host.stage.toNat)) = true
    ∧ (let s : State := stage 2; decide (s.host.stage.toNat < 3)) = true := by decide +kernel

theorem witness_DiskEvents :
    (let s : State := withDisk (fun b => { b with state := .awaiting }); decide ((getBinding 0 s).any fun b => b.state = .awaiting ∧ b.queuePairs ≤ 1 ∧ (([65535] : List Nat).take b.queuePairs).eraseDups = [65535] ∧ 2048 % 2 ^ b.lbaLog2 = 0)) = true
    ∧ (let s : State := withDisk (fun b => { b with state := .awaiting }); decide ((getBinding 0 s).any fun b => b.state = .awaiting ∧ 0 < b.queuePairs)) = true
    ∧ (let s : State := withDisk id; decide ((getBinding 0 s).any fun b => b.state ≠ .awaiting)) = true
    ∧ (let s : State := withDisk id; decide ((getBinding 0 s).any fun b => b.extent = [])) = true
    ∧ (let s : State := withDisk (fun b => { b with extent := [⟨2, 0, 0, 8, 4096, 0, 0⟩] }); decide ((getBinding 0 s).any fun b => b.extent ≠ [] ∧ b.nextLba + b.extentLbas ≤ b.firstLba + b.lbaCount)) = true
    ∧ (let s : State := withDisk (fun b => { b with outstanding := [aCmd] }); decide ((getBinding 0 s).any fun b => (b.outstanding.find? (fun c => decide (c.cid = 3))).any fun c => c.flush = false)) = true
    ∧ (let s : State := withDisk (fun b => { b with outstanding := [aCmd], failures := 7 }); decide ((getBinding 0 s).any fun b => (b.outstanding.find? (fun c => decide (c.cid = 3))).isSome ∧ 7 ≤ b.failures)) = true
    ∧ (let s : State := withDisk (fun b => { b with outstanding := [aCmd] }); decide ((getBinding 0 s).any fun b => b.outstanding ≠ [])) = true
    ∧ (let s : State := withDisk id; decide ((getBinding 0 s).any fun b => b.outstanding = [])) = true := by decide +kernel

/-- `ticking` with output 0 enabled as changed. -/
def shown (f : DOut → DOut) : State := modOut 0 (fun o => f { o with enabled := true, owner := 1, refresh := 600, areaMb := 1 }) ticking

/-- Context 1's descriptor waits for a panel's answer. -/
def aPanel : PanelCmd := ⟨(1, 1), 0, 4096, 0⟩

/-- `ticking` with rank 0 of channel 0 as changed. -/
def ranked (f : Rank → Rank) : State := modRank 0 0 f ticking

theorem witness_DisplayEvents :
    (let s : State := shown id; decide ((getOut 0 s).enabled = true ∧ (getOut 0 s).cmdMode = false)) = true
    ∧ (let s : State := shown id; decide ((getOut 1 s).enabled = false)) = true
    ∧ (let s : State := shown (fun d => { d with cmdMode := true }); decide ((let d := getOut 0 s; d.enabled = true ∧ d.cmdMode = true ∧ d.inFallback = false ∧ d.busyUntil ≤ nowTick (advanceToTick 5 s)))) = true
    ∧ (let s : State := shown (fun d => { d with cmdMode := true, busyUntil := 6 }); decide ((let d := getOut 0 s; d.enabled = true ∧ d.cmdMode = true ∧ d.inFallback = false ∧ nowTick (advanceToTick 5 s) < d.busyUntil))) = true
    ∧ decide (True) = true
    ∧ (let s : State := shown (fun d => { d with cmdMode := true, teTimeout := 1000 }); decide ((let d := getOut 0 s; d.enabled = true ∧ d.cmdMode = true ∧ d.teTimeout ≠ 0 ∧ d.teRaised = false))) = true
    ∧ (let s : State := shown (fun d => { d with cmdMode := true, inFallback := true }); decide ((let d := getOut 0 s; d.enabled = true ∧ d.cmdMode = true ∧ d.inFallback = true))) = true
    ∧ (let s : State := shown (fun d => { d with releases := [⟨2, 9⟩] }); decide ((getOut 0 s).releases = [⟨2, 9⟩])) = true
    ∧ (let s : State := shown (fun d => { d with panel := some aPanel }); decide ((getOut 0 s).panel = some aPanel)) = true
    ∧ (let s : State := shown (fun d => { d with panel := some aPanel }); decide ((getOut 0 s).panel = some aPanel)) = true
    ∧ (let s := shown (fun d => { d with cmdMode := true }); (getOut 0 s).enabled && decide (0 < s.dpy.outs.length)) = true := by decide +kernel

theorem witness_MemoryControllerEvents :
    (let s : State := ranked (fun r => { r with debt := -1 }); decide (refreshes 0 0 s = true ∧ (getRank 0 0 s).owed = [] ∧ (getRank 0 0 s).debt < 0 ∧ -8 ≤ (getRank 0 0 s).debt)) = true
    ∧ (let s : State := ranked (fun r => { r with debt := -8 }); decide (refreshes 0 0 s = true ∧ (getRank 0 0 s).owed = [] ∧ (getRank 0 0 s).debt < 0 ∧ -8 ≤ (getRank 0 0 s).debt)) = true
    ∧ (let s : State := ticking; decide (refreshes 12 0 s = false)) = true
    ∧ decide (True) = true
    ∧ decide (True) = true
    ∧ (let s : State := ticking; decide (s.dram.dataSpace < 0x3FFFFFFFF * 128 + 128)) = true
    ∧ (let s : State := ticking; decide (0 * 128 + 128 ≤ s.dram.dataSpace ∧ 0 ∉ s.dram.poison)) = true
    ∧ decide (True) = true
    ∧ decide (True) = true
    ∧ (let s : State := ticking; decide (refreshes 0 0 s = true)) = true
    ∧ (let s : State := ticking; decide (refreshes 0 0 s = true)) = true
    ∧ (let s : State := ticking; decide (11 < s.dram.chans.length ∧ (getChan 11 s).online = true)) = true
    ∧ (let s : State := modChan 0 (fun c => { c with parity := 1 }) ticking; decide (0 < s.dram.chans.length ∧ (getChan 0 s).online = true ∧ 0 < (getChan 0 s).parity)) = true
    ∧ (let s : State := ticking; decide (s.dram.nbrEn = true ∧ refreshes 0 0 s = true ∧ ((getChan 0 s).queue.filter fun q => decide (q.1 = 0) && decide (q.2.1 = 5)).length < 4)) = true
    ∧ (let s : State := modChan 0 (fun c => { c with queue := [(0, 5, 9)] }) ticking; decide (refreshes 0 0 s = true ∧ (getChan 0 s).queue.find? (fun q => decide (q.1 = 0) && decide (q.2.1 = 5)) = some (0, 5, 9))) = true
    ∧ decide (True) = true := by decide +kernel

/-- A set of nominal coefficients. -/
def nominal : CoefSet := CoefSet.nominal

/-- `ticking` as Skim of pair 0 is changed. -/
def skimmed (f : Skim → Skim) : State := modSkim 0 f ticking

/-- A word of zeros at an index. -/
def wordAt (i : Nat) : HWord := ⟨i, 0, 0, List.replicate 8 0⟩

/-- `ticking` with a zoom chain of plan 1 on front unit 0 and slot 0. -/
def zooming (f : Nco → Nco) : State :=
  { ticking with
    plans := [aPlan .running []]
    zdc := { fronts := modNth ticking.zdc.fronts 0 fun x => { x with plan := some 1, dec := 3, subs := 1, nco := f x.nco, hist := [wordAt 1000000] }
             slots := modNth ticking.zdc.slots 0 fun x => { x with plan := some 1, nco := f x.nco } } }

/-- `withCapture` as unit 0 is changed. -/
def unit0 (f : TUnit → TUnit) : State := modUnit 0 f withCapture

/-- A bundle with one word. -/
def oneWord : Bundle := ⟨1, false, 1, 1, 1, 1, 0, [0, 0, 0, 0], [8, 0, 0, 0], [[wordAt 0], [], [], []], [], 512⟩

/-- The replay feed runs. -/
def fed (b : Bundle) : State :=
  { ready with mode := { ready.mode with mode := 11, replayed := 1 }, fr := { ready.fr with loaded := some b, feeding := true } }

/-- An event of AUTO. -/
def anEvent : TEvent := ⟨false, 9, 0, 0, 0, false⟩

/-- `withCapture` with a capture whose one segment is open, and its slot. -/
def openCapture : State :=
  let s := withCapture
  { s with trg := { s.trg with
      slots := [⟨1, 0, 1, some 0, 8, 0, false, false⟩]
      rings := s.trg.rings.map fun r => { r with next := 64 }
      caps := s.trg.caps.map fun c => { c with complete := false, segs := c.segs.map fun g => { g with closed := false } } } }

theorem witness_ConverterEvents :
    (let s : State := ticking; decide (formsWords 0 s = true ∧ (List.replicate 8 (5 : Int)).length = 8 ∧ replaying s = false)) = true
    ∧ (let s : State := ticking; decide (formsWords 0 s = true)) = true
    ∧ (let s : State := ticking; decide (formsWords 3 s = false)) = true
    ∧ (let s : State := modPair 0 (fun p => { p with next := 2 ^ 30 }) ticking; decide (s.adc.csu.run = true ∧ (s.adc.pairs.any fun p => p.running) = true ∧ (∀ p ∈ s.adc.pairs, p.running = true → s.adc.csu.start + s.adc.csu.size ≤ p.next))) = true
    ∧ (let s : State := ticking; decide (s.adc.amc.urgent = none ∧ s.adc.amc.cur = none)) = true
    ∧ (let s : State := modAmc (fun a => { a with cur := some (3, 64) }) ticking; decide (s.adc.amc.urgent = none ∧ s.adc.amc.cur = some (3, 64) ∧ s.adc.amc.queue = [] ∧ s.adc.amc.run = true)) = true
    ∧ (let s : State := modAmc (fun a => { a with queue := [⟨true, 5, 6⟩] }) ticking; decide ((⟨true, 5, 6⟩ : AmcReq) ∈ s.adc.amc.queue)) = true
    ∧ (let s : State := ticking; decide ((⟨true, 5, 6⟩ : AmcReq) ∉ s.adc.amc.queue ∧ s.adc.amc.queue.length < 8)) = true
    ∧ (let s : State := modPair 0 (fun p => { p with next := 2 ^ 24 }) (skimmed fun k => { k with blkWords := 5, blkBad := true }); decide ((getSkim 0 s).blkWords ≠ 0 ∧ (getPair 0 s).next % 2 ^ 24 = 0 ∧ (getSkim 0 s).blkBad = true)) = true
    ∧ (let s : State := ticking; decide (nominal.length = 34 ∧ setOk nominal = true ∧ s.pwr.mpUp = true)) = true
    ∧ (let s : State := skimmed (fun k => { k with held := some ⟨nominal, 1, 0, false⟩ }); decide ((getSkim 0 s).held.isSome ∧ (getSkim 0 s).fenceEnd ≤ (getPair 0 s).next ∧ 0 < s.skm.pairs.length)) = true
    ∧ (let s : State := modPair 0 (fun p => { p with next := 2 ^ 40 }) (skimmed fun k => { k with held := some ⟨nominal, 1, 0, false⟩ }); decide ((getSkim 0 s).held.any fun h => h.since + 8 * w10 s ≤ (getPair 0 s).next)) = true
    ∧ (let s : State := modPair 0 (fun p => { p with foreground := true }) ticking; decide ((getPair 0 s).foreground = true ∧ (∀ c ∈ List.replicate 16 nominal, c.length = 34 ∧ setOk c = true))) = true
    ∧ (let s : State := modPair 0 (fun p => { p with foreground := true }) ticking; decide ((getPair 0 s).foreground = true)) = true := by decide +kernel

theorem witness_AccumulatorsHoldTheirAverages :
    ([-0x8000, 0x7FFF, 5].all fun v : Int => decide (-0x8000 ≤ v) && decide (v ≤ 0x7FFF)) = true := by decide +kernel

theorem witness_ZoomAndSpectrumEvents :
    (let s : State := ready; decide ((zoomWord 31 s).isNone)) = true
    ∧ (let s : State := zooming id; decide ((getSlot 0 s).plan = some 1 ∧ (zoomWord 0 s).isSome)) = true
    ∧ (let s : State := zooming (fun n => { n with hop := [(5, 1), (6, 1)], hopNext := some 0 }); decide ((let f := getFront 0 s; 0 < s.zdc.fronts.length ∧ f.plan.isSome = true ∧ f.nco.hopNext = some 0 ∧ 0 ≤ pairNext f.pair s ∧ f.nco.request = none))) = true
    ∧ (let s : State := zooming (fun n => { n with request := some (7, 0) }); decide ((let f := getFront 0 s; 0 < s.zdc.fronts.length ∧ f.plan.isSome = true ∧ f.nco.request = some (7, 0) ∧ 0 ≤ pairNext f.pair s ∧ f.nco.hopNext = none))) = true
    ∧ (let s : State := zooming (fun n => { n with hop := [(5, 1), (6, 1)], hopNext := some 0 }); decide ((let sl := getSlot 0 s; 0 < s.zdc.slots.length ∧ sl.plan.isSome = true ∧ sl.nco.hopNext = some 0 ∧ sl.nco.request = none))) = true
    ∧ (let s : State := { withStream with dsp := { Dsp.reset with streams := [{ aStream with hist := (List.range 32).map fun k => (248 - 8 * k, wordAt (248 - 8 * k)) }] } }; decide ((getX 1 0 s).any fun x => x.ready = true)) = true
    ∧ (let s : State := withStream; decide ((getX 1 0 s).any fun x => x.ready = false)) = true := by decide +kernel

theorem witness_TriggerEvents :
    (let s : State := unit0 (fun u => { u with held := [anEvent] }); decide ((getUnit 0 s).held = [anEvent] ∧ (getUnit 0 s).waitB = false ∧ autoStands 0 s = false)) = true
    ∧ (let s : State := { unit0 (fun u => { u with armed := true }) with plans := [aPlan .running [⟨6, 0, 64, blk 128 [(0, 6), (2, 128), (8, 9), (0x0A, 1), (0x30, 0)]⟩]] }; decide ((getUnit 0 s).plan = some 1 ∧ autoStands 0 s = true ∧ planRuns 1 s = true ∧ forcingPoint 0 s ≤ planNext 1 s * 65536)) = true
    ∧ (let s : State := unit0 (fun u => { u with missed := [⟨0, anEvent, 1, 0⟩] }); decide ((getUnit 0 s).plan = some 1 ∧ (getUnit 0 s).missed = [⟨0, anEvent, 1, 0⟩] ∧ (unitBlk 0 s).f 0x0D 1 = 0)) = true
    ∧ (let s : State := { unit0 (fun u => { u with missed := [⟨0, anEvent, 1, 0⟩] }) with plans := [aPlan .running [⟨6, 0, 64, blk 128 [(0, 6), (2, 128), (0x0D, 1)]⟩]] }; decide ((getUnit 0 s).plan = some 1 ∧ (getUnit 0 s).missed = [⟨0, anEvent, 1, 0⟩] ∧ (unitBlk 0 s).f 0x0D 1 = 1 ∧ ringStream (planCtx 1 s) 1 s = some 2 ∧ (getStream 2 s).any (fun st => st.waiting = [] ∧ (findPlace st st.seq 192 s).isSome = true))) = true
    ∧ (let s : State := openCapture; decide ((getCapSlot 1 0 s).any fun cs => cs.cur.any fun k => (getCapture 1 0 k s).any fun c => c.openSeg.any fun g => (getCap c.ring s).any fun r => g.fin ≤ r.next ∧ (getCapture 1 0 c.num (closeSegment c g s)).isSome)) = true
    ∧ (let s : State := openCapture; decide ((getCapSlot 1 0 s).any fun cs => (slotRing 1 0 s).any fun r => cs.lastRearm < cs.rearm ∧ cs.rearm ≤ r.next)) = true
    ∧ (let s : State := modCapSlot 1 0 (fun c => { c with rearm := 65 }) openCapture; decide ((getCapSlot 1 0 s).any fun cs => (slotRing 1 0 s).any fun r => r.next < cs.rearm)) = true
    ∧ (let s : State := modTrg (fun t => { t with out := { t.out with due := [(5, 3)] } }) ticking; decide (s.trg.out.due = [(5, 3)] ∧ s.trg.out.high = false)) = true
    ∧ (let s : State := modTrg (fun t => { t with out := { t.out with due := [(5, 3)], high := true, fallAt := 6 } }) ticking; decide (s.trg.out.due = [(5, 3)] ∧ s.trg.out.high = true ∧ 5 < s.trg.out.fallAt)) = true
    ∧ (let s : State := modTrg (fun t => { t with out := { t.out with high := true, fallAt := 6 } }) ticking; decide (s.trg.out.high = true)) = true := by decide +kernel

theorem witness_ReplayEvents :
    (let s : State := fed oneWord; decide (replaying s = true ∧ s.fr.feeding = true ∧ s.fr.ended = false ∧ (nextReplay s).any fun p => p.2.index = nth s.fr.pos p.1 0)) = true
    ∧ (let s : State := { fed { oneWord with fin := [0, 0, 0, 0] } with plans := [aPlan .running []] }; decide (replaying s = true ∧ s.fr.loaded.isSome ∧ nextReplay s = none)) = true
    ∧ (let s : State := fed { oneWord with fin := [0, 0, 0, 0] }; decide (replaying s = true ∧ nextReplay s = none)) = true := by decide +kernel

/-- The block with kernel 1 of context 1 on unit 0, its scratch in S, as the unit is changed. -/
def unitRun (f : Lsu → Lsu) : State :=
  modLsu 0 (fun l => f { l with kernel := 1, state := 1 }) { ready with spu := { ready.spu with kernels := [{ aKernel with scratchKb := 64, scratchInS := true }] } }

/-- A tap with `n` bytes of ring. -/
def aTap (n : Nat) : Tap := ⟨1, 1, 0, 0, 0, 1, 1, 0, n, 0, 0, true, 0, 0, 0, false⟩

/-- An offer of 64 bytes. -/
def anOffer : TapOffer := ⟨0, 1, true, 64, []⟩

/-- A DMA descriptor of one row of 16 bytes to scratch, or with a reserved operation. -/
def aDma (op : Nat) : DmaDesc := BitVec.ofNat 256 (op + 16 * 2 ^ (8 * 0x10) + 2 ^ (8 * 0x14))

/-- A word that fails parity. -/
def aFailure : WordFailure := ⟨true, 5, 6, 1, false, 0⟩

/-- A machine check under way. -/
def aRecovery (rom : Bool) : Recovery := ⟨[1], 1, rom, false, false, false⟩

theorem takes_of {l : Lsu} (h : (decide (l.kernel ≠ 0) && decide (l.state = 1) && l.recovery.isNone && l.halting.isNone && !l.inB1
    && decide (l.pend.toNat &&& bits l.b0.ctl.toNat 8 6 ≠ 0) && (l.long.isSome || (l.rep.isNone && !l.afterRep && !l.afterReti && l.loop.isNone))) = true) :
    l.takesInterrupt := by
  simp only [Bool.and_eq_true, Bool.or_eq_true, decide_eq_true_eq, Option.isNone_iff_eq_none, Bool.not_eq_true'] at h
  obtain ⟨⟨⟨⟨⟨⟨h1, h2⟩, h3⟩, h4⟩, h5⟩, h6⟩, h7⟩ := h
  refine ⟨h1, Or.inl h2, h3, h4, h5, h6, ?_⟩
  rcases h7 with h | ⟨⟨⟨a, b⟩, c⟩, d⟩
  · exact Or.inl h
  · exact Or.inr ⟨a, b, c, d⟩

/-- An enabled source pends at a boundary, and at a safe point. -/
theorem witness_takesInterrupt :
    (getLsu 0 (unitRun fun l => { l with pend := 1, b0 := { l.b0 with ctl := 0x100 } })).takesInterrupt
    ∧ (getLsu 0 (unitRun fun l => { l with pend := 0x20, b0 := { l.b0 with ctl := 0x2000 }, long := some ⟨false, 0x88, 0, 0, [0, 64, 0, 0, 0], []⟩ })).takesInterrupt :=
  ⟨takes_of (by decide +kernel), takes_of (by decide +kernel)⟩

theorem witness_UnitEvents :
    (let s : State := unitRun fun l => { l with pend := 1, b0 := { l.b0 with ctl := 0x100 } }; decide ((getLsu 0 s).waiting = false ∧ (getKernel (getLsu 0 s).kernel s).isSome)) = true
    ∧ (let s : State := unitRun fun l => { l with long := some ⟨false, 0x88, 0, 0, [0, 64, 0, 0, 0], []⟩ }; decide ((getLsu 0 s).long.isSome ∧ (getLsu 0 s).recovery = none)) = true
    ∧ (let s : State := unitRun fun l => { l with offers := [anOffer], taps := [aTap 64] }; decide ((let l := getLsu 0 s; l.offers = [anOffer] ∧ l.taps[anOffer.tap]?.any fun t => t.ringBytes < (t.head - t.tail).toNat + (32 + roundUp anOffer.bytes 16)))) = true
    ∧ (let s : State := unitRun fun l => { l with offers := [anOffer], taps := [aTap 4096] }; decide ((let l := getLsu 0 s; l.offers = [anOffer] ∧ l.taps[anOffer.tap]?.any fun t => (t.head - t.tail).toNat + (32 + roundUp anOffer.bytes 16) ≤ t.ringBytes))) = true
    ∧ (let s : State := unitRun fun l => { l with dma := [[(0, aDma 3)], [], [], []] }; decide ((let l := getLsu 0 s; (l.dmaNext 0).any fun p => dmaLegal l p.2 s = false))) = true
    ∧ (let s : State := unitRun fun l => { l with dma := [[(0, aDma 1)], [], [], []] }; decide ((let l := getLsu 0 s; (l.dmaNext 0).any fun p => dmaLegal l p.2 s = true ∧ (dmaWindow l p.2 s).isSome ∧ p.2.f 0x10 4 ≠ 0))) = true
    ∧ (let s : State := unitRun fun l => { l with timerArmed := true, waiting := true, timerCmp := 9 }; decide ((let l := getLsu 0 s; l.kernel ≠ 0 ∧ l.timerArmed = true ∧ l.waiting = true ∧ l.cycle ≤ l.timerCmp))) = true
    ∧ (let s : State := unitRun fun l => { l with emits := [⟨0, 16, 1, 5⟩] }; decide ((let l := getLsu 0 s; l.emits.length = 1 ∧ (getKernel l.kernel s).isSome))) = true
    ∧ (let s : State := unitRun fun l => { l with ending := some 2 }; decide ((let l := getLsu 0 s; l.ending = some 2 ∧ l.kernel ≠ 0 ∧ l.mayEnd = true))) = true := by decide +kernel

theorem witness_ControlStoreRecovery :
    (let s : State := unitRun id; decide ((let l := getLsu 0 s; l.kernel ≠ 0 ∧ l.state = 1 ∧ l.recovery = none ∧ s.spu.injArm = false ∧ aFailure.visible = false ∧ aFailure.patch = true ∧ wordParity aFailure.word ≠ 0))) = true
    ∧ (let s : State := unitRun fun l => { l with state := 3, recovery := some (aRecovery false) }; decide ((getLsu 0 s).recovery.any fun r => r.rom = false)) = true
    ∧ (let s : State := unitRun fun l => { l with state := 3, recovery := some (aRecovery true) }; decide (((getLsu 0 s).recovery.any fun r => r.rom = true ∧ r.injected = false) ∧ s.spu.spareUsed = false ∧ s.spu.spare ≠ 31)) = true
    ∧ (let s : State := { ready with spu := { ready.spu with patchState := 1 } }; decide (wordParity 1 ≠ 0 ∧ s.spu.patchState = 1)) = true
    ∧ (let s : State := ready; decide ((let l := getLsu 5 s; wordParity 1 ≠ 0 ∧ l.phys = 5 ∧ l.state = 0 ∧ ((List.range 5).all fun m => (getLsu m s).phys ≠ 5) = true ∧ s.spu.spareUsed = false ∧ s.spu.spare ≠ 31))) = true := by decide +kernel

theorem witness_IllegalInstructions :
    (let s : State := unitRun id; decide (((spuRow (.vadd 0 0x7000000000000)).any fun r => r.2.2.2.ok r.2.1 = false) = true ∧ (getLsu 0 s).mayIssue = true ∧ (getLsu 0 s).waiting = false)) = true
    ∧ (let s : State := unitRun id; decide (((spuRow (.halt 0 0xFF000000000000)).any fun r => r.2.2.2.ok r.2.1 = false) = true ∧ (getLsu 0 s).mayIssue = true ∧ (getLsu 0 s).waiting = false)) = true
    ∧ (let s : State := unitRun fun l => { l with rep := some ⟨0, 1, 5⟩ }; decide (((spuRow (.br 0 8)).any fun r => (getLsu 0 s).inBody r.2.2.1 = false) = true ∧ (getLsu 0 s).mayIssue = true ∧ (getLsu 0 s).waiting = false)) = true := by decide +kernel

theorem witness_ResultsRetire :
    (let l := Lsu.reset 0; l.flight.isEmpty && !l.timerArmed && decide (l.cur.a.length = 16) && decide (15 < 16)) = true := by decide +kernel

theorem witness_StoresWriteTheirBytesOnly :
    (let l := getLsu 0 (unitOf id); (l.updated 0).isSome && decide (0 < (unitOf id).spu.lsus.length)) = true ∧ mayIssueNow (.vst 0 0) (unitOf id) = true ∧ mayIssueNow (.stw 0 0) (unitOf id) = true := by decide +kernel


/-! ### The block -/

/-- A queue with a command at its front, and an empty one. -/
theorem witness_StepsRunTheFrontCommand : (∃ c rest, ({ ready with pending := [.mr4Poll, .ppsLost] } : State).pending = c :: rest) ∧ ready.pending = [] :=
  ⟨⟨_, _, rfl⟩, rfl⟩

/-- A legal state, busier than reset, on which a command steps. -/
theorem witness_LegalFieldsStayLegal : ({ ready with pending := [.mr4Poll] } : State).Legal ∧ ∃ t, Machine.step { ready with pending := [.mr4Poll] } = .next t :=
  ⟨by unfold State.Legal; decide +kernel, ⟨_, rfl⟩⟩

/-! ### Values that the spec states -/

/-- The regions of every mode fill Analysis Memory's 160 MB (R31). -/
theorem test_partitions : ((rangeFrom 1 12).all fun m => decide ((partitionOf m).sum = 160)) = true := by decide

/-- At 12.8 GS/s a word lasts 0.625 ns: 10 ms are 16,000,000 words (R135). -/
theorem test_w10 : w10 State.reset = 16000000 := by decide

/-- The dead time of 1.25 ns is one tick of 81,920 steps of 2^-16 ns (R70, R71). -/
theorem test_tick : tickSub = 81920 := by decide

/-- REFCLK periods give 12.8 GS/s, not 13 GS/s (R2, R50). -/
theorem test_rates : rateOk 12800000000 1 State.reset = true ∧ rateOk 13000000000 1 State.reset = false := by decide +kernel

/-- Saturating counters stop at their top (R372). -/
theorem test_saturate : satInc (0xFFFF : BitVec 16) = 0xFFFF ∧ satInc (7 : BitVec 16) = 8 := by decide

/-! ### The spec's worked examples -/

/-- An anchor with the sample index, offset and rate of the example of 02. -/
def exampleAnchor : Anchor := ⟨1950000101 * 2 ^ 64, 5000000000000, 3072, -3, 12800000000, 1, 0, 0⟩

/-- 154.25 ns after the anchor's second lies at sample 5,000,000,001,973 plus 52,429/65,536 (R66, the example of 02). -/
theorem test_index_of_time : indexOfTime exampleAnchor (1950000101 * 2 ^ 64 + 15425 * 2 ^ 64 / 10 ^ 11) = (5000000001973, 52429) := by decide +kernel

/-- Ninety-nine seconds later, at second 1,950,000,200: index 6,267,199,999,999, fraction 26,214 (R66, the example of 14). -/
theorem test_index_of_second : indexOfTime exampleAnchor (1950000200 * 2 ^ 64) = (6267199999999, 26214) := by decide +kernel

/-- The ramp of epoch 412 at k = 16,384: odd gain 0x4005_0000, skew code 128; the first step of epoch 413 is 7 (R130, the example of 04). -/
theorem test_ramp : interp 0x40040000 0x40080000 16384 16 = 0x40050000 ∧ interp 120 152 16384 16 = 128 ∧ interp 120 152 1023 16 = 120
    ∧ interp 0x40050000 0x400C0000 1 16 = 0x40050007 ∧ interp 128 136 4095 16 = 128 ∧ interp 128 136 4096 16 = 129 := by decide

/-- The zoom chain of the example of 05: step, delay and span (R164, R165, R166). -/
theorem test_zoom_chain : zoomStep (25 * 2 ^ 35) = 1407374883553 ∧ chainDelay [2, 2, 2, 2] = 345 ∧ chainSpan [2, 2, 2, 2] = 690 := by decide

/-- Output 44 of that chain: its position, its window's last sample, and that outputs up to 45 are fill (R165-R167). -/
theorem test_zoom_output : zoomPos 4096000 (zoomU (25 * 2 ^ 35) 44) 4 345 = (4096443, 7864)
    ∧ (zoomWindow 4096000 (25 * 2 ^ 35) 44 4 690).2 = 4096000 + 911
    ∧ zoomFill (25 * 2 ^ 35) 45 4 690 = true ∧ zoomFill (25 * 2 ^ 35) 46 4 690 = false := by decide

/-- The MP's choices in the example of 19: 950 ms ahead and a limit of NAP gives NAP, a cap of 3 gives DOZE (R525). -/
theorem test_power_choice : chooseState (some 950000000) 4 = 4 ∧ chooseState (some 598000000) 3 = 3 := by decide

/-- The ring of the example of 13, of 256 blocks of 4 KB, when R7 needs 33: w = 231, head = 132. -/
def exampleRing : DataRing := ⟨1, 8192, 8, 12, 7, true, 4, 50, 231, 132, true, 0, 3, true, 1⟩

/-- R7 fits with a PAD over the last 25 blocks, and the PHASE then inverts; R10 finds 32 free blocks of the 33 it needs (R380, R387). -/
theorem test_ring : exampleRing.blocksOf 131264 = 33 ∧ exampleRing.free = 156 ∧ exampleRing.fits 33 = true
    ∧ (exampleRing.advance 25).w = 0 ∧ (exampleRing.advance 25).phase = false
    ∧ (DataRing.fits { exampleRing with w := 99, phase := false } 33) = false := by decide

end Sys2Proof.Tests
end

section
/-!
SUPPORT. A descriptor that begins as it is posted runs its form; what MODE_SET and the forms of plans do, branch by branch; O18.
-/

namespace Sys2Proof.Machine

/-! ### A descriptor that begins as it is posted -/

/-- The descriptor that begins is the one its command posts. -/
theorem Begins.descOf_eq {i : Instr} {s b : State} {c sid : Nat} {D : Desc} (h : Begins i s c sid D b) : descOf i = some D := by
  obtain ⟨x, hd, -⟩ := h
  exact hd

/-- A descriptor that begins as it is posted has the effect of its form (R404, R407). -/
theorem Begins.exec_eq {i : Instr} {s b : State} {c sid : Nat} {D : Desc} (h : Begins i s c sid D b) :
    exec i s = ran (beginOp c sid D b) := by
  obtain ⟨x, hd, hF, hacc, hrun⟩ := h.beginReady_takenOn
  have hfetch : fetchAll (postedOn D s) = takenOn false D x s := by rw [fetchAll_postedOn hF, hacc]
  rw [exec_of_descOf hd, submitDesc_eq hF, hfetch, hrun, ran]

section Forms

variable {d : Sub} {r : List HostRead} {s b : State} {c sid : Nat} {D : Desc}

theorem Begins.exec_modeSet (h : Begins (.modeSet d) s c sid D b) : exec (.modeSet d) s = ran (beginModeSet c sid D b) := by
  rw [h.exec_eq]
  obtain rfl := Option.some.inj h.descOf_eq
  rfl

theorem Begins.exec_planCreate (h : Begins (.planCreate d r) s c sid D b) :
    exec (.planCreate d r) s = ran (beginPlanCreate c sid D b) := by
  rw [h.exec_eq]
  obtain rfl := Option.some.inj h.descOf_eq
  rfl

theorem Begins.exec_planStart (h : Begins (.planStart d r) s c sid D b) :
    exec (.planStart d r) s = ran (beginPlanStart c sid D b) := by
  rw [h.exec_eq]
  obtain rfl := Option.some.inj h.descOf_eq
  rfl

theorem Begins.exec_planStop (h : Begins (.planStop d) s c sid D b) : exec (.planStop d) s = ran (beginPlanStop c sid D b) := by
  rw [h.exec_eq]
  obtain rfl := Option.some.inj h.descOf_eq
  rfl

theorem Begins.exec_planDestroy (h : Begins (.planDestroy d) s c sid D b) :
    exec (.planDestroy d) s = ran (beginPlanDestroy c sid D b) := by
  rw [h.exec_eq]
  obtain rfl := Option.some.inj h.descOf_eq
  rfl

end Forms

/-! ### The forms of modes and plans -/

section ModesAndPlans

variable {c sid : Nat} {D : Desc} {b : State}

/-- MODE_SET of the mode in force completes at once, except for REPLAY, which is entered again (R37). -/
theorem beginModeSet_inForce (hmode : D.f 0x10 1 = b.mode.mode.toNat) (hreplay : D.f 0x10 1 ≠ 11) :
    beginModeSet c sid D b = completeDesc c sid .success b.mode.gen.toNat 0 b := by
  simp [beginModeSet, ← hmode, hreplay]

/-- MODE_SET of another mode starts a change; REPLAY needs a loaded bundle (R37). -/
theorem beginModeSet_other (hmode : D.f 0x10 1 ≠ b.mode.mode.toNat) (hloaded : D.f 0x10 1 = 11 → b.fr.loaded.isSome = true)
    (hidle : D.f 0x11 1 ≠ 1) : beginModeSet c sid D b = startChange (D.f 0x10 1) (some (c, sid)) b := by
  have hbundle : (decide (D.f 0x10 1 = 11) && b.fr.loaded.isNone) = false := by
    cases hb : b.fr.loaded with
    | none =>
      have hother : D.f 0x10 1 ≠ 11 := fun h => by simpa [hb] using hloaded h
      simp [hother]
    | some x => simp
  simp [beginModeSet, hmode, hidle, hbundle]

/-- A plan object that is well formed and fits the mode becomes a plan (R41). -/
theorem beginPlanCreate_fits {o : Block} (hread : D.block 0 (D.f 0x18 4) = some o) (hobj : planObjectCheck c (D.f 0x18 4) o b = none)
    (hfit : fitsNow { viewPlan c o with id := b.nextPlan, ctx := c } b = true) :
    beginPlanCreate c sid D b = completeDesc c sid .success b.nextPlan 0
      { b with plans := b.plans ++ [{ viewPlan c o with id := b.nextPlan, ctx := c }], nextPlan := b.nextPlan + 1 } := by
  simp [beginPlanCreate, hread, hobj, hfit]

/-- A created plan whose rings, handles, fit and resources are there takes them and waits for its first word (R42). -/
theorem beginPlanStart_takes {p0 : Plan} {l : List (Nat × Block)} {t : State} (hplan : ownPlan c (D.f 0x10 4) b = some p0)
    (hphase : p0.phase = .created) (hrings : ∀ k ∈ p0.ringNames, hasRing c k b = true) (hhandles : handlesHeld p0 b = true)
    (hluts : readLuts D 0 p0.lutUses = some l) (hfit : misfit p0 b = none) (hlimits : startFits { p0 with luts := l } b = true)
    (htakes : reserve { p0 with luts := l } b = .ok t) (htdc : Plan.lacksTdc { p0 with luts := l } b = false) :
    beginPlanStart c sid D b =
      startFeed (startIndexOf (D.f 0x20 16) t) (retune { p0 with luts := l } { modPlan p0.id (fun q => { q with
        phase := .waiting, order := b.nextOrder, startTime := D.f 0x20 16, startIndex := startIndexOf (D.f 0x20 16) t
        starter := some (c, sid) }) t with nextOrder := b.nextOrder + 1 }) := by
  have hall : (p0.ringNames.all fun k => hasRing c k b) = true := List.all_eq_true.2 hrings
  have hidle : ¬ p0.phase = .running := by simp [hphase]
  have hcreated : ¬ p0.phase ≠ .created := by simp [hphase]
  simp only [beginPlanStart, hplan, hidle, hcreated, hall, hhandles, hluts, hfit, hlimits, htakes, htdc, Bool.not_true, Bool.false_eq_true, if_false]

/-- PLAN_STOP of a running plan starts its stop (R415). -/
theorem beginPlanStop_running {p : Plan} (hplan : ownPlan c (D.f 0x10 4) b = some p) (hphase : p.phase = .running) :
    beginPlanStop c sid D b = stopPlan p.id (some (c, sid)) b := by
  simp [beginPlanStop, hplan, hphase]

/-- PLAN_STOP gives up a plan that waits for its first word (R410). -/
theorem beginPlanStop_waiting {p : Plan} (hplan : ownPlan c (D.f 0x10 4) b = some p) (hphase : p.phase = .waiting) :
    beginPlanStop c sid D b = completeDesc c sid .success 0 0 (dropWaiting p.id .superseded 0 b) := by
  simp [beginPlanStop, hplan, hphase]

/-- PLAN_DESTROY of a plan of the context's own (R415). -/
theorem beginPlanDestroy_own {p : Plan} (hplan : ownPlan c (D.f 0x10 4) b = some p) :
    beginPlanDestroy c sid D b = completeDesc c sid .success 0 0 (destroyPlan p.id true b) := by
  simp [beginPlanDestroy, hplan]

end ModesAndPlans

end Sys2Proof.Machine

namespace Sys2Proof

open Sys2Proof.Machine

/-- Settles O18: each form is begun by its lemma, in the branch that the clause's premises select. -/
theorem modeAndPlanDescriptors : Obligations.ModeAndPlanDescriptors := by
  unfold Obligations.ModeAndPlanDescriptors
  intro d r s b c sid D
  refine ⟨?inForce, ?other, ?create, ?start, ?stopRunning, ?stopWaiting, ?destroy⟩
  case inForce =>
    intro h hmode hreplay
    rw [h.exec_modeSet, beginModeSet_inForce hmode hreplay, ends]
  case other =>
    intro h hmode hloaded hidle
    rw [h.exec_modeSet, beginModeSet_other hmode hloaded hidle]
  case create =>
    intro o h hread hobj p hfit
    rw [h.exec_planCreate, beginPlanCreate_fits hread hobj hfit, ends]
  case start =>
    intro p0 l t h hplan hphase hrings hhandles hluts hfit hlimits htakes htdc
    exact h.exec_planStart.trans
      (congrArg ran (beginPlanStart_takes hplan hphase hrings hhandles hluts hfit hlimits htakes htdc))
  case stopRunning =>
    intro p h hplan hphase
    rw [h.exec_planStop, beginPlanStop_running hplan hphase]
  case stopWaiting =>
    intro p h hplan hphase
    rw [h.exec_planStop, beginPlanStop_waiting hplan hphase, ends]
  case destroy =>
    intro p h hplan
    rw [h.exec_planDestroy, beginPlanDestroy_own hplan, ends]

end Sys2Proof
end

section
/-!
SUPPORT. What each step of a mode change does once the one before it is done; O27.
-/

namespace Sys2Proof.Machine

/-! ### The steps of a mode change -/

section ModeChange

variable {s : State} {c : ModeChange}

/-- A step of a change acts where the change stands in the phase before it (R45). -/
theorem changeStep_of_inPhase {ph : ChangePhase} (f : State → State) (h : inPhase ph s = true) : changeStep ph f s = f s :=
  if_pos h

/-- The phase of the change under way. -/
theorem inPhase_of_change {ph : ChangePhase} (hc : s.mode.change = some c) (hph : c.phase = ph) : inPhase ph s = true := by
  simp [inPhase, hc, hph]

/-- The flush writes the dump records of the change's plans, and leaving TIMING gives the stamp staging back (R45, R72). -/
theorem changeFlush_eq (hc : s.mode.change = some c) :
    changeFlush s =
      let t := c.plans.foldl (fun s p => drainPlan p s) s
      setPhase .flushed (if t.mode.mode = 9 ∧ t.mode.target ≠ 9 then dropStaging t else t) := by
  simp only [changeFlush, hc, Option.map_some, Option.getD_some, Bool.and_eq_true, decide_eq_true_eq]

/-- The repartition of a change that neither enters REPLAY nor leaves DISK sizes the regions for the new mode (R45). -/
theorem changeRepartition_sizes (htarget : s.mode.target ≠ 11) (hdisk : s.mode.mode ≠ 7 ∨ s.mode.target = 7) :
    changeRepartition s = modeEndsKernels (zeroScratch (setPhase .repartitioned
      (modMode (fun m => { m with replayed := 0, part := partitionOf (limitsMode s.mode.target.toNat 0) }) s))) := by
  have hreplay : s.mode.target.toNat ≠ 11 := fun h => htarget (BitVec.eq_of_toNat_eq h)
  have hbindings : ¬ (s.mode.mode = 7 ∧ s.mode.target.toNat ≠ 7) := by
    rintro ⟨hmode, hleaves⟩
    rcases hdisk with h | h
    · exact h hmode
    · exact hleaves (congrArg BitVec.toNat h)
  simp only [changeRepartition, replayedOf, hreplay, modMode_mode, Bool.and_eq_true, decide_eq_true_eq, hbindings, if_false]
  rfl

/-- What the re-check does with one plan: it restarts, or it is stopped with what it falls short of (R46). -/
def recheckPlan (s : State) (id : Nat) : State :=
  match getPlan id s with
  | none => s
  | some p =>
    match recheckCode p s with
    | none => restartPlan p p.ran s
    | some why => stopAtRecheck p p.ran why s

/-- The re-check takes the change's plans in turn, once they have given their resources back (R46, R91). -/
theorem changeRecheck_eq (hc : s.mode.change = some c) :
    changeRecheck s = routeDefaults (setPhase .rechecked (c.plans.foldl recheckPlan
      { s with plans := mapIf (fun p => c.plans.contains p.id) (fun p => { p with reserved := false }) s.plans })) := by
  unfold changeRecheck
  rw [hc]
  rfl

/-- A change ends with the new mode and generation, MODE_CHANGED to every context, and its MODE_SET (R45). -/
theorem changeDone_eq (hc : s.mode.change = some c) :
    changeDone s =
      let t := modMode (fun m => { m with mode := m.target, gen := m.gen + 1, change := none }) s
      completeBy c.asker .success t.mode.gen.toNat 0
        (sendAll 0x0001 t.mode.mode.toNat (partitionImage t.mode) t.mode.gen.toNat 0 (journalMode t)) := by
  unfold changeDone
  rw [hc]
  rfl

end ModeChange

end Sys2Proof.Machine

namespace Sys2Proof

open Sys2Proof.Machine

/-- Settles O27: each step acts once the change stands in the phase before it, and does what its lemma says. -/
theorem modeChangeSteps : Obligations.ModeChangeSteps := by
  unfold Obligations.ModeChangeSteps
  intro s
  refine ⟨?drain, ?flush, ?repartition, ?recheck, ?changed⟩
  case drain =>
    intro h
    exact congrArg answers (changeStep_of_inPhase changeDrain h)
  case flush =>
    intro c hc hph
    exact congrArg answers ((changeStep_of_inPhase changeFlush (inPhase_of_change hc hph)).trans (changeFlush_eq hc))
  case repartition =>
    intro h htarget hdisk
    exact congrArg answers ((changeStep_of_inPhase _ h).trans (congrArg retireChannels (changeRepartition_sizes htarget hdisk)))
  case recheck =>
    intro c hc hph
    exact congrArg answers ((changeStep_of_inPhase changeRecheck (inPhase_of_change hc hph)).trans (changeRecheck_eq hc))
  case changed =>
    intro c hc hph t u
    have hends : changeEnds s = if u.dram.chans.any (·.failed.isSome) then beginRebuild u else lostEnds 2 u := by
      rw [changeEnds, changeDone_eq hc]
    exact congrArg answers ((changeStep_of_inPhase changeEnds (inPhase_of_change hc hph)).trans hends)

end Sys2Proof
end

section
/-!
SUPPORT. Sample words, the statistics window, the auxiliary converter and Skim's events, branch by branch; O51.
-/

namespace Sys2Proof.Machine

/-! ### Words and the statistics window -/

section Words

variable {n : Nat} {vals : List Int} {eor : BitVec 8} {s : State}

/-- A pair that forms no words stands still (log entry 6). -/
theorem sampleWord_of_not_formsWords (dropped full : Bool) (h : formsWords n s = false) :
    sampleWord n vals eor dropped full s = s := by
  simp [sampleWord, h]

/-- A live word is formed after what falls due at it, and delivered (R93). -/
theorem sampleWord_delivered (full : Bool) (h : formsWords n s = true) (hlen : vals.length = 8) (hlive : replaying s = false) :
    sampleWord n vals eor false full s =
      let r := formWord n vals eor false (plansDue n (getPair n s).next s)
      deliverWord n r.1 full r.2 := by
  simp [sampleWord, h, hlen, hlive]

/-- A word that meets a full crossing FIFO is formed and dropped (R19). -/
theorem sampleWord_dropped (full : Bool) (h : formsWords n s = true) (hlen : vals.length = 8) :
    sampleWord n vals eor true full s = (formWord n vals eor true s).2 := by
  simp [sampleWord, h, hlen]

/-- A statistics window has ended once every pair that runs is past it, and one runs (R107). -/
theorem csuEnds_iff : csuEnds s = true ↔ s.adc.csu.run = true ∧ (∃ p ∈ s.adc.pairs, p.running = true)
    ∧ ∀ p ∈ s.adc.pairs, p.running = true → s.adc.csu.start + s.adc.csu.size ≤ p.next := by
  have hpast (p : Pair) : (!p.running || decide (s.adc.csu.start + s.adc.csu.size ≤ p.next)) = true
      ↔ (p.running = true → s.adc.csu.start + s.adc.csu.size ≤ p.next) := by
    cases p.running <;> simp
  simp only [csuEnds, Bool.and_eq_true, List.any_eq_true, List.all_eq_true, hpast, and_assoc]

end Words

/-! ### The auxiliary converter -/

/-- A change of the auxiliary converter depends only on what it does to the converter as it stands. -/
theorem modAmc_congr {f g : Amc → Amc} {s : State} (h : f s.adc.amc = g s.adc.amc) : modAmc f s = modAmc g s := by
  simp only [modAmc, modAdc, h]

/-- What leaves the converter as it stands leaves the block as it stands. -/
theorem modAmc_of_fixed {f : Amc → Amc} {s : State} (h : f s.adc.amc = s.adc.amc) : modAmc f s = s :=
  modAmc_congr (g := id) h

@[simp] theorem Amc.startSlot_queue (k : Nat) (a : Amc) : (a.startSlot k).queue = a.queue := by
  unfold Amc.startSlot
  split
  · rfl
  · split
    · rfl
    · split <;> rfl

/-- No slot runs, so none completes (log entry 6). -/
theorem Amc.complete_idle {a : Amc} (sum : Int) (hurgent : a.urgent = none) (hcur : a.cur = none) : a.complete sum = a := by
  simp only [Amc.complete, hurgent, hcur]

/-- A table slot deposits its average, and with no request waiting the next slot starts (R113). -/
theorem Amc.complete_slot {a : Amc} {ch k : Nat} (sum : Int) (hurgent : a.urgent = none) (hcur : a.cur = some (ch, k))
    (hqueue : a.queue = []) : a.complete sum = Amc.startSlot (a.slot.toNat + 1) { a with
      acc := modNth a.acc ch (AmcAcc.deposit (amcAverage sum k)), latest := a.latest.set ch (amcAverage sum k), abortRow := 0, cur := none } := by
  have hpick : amcPick [] true = none := rfl
  simp only [Amc.complete, hurgent, hcur, Amc.startSlot_queue, hqueue, hpick]

/-- The test for an equal request that waits. -/
theorem any_same_request_iff (q : List AmcReq) (r : AmcReq) :
    (q.any fun x => decide (x.hedge = r.hedge) && decide (x.channel = r.channel) && decide (x.trim = r.trim)) = true ↔ r ∈ q := by
  have hsame (x : AmcReq) : (decide (x.hedge = r.hedge) && decide (x.channel = r.channel) && decide (x.trim = r.trim)) = true ↔ x = r := by
    cases x
    cases r
    simp [and_assoc]
  simp only [List.any_eq_true, hsame, exists_eq_right]

/-- A request equal to one that waits is merged with it (R114). -/
theorem Amc.request_merged {a : Amc} {r : AmcReq} (h : r ∈ a.queue) : a.request r = a :=
  if_pos ((any_same_request_iff a.queue r).2 h)

/-- A new request joins a queue that has room (R114). -/
theorem Amc.request_queued {a : Amc} {r : AmcReq} (h : r ∉ a.queue) (hroom : a.queue.length < 8) :
    a.request r = Amc.serve { a with queue := a.queue ++ [r] } := by
  unfold Amc.request
  rw [if_neg (fun k => h ((any_same_request_iff a.queue r).1 k)), if_pos hroom]

/-! ### Skim -/

section Skim

variable {n : Nat} {s : State}

/-- A change of one list element depends only on what it does to that element. -/
theorem modNth_congr {α : Type} {l : List α} {i : Nat} {f g : α → α} (d : α) (h : f (nth l i d) = g (nth l i d)) :
    modNth l i f = modNth l i g := by
  apply List.ext_getElem?
  intro k
  unfold nth at h
  unfold modNth
  rw [List.getElem?_modify, List.getElem?_modify]
  by_cases e : i = k
  · subst e
    cases hk : l[i]? with
    | none => rfl
    | some x =>
      rw [List.getD_eq_getElem?_getD, hk] at h
      simpa using h
  · simp [e]

/-- A change of a pair's Skim depends only on what it does to that Skim as it stands. -/
theorem modSkim_congr {f g : Skim → Skim} (h : f (getSkim n s) = g (getSkim n s)) : modSkim n f s = modSkim n g s := by
  unfold modSkim
  rw [modNth_congr Skim.reset h]

/-- A block spoilt by an unusable word is not accepted, and ends with the events of its excitation (R124, R138). -/
theorem skimBlock_spoilt (temp rms : BitVec 16) (hwords : (getSkim n s).blkWords ≠ 0) (hend : (getPair n s).next % 2 ^ 24 = 0)
    (hbad : (getSkim n s).blkBad = true) :
    skimBlock n temp rms s =
      let r := Skim.blockEnd (getPair n s).fsStep.toNat (getPair n s).next temp rms (getSkim n s)
      let t := modSkim n (fun _ => r.1) s
      if r.2.1 then sendPair n 0x0011 0 t else if r.2.2 then sendPair n 0x0012 0 t else t := by
  have hends : (decide ((getSkim n s).blkWords = 0) || decide ((getPair n s).next % 2 ^ 24 ≠ 0)) = false := by
    rw [decide_eq_false hwords, hend]
    rfl
  simp only [skimBlock, hends, hbad, Bool.not_true, Bool.false_and, Bool.false_eq_true, if_false]

/-- A finished solve counts where its set is in range and the MP is up (R125, R126). -/
theorem skimSolve_counts {cand : List Int} (ok : Bool) (hlen : cand.length = 34) (hset : setOk cand = true) (hmp : s.pwr.mpUp = true) :
    skimSolve n cand ok s = modSkim n (Skim.solved (getPair n s).next cand ok) s := by
  simp [skimSolve, hlen, hset, hmp]

/-- A held set is decided once the fence end has passed (R134). -/
theorem Skim.release_passed {p : Skim} {h : Held} {next : Nat} (hheld : p.held = some h) (hfence : p.fenceEnd ≤ next) :
    p.release next = { p.decideRamp ⟨false, h.set, h.reason, true, false, h.excited⟩ with held := none } := by
  simp only [Skim.release, hheld, if_pos hfence]

/-- A set held for the words of 10 ms is decided whatever fences stand (R135). -/
theorem Skim.expire_due {p : Skim} {h : Held} {next ten : Nat} (hheld : p.held = some h) (hdue : h.since + 8 * ten ≤ next) :
    p.expire next ten = ({ p.decideRamp ⟨false, h.set, h.reason, true, true, h.excited⟩ with held := none }, true) := by
  simp only [Skim.expire, hheld, if_pos hdue]

/-- The set of a pair that is decided in spite of its fences is told with the epoch it begins (R135). -/
theorem fenceExpire_due {h : Held} (hheld : (getSkim n s).held = some h) (hdue : h.since + 8 * w10 s ≤ (getPair n s).next) :
    fenceExpire n s =
      let p : Skim := { (getSkim n s).decideRamp ⟨false, h.set, h.reason, true, true, h.excited⟩ with held := none }
      sendPair n 0x0010 (p.epoch + 1).toNat (modSkim n (fun _ => p) s) := by
  simp only [fenceExpire, Skim.expire_due hheld hdue, if_true]

/-- FOREGROUND with sixteen sets in range and four trims in range succeeds (R140). -/
theorem foregroundEnd_succeeds {sets : List (List Int)} {trims : List Int} (hfg : (getPair n s).foreground = true)
    (hsets : sets.length = 16) (hset : ∀ c ∈ sets, c.length = 34 ∧ setOk c = true) (htrims : trims.length = 4)
    (htrim : ∀ t ∈ trims, -32 ≤ t ∧ t ≤ 31) : foregroundEnd n sets trims s = foregroundRun n (foregroundDone n sets trims s) := by
  have hsetAll : (sets.all fun c => decide (c.length = 34) && setOk c) = true := by simpa using hset
  have htrimAll : (trims.all fun t => decide (-32 ≤ t) && decide (t ≤ 31)) = true := by simpa using htrim
  simp only [foregroundEnd, hfg, hsets, htrims, hsetAll, htrimAll, decide_true, Bool.and_self, Bool.not_true, Bool.false_eq_true, if_false, if_true]

/-- FOREGROUND that did not measure every step fails (R140). -/
theorem foregroundEnd_fails {sets : List (List Int)} (trims : List Int) (hfg : (getPair n s).foreground = true) (hsets : sets.length ≠ 16) :
    foregroundEnd n sets trims s = foregroundRun n (foregroundFails n s) := by
  simp [foregroundEnd, hfg, hsets]

end Skim

end Sys2Proof.Machine

namespace Sys2Proof

open Sys2Proof.Machine

/-- Settles O51: each event takes the branch that the clause's premises select. -/
theorem converterEvents : Obligations.ConverterEvents := by
  unfold Obligations.ConverterEvents
  intro pair s n
  refine ⟨?delivered, ?dropped, ?silent, ?window, ?amcIdle, ?amcSlot, ?amcMerged, ?amcQueued, ?block, ?solve, ?fenceEnd, ?fenceExpired,
    ?foregroundDone, ?foregroundFails⟩
  case delivered =>
    intro vals eor full hforms hlen hlive
    exact congrArg answers (sampleWord_delivered full hforms hlen hlive)
  case dropped =>
    intro vals eor full hforms hlen
    exact congrArg answers (sampleWord_dropped full hforms hlen)
  case silent =>
    intro vals eor dropped full hforms
    exact congrArg answers (sampleWord_of_not_formsWords dropped full hforms)
  case window =>
    intro hrun hone hpast
    exact congrArg Host.Outcome.next (if_pos (csuEnds_iff.2 ⟨hrun, hone, hpast⟩))
  case amcIdle =>
    intro sum hurgent hcur
    exact congrArg Host.Outcome.next (modAmc_of_fixed (Amc.complete_idle sum hurgent hcur))
  case amcSlot =>
    intro sum ch k hurgent hcur hqueue _
    exact congrArg Host.Outcome.next (modAmc_congr (Amc.complete_slot sum hurgent hcur hqueue))
  case amcMerged =>
    rintro hedge ch trim ⟨q, hq, rfl⟩
    exact congrArg Host.Outcome.next (modAmc_of_fixed (Amc.request_merged hq))
  case amcQueued =>
    intro hedge ch trim hnew hroom
    exact congrArg Host.Outcome.next (modAmc_congr (Amc.request_queued hnew hroom))
  case block =>
    intro temp rms hwords hend hbad
    exact congrArg answers (skimBlock_spoilt temp rms hwords hend hbad)
  case solve =>
    intro cand ok hlen hset hmp
    exact congrArg Host.Outcome.next (skimSolve_counts ok hlen hset hmp)
  case fenceEnd =>
    intro h hheld hfence _
    exact congrArg Host.Outcome.next (modSkim_congr (Skim.release_passed hheld hfence))
  case fenceExpired =>
    intro h hheld hdue
    exact congrArg answers (fenceExpire_due hheld hdue)
  case foregroundDone =>
    intro sets trims hfg hsets hset htrims htrim
    exact congrArg answers (foregroundEnd_succeeds hfg hsets hset htrims htrim)
  case foregroundFails =>
    intro sets trims hfg hsets
    exact congrArg answers (foregroundEnd_fails trims hfg hsets)

end Sys2Proof
end

section
/-!
SUPPORT. One lemma for every command and every step: the queue's rest stays, and legal fields stay legal; O59 and O60.
-/

namespace Sys2Proof.Machine

/-- Every command answers a later state: one case per constructor, each by the law of its meaning. -/
theorem exec_keeps : ∀ (i : Instr) (s : State), Keeps s (exec i s)
  | .noop d, s => execNoop_kept (.refl s) d | .badOpcode d opcode, s => execBadOpcode_kept (.refl s) d opcode
  | .fence d, s => execFence_kept (.refl s) d | .timeWait d, s => execTimeWait_kept (.refl s) d
  | .timeWaitRelease, s => execTimeWaitRelease_kept (.refl s) | .modeSet d, s => execModeSet_kept (.refl s) d
  | .modeChangeDrain, s => execModeChangeDrain_kept (.refl s) | .modeChangeFlush, s => execModeChangeFlush_kept (.refl s)
  | .modeChangeRepartition, s => execModeChangeRepartition_kept (.refl s) | .modeChangeRecheck, s => execModeChangeRecheck_kept (.refl s)
  | .modeChanged, s => execModeChanged_kept (.refl s) | .contextCreate d, s => execContextCreate_kept (.refl s) d
  | .contextDestroy d, s => execContextDestroy_kept (.refl s) d
  | .contextTeardownComplete ctx, s => execContextTeardownComplete_kept (.refl s) ctx | .ringCreate d, s => execRingCreate_kept (.refl s) d
  | .ringDestroy d, s => execRingDestroy_kept (.refl s) d | .planCreate d r, s => execPlanCreate_kept (.refl s) d r
  | .planStart d r, s => execPlanStart_kept (.refl s) d r | .planFirstWord plan, s => execPlanFirstWord_kept (.refl s) plan
  | .planStop d, s => execPlanStop_kept (.refl s) d | .planStopComplete plan, s => execPlanStopComplete_kept (.refl s) plan
  | .planDestroy d, s => execPlanDestroy_kept (.refl s) d | .windowLoadTable d r, s => execWindowLoadTable_kept (.refl s) d r
  | .windowLoadDrop d, s => execWindowLoadDrop_kept (.refl s) d | .windowLoadReconfigure d, s => execWindowLoadReconfigure_kept (.refl s) d
  | .transformSwitch plan stream, s => execTransformSwitch_kept (.refl s) plan stream | .maskLoad d r, s => execMaskLoad_kept (.refl s) d r
  | .maskDrop d, s => execMaskDrop_kept (.refl s) d | .triggerArm d, s => execTriggerArm_kept (.refl s) d
  | .triggerDisarm d, s => execTriggerDisarm_kept (.refl s) d | .captureReadSegments d, s => execCaptureReadSegments_kept (.refl s) d
  | .captureReadWords d, s => execCaptureReadWords_kept (.refl s) d | .captureRelease d, s => execCaptureRelease_kept (.refl s) d
  | .spuLoad d r, s => execSpuLoad_kept (.refl s) d r | .spuLaunch d r, s => execSpuLaunch_kept (.refl s) d r
  | .spuSignal d, s => execSpuSignal_kept (.refl s) d | .spuStop d, s => execSpuStop_kept (.refl s) d
  | .spuStopTakesEffect n, s => execSpuStopTakesEffect_kept (.refl s) n | .streamOpenRing d, s => execStreamOpenRing_kept (.refl s) d
  | .streamOpenDisk d, s => execStreamOpenDisk_kept (.refl s) d | .streamClose d, s => execStreamClose_kept (.refl s) d
  | .diskBind d r, s => execDiskBind_kept (.refl s) d r | .diskUnbind d, s => execDiskUnbind_kept (.refl s) d
  | .diskActivate slot qids maxKb reserved, s => execDiskActivate_kept (.refl s) slot qids maxKb reserved
  | .displayOutput d r, s => execDisplayOutput_kept (.refl s) d r | .displayLayer d, s => execDisplayLayer_kept (.refl s) d
  | .displayLutLoad d r, s => execDisplayLutLoad_kept (.refl s) d r | .panelCmd d r, s => execPanelCmd_kept (.refl s) d r
  | .layerOff d, s => execLayerOff_kept (.refl s) d | .outputOff d, s => execOutputOff_kept (.refl s) d
  | .displayFlip d, s => execDisplayFlip_kept (.refl s) d | .tdcEnable d, s => execTdcEnable_kept (.refl s) d
  | .tdcRelease d, s => execTdcRelease_kept (.refl s) d | .tdcGateInterval d r, s => execTdcGateInterval_kept (.refl s) d r
  | .tdcGateFrequency d r, s => execTdcGateFrequency_kept (.refl s) d r | .calSetMode d, s => execCalSetMode_kept (.refl s) d
  | .calManualLoad d r, s => execCalManualLoad_kept (.refl s) d r | .calFence d, s => execCalFence_kept (.refl s) d
  | .calRampLength d, s => execCalRampLength_kept (.refl s) d | .runForeground d, s => execRunForeground_kept (.refl s) d
  | .tableReset d, s => execTableReset_kept (.refl s) d | .setTimeNextPps d, s => execSetTimeNextPps_kept (.refl s) d
  | .setTimeImmediate d, s => execSetTimeImmediate_kept (.refl s) d | .setTimePpsTimeout, s => execSetTimePpsTimeout_kept (.refl s)
  | .powerHintCap d, s => execPowerHintCap_kept (.refl s) d | .powerHintNextEvent d, s => execPowerHintNextEvent_kept (.refl s) d
  | .powerHintUncap d, s => execPowerHintUncap_kept (.refl s) d | .flightRead d, s => execFlightRead_kept (.refl s) d
  | .replayLoadHost d r, s => execReplayLoadHost_kept (.refl s) d r | .replayLoadFlight d, s => execReplayLoadFlight_kept (.refl s) d
  | .replayUnload d, s => execReplayUnload_kept (.refl s) d | .attestBind d, s => execAttestBind_kept (.refl s) d
  | .selftest d, s => execSelftest_kept (.refl s) d | .clearRetirement d, s => execClearRetirement_kept (.refl s) d
  | .laneTestEnter d, s => execLaneTestEnter_kept (.refl s) d | .laneTestExit d, s => execLaneTestExit_kept (.refl s) d
  | .dramTest d, s => execDramTest_kept (.refl s) d | .hstDbCmd fn page v, s => execHstDbCmd_kept (.refl s) fn page v
  | .hstDbCpl fn page v, s => execHstDbCpl_kept (.refl s) fn page v | .hstDbEvt fn page v, s => execHstDbEvt_kept (.refl s) fn page v
  | .hstDbData fn page r v, s => execHstDbData_kept (.refl s) fn page r v | .attach fn v, s => execAttach_kept (.refl s) fn v
  | .detach fn v, s => execDetach_kept (.refl s) fn v | .atten fn arg, s => execAtten_kept (.refl s) fn arg
  | .faultClear fn arg, s => execFaultClear_kept (.refl s) fn arg | .mpReset fn arg, s => execMpReset_kept (.refl s) fn arg
  | .hedgeReqWarmRestart fn arg, s => execHedgeReqWarmRestart_kept (.refl s) fn arg
  | .csuRestart fn v, s => execCsuRestart_kept (.refl s) fn v | .csuCfgWrite fn v, s => execCsuCfgWrite_kept (.refl s) fn v
  | .amcClr fn v, s => execAmcClr_kept (.refl s) fn v | .amcCfgWrite fn v, s => execAmcCfgWrite_kept (.refl s) fn v
  | .ucsInject fn v, s => execUcsInject_kept (.refl s) fn v | .esStart fn v, s => execEsStart_kept (.refl s) fn v
  | .esAbort fn v, s => execEsAbort_kept (.refl s) fn v | .injGo fn lane v, s => execInjGo_kept (.refl s) fn lane v
  | .prbsClear fn lane v, s => execPrbsClear_kept (.refl s) fn lane v
  | .rcRead fn bar off width, s => execRcRead_kept (.refl s) fn bar off width
  | .splitReadLow fn off, s => execSplitReadLow_kept (.refl s) fn off
  | .splitWriteLow fn off v, s => execSplitWriteLow_kept (.refl s) fn off v
  | .registerWrite fn bar off width v, s => execRegisterWrite_kept (.refl s) fn bar off width v
  | .barAccessInvalid fn bar off width write, s => execBarAccessInvalid_kept (.refl s) fn bar off width write
  | .bar4Access port a n data poisoned, s => execBar4Access_kept (.refl s) port a n data poisoned
  | .msixUnmask fn vec, s => execMsixUnmask_kept (.refl s) fn vec
  | .ppsInEdge tick sub rising taken, s => execPpsInEdge_kept (.refl s) tick sub rising taken | .ppsLost, s => execPpsLost_kept (.refl s)
  | .ppsOutRise, s => execPpsOutRise_kept (.refl s) | .ppsOutFall, s => execPpsOutFall_kept (.refl s)
  | .timeAnchor meas, s => execTimeAnchor_kept (.refl s) meas | .tdcWrap, s => execTdcWrap_kept (.refl s)
  | .tdcEdge ch tick sub rising taken, s => execTdcEdge_kept (.refl s) ch tick sub rising taken
  | .tdcStampsClose ch taken, s => execTdcStampsClose_kept (.refl s) ch taken
  | .tdcCalibration ch tick rawOne rawTwo temp, s => execTdcCalibration_kept (.refl s) ch tick rawOne rawTwo temp
  | .gateEdge gate level tick, s => execGateEdge_kept (.refl s) gate level tick | .gateOpen gate, s => execGateOpen_kept (.refl s) gate
  | .gateClose gate, s => execGateClose_kept (.refl s) gate | .gateMaxDuration gate, s => execGateMaxDuration_kept (.refl s) gate
  | .refclkLost, s => execRefclkLost_kept (.refl s) | .refclkRestored ok, s => execRefclkRestored_kept (.refl s) ok
  | .sclkLost, s => execSclkLost_kept (.refl s) | .sclkRestored offset, s => execSclkRestored_kept (.refl s) offset
  | .spllRelock offset, s => execSpllRelock_kept (.refl s) offset | .heartbeatWrite, s => execHeartbeatWrite_kept (.refl s)
  | .sampleWord pair vals eor fifoFull absorbFull, s => execSampleWord_kept (.refl s) pair vals eor fifoFull absorbFull
  | .csuWindowEnd, s => execCsuWindowEnd_kept (.refl s) | .amcSlotComplete sum, s => execAmcSlotComplete_kept (.refl s) sum
  | .amcUrgentRequest hedge channel trim, s => execAmcUrgentRequest_kept (.refl s) hedge channel trim
  | .skimBlock pair temp rms, s => execSkimBlock_kept (.refl s) pair temp rms
  | .skimSolve pair cand offered, s => execSkimSolve_kept (.refl s) pair cand offered
  | .skimFenceEnd pair, s => execSkimFenceEnd_kept (.refl s) pair | .skimFenceExpired pair, s => execSkimFenceExpired_kept (.refl s) pair
  | .foregroundEnd pair sets trims, s => execForegroundEnd_kept (.refl s) pair sets trims
  | .zoomHop sub u, s => execZoomHop_kept (.refl s) sub u | .zoomRetune sub u, s => execZoomRetune_kept (.refl s) sub u
  | .zoomWord slot, s => execZoomWord_kept (.refl s) slot | .spectrumFormed plan stream, s => execSpectrumFormed_kept (.refl s) plan stream
  | .intDrainEnd plan, s => execIntDrainEnd_kept (.refl s) plan | .triggerEventRelease u, s => execTriggerEventRelease_kept (.refl s) u
  | .autoForce u, s => execAutoForce_kept (.refl s) u | .captureSegmentClose plan slot, s => execCaptureSegmentClose_kept (.refl s) plan slot
  | .captureRearm plan slot, s => execCaptureRearm_kept (.refl s) plan slot
  | .missedTriggerDelivery u, s => execMissedTriggerDelivery_kept (.refl s) u | .trigoutRise, s => execTrigoutRise_kept (.refl s)
  | .trigoutFall, s => execTrigoutFall_kept (.refl s) | .latchPoint o, s => execLatchPoint_kept (.refl s) o
  | .teEdge o tick lowNs pulseNs, s => execTeEdge_kept (.refl s) o tick lowNs pulseNs
  | .displayTeTimeout o, s => execDisplayTeTimeout_kept (.refl s) o | .selfTimedTransfer o, s => execSelfTimedTransfer_kept (.refl s) o
  | .bufferReleased o, s => execBufferReleased_kept (.refl s) o | .panelTimeout o, s => execPanelTimeout_kept (.refl s) o
  | .interruptModTimer ctx ring, s => execInterruptModTimer_kept (.refl s) ctx ring
  | .descriptorFetchError ctx, s => execDescriptorFetchError_kept (.refl s) ctx
  | .functionLevelReset fn, s => execFunctionLevelReset_kept (.refl s) fn
  | .busMasterEnableClear fn, s => execBusMasterEnableClear_kept (.refl s) fn
  | .vfEnableClear port, s => execVfEnableClear_kept (.refl s) port | .linkDown port, s => execLinkDown_kept (.refl s) port
  | .hotReset port, s => execHotReset_kept (.refl s) port | .perst port asserted, s => execPerst_kept (.refl s) port asserted
  | .pcieRefclkLoss port, s => execPcieRefclkLoss_kept (.refl s) port
  | .linkTraining port rate width recoveries lanes, s => execLinkTraining_kept (.refl s) port rate width recoveries lanes
  | .l0sEntry port, s => execL0sEntry_kept (.refl s) port | .l1Entry port sub, s => execL1Entry_kept (.refl s) port sub
  | .marginingCommand lane start, s => execMarginingCommand_kept (.refl s) lane start
  | .eyeScanDone errors, s => execEyeScanDone_kept (.refl s) errors
  | .eyeScanTimeout compared errors, s => execEyeScanTimeout_kept (.refl s) compared errors
  | .ideIntegrityFail port stream, s => execIdeIntegrityFail_kept (.refl s) port stream
  | .getVersion port, s => execGetVersion_kept (.refl s) port | .getCapabilities port, s => execGetCapabilities_kept (.refl s) port
  | .negotiateAlgorithms port offered, s => execNegotiateAlgorithms_kept (.refl s) port offered
  | .getDigests port, s => execGetDigests_kept (.refl s) port
  | .getCertificate port slot off len, s => execGetCertificate_kept (.refl s) port slot off len
  | .challenge port slot request, s => execChallenge_kept (.refl s) port slot request
  | .getMeasurements port op signed request, s => execGetMeasurements_kept (.refl s) port op signed request
  | .keyExchange port session request, s => execKeyExchange_kept (.refl s) port session request
  | .finish port session valid, s => execFinish_kept (.refl s) port session valid
  | .heartbeat port session, s => execHeartbeat_kept (.refl s) port session
  | .keyUpdate port session op, s => execKeyUpdate_kept (.refl s) port session op
  | .endSession port session, s => execEndSession_kept (.refl s) port session
  | .ideKm port session stream op, s => execIdeKm_kept (.refl s) port session stream op
  | .debugUnlockToken port devId nonce sig, s => execDebugUnlockToken_kept (.refl s) port devId nonce sig
  | .interruptTaken n, s => execInterruptTaken_kept (.refl s) n | .longChunkEnd n, s => execLongChunkEnd_kept (.refl s) n
  | .spuDmaComplete n q, s => execSpuDmaComplete_kept (.refl s) n q | .tapItem n, s => execTapItem_kept (.refl s) n
  | .spuTimer n, s => execSpuTimer_kept (.refl s) n | .emitReadout n, s => execEmitReadout_kept (.refl s) n
  | .machineCheck n f, s => execMachineCheck_kept (.refl s) n f | .patchReloadDone n ns ok, s => execPatchReloadDone_kept (.refl s) n ns ok
  | .spareTakeover n ns, s => execSpareTakeover_kept (.refl s) n ns | .patchScrub found, s => execPatchScrub_kept (.refl s) found
  | .romScan unit fails, s => execRomScan_kept (.refl s) unit fails | .nop n w, s => execNop_kept (.refl s) n w
  | .halt n w, s => execHalt_kept (.refl s) n w | .reti n w, s => execReti_kept (.refl s) n w | .waiti n w, s => execWaiti_kept (.refl s) n w
  | .rep n w, s => execRep_kept (.refl s) n w | .repa n w, s => execRepa_kept (.refl s) n w | .loopr n w, s => execLoopr_kept (.refl s) n w
  | .br n w, s => execBr_kept (.refl s) n w | .bc n w, s => execBc_kept (.refl s) n w | .bp n w, s => execBp_kept (.refl s) n w
  | .call n w, s => execCall_kept (.refl s) n w | .jr n w, s => execJr_kept (.refl s) n w | .vld n w, s => execVld_kept (.refl s) n w
  | .vst n w, s => execVst_kept (.refl s) n w | .ldw n w, s => execLdw_kept (.refl s) n w | .stw n w, s => execStw_kept (.refl s) n w
  | .aupd n w, s => execAupd_kept (.refl s) n w | .amovi n w, s => execAmovi_kept (.refl s) n w
  | .aaddi n w, s => execAaddi_kept (.refl s) n w | .aadd n w, s => execAadd_kept (.refl s) n w | .asub n w, s => execAsub_kept (.refl s) n w
  | .aand n w, s => execAand_kept (.refl s) n w | .aor n w, s => execAor_kept (.refl s) n w | .axor n w, s => execAxor_kept (.refl s) n w
  | .ashl n w, s => execAshl_kept (.refl s) n w | .ashr n w, s => execAshr_kept (.refl s) n w | .asra n w, s => execAsra_kept (.refl s) n w
  | .amul n w, s => execAmul_kept (.refl s) n w | .mtm n w, s => execMtm_kept (.refl s) n w | .mfm n w, s => execMfm_kept (.refl s) n w
  | .pset n w, s => execPset_kept (.refl s) n w | .pand n w, s => execPand_kept (.refl s) n w | .por n w, s => execPor_kept (.refl s) n w
  | .pxor n w, s => execPxor_kept (.refl s) n w | .pnot n w, s => execPnot_kept (.refl s) n w
  | .pfroma n w, s => execPfroma_kept (.refl s) n w | .ptoa n w, s => execPtoa_kept (.refl s) n w
  | .vadd n w, s => execVadd_kept (.refl s) n w | .vsub n w, s => execVsub_kept (.refl s) n w | .vneg n w, s => execVneg_kept (.refl s) n w
  | .vabs n w, s => execVabs_kept (.refl s) n w | .vmin n w, s => execVmin_kept (.refl s) n w | .vmax n w, s => execVmax_kept (.refl s) n w
  | .vand n w, s => execVand_kept (.refl s) n w | .vor n w, s => execVor_kept (.refl s) n w | .vxor n w, s => execVxor_kept (.refl s) n w
  | .vnot n w, s => execVnot_kept (.refl s) n w | .vshl n w, s => execVshl_kept (.refl s) n w | .vshr n w, s => execVshr_kept (.refl s) n w
  | .vasr n w, s => execVasr_kept (.refl s) n w | .vlsr n w, s => execVlsr_kept (.refl s) n w | .vcmp n w, s => execVcmp_kept (.refl s) n w
  | .vmov n w, s => execVmov_kept (.refl s) n w | .vsplat n w, s => execVsplat_kept (.refl s) n w
  | .vext n w, s => execVext_kept (.refl s) n w | .vins n w, s => execVins_kept (.refl s) n w | .vperm n w, s => execVperm_kept (.refl s) n w
  | .vconj n w, s => execVconj_kept (.refl s) n w | .vnarrow n w, s => execVnarrow_kept (.refl s) n w
  | .vwiden n w, s => execVwiden_kept (.refl s) n w | .vcvt n w, s => execVcvt_kept (.refl s) n w
  | .vmul n w, s => execVmul_kept (.refl s) n w | .vmulq n w, s => execVmulq_kept (.refl s) n w
  | .vcmulq n w, s => execVcmulq_kept (.refl s) n w | .vfma n w, s => execVfma_kept (.refl s) n w
  | .vmac n w, s => execVmac_kept (.refl s) n w | .vmsu n w, s => execVmsu_kept (.refl s) n w | .vmpy n w, s => execVmpy_kept (.refl s) n w
  | .vcmacj n w, s => execVcmacj_kept (.refl s) n w | .accx n w, s => execAccx_kept (.refl s) n w
  | .acclr n w, s => execAcclr_kept (.refl s) n w | .mfc n w, s => execMfc_kept (.refl s) n w | .mtc n w, s => execMtc_kept (.refl s) n w
  | .mfs n w, s => execMfs_kept (.refl s) n w | .mts n w, s => execMts_kept (.refl s) n w | .mfb n w, s => execMfb_kept (.refl s) n w
  | .mtb n w, s => execMtb_kept (.refl s) n w | .dmaq n w, s => execDmaq_kept (.refl s) n w | .trigp n w, s => execTrigp_kept (.refl s) n w
  | .tune n w, s => execTune_kept (.refl s) n w | .emit n w, s => execEmit_kept (.refl s) n w
  | .vpeaks n w, s => execVpeaks_kept (.refl s) n w | .vmaxidx n w, s => execVmaxidx_kept (.refl s) n w
  | .vminidx n w, s => execVminidx_kept (.refl s) n w | .vsortk n w, s => execVsortk_kept (.refl s) n w
  | .vlog2 n w, s => execVlog2_kept (.refl s) n w | .crc32c n w, s => execCrc32c_kept (.refl s) n w
  | .vsk n w, s => execVsk_kept (.refl s) n w | .histo n w, s => execHisto_kept (.refl s) n w | .rcopy n w, s => execRcopy_kept (.refl s) n w
  | .rfill n w, s => execRfill_kept (.refl s) n w | .extentTimeout slot, s => execExtentTimeout_kept (.refl s) slot
  | .nvmeCompletion slot cid status dnr, s => execNvmeCompletion_kept (.refl s) slot cid status dnr
  | .nvmeTimeout slot, s => execNvmeTimeout_kept (.refl s) slot
  | .refreshDue ch rank writer mr4, s => execRefreshDue_kept (.refl s) ch rank writer mr4
  | .refreshIdlePullin ch count, s => execRefreshIdlePullin_kept (.refl s) ch count | .mr4Poll, s => execMr4Poll_kept (.refl s)
  | .mr4Result ch rank mr4, s => execMr4Result_kept (.refl s) ch rank mr4
  | .patrolScrub codeword found, s => execPatrolScrub_kept (.refl s) codeword found
  | .wckTracking ch atRefresh errors drift fails, s => execWckTracking_kept (.refl s) ch atRefresh errors drift fails
  | .commandParityError ch again, s => execCommandParityError_kept (.refl s) ch again
  | .neighbourRefresh ch rank bank draw, s => execNeighbourRefresh_kept (.refl s) ch rank bank draw
  | .rfTrip input tripped, s => execRfTrip_kept (.refl s) input tripped | .rfHoldExpiry input, s => execRfHoldExpiry_kept (.refl s) input
  | .thermalThrottle sensor temp, s => execThermalThrottle_kept (.refl s) sensor temp
  | .throttleClear sensor temp, s => execThrottleClear_kept (.refl s) sensor temp
  | .thermalTrip sensor temp, s => execThermalTrip_kept (.refl s) sensor temp
  | .supplyFault rail reading, s => execSupplyFault_kept (.refl s) rail reading | .supplyRecovered, s => execSupplyRecovered_kept (.refl s)
  | .watchdogMiss, s => execWatchdogMiss_kept (.refl s) | .powerStateEntryDone, s => execPowerStateEntryDone_kept (.refl s)
  | .powerStateExitStart, s => execPowerStateExitStart_kept (.refl s) | .powerStateExitDone, s => execPowerStateExitDone_kept (.refl s)
  | .dutyWindowEnd plan, s => execDutyWindowEnd_kept (.refl s) plan | .dutyWindowStart plan, s => execDutyWindowStart_kept (.refl s) plan
  | .thermalStep, s => execThermalStep_kept (.refl s) | .thermalStepUndo, s => execThermalStepUndo_kept (.refl s)
  | .availabilitySave, s => execAvailabilitySave_kept (.refl s)
  | .ageingMeasure shifts hours, s => execAgeingMeasure_kept (.refl s) shifts hours
  | .coldStart released rails, s => execColdStart_kept (.refl s) released rails
  | .resetNRelease rails, s => execResetNRelease_kept (.refl s) rails | .resetNAssert, s => execResetNAssert_kept (.refl s)
  | .primerStageEnd w, s => execPrimerStageEnd_kept (.refl s) w | .warmRestart, s => execWarmRestart_kept (.refl s)
  | .alwaysOnRailLoss, s => execAlwaysOnRailLoss_kept (.refl s) | .spuIslandReset, s => execSpuIslandReset_kept (.refl s)
  | .displayIslandReset, s => execDisplayIslandReset_kept (.refl s) | .hostIslandReset, s => execHostIslandReset_kept (.refl s)
  | .replayWord, s => execReplayWord_kept (.refl s) | .replayEnd, s => execReplayEnd_kept (.refl s)
  | .configurationRequest port, s => execConfigurationRequest_kept (.refl s) port
  | .panelReadResponse o data, s => execPanelReadResponse_kept (.refl s) o data
  | .electricalIdleExit lane, s => execElectricalIdleExit_kept (.refl s) lane | .rxL0sEntry port, s => execRxL0sEntry_kept (.refl s) port
  | .prbsCheckerLock lane, s => execPrbsCheckerLock_kept (.refl s) lane
  | .prbsCheckerLockLost lane errors, s => execPrbsCheckerLockLost_kept (.refl s) lane errors
  | .pcieRefclkRestored port, s => execPcieRefclkRestored_kept (.refl s) port | .mainRailsInWindow, s => execMainRailsInWindow_kept (.refl s)
  | .refOkChange ok, s => execRefOkChange_kept (.refl s) ok | .mpRestartComplete, s => execMpRestartComplete_kept (.refl s)
  | .jtagInstruction j, s => execJtagInstruction_kept (.refl s) j

/-- A step answers a state whose fields with a range are legal if they were: taking a command off the queue touches none of them. -/
theorem legal_of_step {s t : State} (hs : s.Legal) (hstep : step s = .next t) : t.Legal := by
  cases hq : s.pending with
  | nil =>
    simp only [step, hq, Host.Outcome.next.injEq] at hstep
    exact hstep ▸ (idleTick_kept (.refl s)).2 hs
  | cons c rest =>
    obtain ⟨u, hu, -, hlegal⟩ := exec_keeps c { s with pending := rest }
    simp only [step, hq, hu, Host.Outcome.next.injEq] at hstep
    exact hstep ▸ hlegal hs

end Sys2Proof.Machine

namespace Sys2Proof

open Sys2Proof.Machine

/-- Settles O59: each field holds the value of its Reset column, and capture memory lists nothing. -/
theorem resetIsLegal : Obligations.ResetIsLegal := by
  unfold Obligations.ResetIsLegal State.Legal
  decide

/-- Settles O60: a step is an idle tick or one command, and both keep legal fields legal. -/
theorem legalFieldsStayLegal : Obligations.LegalFieldsStayLegal := by
  unfold Obligations.LegalFieldsStayLegal
  intro s t hs hstep
  exact legal_of_step hs hstep

end Sys2Proof
end

section
/-!
SUPPORT. What TDC_CONFIGURE, TDC_GATE and SET_TIME do as they begin, branch by branch; O24.
-/

namespace Sys2Proof.Machine

section TimeForms

variable {c sid : Nat} {D : Desc} {b : State}

/-- ENABLE of a channel that no other context holds, on a ring that exists and without an extension, takes it (R69, R72, R76); what an earlier
stream has left is delivered first (log entry 95). -/
theorem beginTdcEnable_takes (hring : hasRing c (D.f 0x14 1) b = true) (hkb : D.f 0x18 4 = 0) (hfree : tdcTaken c (D.f 0x10 1) b = false) :
    beginTdcEnable c sid D b = completeDesc c sid .success 0 0 (tdcMarker (D.f 0x10 1) 2 (modTdc (D.f 0x10 1) (fun x => { x with
      owner := some c, edges := D.f 0x12 1, dividerLog2 := D.f 0x13 1, ring := D.f 0x14 1, stagingKb := 0
      deadMark := false, queueMark := false, stampsSinceCal := 0, lastCal := nowTick (flushStamps (D.f 0x10 1) b) })
      (flushStamps (D.f 0x10 1) b))) := by
  simp [beginTdcEnable, hring, hkb, hfree]

/-- RELEASE of a channel of the context's own gives it up (R69). -/
theorem beginTdcRelease_own (hfree : tdcTaken c (D.f 0x10 1) b = false) (hown : (getTdc (D.f 0x10 1) b).owner = some c) :
    beginTdcRelease c sid D b = completeDesc c sid .success 0 0 (releaseTdc (D.f 0x10 1) b) := by
  simp [beginTdcRelease, hfree, hown]

/-- The measurement that a TDC_GATE arms (R79): nothing has been counted, and its start channel's calibration is `calSeq`. -/
def armedGate (c : Nat) (interval : Bool) (D : Desc) (calSeq : Nat) : Gate :=
  { interval := interval, startCh := D.f 0x13 1, stopCh := if interval then D.f 0x14 1 else 0, high := decide (D.f 0x12 1 = 1)
    ring := D.f 0x15 1, mid := D.f 0x18 4, maxUs := D.f 0x20 8, ctx := c, phase := .armed, openTick := 0, openTime := 0
    stepped := false, starts := [], stops := [], startCount := 0, stopCount := 0, lostEdges := 0, startLost := false
    stopLost := false, n := 0, sk := 0, skk := 0, st := 0, skt := 0, stt := 0, limited := false, calSeq := calSeq }

/-- TDC_GATE on a free pin, with a ring that exists, calibrates its channels and arms the measurement (R77, R79; log entry 97). -/
theorem beginTdcGate_arms (interval : Bool) (hring : hasRing c (D.f 0x15 1) b = true) (hfree : nth b.tim.gates (D.f 0x10 1) none = none) :
    let t := armCals c (D.f 0x15 1) (nowTick b) (gateChannels interval D) D.reads b
    beginTdcGate c sid interval D b = completeDesc c sid .success 0 0 (modTim (fun m => { m with
      gates := m.gates.set (D.f 0x10 1) (some (armedGate c interval D (getTdc (D.f 0x13 1) t).calSeq)) }) t) := by
  simp [beginTdcGate, armedGate, hring, hfree]

end TimeForms

end Sys2Proof.Machine

namespace Sys2Proof

open Sys2Proof.Machine

/-- Settles O24: each form is begun by its lemma, in the branch that the clause's premises select. -/
theorem timeDescriptors : Obligations.TimeDescriptors := by
  unfold Obligations.TimeDescriptors
  intro d r s b c sid D
  refine ⟨?enable, ?release, ?interval, ?frequency, ?nextPps, ?immediate⟩
  case enable =>
    intro h hring hkb hfree
    obtain rfl := Option.some.inj h.descOf_eq
    exact h.exec_eq.trans (congrArg ran (beginTdcEnable_takes hring hkb hfree))
  case release =>
    intro h hfree hown
    obtain rfl := Option.some.inj h.descOf_eq
    exact h.exec_eq.trans (congrArg ran (beginTdcRelease_own hfree hown))
  case interval =>
    intro h hring hfree
    obtain rfl := Option.some.inj h.descOf_eq
    exact ⟨armedGate c true _ _, rfl, rfl, rfl, rfl, rfl, rfl, rfl, rfl, rfl,
      h.exec_eq.trans (congrArg ran (beginTdcGate_arms true hring hfree))⟩
  case frequency =>
    intro h hring hfree
    obtain rfl := Option.some.inj h.descOf_eq
    exact ⟨armedGate c false _ _, rfl, rfl, rfl, rfl, rfl, rfl, rfl, rfl,
      h.exec_eq.trans (congrArg ran (beginTdcGate_arms false hring hfree))⟩
  case nextPps =>
    intro h
    obtain rfl := Option.some.inj h.descOf_eq
    exact h.exec_eq
  case immediate =>
    intro h
    obtain rfl := Option.some.inj h.descOf_eq
    exact h.exec_eq

end Sys2Proof
end

section
/-!
SUPPORT. What the time base, PPS and the clocks do at their events, branch by branch; O32.
-/

namespace Sys2Proof.Machine

section TimeBase

variable {s : State}

/-- The earliest of the waits that are pending is the one that ends (R409). -/
theorem releaseTimeWait_earliest {t : Nat} {r : List Nat} (hwaits : timeWaits s = t :: r) :
    releaseTimeWait s = settle (advanceToTime (r.foldl min t) s) := by
  simp only [releaseTimeWait, hwaits]

/-- 1.5 s after its acceptance a SET_TIME that has found no edge ends (R58). -/
theorem setTimePpsTimeout_pending {p : SetPending} (hpending : s.tim.setPending = some p) :
    setTimePpsTimeout s = failDesc p.ctx p.sid .ppsAbsent
      (modTim (fun t => { t with setPending := none }) (advanceToTick (p.accepted + 1200000000) s)) := by
  simp only [setTimePpsTimeout, hpending, tickRate]

/-- Three seconds after the last accepted edge the PPS is lost (R59). -/
theorem ppsLost_raised (hrun : s.tim.running = true) (hset : s.tim.setApplied = true) (hraised : s.tim.ppsLostRaised = false) :
    ppsLost s = sendAll 0x0006 0 0 0 0
      (modTim (fun t => { t with ppsPresent := false, ppsLostRaised := true }) (advanceToTick (s.tim.ppsRef + 2400000000) s)) := by
  simp [ppsLost, hrun, hset, hraised, tickRate]

/-- PPS_OUT rises while it is enabled, low, and device time has been set (R62). -/
theorem ppsOutRise_enabled (hrun : s.tim.running = true) (hen : s.tim.ppsOutEnable = true) (hlow : s.tim.ppsOutHigh = false)
    (hset : s.tim.setApplied = true) :
    ppsOutRise s = emit (.pin .ppsOut true (ppsOutNext s)) (modTim (fun m => { m with
      ppsOutHigh := true, ppsOutFall := ppsOutNext s + m.ppsOutWidth.toNat * 800000 }) (advanceToTick (ppsOutNext s) s)) := by
  simp [ppsOutRise, hrun, hen, hlow, hset]

/-- PPS_OUT falls at the tick that its rise has set (R62). -/
theorem ppsOutFall_high (hhigh : s.tim.ppsOutHigh = true) :
    ppsOutFall s = ppsOutLow s.tim.ppsOutFall (advanceToTick s.tim.ppsOutFall s) :=
  if_pos hhigh

/-- An anchor comes into force at the next whole second without one (R64). -/
theorem timeAnchor_running (m : Option (Nat × Nat)) (hrun : s.tim.running = true) :
    timeAnchor m s = anchorAt (nextAnchorSecond s) m (advanceToTime (nextAnchorSecond s * 2 ^ 64) s) := by
  simp [timeAnchor, hrun]

/-- REFCLK is lost: every context learns it, and the recorder freezes (R68, R508). -/
theorem refclkLost_first (hclk : s.tim.refclkLost = false) :
    refclkLost s = freezeRecorder 4 (sendAll 0x0122 1 0 1 0
      (modTim (fun t => { t with refclkLost := true, refOk := false, tpllLock := false }) s)) := by
  simp [refclkLost, hclk]

/-- REFCLK is back, in its range or not (R55, R68). -/
theorem refclkRestored_lost (ok : Bool) (hclk : s.tim.refclkLost = true) :
    refclkRestored ok s = sendAll 0x0122 1 0 2 0 (modTim (fun t => { t with refclkLost := false, refOk := ok, tpllLock := true }) s) :=
  if_pos hclk

/-- SCLK_IN is lost: no episode of lost SPLL lock begins, every context learns it, and the recorder freezes (R508). -/
theorem sclkLost_external (hclk : s.hedge.sclkLost = false) (hin : s.tim.sclkIn = true) :
    sclkLost s = freezeRecorder 4 (sendAll 0x0122 2 0 1 0
      (modTim (fun t => { t with sclkLock := false }) { s with hedge := { s.hedge with sclkLost := true } })) := by
  simp [sclkLost, hclk, hin]

/-- The sample clock is back: as after a retune (R508). -/
theorem sclkRestored_lost (offset : Nat) (hclk : s.hedge.sclkLost = true) :
    sclkRestored offset s = relock offset (sendAll 0x0122 2 0 2 0 { s with hedge := { s.hedge with sclkLost := false } }) :=
  if_pos hclk

/-- A retune ends with the relock, while the sample clock is there (R51). -/
theorem spllRelock_relocks (offset : Nat) (hretune : s.tim.relocking = true) (hclk : s.hedge.sclkLost = false) :
    spllRelock offset s = relock offset s := by
  simp [spllRelock, hretune, hclk]

end TimeBase

end Sys2Proof.Machine

namespace Sys2Proof

open Sys2Proof.Machine

/-- Settles O32: each event takes the branch that the clause's premises select. -/
theorem timeBaseEvents : Obligations.TimeBaseEvents := by
  unfold Obligations.TimeBaseEvents
  intro s
  refine ⟨?wait, ?timeout, ?lost, ?rise, ?fall, ?anchor, ?refLost, ?refRestored, ?refOk, ?sclkLost, ?sclkRestored, ?relock⟩
  case wait =>
    intro t r hwaits
    exact congrArg Host.Outcome.next (releaseTimeWait_earliest hwaits)
  case timeout =>
    intro p hpending
    exact congrArg answers (setTimePpsTimeout_pending hpending)
  case lost =>
    intro hrun hset hraised
    exact congrArg answers (ppsLost_raised hrun hset hraised)
  case rise =>
    intro hrun hen hlow hset
    exact congrArg answers (ppsOutRise_enabled hrun hen hlow hset)
  case fall =>
    intro hhigh
    exact congrArg answers (ppsOutFall_high hhigh)
  case anchor =>
    intro m hrun
    exact congrArg answers (timeAnchor_running m hrun)
  case refLost =>
    intro hclk
    exact congrArg answers (refclkLost_first hclk)
  case refRestored =>
    intro ok hclk
    exact congrArg answers (refclkRestored_lost ok hclk)
  case refOk =>
    intro ok hclk
    exact congrArg Host.Outcome.next (if_neg (Bool.eq_false_iff.1 hclk))
  case sclkLost =>
    intro hclk hin
    exact congrArg answers (sclkLost_external hclk hin)
  case sclkRestored =>
    intro offset hclk
    exact congrArg answers (sclkRestored_lost offset.toNat hclk)
  case relock =>
    intro offset hretune hclk
    exact congrArg answers (spllRelock_relocks offset.toNat hretune hclk)

end Sys2Proof
end

section
/-!
SUPPORT. Edges, the readout of stamps and calibrations, branch by branch; what a stamp leaves of every channel; O33, O34.
-/

namespace Sys2Proof.Machine

/-! ### Edges, the readout and calibrations -/

section Edges

variable {ch tick sub taken : Nat} {rising : Bool} {s : State}

/-- An edge on a channel other than PPS_IN is stamped or lost, and a stamped one is offered to triggers (R71). -/
theorem edgeArrives_signal (hrun : s.tim.running = true) (hsub : sub < tickSub) (hedge : edgeExists ch s = true) (hch : ch ≠ 0) :
    edgeArrives ch tick sub rising taken s =
      let t := gatesDue tick (toTick tick s)
      let r := stampEdge ch tick sub rising t
      takeStamps ch taken (if r.2 && !replaying t then trigStamp ch tick sub rising r.1 else r.1) := by
  simp [edgeArrives, hrun, hsub, hedge, hch]

/-- A stamped edge on PPS_IN, of the polarity that counts, is judged or applies a SET_TIME as well (R57, R59). -/
theorem edgeArrives_pps (hrun : s.tim.running = true) (hsub : sub < tickSub) :
    edgeArrives 0 tick sub rising taken s =
      let t := gatesDue tick (toTick tick s)
      let r := stampEdge 0 tick sub rising t
      let u := if r.2 && !replaying t then trigStamp 0 tick sub rising r.1 else r.1
      takeStamps 0 taken (if r.2 && decide (rising ≠ u.tim.ppsFalling) then ppsEdge tick sub u else u) := by
  have hedge : edgeExists 0 s = true := rfl
  simp [edgeArrives, hrun, hsub, hedge]

/-- With no record open the readout only takes stamps. -/
theorem stampsClose_noRecord (hopen : (getTdc ch (takeStamps ch taken s)).openRec = []) :
    stampsClose ch taken s = takeStamps ch taken s := by
  simp only [stampsClose, hopen]

/-- The open record closes 10 us, 8,000 ticks, after its first entry (R74). -/
theorem stampsClose_record {p : Stamp} {r : List Stamp} (hopen : (getTdc ch (takeStamps ch taken s)).openRec = p :: r) :
    stampsClose ch taken s = closeStamps ch (advanceToTick (p.tick + 8000) (takeStamps ch taken s)) := by
  simp only [stampsClose, hopen]

/-- The wrap of the coarse count marks every stream (R75). -/
theorem tdcWrap_running (hrun : s.tim.running = true) : tdcWrap s = tdcMarkAll 0 (advanceToTick (nextWrap s) s) :=
  if_pos hrun

variable {one two temp : Nat}

/-- A calibration of an owned channel falls due after 2^16 stamps (R77). -/
theorem calibrationDue_stamps (hown : (getTdc ch s).owner.isSome = true) (hfull : 2 ^ 16 ≤ (getTdc ch s).stampsSinceCal) :
    calibrationDue ch tick one two temp s = calibrate ch 1 tick one two temp none (toTick tick s) := by
  have hnone : (getTdc ch s).owner.isNone = false := by simpa using hown
  simp only [calibrationDue, hnone, decide_eq_true hfull, Bool.true_or, Bool.not_true, Bool.or_false, Bool.false_eq_true, if_false, b2n, if_true]

/-- Before that, it falls due once 1 ms, 800,000 ticks, has passed since the last one (R77). -/
theorem calibrationDue_time (hown : (getTdc ch s).owner.isSome = true) (hfew : (getTdc ch s).stampsSinceCal < 2 ^ 16)
    (hdue : (getTdc ch s).lastCal + 800000 ≤ tick) :
    calibrationDue ch tick one two temp s = calibrate ch 0 tick one two temp none (toTick tick s) := by
  have hnone : (getTdc ch s).owner.isNone = false := by simpa using hown
  simp only [calibrationDue, hnone, decide_eq_false (not_le.2 hfew), decide_eq_true hdue, Bool.or_true, Bool.not_true, Bool.or_false,
    Bool.false_eq_true, if_false, b2n]

end Edges

/-! ### What an edge leaves of the channels -/

@[simp] theorem getTdc_modGates (k : Nat) (f : Gate → Gate) (s : State) : getTdc k (modGates f s) = getTdc k s := rfl

@[simp] theorem modGates_chans (f : Gate → Gate) (s : State) : (modGates f s).tim.chans = s.tim.chans := rfl

@[simp] theorem modTdc_chans_length (k : Nat) (f : TdcCh → TdcCh) (s : State) :
    (modTdc k f s).tim.chans.length = s.tim.chans.length :=
  List.length_modify ..

/-- A channel whose edge is lost to dead time at `t`, in units of 2^-16 ns (R71; log entry 10). -/
def TdcCh.edgeLost (t : Nat) (c : TdcCh) : TdcCh := { c with lastEdge := some t, deadLost := satInc c.deadLost, deadMark := true }

/-- A channel whose edge is stamped: an exported stamp joins the queue, or is lost to a full one (R71, R72). -/
def TdcCh.edgeStamped (tick sub : Nat) (rising : Bool) (c : TdcCh) : TdcCh :=
  let x : TdcCh := { c with lastEdge := some (tick * tickSub + sub), stampsSinceCal := c.stampsSinceCal + 1 }
  if c.exports rising then
    if c.queue.length < c.queueRoom then
      { x with deadMark := false, queueMark := false, queue := c.queue ++ [⟨tick, sub, rising, c.deadMark, c.queueMark⟩] }
    else { x with queueLost := satInc c.queueLost, queueMark := true }
  else x

/-- The owner's selection of edges (R71). -/
theorem TdcCh.exports_iff {c : TdcCh} {rising : Bool} : c.exports rising = true ↔
    c.owner.isSome = true ∧ (c.edges = 3 ∨ (c.edges = 1 ∧ rising = true) ∨ (c.edges = 2 ∧ rising = false)) := by
  cases rising <;> simp [TdcCh.exports]

section Stamps

variable {ch : Nat} (tick sub : Nat) (rising : Bool) {s : State}

/-- An edge less than one tick after the edge before it is lost (R71). -/
theorem stampEdge_dead (hch : ch < s.tim.chans.length) {l : Nat} (hlast : (getTdc ch s).lastEdge = some l)
    (hdead : tick * tickSub + sub < l + tickSub) :
    (stampEdge ch tick sub rising s).2 = false
      ∧ getTdc ch (stampEdge ch tick sub rising s).1 = (getTdc ch s).edgeLost (tick * tickSub + sub) := by
  simp [stampEdge, hlast, hdead, getTdc_modTdc_same, hch, TdcCh.edgeLost]

/-- Every other edge is stamped (R71, R72). -/
theorem stampEdge_live (hch : ch < s.tim.chans.length)
    (hlive : ∀ l, (getTdc ch s).lastEdge = some l → l + tickSub ≤ tick * tickSub + sub) :
    (stampEdge ch tick sub rising s).2 = true
      ∧ getTdc ch (stampEdge ch tick sub rising s).1 = (getTdc ch s).edgeStamped tick sub rising := by
  cases hlast : (getTdc ch s).lastEdge with
  | none => simp [stampEdge, TdcCh.edgeStamped, hlast, hch, getTdc_modTdc_same, apply_ite Prod.fst, apply_ite Prod.snd, apply_ite (getTdc ch)]
  | some l =>
    have hpast : ¬ tick * tickSub + sub < l + tickSub := not_lt.2 (hlive l hlast)
    simp [stampEdge, TdcCh.edgeStamped, hlast, hpast, hch, getTdc_modTdc_same, apply_ite Prod.fst, apply_ite Prod.snd, apply_ite (getTdc ch)]

/-- An edge leaves every other channel as it was. -/
theorem getTdc_stampEdge_ne {k : Nat} (hk : k ≠ ch) : getTdc k (stampEdge ch tick sub rising s).1 = getTdc k s := by
  unfold stampEdge
  dsimp only
  repeat' split
  all_goals simp only [getTdc_modGates, getTdc_modTdc_ne hk]

end Stamps

end Sys2Proof.Machine

namespace Sys2Proof

open Sys2Proof.Machine

/-- Settles O33: each event takes the branch that the clause's premises select. -/
theorem timestampEvents : Obligations.TimestampEvents := by
  unfold Obligations.TimestampEvents
  intro s ch tick sub taken rising
  refine ⟨?edge, ?pps, ?readout, ?close, ?wrap, ?calStamps, ?calTime⟩
  case edge =>
    intro hrun hsub hedge hch
    have hch' : ch.toNat ≠ 0 := fun h => hch (BitVec.eq_of_toNat_eq h)
    exact congrArg answers (edgeArrives_signal hrun hsub hedge hch')
  case pps =>
    intro hrun hsub
    exact congrArg answers (edgeArrives_pps hrun hsub)
  case readout =>
    intro hopen
    exact congrArg answers (stampsClose_noRecord hopen)
  case close =>
    intro p r hopen
    exact congrArg answers (stampsClose_record hopen)
  case wrap =>
    intro hrun
    exact congrArg answers (tdcWrap_running hrun)
  case calStamps =>
    intro one two temp hown hfull
    exact congrArg answers (calibrationDue_stamps hown hfull)
  case calTime =>
    intro one two temp hown hfew hdue
    exact congrArg answers (calibrationDue_time hown hfew hdue)

/-- Settles O34: an edge is lost in the dead time and stamped otherwise, and its stamp goes where the selection and the queue say. -/
theorem edgesAreStampedOrCounted : Obligations.EdgesAreStampedOrCounted := by
  unfold Obligations.EdgesAreStampedOrCounted
  intro ch tick sub rising s hch c t r exported
  refine ⟨?dead, ?live, ?others⟩
  case dead =>
    rintro ⟨l, hlast, hdead⟩
    exact stampEdge_dead tick sub rising hch hlast hdead
  case live =>
    intro hlive
    obtain ⟨hstamped, hchan⟩ := stampEdge_live tick sub rising hch hlive
    refine ⟨hstamped, fun hexp hroom => ?queued, fun hexp hfull => ?lost, fun hexp => ?kept⟩
    case queued => rw [hchan, TdcCh.edgeStamped, if_pos (TdcCh.exports_iff.2 hexp), if_pos hroom]
    case lost => rw [hchan, TdcCh.edgeStamped, if_pos (TdcCh.exports_iff.2 hexp), if_neg (not_lt.2 hfull)]
    case kept => rw [hchan, TdcCh.edgeStamped, if_neg (mt TdcCh.exports_iff.1 hexp)]
  case others =>
    intro k hk
    exact getTdc_stampEdge_ne tick sub rising hk

end Sys2Proof
end

section
/-!
SUPPORT. What an edge on a gate pin does, and what a gate reaches by itself, phase by phase; O35.
-/

namespace Sys2Proof.Machine

/-! ### An edge on a gate pin -/

section GateEdges

variable {pin tick : Nat} {level : Bool} {s : State} {g : Gate}

/-- The edge to the asserted level arms the opening of a measurement that waits for it (R79). -/
theorem gateEdge_asserts (hgate : getGate pin (gatesDue tick (advanceToTick tick s)) = some g) (hphase : g.phase = .armed)
    (hlevel : level = g.high) :
    gateEdge pin level tick s = modGate pin (fun g => { g with phase := .asserting tick }) (gatesDue tick (advanceToTick tick s)) := by
  simp only [gateEdge, hgate, hphase, if_pos hlevel]

/-- The edge away from the asserted level starts the closing of an open measurement (R79). -/
theorem gateEdge_deasserts (hgate : getGate pin (gatesDue tick (advanceToTick tick s)) = some g) (hphase : g.phase = .opened)
    (hlevel : level ≠ g.high) :
    gateEdge pin level tick s = modGate pin (fun g => { g with phase := .closing tick }) (gatesDue tick (advanceToTick tick s)) := by
  simp only [gateEdge, hgate, hphase, if_neg hlevel]

/-- An edge to the level that stands already leaves an open measurement as it is. -/
theorem gateEdge_stays (hgate : getGate pin (gatesDue tick (advanceToTick tick s)) = some g) (hphase : g.phase = .opened)
    (hlevel : level = g.high) : gateEdge pin level tick s = gatesDue tick (advanceToTick tick s) := by
  simp only [gateEdge, hgate, hphase, if_pos hlevel]

end GateEdges

/-! ### What a gate reaches by itself -/

section GateSteps

variable {pin e : Nat} {s : State} {g : Gate}

@[simp] theorem Tim.advance_gates (n : Nat) (t : Tim) : (Tim.advance n t).gates = t.gates := by
  cases t
  rfl

/-- The passing of time leaves the measurements as they are. -/
@[simp] theorem getGate_advanceToTick (pin t : Nat) (s : State) : getGate pin (advanceToTick t s) = getGate pin s := by
  unfold advanceToTick advance
  split
  · simp only [getGate, modTim_tim, Tim.advance_gates]
  · rfl

/-- A gate takes its next step at that step's tick, where it is one that `p` asks for. -/
theorem gateStep_due {p : Gate → Bool} {t : Nat} (hgate : getGate pin s = some g) (hnext : gateNext pin s = some t) (hp : p g = true) :
    gateStep pin p s = gateDue pin t (advanceToTick t s) := by
  simp only [gateStep, hgate, hnext, if_pos hp]

/-- The gate opens two ticks after its assertion (R79). -/
theorem gateStep_opens (hgate : getGate pin s = some g) (hphase : g.phase = .asserting e) :
    gateStep pin Gate.opening s = openGate pin e .opened (advanceToTick (e + 2) s) := by
  have hnext : gateNext pin s = some (e + 2) := by simp only [gateNext, hgate, Option.bind_some, hphase]
  rw [gateStep_due hgate hnext (by simp only [Gate.opening, hphase])]
  simp only [gateDue, getGate_advanceToTick, hgate, hphase, le_refl, if_true]

/-- The gate closes two ticks after its deassertion, where max_duration does not come first (R79, R85). -/
theorem gateStep_closes (hgate : getGate pin s = some g) (hphase : g.phase = .closing e) (hmax : e + 2 ≤ g.maxTick) :
    gateStep pin Gate.isClosing s = gateCloses pin (e + 2) false (advanceToTick (e + 2) s) := by
  have hnext : gateNext pin s = some (e + 2) := by simp only [gateNext, hgate, Option.bind_some, hphase, min_eq_right hmax]
  rw [gateStep_due hgate hnext (by simp only [Gate.isClosing, hphase])]
  simp only [gateDue, getGate_advanceToTick, hgate, hphase, not_lt.2 hmax, le_refl, if_false, if_true]

/-- An open gate closes at max_duration (R85). -/
theorem gateStep_reachesMax (hgate : getGate pin s = some g) (hphase : g.phase = .opened) :
    gateStep pin (fun g => !g.opening) s = gateCloses pin g.maxTick true (advanceToTick g.maxTick s) := by
  have hnext : gateNext pin s = some g.maxTick := by simp only [gateNext, hgate, Option.bind_some, hphase]
  rw [gateStep_due hgate hnext (by simp only [Gate.opening, hphase, Bool.not_false])]
  simp only [gateDue, getGate_advanceToTick, hgate, hphase, le_refl, if_true]

end GateSteps

end Sys2Proof.Machine

namespace Sys2Proof

open Sys2Proof.Machine

/-- Settles O35: an edge acts by the phase of its pin's gate, and each phase ends by its lemma. -/
theorem gateEvents : Obligations.GateEvents := by
  unfold Obligations.GateEvents
  intro s pin level tick g p
  refine ⟨?edge, ?opens, ?closes, ?reachesMax⟩
  case edge =>
    rintro t rfl hgate
    refine ⟨fun hphase hlevel => ?asserts, fun hphase hlevel => ?deasserts, fun hphase hlevel => ?stays⟩
    case asserts => exact congrArg answers (gateEdge_asserts hgate hphase hlevel)
    case deasserts => exact congrArg answers (gateEdge_deasserts hgate hphase hlevel)
    case stays => exact congrArg answers (gateEdge_stays hgate hphase hlevel)
  case opens =>
    intro e hgate hphase
    exact congrArg answers (gateStep_opens hgate hphase)
  case closes =>
    intro e hgate hphase hmax
    exact congrArg answers (gateStep_closes hgate hphase hmax)
  case reachesMax =>
    intro hgate hphase
    exact congrArg answers (gateStep_reachesMax hgate hphase)

end Sys2Proof
end

section
/-!
SUPPORT. What an accumulator of the auxiliary converter holds after a list of averages; O52.
-/

namespace Sys2Proof.Machine

/-- A saturating count stops at all ones. -/
theorem toNat_satInc {w : Nat} (c : BitVec w) : (satInc c).toNat = min (c.toNat + 1) (2 ^ w - 1) := by
  unfold satInc
  split
  next hfull =>
    rw [hfull, BitVec.toNat_allOnes]
    omega
  next hroom =>
    have hlt : c.toNat < 2 ^ w := c.isLt
    have hne : c.toNat ≠ 2 ^ w - 1 := fun h => hroom (BitVec.eq_of_toNat_eq (h.trans BitVec.toNat_allOnes.symm))
    have hone : (1#w).toNat = 1 := by rw [BitVec.toNat_ofNat, Nat.mod_eq_of_lt (by omega)]
    change (c + 1#w).toNat = _
    rw [BitVec.toNat_add, hone, Nat.mod_eq_of_lt (by omega)]
    omega

/-- An accumulator after a list of averages. -/
def AmcAcc.depositAll (l : List Int) (a : AmcAcc) : AmcAcc := l.foldl (fun a v => AmcAcc.deposit v a) a

@[simp] theorem depositAll_cons (v : Int) (l : List Int) (a : AmcAcc) : a.depositAll (v :: l) = (a.deposit v).depositAll l := rfl

theorem deposit_min (v : Int) (a : AmcAcc) : (a.deposit v).min = min a.min v := by
  simp only [AmcAcc.deposit]
  omega

theorem deposit_max (v : Int) (a : AmcAcc) : (a.deposit v).max = max a.max v := by
  simp only [AmcAcc.deposit]
  omega

theorem deposit_count (v : Int) (a : AmcAcc) : (a.deposit v).count.toNat = min (a.count.toNat + 1) 0xFFFFFFFF :=
  toNat_satInc a.count

/-- MIN goes on at any count (R116). -/
theorem depositAll_min (l : List Int) (a : AmcAcc) : (a.depositAll l).min = l.foldl min a.min :=
  (List.foldl_hom AmcAcc.min fun a v => (deposit_min v a).symm).symm

/-- MAX goes on at any count (R116). -/
theorem depositAll_max (l : List Int) (a : AmcAcc) : (a.depositAll l).max = l.foldl max a.max :=
  (List.foldl_hom AmcAcc.max fun a v => (deposit_max v a).symm).symm

/-- COUNT counts the averages up to 0xFFFF_FFFF (R116). -/
theorem depositAll_count (l : List Int) (a : AmcAcc) :
    (a.depositAll l).count.toNat = min (a.count.toNat + l.length) 0xFFFFFFFF := by
  induction l generalizing a with
  | nil =>
    have hlt : a.count.toNat < 2 ^ 32 := a.count.isLt
    simp only [AmcAcc.depositAll, List.foldl_nil, List.length_nil]
    omega
  | cons v l ih =>
    rw [depositAll_cons, ih, deposit_count, List.length_cons]
    omega

/-- SUM takes in averages for as long as COUNT counts them (R116). -/
theorem depositAll_sum (l : List Int) (a : AmcAcc) :
    (a.depositAll l).sum = a.sum + (l.take (0xFFFFFFFF - a.count.toNat)).sum := by
  induction l generalizing a with
  | nil => simp [AmcAcc.depositAll]
  | cons v l ih =>
    have hcount := deposit_count v a
    rw [depositAll_cons, ih]
    by_cases hfull : a.count = BitVec.allOnes 32
    · have hnone : 0xFFFFFFFF - a.count.toNat = 0 := by rw [hfull]; rfl
      have hnone' : 0xFFFFFFFF - (a.deposit v).count.toNat = 0 := by omega
      rw [hnone, hnone', List.take_zero, List.take_zero, AmcAcc.deposit, if_pos hfull]
    · have hlt : a.count.toNat < 2 ^ 32 := a.count.isLt
      have hne : a.count.toNat ≠ 0xFFFFFFFF := fun h => hfull (BitVec.eq_of_toNat_eq h)
      have hone : 0xFFFFFFFF - a.count.toNat = (0xFFFFFFFF - (a.deposit v).count.toNat) + 1 := by omega
      have hsum : (a.deposit v).sum = a.sum + v := if_neg hfull
      rw [hone, List.take_succ_cons, List.sum_cons, hsum, add_assoc]

/-- After a clear and a deposit an accumulator holds that one average (R116, R119). -/
theorem deposit_empty {v : Int} (hlo : -0x8000 ≤ v) (hhi : v ≤ 0x7FFF) : AmcAcc.empty.deposit v = ⟨v, 1, v, v⟩ := by
  have hmin : (AmcAcc.empty.deposit v).min = v := (deposit_min v _).trans (min_eq_right hhi)
  have hmax : (AmcAcc.empty.deposit v).max = v := (deposit_max v _).trans (max_eq_right hlo)
  have hsum : (AmcAcc.empty.deposit v).sum = v := zero_add v
  calc AmcAcc.empty.deposit v
      = ⟨(AmcAcc.empty.deposit v).sum, 1, (AmcAcc.empty.deposit v).min, (AmcAcc.empty.deposit v).max⟩ := rfl
    _ = ⟨v, 1, v, v⟩ := by rw [hsum, hmin, hmax]

end Sys2Proof.Machine

namespace Sys2Proof

open Sys2Proof.Machine

/-- Settles O52: the first deposit sets minimum and maximum, the rest are folds. -/
theorem accumulatorsHoldTheirAverages : Obligations.AccumulatorsHoldTheirAverages := by
  unfold Obligations.AccumulatorsHoldTheirAverages
  intro l hne hrange a
  obtain ⟨v, r, rfl⟩ := List.exists_cons_of_ne_nil hne
  obtain ⟨hlo, hhi⟩ := hrange v List.mem_cons_self
  have hfirst : a = AmcAcc.depositAll r ⟨v, 1, v, v⟩ := congrArg (AmcAcc.depositAll r) (deposit_empty hlo hhi)
  refine ⟨?min, ?max, ?sum, ?count, ?single⟩
  case min =>
    rw [hfirst, depositAll_min]
    exact List.min?_eq_some_iff.1 List.min?_cons'
  case max =>
    rw [hfirst, depositAll_max]
    exact List.max?_eq_some_iff.1 List.max?_cons'
  case sum => exact (depositAll_sum (v :: r) AmcAcc.empty).trans (zero_add _)
  case count => exact (depositAll_count (v :: r) AmcAcc.empty).trans (congrArg (min · 0xFFFFFFFF) (zero_add _))
  case single =>
    rintro w ⟨rfl, rfl⟩
    exact hfirst

end Sys2Proof
end

section
/-!
SUPPORT. What an access to a BAR does, branch by branch: reads of one register, writes of one 8-byte unit, and BAR4; O36.
-/

namespace Sys2Proof.Machine

/-! ### Reads -/

section Reads

variable {f bar off width : Nat} {r : Reg} {s : State}

/-- A register read whole gives its value, and its RC fields clear (R370). -/
theorem readPart_whole (hoff : r.off = off) (hbytes : r.bytes = width) :
    readPart f bar off width r s = ((readReg bar r s).1, clearRc f bar off (readReg bar r s).2) := by
  have hwhole : (decide (r.bytes = 16) && decide (width < 16)) = false := by
    rw [Bool.and_eq_false_iff, decide_eq_false_iff_not, decide_eq_false_iff_not]
    omega
  simp only [readPart, hwhole, hoff, lt_irrefl, Nat.sub_self, Nat.mul_zero, Nat.shiftLeft_zero, Bool.false_eq_true, if_false]

/-- The low half of a 128-bit register keeps the high half for the function (R108). -/
theorem readPart_low (hoff : r.off = off) (hbytes : r.bytes = 16) :
    readPart f bar off 8 r s =
      let v := readReg bar r s
      (v.1, modHost (fun h => { h with latches := keepHalf ⟨f, bar, r.off, v.1 / 2 ^ 64 % 2 ^ 64⟩ h.latches }) (clearRc f bar r.off v.2)) := by
  subst hoff
  simp [readPart, hbytes, bits, Nat.shiftRight_eq_div_pow]

/-- The high half of a 128-bit register reads as it was kept (R108). -/
theorem readPart_high (hoff : r.off + 8 = off) (hbytes : r.bytes = 16) :
    readPart f bar off 8 r s = (latchOf f bar r.off s, clearRc f bar r.off (readReg bar r s).2) := by
  subst hoff
  simp [readPart, hbytes]

/-- A read that no BAR accepts is counted, and gives 0 (R370). -/
theorem readAccess_refused (hbad : accessBad off width = true) :
    readAccess f bar off width s = emit (.readData f width 0) (violation f s) :=
  if_pos hbad

/-- A read that reaches one register gives that register's part. -/
theorem readAccess_one (hbad : accessBad off width = false) (hopen : debugOpen f bar off s = false)
    (hregs : regsIn f bar off width s = [r]) :
    readAccess f bar off width s =
      let p := readPart f bar off width r s
      emit (.readData f width (p.1 % 2 ^ (8 * width))) p.2 := by
  simp [readAccess, hbad, hopen, hregs]

/-- A width of 4 or 8 bytes, aligned, is accepted (R370). -/
theorem accessBad_eq_false (hwidth : width = 4 ∨ width = 8) (halign : off % width = 0) : accessBad off width = false := by
  rcases hwidth with rfl | rfl <;> simp [accessBad, halign]

end Reads

/-! ### Writes -/

section Writes

variable {f bar off : Nat} {s : State}

/-- The low word of a number. -/
theorem bits_low_word (v : Nat) : bits v 0 32 = v % 2 ^ 32 := rfl

/-- PF0 may write all of BAR0 (R369). -/
theorem vfForbidden_pf0 (bar off : Nat) (hfn : fnNumber f = 0) : vfForbidden f bar off = false := by
  simp [vfForbidden, hfn]

/-- A write that no BAR accepts, or that a VF may not make, is counted (R369, R370). -/
theorem writeAccess_refused {width : Nat} (v : Nat) (hbad : accessBad off width = true ∨ vfForbidden f bar off = true) :
    writeAccess f bar off width v s = violation f s :=
  if_pos ((Bool.or_eq_true_iff ..).2 hbad)

/-- A word of BAR0 within a spanning field's low half waits for the high half (R370). -/
theorem writeUnit_stages {lo : Nat} {cur : BitVec 64} (hwide : wideReg f off s = some (cur, true)) :
    writeUnit f 0 off (some lo) none s = modHost (fun h => { h with staged := keepHalf ⟨f, 0, off, lo⟩ h.staged }) s := by
  simp [writeUnit, writeWide, hwide]

/-- Both halves of a spanning field reach it at once (R370). -/
theorem writeUnit_spans (lo hi : Nat) {cur : BitVec 64} (hwide : wideReg f off s = some (cur, true)) :
    writeUnit f 0 off (some lo) (some hi) s = dropStaged f off (setWide f off (BitVec.ofNat 64 (lo + 2 ^ 32 * hi)) s) := by
  simp [writeUnit, writeWide, hwide]

/-- A word of BAR0 outside the spanning fields is written by itself (R370). -/
theorem writeUnit_word (lo : Nat) (hwide : wideReg f off s = none) : writeUnit f 0 off (some lo) none s = write0 f off lo s := by
  simp [writeUnit, hwide]

/-- A 32-bit write at an 8-byte boundary that the function may make reaches the low word of its unit. -/
theorem writeAccess_low (v : Nat) (hforbid : vfForbidden f 0 off = false) (hfn : fnNumber f = 0) (halign : off % 8 = 0) :
    writeAccess f 0 off 4 v s = writeUnit f 0 off (some (v % 2 ^ 32)) none s := by
  have hbad : accessBad off 4 = false := accessBad_eq_false (.inl rfl) (by omega)
  simp [writeAccess, hbad, hforbid, hfn, halign, bits_low_word]

/-- A 32-bit write by a physical function at an 8-byte boundary outside the spanning fields reaches the word there. -/
theorem writeAccess_word (v : Nat) (hfn : fnNumber f = 0) (halign : off % 8 = 0) (hwide : wideReg f off s = none) :
    writeAccess f 0 off 4 v s = write0 f off (v % 2 ^ 32) s :=
  (writeAccess_low v (vfForbidden_pf0 0 off hfn) hfn halign).trans (writeUnit_word _ hwide)

/-- A 64-bit write by a physical function reaches both words of its unit. -/
theorem writeAccess_wide (v : Nat) (hfn : fnNumber f = 0) (halign : off % 8 = 0) :
    writeAccess f 0 off 8 v s = writeUnit f 0 off (some (bits v 0 32)) (some (bits v 32 32)) s := by
  have hbad : accessBad off 8 = false := accessBad_eq_false (.inr rfl) halign
  simp [writeAccess, hbad, vfForbidden_pf0 0 off hfn, hfn]

/-- The two words of a 64-bit value make it again. -/
theorem ofNat_words (v : Nat) : BitVec.ofNat 64 (bits v 0 32 + 2 ^ 32 * bits v 32 32) = BitVec.ofNat 64 v := by
  apply BitVec.eq_of_toNat_eq
  simp only [bits, BitVec.toNat_ofNat, Nat.shiftRight_eq_div_pow]
  omega

/-- A 32-bit write to BAR2 reaches its word (R367). -/
theorem writeAccess_bar2 (v : Nat) (halign : off % 4 = 0) : writeAccess f 2 off 4 v s = write2 f off (v % 2 ^ 32) s := by
  have hbad : accessBad off 4 = false := accessBad_eq_false (.inl rfl) halign
  have hforbid : vfForbidden f 2 off = false := rfl
  by_cases hlow : off % 8 = 0
  · simp [writeAccess, writeUnit, hbad, hforbid, hlow, bits_low_word]
  · have hhigh : off - 4 + 4 = off := by omega
    simp [writeAccess, writeUnit, hbad, hforbid, hlow, hhigh, bits_low_word]

end Writes

/-! ### BAR4 -/

section Bar4

variable {port a n : Nat} {l : List Byte} {s : State}

/-- A read outside every window gives no bytes (R371). -/
theorem bar4Read_outside (hwin : inWindow a n s = false) : bar4Read port a n s = emit (.bar4Data port none false) s := by
  simp [bar4Read, hwin]

/-- A read in a window of capture memory gives its bytes, poisoned where they are (R371, R452). -/
theorem bar4Read_memory (hwin : inWindow a n s = true) (hmem : a < stagingBase) :
    bar4Read port a n s =
      let r := dramRead 1 (windowOwner a s) a n s
      emit (.bar4Data port (some r.1) (!(s.dram.poisonIn a n).isEmpty)) r.2 := by
  simp [bar4Read, hwin, not_le.2 hmem]

/-- A write that is not wholly in a window is counted (R371; log entry 221). -/
theorem bar4Write_outside (poisoned : Bool) (hwin : inWindow a l.length s = false) :
    bar4Write port a l poisoned s = violation (64 * port) s := by
  simp [bar4Write, hwin]

/-- A write in a window of capture memory stores its bytes (R371, R451). -/
theorem bar4Write_memory (poisoned : Bool) (hwin : inWindow a l.length s = true) (hmem : a < stagingBase) :
    bar4Write port a l poisoned s = dramWrite a l poisoned s := by
  simp [bar4Write, hwin, not_le.2 hmem]

/-- A write in a Staging window changes nothing (log entry 222). -/
theorem bar4Write_staging (poisoned : Bool) (hwin : inWindow a l.length s = true) (hstage : stagingBase ≤ a) :
    bar4Write port a l poisoned s = s := by
  simp [bar4Write, hwin, hstage]

end Bar4

end Sys2Proof.Machine

namespace Sys2Proof

open Sys2Proof.Machine

/-- Settles O36: each access takes the branch that the clause's premises select. -/
theorem registerAccesses : Obligations.RegisterAccesses := by
  unfold Obligations.RegisterAccesses
  constructor
  · intro fn bar off width s f o
    refine ⟨?whole, ?refusedRead, ?low, ?high, ?stages, ?word, ?spans, ?bar2, ?refusedWrite, ?invalidWrite, ?invalidRead⟩
    case whole =>
      intro r hbad hopen hregs hoff hbytes v
      exact congrArg answers ((readAccess_one hbad hopen hregs).trans (by rw [readPart_whole hoff hbytes]))
    case refusedRead =>
      intro hbad
      exact congrArg answers (readAccess_refused hbad)
    case low =>
      intro r hopen hregs hoff hbytes v
      have hbad : accessBad (o / 16 * 16) 8 = false := accessBad_eq_false (.inr rfl) (by omega)
      exact congrArg answers ((readAccess_one hbad hopen hregs).trans (by rw [readPart_low hoff hbytes]))
    case high =>
      intro r hbad hopen hregs hbytes hoff
      exact congrArg answers ((readAccess_one hbad hopen hregs).trans (by rw [readPart_high hoff hbytes]))
    case stages =>
      intro v cur hforbid hfn hwide
      have hlow : v.toNat % 2 ^ 32 = v.toNat := Nat.mod_eq_of_lt v.isLt
      refine congrArg answers ((writeAccess_low v.toNat hforbid hfn (by omega)).trans ?_)
      rw [hlow, writeUnit_stages hwide]
    case word =>
      intro v hfn halign hwide
      exact congrArg answers (writeAccess_word v.toNat hfn halign hwide)
    case spans =>
      intro v cur hfn halign hwide
      refine congrArg answers ((writeAccess_wide v.toNat hfn halign).trans ?_)
      rw [writeUnit_spans _ _ hwide, ofNat_words]
      rfl
    case bar2 =>
      intro v halign
      exact congrArg answers (writeAccess_bar2 v.toNat halign)
    case refusedWrite =>
      intro v hbad
      exact congrArg answers (writeAccess_refused v.toNat hbad)
    case invalidWrite =>
      intro hbad
      exact congrArg Host.Outcome.next (if_pos ((Bool.or_eq_true_iff ..).2 hbad))
    case invalidRead =>
      intro hbad
      exact congrArg Host.Outcome.next (if_pos ((Bool.or_eq_true_iff ..).2 (.inl hbad)))
  · intro port a n l poisoned s
    refine ⟨?read, ?readOutside, ?write, ?writeStaging, ?writeOutside⟩
    case read =>
      intro hwin hmem
      exact congrArg answers (bar4Read_memory hwin hmem)
    case readOutside =>
      intro hwin
      exact congrArg answers (bar4Read_outside hwin)
    case write =>
      intro hwin hmem
      exact congrArg answers (bar4Write_memory poisoned hwin hmem)
    case writeStaging =>
      intro hwin hstage
      exact congrArg answers (bar4Write_staging poisoned hwin hstage)
    case writeOutside =>
      intro hwin
      exact congrArg answers (bar4Write_outside poisoned hwin)

end Sys2Proof
end

section
/-!
SUPPORT. What the acting registers of BAR0 do with a value, and which bits of it they look at; O38.
-/

namespace Sys2Proof.Machine

/-! ### Bit fields of a written value -/

section Fields

variable {w w' n lo len : Nat} {v : BitVec w} {u : BitVec w'}

/-- The fields of a value and of its number are the same. -/
theorem bits_toNat (v : BitVec w) (lo len : Nat) : bits v.toNat lo len = (v.extractLsb' lo len).toNat := by
  rw [bits, BitVec.extractLsb'_toNat]

theorem bit_toNat (v : BitVec w) (i : Nat) : bit v.toNat i = v.getLsbD i := by
  rw [bit, BitVec.testBit_toNat]

theorem ofNat_toNat_low (v : BitVec w) (n : Nat) : BitVec.ofNat n v.toNat = v.extractLsb' 0 n :=
  BitVec.eq_of_toNat_eq (by simp)

/-- The signed reading of a 7-bit field. -/
theorem sext_toNat (x : BitVec 7) : sext 7 x.toNat = x.toInt := by
  rw [sext7_eq, BitVec.ofNat_toNat, BitVec.setWidth_eq]

/-- Values that agree on their low `n` bits agree on every field there. -/
theorem extractLsb'_congr (h : v.setWidth n = u.setWidth n) (hle : lo + len ≤ n) : v.extractLsb' lo len = u.extractLsb' lo len := by
  rw [← BitVec.extractLsb'_setWidth_of_le hle, h, BitVec.extractLsb'_setWidth_of_le hle]

theorem getLsbD_congr {i : Nat} (h : v.setWidth n = u.setWidth n) (hlt : i < n) : v.getLsbD i = u.getLsbD i := by
  have hbit := congrArg (fun x => x.getLsbD i) h
  simpa [hlt] using hbit

/-- Setting bits at or above bit `n` leaves the low `n` bits. -/
theorem setWidth_or_high {m : BitVec w} (h : m.setWidth n = 0#n) : (v ||| m).setWidth n = v.setWidth n := by
  rw [BitVec.setWidth_or, h, BitVec.or_zero]

/-- Clearing bits at or above bit `n` leaves the low `n` bits. -/
theorem setWidth_and_not_high {m : BitVec w} (hn : n ≤ w) (h : m.setWidth n = 0#n) : (v &&& ~~~m).setWidth n = v.setWidth n := by
  rw [BitVec.setWidth_and, BitVec.setWidth_not hn, h, BitVec.not_zero, BitVec.and_allOnes]

end Fields

/-! ### The converters' rows -/

/-- RESTART discards the window, after the fields of the write are in force (R109). -/
theorem Csu.write_restart {w w' : Nat} {v : BitVec w} {u : BitVec w'} (index : Nat) (c : Csu) (h : v.setWidth 8 = u.setWidth 8)
    (hv : v.getLsbD 8 = true) (hu : u.getLsbD 8 = false) : Csu.write v.toNat index c = Csu.discard index (Csu.write u.toNat index c) := by
  have hlog : v.extractLsb' 0 6 = u.extractLsb' 0 6 := extractLsb'_congr h (by decide)
  have hrun : v.getLsbD 6 = u.getLsbD 6 := getLsbD_congr h (by decide)
  have hfreeze : v.getLsbD 7 = u.getLsbD 7 := getLsbD_congr h (by decide)
  simp only [Csu.write, bits_toNat, bit_toNat, hlog, hrun, hfreeze, hv, hu, if_true, Bool.false_eq_true, if_false]

/-- LAST_SLOT and TRIM_SEL of a write of AMC_CFG; a TRIM_SEL out of range stays (R117). -/
def Amc.configured (v : BitVec 32) (a : Amc) : Amc :=
  { a with lastSlot := v.extractLsb' 1 6, trimSel := if v.extractLsb' 8 5 < 16 then v.extractLsb' 8 5 else a.trimSel }

/-- A write of AMC_CFG: its fields, then RUN. -/
theorem Amc.write_eq (v : BitVec 32) (a : Amc) : Amc.write v.toNat a =
    let b := a.configured v
    if v.getLsbD 0 then
      if a.run then (if b.cur.isNone && b.urgent.isNone then b.startSlot b.slot.toNat else b)
      else Amc.startSlot b.slot.toNat { b with run := true }
    else { b with run := false, cur := none } := by
  simp only [Amc.write, Amc.configured, bits_toNat, bit_toNat, BitVec.ofNat_toNat, BitVec.setWidth_eq, BitVec.lt_def]
  rfl

/-! ### UCS_INJECT -/

/-- An injection is armed in MAINTENANCE, by the function of context 0 (R365). -/
theorem writeInject_arms {v u : BitVec 32} {f : Nat} {x : Ctx} {s : State} (h : v.setWidth 20 = u.setWidth 20) (harm : v.getLsbD 20 = true)
    (hmode : effMode s = 12) (hctx : getCtx 0 s = some x) (hfn : x.fn = f) (hunit : (u.extractLsb' 15 5).toNat ≤ 16) :
    writeInject f v.toNat s = modSpu (fun x => { x with
      injAddr := u.extractLsb' 0 14, injPatch := u.getLsbD 14, injArm := true, injUnit := u.extractLsb' 15 5 }) s := by
  have haddr : v.extractLsb' 0 14 = u.extractLsb' 0 14 := extractLsb'_congr h (by decide)
  have hpatch : v.getLsbD 14 = u.getLsbD 14 := getLsbD_congr h (by decide)
  have hfield : v.extractLsb' 15 5 = u.extractLsb' 15 5 := extractLsb'_congr h (by decide)
  have hmay : (decide (effMode s = 12) && (getCtx 0 s).any fun c => decide (c.fn = f)) = true := by simp [hmode, hctx, hfn]
  simp only [writeInject, hmay, if_true, bits_toNat, bit_toNat, ofNat_toNat_low v 14, haddr, hpatch, harm, hfield, hunit,
    BitVec.ofNat_toNat, BitVec.setWidth_eq]

/-- Outside MAINTENANCE a write of UCS_INJECT is ignored (R365). -/
theorem writeInject_ignored {f v : Nat} {s : State} (hmode : effMode s ≠ 12) : writeInject f v s = s := by
  simp [writeInject, hmode]

/-! ### The eye scan -/

/-- The fields of a write of LNK_ES_CTL; a value out of range stays (R481). -/
def EyeScan.configured (v : BitVec 32) (e : EyeScan) : EyeScan :=
  { e with
    lane := v.extractLsb' 0 5
    toff := if -32 ≤ (v.extractLsb' 5 7).toInt ∧ (v.extractLsb' 5 7).toInt ≤ 32 then v.extractLsb' 5 7 else e.toff
    voff := if -60 ≤ (v.extractLsb' 12 7).toInt ∧ (v.extractLsb' 12 7).toInt ≤ 60 then v.extractLsb' 12 7 else e.voff
    dwell := if 20 ≤ (v.extractLsb' 19 6).toNat ∧ (v.extractLsb' 19 6).toNat ≤ 40 then v.extractLsb' 19 6 else e.dwell }

/-- The scan's fields are the low 25 bits of the register. -/
theorem EyeScan.configured_congr {v u : BitVec 32} (h : v.setWidth 25 = u.setWidth 25) : EyeScan.configured v = EyeScan.configured u := by
  have hlane : v.extractLsb' 0 5 = u.extractLsb' 0 5 := extractLsb'_congr h (by decide)
  have htoff : v.extractLsb' 5 7 = u.extractLsb' 5 7 := extractLsb'_congr h (by decide)
  have hvoff : v.extractLsb' 12 7 = u.extractLsb' 12 7 := extractLsb'_congr h (by decide)
  have hdwell : v.extractLsb' 19 6 = u.extractLsb' 19 6 := extractLsb'_congr h (by decide)
  funext e
  simp only [EyeScan.configured, hlane, htoff, hvoff, hdwell]

/-- A write of LNK_ES_CTL: its fields, then ABORT, then START (R480). -/
theorem writeScanCtl_eq (v : BitVec 32) (s : State) : writeScanCtl v.toNat s =
    let s1 := modScan (EyeScan.configured v) s
    let s2 := if v.getLsbD 26 then endScan 1 s1 else s1
    if v.getLsbD 25 then startScan s2 else s2 := by
  simp only [writeScanCtl, bits_toNat, bit_toNat, ofNat_toNat_low v 5, sext_toNat, BitVec.ofNat_toNat, BitVec.setWidth_eq,
    Bool.and_eq_true, decide_eq_true_eq]
  rfl

/-- A running scan that ends early keeps fewer bits than it was asked for, and errors among them (log entry 113). -/
theorem endScan_scan {fin : Nat} {s : State} (hrun : s.link.scan.state = 1) :
    ∃ n k : Nat, n < 2 ^ s.link.scan.runDwell.toNat ∧ n < 2 ^ 48 ∧ k ≤ n ∧ (endScan fin s).link.scan =
      { s.link.scan with state := 3, fin := BitVec.ofNat 3 fin, bits := BitVec.ofNat 48 n, errors := BitVec.ofNat 48 k } := by
  let b := freshValue 48 s
  let e := freshValue 48 b.2
  refine ⟨b.1.toNat % 2 ^ s.link.scan.runDwell.toNat, e.1.toNat % (b.1.toNat % 2 ^ s.link.scan.runDwell.toNat + 1),
    ?fewer, ?fits, ?among, ?scan⟩
  case fewer => exact Nat.mod_lt _ (Nat.two_pow_pos _)
  case fits => exact (Nat.mod_le ..).trans_lt b.1.isLt
  case among => exact Nat.le_of_lt_succ (Nat.mod_lt _ (Nat.succ_pos _))
  case scan =>
    rw [endScan, if_neg (not_not.2 hrun)]
    rfl

/-- What an aborted scan reads (R480, R481). -/
theorem endScan_running {fin : Nat} {s : State} (hrun : s.link.scan.state = 1) :
    let e := (endScan fin s).link.scan
    e.state = 3 ∧ e.fin = BitVec.ofNat 3 fin ∧ e.bits.toNat < 2 ^ s.link.scan.runDwell.toNat ∧ e.errors.toNat ≤ e.bits.toNat := by
  obtain ⟨n, k, hfewer, hfits, hamong, hscan⟩ := endScan_scan (fin := fin) hrun
  have hbits : (BitVec.ofNat 48 n).toNat = n := Nat.mod_eq_of_lt hfits
  have herrors : (BitVec.ofNat 48 k).toNat = k := Nat.mod_eq_of_lt (hamong.trans_lt hfits)
  rw [hscan]
  dsimp only
  rw [hbits, herrors]
  exact ⟨rfl, rfl, hfewer, hamong⟩

/-! ### The pattern test -/

section PatternTest

variable {l : Nat} {s : State}

/-- The fields of a write of LNK_LN_PRBS_CFG; a PATTERN or INJ_LOG2 out of range stays (R483). -/
def Lane.configured (v : BitVec 32) (x : Lane) : Lane :=
  { x with
    pattern := if (v.extractLsb' 0 3).toNat < 6 then v.extractLsb' 0 3 else x.pattern, genEn := v.getLsbD 3, chkEn := v.getLsbD 4
    injMode := v.extractLsb' 5 2, injLen := v.extractLsb' 7 6
    injLog2 := if 10 ≤ (v.extractLsb' 13 6).toNat ∧ (v.extractLsb' 13 6).toNat ≤ 40 then v.extractLsb' 13 6 else x.injLog2 }

/-- The fields are the low 19 bits of the register. -/
theorem Lane.configured_congr {v u : BitVec 32} (h : v.setWidth 19 = u.setWidth 19) (x : Lane) : x.configured v = x.configured u := by
  have hpattern : v.extractLsb' 0 3 = u.extractLsb' 0 3 := extractLsb'_congr h (by decide)
  have hgen : v.getLsbD 3 = u.getLsbD 3 := getLsbD_congr h (by decide)
  have hchk : v.getLsbD 4 = u.getLsbD 4 := getLsbD_congr h (by decide)
  have hmode : v.extractLsb' 5 2 = u.extractLsb' 5 2 := extractLsb'_congr h (by decide)
  have hlen : v.extractLsb' 7 6 = u.extractLsb' 7 6 := extractLsb'_congr h (by decide)
  have hlog : v.extractLsb' 13 6 = u.extractLsb' 13 6 := extractLsb'_congr h (by decide)
  simp only [Lane.configured, hpattern, hgen, hchk, hmode, hlen, hlog]

/-- A write of LNK_LN_PRBS_CFG: its fields, then CLEAR, then INJ_GO (R483, R484). -/
theorem configureLane_eq (t : Nat) (v : BitVec 32) (x : Lane) : configureLane t v.toNat x =
    let z := if v.getLsbD 20 then (x.configured v).clearCounts t else x.configured v
    if v.getLsbD 19 then z.inject t else z := by
  simp only [configureLane, Lane.configured, bits_toNat, bit_toNat, ofNat_toNat_low v 3, BitVec.ofNat_toNat, BitVec.setWidth_eq,
    Bool.and_eq_true, decide_eq_true_eq]

/-- Setting INJ_GO injects after the rest of the write is in force. -/
theorem configureLane_injGo (t : Nat) (v : BitVec 32) (x : Lane) :
    configureLane t (v ||| 0x80000).toNat x = (configureLane t (v &&& ~~~0x80000).toNat x).inject t := by
  have hfields : x.configured (v ||| 0x80000) = x.configured (v &&& ~~~0x80000) :=
    Lane.configured_congr ((setWidth_or_high rfl).trans (setWidth_and_not_high (by decide) rfl).symm) x
  have hset : (v ||| 0x80000).getLsbD 19 = true := by simp
  have hcleared : (v &&& ~~~0x80000).getLsbD 19 = false := by simp
  have hclear : (v ||| 0x80000).getLsbD 20 = (v &&& ~~~0x80000).getLsbD 20 := by simp
  rw [configureLane_eq, configureLane_eq, hfields, hset, hcleared, hclear]
  rfl

/-- Setting CLEAR, without INJ_GO, clears the counts after the rest of the write is in force. -/
theorem configureLane_clear (t : Nat) {v : BitVec 32} (x : Lane) (hgo : v.getLsbD 19 = false) :
    configureLane t (v ||| 0x100000).toNat x = (configureLane t (v &&& ~~~0x100000).toNat x).clearCounts t := by
  have hfields : x.configured (v ||| 0x100000) = x.configured (v &&& ~~~0x100000) :=
    Lane.configured_congr ((setWidth_or_high rfl).trans (setWidth_and_not_high (by decide) rfl).symm) x
  have hset : (v ||| 0x100000).getLsbD 20 = true := by simp
  have hcleared : (v &&& ~~~0x100000).getLsbD 20 = false := by simp
  have hsetGo : (v ||| 0x100000).getLsbD 19 = false := by simpa using hgo
  have hclearedGo : (v &&& ~~~0x100000).getLsbD 19 = false := by simpa using hgo
  rw [configureLane_eq, configureLane_eq, hfields, hset, hcleared, hsetGo, hclearedGo]
  rfl

/-- Outside TEST the pattern registers ignore writes (R485). -/
theorem writePrbsCfg_closed (v : Nat) (htest : testLane l s = false) : writePrbsCfg l v s = s := by
  simp [writePrbsCfg, htest]

/-- In TEST, with the checker out of lock, a write takes effect on the lane at once (R483). -/
theorem writePrbsCfg_unlocked (v : Nat) (htest : testLane l s = true) (hlock : (getLane l s).locked = false) :
    writePrbsCfg l v s = modLane l (fun x => configureLane (nowTick s) v (x.account (nowTick s))) s := by
  have hstop : stopChecker l s = s := by simp [stopChecker, hlock]
  simp only [writePrbsCfg, htest, hstop, ite_self, Bool.not_true, Bool.false_eq_true, if_false]

/-- An offset outside an array of blocks is in none of them. -/
theorem block_outside {base stride n o : Nat} (h : o < base ∨ base + stride * n ≤ o) : block base stride n o = none := by
  rw [block, if_neg]
  rw [Bool.and_eq_true, decide_eq_true_eq, decide_eq_true_eq]
  omega

/-- LNK_LN_PRBS_CFG of lane `l` is at offset 0x10 of the lane's block. -/
theorem block_prbsCfg (hl : l < 32) : block 0x8200 0x40 32 (0x8210 + 0x40 * l) = some (l, 0x10) := by
  have hin : (decide (0x8200 ≤ 0x8210 + 0x40 * l) && decide (0x8210 + 0x40 * l < 0x8200 + 0x40 * 32)) = true := by
    rw [Bool.and_eq_true, decide_eq_true_eq, decide_eq_true_eq]
    omega
  have hlane : (0x8210 + 0x40 * l - 0x8200) / 0x40 = l := by omega
  have hrel : (0x8210 + 0x40 * l - 0x8200) % 0x40 = 0x10 := by omega
  rw [block, if_pos hin, hlane, hrel]

/-- No field of LNK_LN_PRBS_CFG spans its bits 31 and 32. -/
theorem wideReg_prbsCfg (f : Nat) (s : State) (hl : l < 32) : wideReg f (0x8210 + 0x40 * l) s = none := by
  unfold wideReg
  split
  case h_5 => simp only [block_prbsCfg hl]
  all_goals omega

/-- A 32-bit write to LNK_LN_PRBS_CFG reaches that register. -/
theorem write0_prbsCfg (f v : Nat) (s : State) (hl : l < 32) : write0 f (0x8210 + 0x40 * l) v s = writePrbsCfg l v s := by
  have hquota : block 0x200 4 128 (0x8210 + 0x40 * l) = none := block_outside (.inr (by omega))
  have hseq : block 0xE40 4 64 (0x8210 + 0x40 * l) = none := block_outside (.inr (by omega))
  have hport : block 0x8000 0x80 2 (0x8210 + 0x40 * l) = none := block_outside (.inr (by omega))
  unfold write0
  split
  case h_21 => simp only [hquota, hseq, hport, block_prbsCfg hl, if_true]
  all_goals omega

end PatternTest

/-! ### The rows of BAR0 -/

section Rows

variable {f off : Nat} {s : State}

/-- A 32-bit write by a physical function to a register with no spanning field gives that register the value. -/
theorem writeAccess_row (v : BitVec 32) (hfn : fnNumber f = 0) (halign : off % 8 = 0) (hwide : wideReg f off s = none) :
    writeAccess f 0 off 4 v.toNat s = write0 f off v.toNat s := by
  rw [writeAccess_word v.toNat hfn halign hwide, Nat.mod_eq_of_lt v.isLt]

theorem writeAccess_csuCfg (v : BitVec 32) (hfn : fnNumber f = 0) :
    writeAccess f 0 0xA00 4 v.toNat s = modCsu (Csu.write v.toNat (nextIndex s)) s :=
  writeAccess_row v hfn rfl rfl

theorem writeAccess_amcClr (v : BitVec 32) (hfn : fnNumber f = 0) :
    writeAccess f 0 0xE10 4 v.toNat s = modAmc (Amc.clear v.toNat) s :=
  writeAccess_row v hfn rfl rfl

theorem writeAccess_amcCfg (v : BitVec 32) (hfn : fnNumber f = 0) :
    writeAccess f 0 0xE00 4 v.toNat s = modAmc (Amc.write v.toNat) s :=
  writeAccess_row v hfn rfl rfl

theorem writeAccess_ucsInject (v : BitVec 32) (hfn : fnNumber f = 0) :
    writeAccess f 0 0x5020 4 v.toNat s = writeInject f v.toNat s :=
  writeAccess_row v hfn rfl rfl

theorem writeAccess_scanCtl (v : BitVec 32) (hfn : fnNumber f = 0) :
    writeAccess f 0 0x8C00 4 v.toNat s = writeScanCtl v.toNat s :=
  writeAccess_row v hfn rfl rfl

theorem writeAccess_prbsCfg (lane : BitVec 5) (v : BitVec 32) (hfn : fnNumber f = 0) :
    writeAccess f 0 (0x8210 + 0x40 * lane.toNat) 4 v.toNat s = writePrbsCfg lane.toNat v.toNat s :=
  (writeAccess_row v hfn (by omega) (wideReg_prbsCfg f s lane.isLt)).trans (write0_prbsCfg f v.toNat s lane.isLt)

end Rows

end Sys2Proof.Machine

namespace Sys2Proof

open Sys2Proof.Machine

/-- Settles O38: each write reaches its register, which looks at the fields and the acting bit. -/
theorem actingWrites : Obligations.ActingWrites := by
  unfold Obligations.ActingWrites
  intro fn lane v s hfn
  refine ⟨?csuRestart, ?csuCfg, ?amcClr, ?amcStops, ?amcStarts, ?injects, ?injectIgnored, ?scanStarts, ?scanAborts, ?testClosed,
    ?injGo, ?clear⟩
  case csuRestart =>
    have hlow : (v ||| 0x100).setWidth 8 = (v.setWidth 8).setWidth 8 := (setWidth_or_high rfl).trans (BitVec.setWidth_eq _).symm
    have hwrite (c : Csu) := Csu.write_restart (nextIndex s) c hlow (by simp) (BitVec.getLsbD_of_ge _ 8 le_rfl)
    refine congrArg Host.Outcome.next ((writeAccess_csuCfg _ hfn).trans ?_)
    exact congrArg (modCsu · s) (funext hwrite)
  case csuCfg => exact congrArg Host.Outcome.next (writeAccess_csuCfg v hfn)
  case amcClr => exact congrArg Host.Outcome.next (writeAccess_amcClr v hfn)
  case amcStops =>
    intro hstop
    refine congrArg Host.Outcome.next ((writeAccess_amcCfg v hfn).trans (modAmc_congr ?_))
    rw [Amc.write_eq, hstop]
    rfl
  case amcStarts =>
    intro hstart hidle
    refine congrArg Host.Outcome.next ((writeAccess_amcCfg v hfn).trans (modAmc_congr ?_))
    rw [Amc.write_eq, hstart, hidle]
    rfl
  case injects =>
    intro x hmode hctx hown hunit
    exact congrArg Host.Outcome.next ((writeAccess_ucsInject _ hfn).trans
      (writeInject_arms (setWidth_or_high rfl) (by simp) hmode hctx hown hunit))
  case injectIgnored =>
    intro hmode
    exact congrArg Host.Outcome.next ((writeAccess_ucsInject _ hfn).trans (writeInject_ignored hmode))
  case scanStarts =>
    intro hnoAbort
    refine congrArg Host.Outcome.next ((writeAccess_scanCtl _ hfn).trans ?_)
    have hfields : EyeScan.configured (v ||| 0x2000000) = EyeScan.configured v := EyeScan.configured_congr (setWidth_or_high rfl)
    have habort : (v ||| 0x2000000).getLsbD 26 = false := by simpa using hnoAbort
    have hstart : (v ||| 0x2000000).getLsbD 25 = true := by simp
    rw [writeScanCtl_eq, hfields, habort, hstart]
    rfl
  case scanAborts =>
    intro hnoStart hrun
    have hwrite : writeScanCtl (v ||| 0x4000000).toNat s = endScan 1 (modScan (EyeScan.configured (v ||| 0x4000000)) s) := by
      have habort : (v ||| 0x4000000).getLsbD 26 = true := by simp
      have hstart : (v ||| 0x4000000).getLsbD 25 = false := by simpa using hnoStart
      rw [writeScanCtl_eq, habort, hstart]
      rfl
    exact ⟨_, congrArg Host.Outcome.next ((writeAccess_scanCtl _ hfn).trans hwrite), endScan_running hrun⟩
  case testClosed =>
    intro htest
    have hignored (u : BitVec 32) : writeAccess fn.toNat 0 (0x8210 + 0x40 * lane.toNat) 4 u.toNat s = s :=
      (writeAccess_prbsCfg lane u hfn).trans (writePrbsCfg_closed _ htest)
    exact ⟨congrArg Host.Outcome.next (hignored _), congrArg Host.Outcome.next (hignored _)⟩
  case injGo =>
    intro htest hlock
    refine congrArg Host.Outcome.next ((writeAccess_prbsCfg lane _ hfn).trans ((writePrbsCfg_unlocked _ htest hlock).trans ?_))
    exact congrArg (modLane lane.toNat · s) (funext fun x => configureLane_injGo _ v _)
  case clear =>
    intro htest hlock hnoGo
    refine congrArg Host.Outcome.next ((writeAccess_prbsCfg lane _ hfn).trans ((writePrbsCfg_unlocked _ htest hlock).trans ?_))
    exact congrArg (modLane lane.toNat · s) (funext fun x => configureLane_clear _ _ hnoGo)

end Sys2Proof
end

section
/-!
SUPPORT. What CAL_CONTROL does as it begins, for the forms that check more than their layout; O25.
-/

namespace Sys2Proof.Machine

section CalibrationForms

variable {d : Sub} {r : List HostRead} {s b : State} {c sid : Nat} {D : Desc}

theorem Begins.exec_calManualLoad (h : Begins (.calManualLoad d r) s c sid D b) :
    exec (.calManualLoad d r) s = ran (beginCalManualLoad c sid D b) := by
  rw [h.exec_eq]
  obtain rfl := Option.some.inj h.descOf_eq
  rfl

theorem Begins.exec_calFence (h : Begins (.calFence d) s c sid D b) : exec (.calFence d) s = ran (beginCalFence c sid D b) := by
  rw [h.exec_eq]
  obtain rfl := Option.some.inj h.descOf_eq
  rfl

theorem Begins.exec_runForeground (h : Begins (.runForeground d) s c sid D b) :
    exec (.runForeground d) s = ran (beginRunForeground c sid D b) := by
  rw [h.exec_eq]
  obtain rfl := Option.some.inj h.descOf_eq
  rfl

/-- MANUAL_LOAD of a set that was read and is in range makes the selected pairs MANUAL and offers them the set (R143, R144). -/
theorem beginCalManualLoad_offers {o : Block} (hread : D.block 0 160 = some o) (hset : setCheck o = none) :
    beginCalManualLoad c sid D b = completeDesc c sid .success 0 0
      (onCalPairs D (fun n p => { p with mode := 3 }.offer (getPair n b).next (readSet o) 3 false) b) := by
  simp only [beginCalManualLoad, hread, hset]

/-- A FENCE of context 0 needs no plan that holds the pairs; its duration is rounded up to whole words (R136, R144). -/
theorem beginCalFence_ctx0 :
    beginCalFence 0 sid D b = completeDesc 0 sid .success 0 0 (onCalPairs D (fun n p =>
      p.placeFence 0 ((getPair n b).next + 8 * cdiv (D.f 0x14 4 * b.tim.rateNum) (b.tim.rateDen * 8000000))) b) :=
  rfl

/-- RUN_FOREGROUND in MAINTENANCE, on pairs that no plan holds and none of which is in FOREGROUND, starts them in turn; its completion waits
for their ends (R140, R144). -/
theorem beginRunForeground_starts (hmode : effMode b = 12) (hfree : ∀ n ∈ calPairs D, pairHeld n b = false ∧ (getSkim n b).mode ≠ 4) :
    beginRunForeground c sid D b =
      let t := (calPairs D).foldl (fun s n => startForeground n s) b
      { t with skm := { t.skm with fgRun := some (c, sid, calPairs D) } } := by
  have hnone : ¬ ((calPairs D).any fun n => pairHeld n b || decide ((getSkim n b).mode = 4)) = true := by
    simpa using hfree
  exact (if_neg (not_not.2 hmode)).trans (if_neg hnone)

/-- RUN_FOREGROUND outside MAINTENANCE fails with MODE_MISMATCH (R144). -/
theorem beginRunForeground_mismatch (hmode : effMode b ≠ 12) :
    beginRunForeground c sid D b = completeDesc c sid .modeMismatch 0 0 b :=
  if_pos hmode

end CalibrationForms

end Sys2Proof.Machine

namespace Sys2Proof

open Sys2Proof.Machine

/-- Settles O25: a form that checks no more than its layout is its definition, and each other is begun by its lemma, in the branch that the
clause's premises select. SET_MODE leaves a pair in FOREGROUND as it is by log entry 98. -/
theorem calibrationDescriptors : Obligations.CalibrationDescriptors := by
  unfold Obligations.CalibrationDescriptors
  intro d r s b c sid D
  refine ⟨?setMode, ?manualLoad, ?fence, ?rampLength, ?foreground, ?mismatch, ?tableReset⟩
  case setMode =>
    intro h
    obtain rfl := Option.some.inj h.descOf_eq
    exact h.exec_eq
  case manualLoad =>
    intro o h hread hset
    rw [h.exec_calManualLoad, beginCalManualLoad_offers hread hset, ends]
  case fence =>
    rintro h rfl
    rw [h.exec_calFence, beginCalFence_ctx0, ends]
  case rampLength =>
    intro h
    obtain rfl := Option.some.inj h.descOf_eq
    exact h.exec_eq
  case foreground =>
    intro h hmode hfree
    rw [h.exec_runForeground, beginRunForeground_starts hmode hfree]
  case mismatch =>
    intro h hmode
    rw [h.exec_runForeground, beginRunForeground_mismatch hmode, ends]
  case tableReset =>
    intro h
    obtain rfl := Option.some.inj h.descOf_eq
    exact h.exec_eq

end Sys2Proof
end

section
/-!
SUPPORT. A slot's word, an NCO's hops and retunes, and a stream's next frame, branch by branch; O53.
-/

namespace Sys2Proof.Machine

variable {s : State}

/-! ### Zoom words -/

section ZoomWords

variable {n : Nat}

/-- A slot with no word to deliver stands still (log entries 6 and 138). -/
theorem zoomOut_of_no_word (h : zoomWord n s = none) : zoomOut n s = s := by
  cases hplan : (getSlot n s).plan <;> simp only [zoomOut, hplan, h]

/-- A slot whose word no capture ring takes delivers it to its stream, exports and LEVEL stages (R162, R163). -/
theorem zoomOut_uncaptured {p : Nat} {w : HWord} {sat : Bool} (hplan : (getSlot n s).plan = some p) (hword : zoomWord n s = some (w, sat))
    (hrings : ∀ r ∈ (slotAdvance n w sat s).trg.rings, r.plan ≠ p ∨ r.source ≠ 17 + (getSlot n s).channel ∨ r.r < 4) :
    zoomOut n s = trigZoomWord n (getSlot n s).m w (exportWord p (16 + (getSlot n s).channel) w
      (pushZoom p n (getSlot n s).m w (slotAdvance n w sat s))) := by
  have hnone : ((slotAdvance n w sat s).trg.rings.find? fun r =>
      decide (r.plan = p) && decide (r.source = 17 + (getSlot n s).channel) && decide (4 ≤ r.r)) = none := by
    rw [List.find?_eq_none]
    intro r hr
    have := hrings r hr
    simp only [Bool.and_eq_true, decide_eq_true_eq]
    omega
  simp only [zoomOut, hplan, hword, hnone]

end ZoomWords

/-! ### Hops and retunes -/

section Ncos

variable {u : Nat}

/-- A change of a front unit depends only on what it does to the unit as it stands. -/
theorem modFront_congr {f g : Front → Front} (h : f (getFront u s) = g (getFront u s)) : modFront u f s = modFront u g s := by
  unfold modFront
  rw [modNth_congr Front.reset h]

/-- A change of a slot depends only on what it does to the slot as it stands. -/
theorem modSlot_congr {f g : Slot → Slot} (h : f (getSlot u s) = g (getSlot u s)) : modSlot u f s = modSlot u g s := by
  unfold modSlot
  rw [modNth_congr Slot.reset h]

/-- An event of the NCO of a front unit in use: its sample numbers are the chain-input indexes (R157). -/
theorem modNco_front {f : Nat → (Nat → Nat) → Nco → Nco} {g : Nco → Nco} (hplan : (getFront u s).plan.isSome = true)
    (h : f (pairNext (getFront u s).pair s) id (getFront u s).nco = g (getFront u s).nco) :
    modNco false u f s = modFront u (fun x => { x with nco := g x.nco }) s := by
  have hchange : modNco false u f s =
      modFront u (fun x => if x.plan.isSome then { x with nco := f (pairNext x.pair s) id x.nco } else x) s := rfl
  rw [hchange]
  apply modFront_congr
  simp only [hplan, if_true, h]

/-- An event of the NCO of a slot in use: its sample numbers are those of the sub-channel's rate (R157). -/
theorem modNco_slot {f : Nat → (Nat → Nat) → Nco → Nco} {g : Nco → Nco} (hplan : (getSlot u s).plan.isSome = true)
    (h : f (pairNext (getFront (getSlot u s).front s).pair s) (subSample (getFront (getSlot u s).front s)) (getSlot u s).nco
      = g (getSlot u s).nco) :
    modNco true u f s = modSlot u (fun x => { x with nco := g x.nco }) s := by
  have hchange : modNco true u f s = modSlot u (fun x => if x.plan.isSome then
      { x with nco := f (pairNext (getFront (getSlot u s).front s).pair s) (subSample (getFront (getSlot u s).front s)) x.nco }
      else x) s := rfl
  rw [hchange]
  apply modSlot_congr
  simp only [hplan, if_true, h]

/-- With no request waiting, a dwell that has ended retunes the NCO (R159). -/
theorem Nco.hopDue_passed {n : Nco} {next r : Nat} (num : Nat → Nat) (hhop : n.hopNext = some r) (hpassed : r ≤ next)
    (hrequest : n.request = none) : n.hopDue next num = n.hopAt r (num r) := by
  simp [Nco.hopDue, hhop, hrequest, Nat.not_lt.2 hpassed]

/-- With no dwell running, a request whose index has come retunes the NCO and is done (R158). -/
theorem Nco.requestDue_passed {n : Nco} {next ftw r : Nat} (num : Nat → Nat) (hrequest : n.request = some (ftw, r)) (hpassed : r ≤ next)
    (hhop : n.hopNext = none) : n.requestDue next num = { n.retune r (num r) ftw with request := none } := by
  simp only [Nco.requestDue, hrequest, if_neg (Nat.not_lt.2 hpassed), hhop, Nco.applyRequest]

end Ncos

/-! ### Spectra -/

section Frames

variable {plan idx : Nat} {x : XStream}

/-- A frame whose samples have arrived is formed, and the stream moves on by its hop (R176, R177). -/
theorem formFrame_ready (hx : getX plan idx s = some x) (hready : x.ready = true) :
    let moved := fun (x : XStream) => XStream.prune { x with next := x.next + x.cfg.hop, number := x.number + 1, gap := false, change := false }
    formFrame plan idx s = consume (moved x) (x.form s) (modX plan idx moved s) := by
  simp only [formFrame, hx, if_pos hready]

/-- A stream that still waits for samples of its frame stands still (log entry 6). -/
theorem formFrame_not_ready (hx : getX plan idx s = some x) (hready : x.ready = false) : formFrame plan idx s = s := by
  simp only [formFrame, hx, hready, Bool.false_eq_true, if_false]

end Frames

end Sys2Proof.Machine

namespace Sys2Proof

open Sys2Proof.Machine

/-- Settles O53: each event takes the branch that the clause's premises select. -/
theorem zoomAndSpectrumEvents : Obligations.ZoomAndSpectrumEvents := by
  unfold Obligations.ZoomAndSpectrumEvents
  refine ⟨?noWord, ?word, ?frontHop, ?frontRetune, ?slotHop, ?formed, ?waiting⟩
  case noWord =>
    intro slot s hnone
    exact congrArg answers (zoomOut_of_no_word hnone)
  case word =>
    intro slot s p w sat n sl hplan hword hrings
    exact congrArg answers (zoomOut_uncaptured hplan hword hrings)
  case frontHop =>
    intro u s r f _ hplan hhop hpassed hrequest
    exact congrArg Host.Outcome.next (modNco_front (g := fun n => n.hopAt r r) hplan (Nco.hopDue_passed id hhop hpassed hrequest))
  case frontRetune =>
    intro u s r ftw f _ hplan hrequest hpassed hhop
    exact congrArg Host.Outcome.next (modNco_front (g := fun n => { n.retune r r ftw with request := none }) hplan
      (Nco.requestDue_passed id hrequest hpassed hhop))
  case slotHop =>
    intro u s r sl _ hplan hhop hpassed hrequest
    exact congrArg Host.Outcome.next (modNco_slot (g := fun n => n.hopAt r (subSample (getFront sl.front s) r)) hplan
      (Nco.hopDue_passed (subSample (getFront sl.front s)) hhop hpassed hrequest))
  case formed =>
    intro plan stream s x hx hready
    exact congrArg answers (formFrame_ready hx hready)
  case waiting =>
    intro plan stream s x hx hready
    exact congrArg answers (formFrame_not_ready hx hready)

end Sys2Proof
end

section
/-!
SUPPORT. What WINDOW_LOAD and MASK_LOAD do as they begin, branch by branch; O19.
-/

namespace Sys2Proof.Machine

section WindowAndMaskForms

variable {c sid : Nat} {D : Desc} {b t : State}

/-! ### WINDOW_LOAD -/

/-- The block once the table of a context's handle and its backing copy are given back (R182). -/
def dropWindow (c h : Nat) (s : State) : State :=
  freeAllocs (fun k => decide (k = .window c h)) (modCtx c (fun x => { x with windows := x.windows.filter fun w => decide (w.handle ≠ h) }) s)

/-- TABLE of a sound image for a handle that no stream uses, where the T region and the DRAM hold it, is staged in the handle (R182). -/
theorem beginWindowTable_stages {o : Block} {base : Nat} (hread : D.block 0 (4 * 2 ^ D.f 0x12 1) = some o)
    (hreserved : tableReserved (tableCoefs o (D.f 0x12 1)) = none) (hbounded : tableUnbounded (tableCoefs o (D.f 0x12 1)) = false)
    (hunused : tableStreams c (D.f 0x11 1) b = [])
    (hroom : roomFor { Regions.zero with t := tableBytes (D.f 0x12 1) } (dropWindow c (D.f 0x11 1) b) = true)
    (htakes : allocate (.window c (D.f 0x11 1)) (4 * 2 ^ D.f 0x12 1) (dropWindow c (D.f 0x11 1) b) = some (base, t)) :
    beginWindowTable c sid D b = completeDesc c sid .success 0 0 (modCtx c (fun x => { x with
      windows := x.windows ++ [⟨D.f 0x11 1, D.f 0x12 1, tableCoefs o (D.f 0x12 1)⟩] }) t) := by
  unfold dropWindow at hroom htakes
  simp only [beginWindowTable, hread, hreserved, hbounded, hunused, List.all_nil, List.isEmpty_nil, Bool.not_true, Bool.or_self,
    Bool.false_eq_true, if_true, if_false, hroom, htakes, failDesc]

/-- DROP of a handle that no stream uses gives its table and its backing copy back (R182). -/
theorem beginWindowDrop_unused (hunused : tableStreams c (D.f 0x11 1) b = []) :
    beginWindowDrop c sid D b = completeDesc c sid .success 0 0 (dropWindow c (D.f 0x11 1) b) := by
  simp [beginWindowDrop, hunused, failDesc, dropWindow]

/-- The parameters that a RECONFIGURE asks for, with the overlap that the thermal ladder lets the stream have (R195, R538). -/
def reconfigureCfg (c : Nat) (D : Desc) (s : State) : XCfg :=
  ⟨D.f 0x21 1, D.f 0x22 1, ladderOverlap s.pwr.step.toNat (D.f 0x23 1), D.f 0x24 1, tableOf c (D.f 0x21 1) s⟩

/-- The block once a RECONFIGURE has superseded one that is pending and has set the stream's own overlap (R195, R197). -/
def reconfigureOwn (p : Plan) (g : SubBlk) (x : XStream) (D : Desc) (s : State) : State :=
  modX p.id g.idx (fun x => { x with own := D.f 0x23 1 }) (supersedeSwitch x s)

/-- RECONFIGURE of a running stream to a built-in window within its declared bounds completes at once where it changes none of the
parameters, and else asks the stream to switch (R195, R196). -/
theorem beginReconfigure_running {p : Plan} {g : SubBlk} {x : XStream} (hplan : ownPlan c (D.f 0x14 4) b = some p)
    (hsub : p.sub? 3 (D.f 0x20 1) = some g) (hbuiltin : D.f 0x21 1 ≤ 32) (hgood : reconfigureBad p g D b = none)
    (hx : getX p.id g.idx b = some x) :
    let cfg := reconfigureCfg c D b
    beginReconfigure c sid D b =
      if cfg.window = x.cfg.window ∧ cfg.lg = x.cfg.lg ∧ cfg.overlap = x.cfg.overlap ∧ cfg.taps = x.cfg.taps then
        completeDesc c sid .success 0 0 (reconfigureOwn p g x D b)
      else askSwitch x cfg (c, sid) (reconfigureOwn p g x D b) := by
  have huser : ¬ 32 < D.f 0x21 1 := Nat.not_lt.2 hbuiltin
  simp only [beginReconfigure, hplan, hsub, huser, hgood, hx, decide_false, Bool.false_and, Bool.false_eq_true, if_false,
    Bool.and_eq_true, decide_eq_true_eq, and_assoc]
  rfl

/-! ### MASK_LOAD -/

/-- LOAD of a sound image for a handle that no stage tests, in a mode with an M region, where the limit on masks, the region and the DRAM
hold it, is staged in the handle (R230). -/
theorem beginMaskLoad_stages {o : Block} {img : MaskImg} {base : Nat} (hread : D.block 0 (D.f 0x14 4) = some o)
    (himg : maskCheck o (D.f 0x14 4) = .ok img) (hmode : noMasks b = false) (hunused : maskStages c (D.f 0x11 1) b = [])
    (hcount : stagedMasks (dropMask c (D.f 0x11 1) b) < 64)
    (hroom : roomFor { Regions.zero with m := maskBytes img.lower.length } (dropMask c (D.f 0x11 1) b) = true)
    (htakes : allocate (.mask c (D.f 0x11 1)) (D.f 0x14 4) (dropMask c (D.f 0x11 1) b) = some (base, t)) :
    beginMaskLoad c sid D b =
      completeDesc c sid .success 0 0 (modTrg (fun x => { x with masks := x.masks ++ [⟨c, D.f 0x11 1, img, none⟩] }) t) := by
  simp [beginMaskLoad, hread, himg, hmode, hunused, Nat.not_le.2 hcount, hroom, htakes, failDesc]

/-- DROP of a handle that no stage tests gives its mask and its backing copy back (R230). -/
theorem beginMaskDrop_unused (hunused : maskStages c (D.f 0x11 1) b = []) :
    beginMaskDrop c sid D b = completeDesc c sid .success 0 0 (dropMask c (D.f 0x11 1) b) := by
  simp [beginMaskDrop, hunused, failDesc]

end WindowAndMaskForms

end Sys2Proof.Machine

namespace Sys2Proof

open Sys2Proof.Machine

/-- Settles O19: each form is begun by its lemma, in the branch that the clause's premises select. -/
theorem windowAndMaskDescriptors : Obligations.WindowAndMaskDescriptors := by
  unfold Obligations.WindowAndMaskDescriptors
  intro d r s b t c sid D handle
  refine ⟨?table, ?windowDrop, ?reconfigure, ?mask, ?maskDrop⟩
  case table =>
    intro o base h hread hreserved hbounded hunused b1 hroom htakes
    obtain rfl := Option.some.inj h.descOf_eq
    exact h.exec_eq.trans (congrArg ran (beginWindowTable_stages hread hreserved hbounded hunused hroom htakes))
  case windowDrop =>
    intro h hunused
    obtain rfl := Option.some.inj h.descOf_eq
    exact h.exec_eq.trans (congrArg ran (beginWindowDrop_unused hunused))
  case reconfigure =>
    intro p g x h hplan hsub hbuiltin hgood hx cfg b1
    obtain rfl := Option.some.inj h.descOf_eq
    exact h.exec_eq.trans ((congrArg ran (beginReconfigure_running hplan hsub hbuiltin hgood hx)).trans (apply_ite ran _ _ _))
  case mask =>
    intro o img base h hread himg hmode hunused hcount hroom htakes
    obtain rfl := Option.some.inj h.descOf_eq
    exact h.exec_eq.trans (congrArg ran (beginMaskLoad_stages hread himg hmode hunused hcount hroom htakes))
  case maskDrop =>
    intro h hunused
    obtain rfl := Option.some.inj h.descOf_eq
    exact h.exec_eq.trans (congrArg ran (beginMaskDrop_unused hunused))

end Sys2Proof
end

section
/-!
SUPPORT. What TRIGGER_ARM, TRIGGER_DISARM, CAPTURE_READ and CAPTURE_RELEASE do as they begin, branch by branch; O20.
-/

namespace Sys2Proof.Machine

section TriggerAndCaptureForms

variable {c sid : Nat} {D : Desc} {b : State}

/-! ### TRIGGER_ARM and TRIGGER_DISARM -/

/-- Either form, on TRIGGER blocks that a running plan has, takes its effect on the unit of each (R235). -/
theorem beginArming_running {p : Plan} (f : Nat → State → State) (hplan : ownPlan c (D.f 0x10 4) b = some p)
    (hphase : p.phase = .running) (hblocks : ∀ u ∈ maskIdx (D.f 0x14 1) 8, (p.sub? 6 u).isSome = true) :
    beginArming c sid D f b =
      completeDesc c sid .success 0 0 ((maskUnits p.id (D.f 0x14 1) b).foldl (fun s n => f n s) b) := by
  have hall : ((maskIdx (D.f 0x14 1) 8).all fun u => (p.sub? 6 u).isSome) = true := List.all_eq_true.2 hblocks
  have hruns : ¬ p.phase ≠ .running := not_not.2 hphase
  simp only [beginArming, hplan, hall, hruns, Bool.not_true, Bool.false_eq_true, if_false, failDesc]

/-! ### CAPTURE_READ -/

/-- CAPTURE_READ of segments that a capture has writes their records, once the poisoned codewords they meet are reported (R247, R452). -/
theorem beginCaptureSegments_reads {x : Capture} {r : CapRing} (hplan : capturePlan c (D.f 0x10 4) b = true)
    (hring : hasRing c (D.f 0x16 1) b = true) (hcap : ownCapture c (D.f 0x10 4) (D.f 0x14 1) (D.f 0x18 8) b = some x)
    (hsegs : D.f 0x20 4 + D.f 0x24 4 ≤ x.segs.length) (hr : getCap x.ring b = some r) :
    let gs := (x.segs.drop (D.f 0x20 4)).take (D.f 0x24 4)
    beginCaptureSegments c sid D b = writeRead c sid (D.f 0x16 1)
      ((gs.map fun g => segmentRecords x g r b.dram.poison (decide (D.f 0x17 1 = 1))).flatten)
      (gs.foldl (fun s g => reportPoison c r g.first ((min g.fin g.spillFrom - g.first) / r.width) s) b) := by
  simp only [beginCaptureSegments, hplan, hring, hcap, if_neg (Nat.not_lt.2 hsegs), hr]

/-- The ring of a source that a plan captures: a pair's, or a zoom channel's of the plan itself (R242, R247). -/
def planRing (p : Plan) (n : Nat) (s : State) : Option CapRing :=
  s.trg.rings.find? fun r => decide (r.r = n) && (p.kindSubs 7).any (fun g => decide (g.f 0x08 1 = r.source))
    && (decide (r.r < 4) || decide (r.plan = p.id))

/-- CAPTURE_READ of words within the length of a ring writes their records; data already overwritten are counted (R247). -/
theorem beginCaptureWords_reads {p : Plan} {r : CapRing} (hplan : ownPlan c (D.f 0x10 4) b = some p)
    (hring : hasRing c (D.f 0x16 1) b = true) (hr : planRing p (D.f 0x34 1) b = some r) (hsome : D.f 0x30 4 ≠ 0)
    (hlength : D.f 0x30 4 ≤ r.length) :
    let first := D.f 0x28 8 - D.f 0x28 8 % r.width
    let got := rangeRecords p.id (D.f 0x14 1) first (D.f 0x30 4) r b.dram.poison (decide (D.f 0x17 1 = 1))
    beginCaptureWords c sid D b = writeRead c sid (D.f 0x16 1) got.1 (reportPoison c r first (D.f 0x30 4)
      (if got.2 then modCap r.r (fun r => { r with overwritten := satInc r.overwritten }) b else b)) := by
  unfold planRing at hr
  simp only [beginCaptureWords, hplan, hring, hr, hsome, if_neg (Nat.not_lt.2 hlength), Bool.not_true, Bool.false_eq_true, if_false]

/-! ### CAPTURE_RELEASE -/

/-- CAPTURE_RELEASE of a complete capture answers the blocks that it alone holds, and drops it (R247). -/
theorem beginCaptureRelease_complete {x : Capture} {r : CapRing} (hplan : capturePlan c (D.f 0x10 4) b = true)
    (hcap : ownCapture c (D.f 0x10 4) (D.f 0x14 1) (D.f 0x18 8) b = some x) (hcomplete : x.complete = true)
    (hown : ownCapture c (D.f 0x10 4) x.slot x.num b = some x) (hr : getCap x.ring b = some r) :
    beginCaptureRelease c sid D b = completeDesc c sid .success
      (r.blks.filter fun k => decide (k.holders = [(x.plan, x.slot, x.num)])).length 0 (dropCapture x b) := by
  simp only [beginCaptureRelease, hplan, hcap, hcomplete, if_true, hown, hr, Option.map_some, Option.getD_some]

end TriggerAndCaptureForms

end Sys2Proof.Machine

namespace Sys2Proof

open Sys2Proof.Machine

/-- Settles O20: each form is begun by its lemma, in the branch that the clause's premises select. -/
theorem triggerAndCaptureDescriptors : Obligations.TriggerAndCaptureDescriptors := by
  unfold Obligations.TriggerAndCaptureDescriptors
  intro d s b c sid D
  refine ⟨?arm, ?disarm, ?segments, ?words, ?release⟩
  case arm =>
    intro p h hplan hphase hblocks
    obtain rfl := Option.some.inj h.descOf_eq
    exact h.exec_eq.trans (congrArg ran (beginArming_running armAgain hplan hphase hblocks))
  case disarm =>
    intro p h hplan hphase hblocks
    obtain rfl := Option.some.inj h.descOf_eq
    exact h.exec_eq.trans (congrArg ran (beginArming_running disarmUnit hplan hphase hblocks))
  case segments =>
    intro x r h hplan hring hcap hsegs hr gs
    obtain rfl := Option.some.inj h.descOf_eq
    exact h.exec_eq.trans (congrArg ran (beginCaptureSegments_reads hplan hring hcap hsegs hr))
  case words =>
    intro p r h hplan hring hr hsome hlength first got
    obtain rfl := Option.some.inj h.descOf_eq
    exact h.exec_eq.trans (congrArg ran (beginCaptureWords_reads hplan hring hr hsome hlength))
  case release =>
    intro x r h hplan hcap hcomplete hown hr
    obtain rfl := Option.some.inj h.descOf_eq
    exact h.exec_eq.trans (congrArg ran (beginCaptureRelease_complete hplan hcap hcomplete hown hr))

end Sys2Proof
end

section
/-!
SUPPORT. What a unit's held events, forcing point and missed fires, a slot's open segment and rearm point, and TRIGOUT's rises and falls do as
they come due, branch by branch; O54.
-/

namespace Sys2Proof.Machine

variable {s : State}

/-! ### A unit's events -/

section UnitEvents

variable {n plan : Nat}

/-- A unit that does not wait for stage B has no deadline to pass. -/
theorem deadlinePassed_of_not_waitB (h : (getUnit n s).waitB = false) : deadlinePassed n s = false := by
  simp only [deadlinePassed, h, Bool.false_and]

/-- Without a deadline or a standing forcing point, the earliest held event is handled, and is held no more (R234). -/
theorem releaseEvent_earliest {e : TEvent} {rest : List TEvent} (hheld : (getUnit n s).held = e :: rest)
    (hwait : (getUnit n s).waitB = false) (hauto : autoStands n s = false) :
    releaseEvent n s = onEvent n e (modUnit n (fun u => { u with held := rest }) s) := by
  simp only [releaseEvent, deadlinePassed_of_not_waitB hwait, hheld, hauto, Bool.false_and, Bool.false_eq_true, if_false]

/-- A standing forcing point of a running plan's unit that its words have passed fires (R235). -/
theorem forceFire_passed (hplan : (getUnit n s).plan = some plan) (hauto : autoStands n s = true) (hruns : planRuns plan s = true)
    (hpassed : forcingPoint n s ≤ planNext plan s * 65536) : forceFire n s = autoForce n s := by
  simp only [forceFire, hplan, hauto, hruns, hpassed, decide_true, Bool.and_self, if_true]

/-- A missed fire of a unit that asked for no trigger records leaves the queue without one (R237). -/
theorem deliverMissed_no_ring {m : Missed} {rest : List Missed} (hplan : (getUnit n s).plan = some plan)
    (hmissed : (getUnit n s).missed = m :: rest) (hring : (unitBlk n s).f 0x0D 1 = 0) :
    deliverMissed n s = modUnit n (fun u => { u with missed := rest }) s := by
  simp only [deliverMissed, hplan, hmissed, hring, if_true]

/-- A missed fire whose data ring has room and owes no record becomes a TRIGGER record on it (R237, R248). -/
theorem deliverMissed_room {m : Missed} {rest : List Missed} {k : Nat} {st : Stream} (hplan : (getUnit n s).plan = some plan)
    (hmissed : (getUnit n s).missed = m :: rest) (hring : (unitBlk n s).f 0x0D 1 ≠ 0)
    (hstream : ringStream (planCtx plan s) ((unitBlk n s).f 0x0D 1) s = some k) (hst : getStream k s = some st) (hidle : st.waiting = [])
    (hroom : (findPlace st st.seq 192 s).isSome = true) :
    deliverMissed n s = (recordOn (planCtx plan s) ((unitBlk n s).f 0x0D 1)
      (triggerRec (triggerPayload plan (getUnit n s).blk m.ev m.flags m.number m.reason (0, 0, 0) s) m.ev.place s)
      (modUnit n (fun u => { u with missed := rest }) s)).1 := by
  simp only [deliverMissed, hplan, hmissed, hring, hstream, Option.bind_some, hst, hidle, List.isEmpty_nil, hroom, Bool.and_self,
    if_true, if_false]

end UnitEvents

/-! ### A capture slot -/

section CaptureSlot

variable {plan slot : Nat} {cs : CapSlot} {r : CapRing}

/-- An open segment whose last word is written closes, and the capture is complete with its last segment (R244). -/
theorem closeDue_written {k : Nat} {c c1 : Capture} {g : Seg} (hslot : getCapSlot plan slot s = some cs) (hcur : cs.cur = some k)
    (hcap : getCapture plan slot k s = some c) (hopen : c.openSeg = some g) (hr : getCap c.ring s = some r) (hwritten : g.fin ≤ r.next)
    (hclosed : getCapture plan slot c.num (closeSegment c g s) = some c1) :
    closeDue plan slot s =
      if (capBlock plan slot s).f 0x1C 4 ≤ c1.segs.length then completeCapture c1 (closeSegment c g s) else closeSegment c g s := by
  simp only [closeDue, hslot, Option.bind_some, hcur, hcap, hopen, hr, if_neg (Nat.not_lt.2 hwritten), hclosed]

/-- A rearm point that the ring's words have passed is the slot's last one (R235, R244). -/
theorem rearmDue_passed (hslot : getCapSlot plan slot s = some cs) (hr : slotRing plan slot s = some r) (hnew : cs.lastRearm < cs.rearm)
    (hpassed : cs.rearm ≤ r.next) : rearmDue plan slot s = modCapSlot plan slot (fun c => { c with lastRearm := c.rearm }) s := by
  simp only [rearmDue, hslot, hr, hnew, hpassed, decide_true, Bool.and_self, if_true]

/-- A rearm point still ahead of the ring's words leaves the slot as it is (log entry 6). -/
theorem rearmDue_ahead (hslot : getCapSlot plan slot s = some cs) (hr : slotRing plan slot s = some r) (hahead : r.next < cs.rearm) :
    rearmDue plan slot s = s := by
  simp only [rearmDue, hslot, hr, Nat.not_le.2 hahead, decide_false, Bool.and_false, Bool.false_eq_true, if_false]

end CaptureSlot

/-! ### TRIGOUT -/

section TrigOut

/-- The passing of time leaves triggers and captures as they are. -/
@[simp] theorem advanceToTick_trg (t : Nat) (s : State) : (advanceToTick t s).trg = s.trg := by
  unfold advanceToTick advance
  split
  · exact modTim_trg _ s
  · rfl

/-- A pulse that is low does not fall. -/
theorem trigoutFall_low (t : Nat) (h : s.trg.out.high = false) : trigoutFall t s = s := by
  simp only [trigoutFall, h, Bool.false_eq_true, if_false]

/-- The block at the tick of the one rise that is scheduled, which is scheduled no more. -/
def riseTaken (t : Nat) (s : State) : State :=
  modTrg (fun x => { x with out := { x.out with due := [] } }) (advanceToTick t s)

/-- The one rise that is scheduled comes, after the fall of a pulse that ends by then (R239). -/
theorem trigoutRises_one {t w : Nat} (hdue : s.trg.out.due = [(t, w)]) :
    trigoutRises s = trigoutRise t w (if s.trg.out.fallAt ≤ t then trigoutFall s.trg.out.fallAt (riseTaken t s) else riseTaken t s) := by
  have htaken : modTrg (fun x => { x with out := { x.out with due := x.out.due.erase (t, w) } }) (advanceToTick t s) = riseTaken t s := by
    simp only [riseTaken, modTrg, advanceToTick_trg, hdue, List.erase_cons_head]
  have hfallAt : (riseTaken t s).trg.out.fallAt = s.trg.out.fallAt := by simp [riseTaken]
  simp only [trigoutRises, hdue, List.foldl_nil, htaken, hfallAt]

/-- A rise of the pin while it is low is driven and counted (R239, R240). -/
theorem trigoutRises_low {t w : Nat} (hdue : s.trg.out.due = [(t, w)]) (hlow : s.trg.out.high = false) :
    trigoutRises s = emit (.pin .trigOut true t) (modTrg (fun x => { x with
      out := { x.out with due := [], high := true, rises := satInc x.out.rises, fallAt := t + w } }) (advanceToTick t s)) := by
  have htaken : (riseTaken t s).trg.out.high = false := by simpa [riseTaken] using hlow
  rw [trigoutRises_one hdue, trigoutFall_low _ htaken, ite_self, trigoutRise, if_neg (Bool.eq_false_iff.1 htaken)]
  rfl

/-- A rise during a pulse extends it, and is counted as merged (R239, R240). -/
theorem trigoutRises_high {t w : Nat} (hdue : s.trg.out.due = [(t, w)]) (hhigh : s.trg.out.high = true) (hduring : t < s.trg.out.fallAt) :
    trigoutRises s = modTrg (fun x => { x with
      out := { x.out with due := [], merged := satInc x.out.merged, fallAt := t + w } }) (advanceToTick t s) := by
  have htaken : (riseTaken t s).trg.out.high = true := by simpa [riseTaken] using hhigh
  rw [trigoutRises_one hdue, if_neg (Nat.not_le.2 hduring), trigoutRise, if_pos htaken]
  rfl

/-- A pulse ends with the fall of the pin at its tick (R239). -/
theorem trigoutFalls_high (hhigh : s.trg.out.high = true) :
    trigoutFalls s = emit (.pin .trigOut false s.trg.out.fallAt)
      (modTrg (fun x => { x with out := { x.out with high := false } }) (advanceToTick s.trg.out.fallAt s)) := by
  simp only [trigoutFalls, trigoutFall, advanceToTick_trg, hhigh, if_true]

end TrigOut

end Sys2Proof.Machine

namespace Sys2Proof

open Sys2Proof.Machine

/-- Settles O54: each event takes the branch that the clause's premises select. An event waits for no forced
fire where no forcing point stands (log entry 137), a forced fire's TRIG mark is log entry 38's, missed fires of every reason are queued alike
(log entry 43), and a rearm point still ahead leaves the block as it is (log entry 6). -/
theorem triggerEvents : Obligations.TriggerEvents := by
  unfold Obligations.TriggerEvents
  intro s
  refine ⟨?release, ?force, ?missedUnrecorded, ?missedRecorded, ?close, ?rearm, ?rearmAhead, ?rise, ?merge, ?fall⟩
  case release =>
    intro u e rest n hheld hwait hauto
    exact congrArg answers (releaseEvent_earliest hheld hwait hauto)
  case force =>
    intro u p n hplan hauto hruns hpassed q
    exact congrArg answers (forceFire_passed hplan hauto hruns hpassed)
  case missedUnrecorded =>
    intro u p m rest n ring hplan hmissed hring
    exact congrArg answers (deliverMissed_no_ring hplan hmissed hring)
  case missedRecorded =>
    intro u p m rest k st n ring hplan hmissed hring hstream hst hidle hroom
    exact congrArg answers (deliverMissed_room hplan hmissed hring hstream hst hidle hroom)
  case close =>
    intro plan slot cs k c g r c1 hslot hcur hcap hopen hr hwritten hclosed
    exact congrArg answers (closeDue_written hslot hcur hcap hopen hr hwritten hclosed)
  case rearm =>
    intro plan slot cs r hslot hr hnew hpassed
    exact congrArg Host.Outcome.next (rearmDue_passed hslot hr hnew hpassed)
  case rearmAhead =>
    intro plan slot cs r hslot hr hahead
    exact congrArg Host.Outcome.next (rearmDue_ahead hslot hr hahead)
  case rise =>
    intro t w hdue hlow
    exact congrArg answers (trigoutRises_low hdue hlow)
  case merge =>
    intro t w hdue hhigh hduring
    exact congrArg answers (trigoutRises_high hdue hhigh hduring)
  case fall =>
    intro hhigh
    exact congrArg answers (trigoutFalls_high hhigh)

end Sys2Proof
end

section
/-!
SUPPORT. What DISPLAY_CONFIG and DISPLAY_FLIP do as they begin, branch by branch; O23.
-/

namespace Sys2Proof.Machine

section DisplayForms

variable {c sid : Nat} {D : Desc} {b t : State}

/-! ### Outputs -/

/-- The block once the layers of an output whose DRAM image no longer lies in its area have stopped (R269, log entry 90). -/
def stopMisplaced (o areaMb : Nat) (s : State) : State :=
  (List.range 4).foldl (fun s l =>
    let y := getLayer o l s
    if y.enabled && decide (y.source = 1) && !y.inArea y.cur.base areaMb then stopLayer o l s else s) s

/-- OUTPUT without lockstep on an output that is off and is not driven by the other one takes its area and its block's configuration, where
the DRAM holds the area and can feed the output (R269). -/
theorem beginDisplayOutput_enables {k : Block} {base : Nat} (hread : D.block 0 64 = some k)
    (hcheck : blockCheck k (outputFds (D.f 0x11 1) k) = none) (hoff : (getOut (D.f 0x11 1) b).enabled = false)
    (hfree : D.f 0x11 1 = 1 → (getOut 0 b).lockstep = false) (hsingle : blkFld k 0x19 1 ≠ 1)
    (harea : displayArea (D.f 0x11 1) (blkFld k 0x16 2) b = some (base, t)) :
    let t1 := modOut (D.f 0x11 1) (outputOf c base (nowTick b) k) (supersedeFlips (D.f 0x11 1) 1 t)
    dramDemand (reservedPlans t1) t1 ≤ t1.dram.bandwidth →
      beginDisplayOutput c sid D b = completeDesc c sid .success base 0 (stopMisplaced (D.f 0x11 1) (blkFld k 0x16 2) t1) := by
  intro t1 hdemand
  have hown : (decide (D.f 0x11 1 = 1) && (getOut 0 b).lockstep) = false := by simpa using hfree
  have htwin : decide (blkFld k 0x19 1 = 1) = false := decide_eq_false hsingle
  simp only [beginDisplayOutput, hread, hcheck, hown, hoff, htwin, Bool.false_and, Bool.or_self, Bool.false_eq_true, if_false, harea]
  exact if_neg (Nat.not_lt.2 hdemand)

/-- OUTPUT_OFF of an output of the context's own disables it (R269). -/
theorem beginOutputOff_own (hown : outputDenied c (D.f 0x11 1) b = none) :
    beginOutputOff c sid D b = completeDesc c sid .success 0 0 (disableOutput (D.f 0x11 1) b) := by
  simp only [beginOutputOff, hown, failDesc]

/-! ### Layers -/

/-- LAYER of a DRAM image that lies in the area of an output of the context's own replaces the layer, where the DRAM can feed it (R270). -/
theorem beginDisplayLayer_dram (hown : outputDenied c (D.f 0x11 1) b = none) (hsource : (layerOf D).source = 1)
    (hin : (layerOf D).inArea (layerOf D).cur.base (getOut (D.f 0x11 1) b).areaMb = true) :
    let t1 := modLayer (D.f 0x11 1) (D.f 0x12 1) (fun _ => layerOf D) (stopLayer (D.f 0x11 1) (D.f 0x12 1) b)
    dramDemand (reservedPlans t1) t1 ≤ t1.dram.bandwidth →
      beginDisplayLayer c sid D b = completeDesc c sid .success 0 0 t1 := by
  intro t1 hdemand
  simp only [beginDisplayLayer, hsource, hown, hin, ne_eq, not_true_eq_false, decide_false, decide_true, Bool.false_and, Bool.not_true,
    Bool.and_false, Bool.false_eq_true, if_false, failDesc]
  exact if_neg (Nat.not_lt.2 hdemand)

/-- LAYER_OFF on an output of the context's own stops the layer (R277). -/
theorem beginLayerOff_own (hown : outputDenied c (D.f 0x11 1) b = none) :
    beginLayerOff c sid D b = completeDesc c sid .success 0 0 (stopLayer (D.f 0x11 1) (D.f 0x12 1) b) := by
  simp only [beginLayerOff, hown, failDesc]

/-- LUT_LOAD for a surface of a plan that runs gives the surface its next colour table (R271). -/
theorem beginLutLoad_running {p : Plan} {g : SubBlk} {l : Block} {n : Nat} (hplan : ownPlan c (D.f 0x34 4) b = some p)
    (hsub : p.sub? 8 (D.f 0x17 1) = some g) (hread : D.block 0 1024 = some l) (hsurf : surfOf p.id g.idx b = some n) :
    beginLutLoad c sid D b =
      completeDesc c sid .success 0 0 (modSurf n (fun f => { f with newLut := some (readLut (g.f 0x0E 1) l) }) b) := by
  simp only [beginLutLoad, hplan, hsub, hread, hsurf, failDesc]

/-! ### Panel commands (R274) -/

/-- A panel read is sent, and waits for its response from then on. -/
theorem beginPanelCmd_read {x : Ctx} (hown : outputDenied c (D.f 0x11 1) b = none) (hreads : bit (D.f 0x32 1) 0 = true)
    (hctx : getCtx c b = some x) :
    beginPanelCmd c sid D b = modOut (D.f 0x11 1) (fun y => { y with panel := some ⟨(c, sid), x.fn, D.f 0x28 8, nowTick b⟩ })
      (emit (.panel (D.f 0x11 1) true []) b) := by
  simp only [beginPanelCmd, hreads, hown, hctx, if_true, Option.map_some, Option.getD_some]

/-- A panel write is sent, and is complete with that. -/
theorem beginPanelCmd_write {k : Block} (hown : outputDenied c (D.f 0x11 1) b = none) (hwrites : bit (D.f 0x32 1) 0 = false)
    (hread : D.block 0 (D.f 0x30 2) = some k) :
    beginPanelCmd c sid D b = completeDesc c sid .success 0 0 (emit (.panel (D.f 0x11 1) false k) b) := by
  simp only [beginPanelCmd, hwrites, hown, hread, Bool.false_eq_true, if_false, failDesc]

/-! ### Flips (R276) -/

/-- A flip of DRAM layers to images in the area supersedes those that share a layer with it, and waits for the next latch point. -/
theorem beginFlip_waits (hown : outputDenied c (D.f 0x10 1) b = none) (hgood : flipBad (D.f 0x10 1) D b = none) :
    beginFlip c sid D b = modOut (D.f 0x10 1) (fun y => { y with flips := y.flips ++ [⟨(c, sid), D.f 0x11 1⟩] })
      ((maskIdx (D.f 0x11 1) 4).foldl
        (fun s l => modLayer (D.f 0x10 1) l (fun y => { y with pend := some ⟨D.f (0x18 + 8 * l) 8, D.f 0x14 4⟩ }) s)
        (supersedeMask (D.f 0x10 1) (D.f 0x11 1) b)) := by
  simp only [beginFlip, hown, hgood]

end DisplayForms

end Sys2Proof.Machine

namespace Sys2Proof

open Sys2Proof.Machine

/-- Settles O23: each form is begun by its lemma, in the branch that the clause's premises select. An output's layers that still lie in its
new area stay by log entry 90. -/
theorem displayDescriptors : Obligations.DisplayDescriptors := by
  unfold Obligations.DisplayDescriptors
  intro d r s b t c sid D o
  refine ⟨?output, ?layer, ?lutLoad, ?panelRead, ?panelWrite, ?layerOff, ?outputOff, ?flip⟩
  case output =>
    intro k base h hread hcheck hoff hfree hsingle harea t1 hdemand
    obtain rfl := Option.some.inj h.descOf_eq
    exact h.exec_eq.trans (congrArg ran (beginDisplayOutput_enables hread hcheck hoff hfree hsingle harea hdemand))
  case layer =>
    intro h hown hsource hin t1 hdemand
    obtain rfl := Option.some.inj h.descOf_eq
    exact h.exec_eq.trans (congrArg ran (beginDisplayLayer_dram hown hsource hin hdemand))
  case lutLoad =>
    intro p g l n h hplan hsub hread hsurf
    obtain rfl := Option.some.inj h.descOf_eq
    exact h.exec_eq.trans (congrArg ran (beginLutLoad_running hplan hsub hread hsurf))
  case panelRead =>
    intro x h hown hreads hctx
    obtain rfl := Option.some.inj h.descOf_eq
    exact h.exec_eq.trans (congrArg ran (beginPanelCmd_read hown hreads hctx))
  case panelWrite =>
    intro k h hown hwrites hread
    obtain rfl := Option.some.inj h.descOf_eq
    exact h.exec_eq.trans (congrArg ran (beginPanelCmd_write hown hwrites hread))
  case layerOff =>
    intro h hown
    obtain rfl := Option.some.inj h.descOf_eq
    exact h.exec_eq.trans (congrArg ran (beginLayerOff_own hown))
  case outputOff =>
    intro h hown
    obtain rfl := Option.some.inj h.descOf_eq
    exact h.exec_eq.trans (congrArg ran (beginOutputOff_own hown))
  case flip =>
    intro h hown hgood
    obtain rfl := Option.some.inj h.descOf_eq
    exact h.exec_eq.trans (congrArg ran (beginFlip_waits hown hgood))

end Sys2Proof
end

section
/-!
SUPPORT. What latch points, tearing-effect edges, releases and panel reads do as they come due, branch by branch; O49.
-/

namespace Sys2Proof.Machine

section DisplayEvents

variable {o : Nat} {s : State}

/-- The passing of time leaves the display as it is. -/
@[simp] theorem advanceToTick_dpy (t : Nat) (s : State) : (advanceToTick t s).dpy = s.dpy := by
  unfold advanceToTick advance
  split
  · exact modTim_dpy _ s
  · rfl

/-- The passing of time leaves an output as it is. -/
@[simp] theorem getOut_advanceToTick (o t : Nat) (s : State) : getOut o (advanceToTick t s) = getOut o s := by
  simp only [getOut, advanceToTick_dpy]

/-! ### Latch points -/

/-- The latch point of a video-mode output comes a frame period after the last one (R275). -/
theorem latchVideo_enabled (hon : (getOut o s).enabled = true) (hvideo : (getOut o s).cmdMode = false) :
    latchVideo o s = latchOutput o (advanceToTick ((getOut o s).latchTick + (getOut o s).period) s) := by
  simp only [latchVideo, hon, hvideo, Bool.not_false, Bool.and_self, if_true]

/-- An output that is off has no latch point (log entry 6). -/
theorem latchVideo_off (hoff : (getOut o s).enabled = false) : latchVideo o s = s := by
  simp only [latchVideo, hoff, Bool.false_and, Bool.false_eq_true, if_false]

/-- In fallback a transfer starts a frame period after the last latch point (R278). -/
theorem selfTimed_fallback (hon : (getOut o s).enabled = true) (hcmd : (getOut o s).cmdMode = true)
    (hfallback : (getOut o s).inFallback = true) :
    selfTimed o s = latchOutput o (advanceToTick ((getOut o s).latchTick + (getOut o s).period) s) := by
  simp only [selfTimed, hon, hcmd, hfallback, Bool.and_self, if_true]

/-- An output as the start of its latch point leaves it: the next frame's number, the time, and the end of a command-mode transfer (R275). -/
def latchStart (s : State) (d : DOut) : DOut :=
  { d with
    frame := d.frame + 1, latch := BitVec.ofNat 128 (now s), latchTick := nowTick s
    busyUntil := nowTick s + if d.cmdMode then d.transferTicks else 0 }

/-- The latch point of an enabled output counts its frame, takes pending flips, ready buffers and colour tables, and sends the frame
(R268, R271, R275, R276). -/
theorem latchOutput_enabled (hon : (getOut o s).enabled = true) :
    latchOutput o s = sendFrame o (takeTables o
      ((List.range 4).foldl (fun s l => takeReady o l s) (takeFlips o (modOut o (latchStart s) s)))) :=
  if_pos hon

/-! ### The tearing effect -/

/-- A qualified TE edge outside fallback is a latch point, once the transfer before it has ended (R275). -/
theorem teEdge_free {low pulse : Nat} (hon : (getOut o s).enabled = true) (hcmd : (getOut o s).cmdMode = true)
    (hpaced : (getOut o s).inFallback = false) (hlow : 1000 ≤ low) (hpulse : 100 ≤ pulse) (hfree : (getOut o s).busyUntil ≤ nowTick s) :
    teEdge o low pulse s = latchOutput o (modOut o (fun d => { d with teRaised := false }) s) := by
  simp only [teEdge, hon, hcmd, hpaced, hlow, hpulse, decide_true, Bool.and_self, Bool.false_eq_true, if_true, if_false,
    if_neg (Nat.not_lt.2 hfree)]

/-- A qualified TE edge outside fallback during a transfer is skipped and counted (R275). -/
theorem teEdge_busy {low pulse : Nat} (hon : (getOut o s).enabled = true) (hcmd : (getOut o s).cmdMode = true)
    (hpaced : (getOut o s).inFallback = false) (hlow : 1000 ≤ low) (hpulse : 100 ≤ pulse) (hbusy : nowTick s < (getOut o s).busyUntil) :
    teEdge o low pulse s = modOut o (fun d => { d with teSkips := satInc d.teSkips, teRaised := false }) s := by
  simp only [teEdge, hon, hcmd, hpaced, hlow, hpulse, decide_true, Bool.and_self, Bool.false_eq_true, if_true, if_false, if_pos hbusy]

/-- A TE edge after too short a low time, or with too short a pulse, does not qualify (R275). -/
theorem teEdge_unqualified {low pulse : Nat} (hshort : low < 1000 ∨ pulse < 100) : teEdge o low pulse s = s := by
  refine if_neg fun hqualified => ?_
  simp only [Bool.and_eq_true, decide_eq_true_eq] at hqualified
  omega

/-- Without a qualified TE edge for the timeout the owner is told, once for each loss, and te_fallback decides what follows (R278). -/
theorem teTimeout_raised (hon : (getOut o s).enabled = true) (hcmd : (getOut o s).cmdMode = true) (hset : (getOut o s).teTimeout ≠ 0)
    (hfirst : (getOut o s).teRaised = false) :
    teTimeout o s = sendEvent (getOut o s).owner 0x0032 o 0 0 0 (modOut o (fun d => { d with
      teRaised := true, inFallback := d.teFallback, teTimeouts := satInc d.teTimeouts })
      (advanceToTick ((getOut o s).latchTick + (getOut o s).teTimeout * 800000) s)) := by
  simp only [teTimeout, hon, hcmd, hset, hfirst, ne_eq, not_false_eq_true, decide_true, Bool.not_false, Bool.and_self, if_true]

/-! ### Releases and panel reads -/

/-- The first replaced buffer that awaits its release is released with reason 0 (R277). -/
theorem releaseBuffer_first {r : Release} {rest : List Release} (hreleases : (getOut o s).releases = r :: rest) :
    releaseBuffer o s = sendRelease o r.layer r.flip 0 (modOut o (fun d => { d with releases := rest }) s) := by
  simp only [releaseBuffer, hreleases]

/-- The response to a panel read completes it with its first 16 bytes (R274). -/
theorem panelResponse_pending {q : PanelCmd} (data : Block) (hpanel : (getOut o s).panel = some q) :
    panelResponse o data s = completeBy (some q.asker) .success 0 (min 16 data.length)
      (modOut o (fun d => { d with panel := none }) (emit (.hostWrite q.fn q.addr (data.take 16)) s)) := by
  simp only [panelResponse, hpanel, List.length_take]

/-- A panel read without a response ends 10 ms after it was sent (R274). -/
theorem panelLate_pending {q : PanelCmd} (hpanel : (getOut o s).panel = some q) :
    panelLate o s = completeBy (some q.asker) .panelTimeout 0 0
      (modOut o (fun d => { d with panel := none }) (advanceToTick (q.start + 8000000) s)) := by
  simp only [panelLate, hpanel]

end DisplayEvents

end Sys2Proof.Machine

namespace Sys2Proof

open Sys2Proof.Machine

/-- Settles O49: each event takes the branch that the clause's premises select. A disabled output has no latch point by log entry 6, and the
frame that a latch point sends is sampled by log entry 47. -/
theorem displayEvents : Obligations.DisplayEvents := by
  unfold Obligations.DisplayEvents
  intro o s n d
  refine ⟨?latch, ?latchOff, ?edge, ?edgeUnqualified, ?timeout, ?selfTimed, ?release, ?response, ?late, ?frame⟩
  case latch =>
    intro hon hvideo
    exact congrArg answers (latchVideo_enabled hon hvideo)
  case latchOff =>
    intro hoff
    exact congrArg answers (latchVideo_off hoff)
  case edge =>
    intro tick low pulse t hon hcmd hpaced hlow hpulse
    have hd : getOut n t = d := getOut_advanceToTick n _ s
    rw [← hd] at hon hcmd hpaced ⊢
    constructor
    · intro hfree
      exact congrArg answers (teEdge_free hon hcmd hpaced hlow hpulse hfree)
    · intro hbusy
      exact congrArg answers (teEdge_busy hon hcmd hpaced hlow hpulse hbusy)
  case edgeUnqualified =>
    intro tick low pulse hshort
    exact congrArg answers (teEdge_unqualified hshort)
  case timeout =>
    intro hon hcmd hset hfirst
    exact congrArg answers (teTimeout_raised hon hcmd hset hfirst)
  case selfTimed =>
    intro hon hcmd hfallback
    exact congrArg answers (selfTimed_fallback hon hcmd hfallback)
  case release =>
    intro r rest hreleases
    exact congrArg answers (releaseBuffer_first hreleases)
  case response =>
    intro q data hpanel
    exact congrArg answers (panelResponse_pending data hpanel)
  case late =>
    intro q hpanel
    exact congrArg answers (panelLate_pending hpanel)
  case frame =>
    intro hon t
    refine ⟨latchOutput_enabled hon, fun hn => ?_⟩
    exact congrArg DOut.frame (getOut_modOut_same hn)

end Sys2Proof
end

section
/-!
SUPPORT. What an instruction leaves of its unit, and the arithmetic of the scalar results; O1.
-/

namespace Sys2Proof.Machine

/-! ### Scalar results -/

/-- An immediate read as signed (R316). -/
theorem sext_wImm (w : BitVec 56) : sext 32 (wImm w) = (BitVec.ofNat 32 (wImm w)).toInt :=
  sext_toInt _ (Nat.mod_lt _ (by decide))

/-- The low bits of a low field of a word are the shorter field. -/
theorem ofNat_bits_of_le {k n : Nat} (x : Nat) (h : k ≤ n) : BitVec.ofNat k (bits x 0 n) = BitVec.ofNat k (bits x 0 k) := by
  apply BitVec.eq_of_toNat_eq
  simp only [bits, BitVec.toNat_ofNat, Nat.mod_mod]
  exact Nat.mod_mod_of_dvd _ (pow_dvd_pow 2 h)

/-- An arithmetic right shift is the floor of the division by a power of two. -/
theorem sshiftRight_eq_div {n : Nat} (x : BitVec n) (k : Nat) : x.sshiftRight k = BitVec.ofInt n (x.toInt / 2 ^ k) := by
  rw [BitVec.sshiftRight, Int.shiftRight_eq_div_pow]
  norm_num

end Sys2Proof.Machine

namespace Sys2Proof

open Sys2Proof.Machine

/-- Settles O1: each instruction's results are those of its row; the flag of a clamp retires with its result (log entry 185). -/
theorem scalarAndPredicateResults : Obligations.ScalarAndPredicateResults := by
  unfold Obligations.ScalarAndPredicateResults
  intro n w s
  refine ⟨?aaddi, ?aadd, ?asub, ?ashl, ?amul, ?amovi, ?aand, ?aor, ?axor, ?ashr, ?asra, ?mtm, ?mfm, ?pset, ?pand, ?por, ?pxor, ?pnot,
    ?pfroma, ?ptoa⟩
  case aaddi =>
    intro h
    refine issueRegs_inFlight (h.ready rfl) ?_
    rw [sext_wImm, fitOut_fitted]
  case aadd | asub | ashl | amul => exact fun h => issueRegs_inFlight (h.ready rfl) (fitOut_fitted _ _ _ _)
  case asra =>
    intro h
    refine issueRegs_inFlight (h.ready rfl) ?_
    rw [sshiftRight_eq_div]; rfl
  case pset =>
    intro h
    refine issueRegs_inFlight (h.ready rfl) ?_
    rw [wImm, ofNat_bits_of_le _ (by decide)]; rfl
  case pfroma | ptoa =>
    intro h
    refine issueRegs_inFlight (h.ready rfl) ?_
    simp only [Lsu.predOut, BitVec.ofNat_toNat]
  case amovi | aand | aor | axor | ashr | mtm | mfm | pand | por | pxor | pnot => exact fun h => issueRegs_inFlight (h.ready rfl) rfl

end Sys2Proof
end

section
/-!
SUPPORT. What an instruction leaves of its unit as it issues, and what the control instructions do; O2.
-/

namespace Sys2Proof.Machine

/-! ### What issue leaves of the unit -/

/-- `issueRegs_ready` for a statement about the unit as a whole. -/
theorem issueRegs_unitIs {opc : Nat} {f : Form} {n : BitVec 4} {w : BitVec 56} {go : Lsu → Option (List Retire)} {s : State} {rs : List Retire}
    (h : (getLsu n.toNat s).mayIssue = true ∧ (getLsu n.toNat s).waiting = false ∧ f.ok w = true ∧ (getLsu n.toNat s).inBody opc = true)
    (hg : go (getLsu n.toNat s) = some rs) :
    Host.Outcome.next (settle (issueRegs opc f n w go s)) = unitIs n ((getLsu n.toNat s).done rs) s :=
  congrArg answers (issueRegs_ready h hg)

/-- The unit without what time alone changes: its banks, its clocks, its results in flight, its timer and its pending sources. -/
def Lsu.untimed (l : Lsu) : Lsu :=
  { l with b0 := SpuBank.zero, b1 := SpuBank.zero, clk := 0, cycle := 0, flight := [], timerArmed := false, pend := 0 }

/-- The unit without what the issue of an instruction changes: what time changes, and where the unit is in its program. -/
def Lsu.outer (l : Lsu) : Lsu :=
  { l.untimed with pc := 0, lastPc := 0, rep := none, afterRep := false, afterReti := false, loop := none, loopB1 := none, rot := 0 }

theorem Lsu.untimed_modBank (x : Bool) (f : SpuBank → SpuBank) (l : Lsu) : (l.modBank x f).untimed = l.untimed := by
  unfold Lsu.modBank
  split <;> rfl

theorem Lsu.untimed_reachTimer (l : Lsu) : l.reachTimer.untimed = l.untimed := by
  unfold Lsu.reachTimer
  split <;> rfl

/-- A fold whose every step keeps something keeps it. -/
theorem foldl_invariant {α β γ : Type} {g : β → γ} {f : β → α → β} (hf : ∀ b a, g (f b a) = g b) (as : List α) (b : β) :
    g (as.foldl f b) = g b := by
  induction as generalizing b with
  | nil => rfl
  | cons a as ih => exact (ih _).trans (hf b a)

/-- Time passes: results retire into the banks, the clocks count on, and the timer may become pending. -/
theorem Lsu.untimed_pass (k : Nat) (l : Lsu) : (l.pass k).untimed = l.untimed := by
  have hretire : ∀ (rs : List Retire) (x : Lsu), (rs.foldl Lsu.retire x).untimed = x.untimed :=
    foldl_invariant fun x r => untimed_modBank _ _ x
  exact (untimed_reachTimer _).trans (foldl_invariant (fun x _ => hretire _ x) (rangeFrom (l.clk + 1) (min k 5)) l)

theorem Lsu.outer_of_untimed {l l' : Lsu} (h : l'.untimed = l.untimed) : l'.outer = l.outer := by
  rw [outer, outer, h]

theorem Lsu.outer_stepLoop (a : Nat) (l : Lsu) : (l.stepLoop a).outer = l.outer := by
  unfold Lsu.stepLoop Lsu.rotate Lsu.setLoop
  repeat' split
  all_goals rfl

theorem Lsu.untimed_setLc (k : Nat) (l : Lsu) : (l.setLc k).untimed = l.untimed := untimed_modBank _ _ _

theorem Lsu.pc_setLc (k : Nat) (l : Lsu) : (l.setLc k).pc = l.pc := by
  unfold Lsu.setLc Lsu.modBank
  split <;> rfl

theorem Lsu.outer_setLc (k : Nat) (l : Lsu) : (l.setLc k).outer = l.outer := outer_of_untimed (untimed_setLc k l)

theorem Lsu.outer_stepPc (l : Lsu) : l.stepPc.outer = l.outer := by
  unfold Lsu.stepPc
  dsimp only
  split
  · exact outer_stepLoop _ _
  · split
    · split
      · exact outer_setLc _ _
      · exact (outer_stepLoop l.pc _).trans (outer_setLc 0 _)
    · rfl

/-- An instruction that takes one cycle changes banks, time and place in the program, and nothing else of its unit. -/
theorem Lsu.outer_done (rs : List Retire) (l : Lsu) : (l.done rs).outer = l.outer :=
  (outer_of_untimed (untimed_pass 1 _)).trans (outer_stepPc l)

/-- What `outer` keeps is equal where `outer` is. -/
theorem Lsu.eq_of_outer {α : Type} {f : Lsu → α} (hf : ∀ x : Lsu, f x.outer = f x) {l l' : Lsu} (h : l'.outer = l.outer) : f l' = f l :=
  (hf l').symm.trans ((congrArg f h).trans (hf l))

theorem Lsu.curLoop_of_untimed {l l' : Lsu} (h : l'.untimed = l.untimed) : l'.curLoop = l.curLoop :=
  (congrArg curLoop h : l'.untimed.curLoop = l.untimed.curLoop)

theorem Lsu.curLoop_setLc (k : Nat) (l : Lsu) : (l.setLc k).curLoop = l.curLoop := curLoop_of_untimed (untimed_setLc k l)

/-- Outside a LOOPR loop the instruction after an address follows it. -/
theorem Lsu.stepLoop_of_none {l : Lsu} (a : Nat) (h : l.curLoop = none) : l.stepLoop a = { l with pc := (a + 8) % 2 ^ 18 } := by
  rw [stepLoop, h]

theorem Lsu.curLoop_stepLoop {l : Lsu} (a : Nat) (h : l.curLoop = none) : (l.stepLoop a).curLoop = none := by
  rw [stepLoop_of_none a h]
  exact h

/-- No instruction but LOOPR enters a LOOPR loop. -/
theorem Lsu.curLoop_done {l : Lsu} (rs : List Retire) (h : l.curLoop = none) : (l.done rs).curLoop = none := by
  have hstep : l.stepPc.curLoop = none := by
    unfold Lsu.stepPc
    dsimp only
    split
    · exact curLoop_stepLoop _ h
    · split
      · split
        · exact (curLoop_setLc _ _).trans h
        · exact curLoop_stepLoop _ ((curLoop_setLc _ _).trans h)
      · exact h
  exact (curLoop_of_untimed (untimed_pass 1 _)).trans hstep

/-! ### Loops -/

/-- The guard of REP lets a body pass that R293 allows. -/
theorem Lsu.repOk.guard {count len : Nat} {l : Lsu} (h : l.repOk count len) :
    (decide (4096 < count * len) || (l.follows len).any fun o => isBranch o || isLong o || isLoop o) = false := by
  obtain ⟨hlen, hbody⟩ := h
  rw [Bool.or_eq_false_iff, decide_eq_false_iff_not, List.any_eq_false]
  refine ⟨Nat.not_lt.2 hlen, fun o ho => ?_⟩
  obtain ⟨hbranch, hlong, hloop⟩ := hbody o ho
  simp [hbranch, hlong, hloop]

/-- REP of a body that R293 allows begins it. -/
theorem Lsu.startRep_pos {count len : Nat} {l : Lsu} (hok : l.repOk count len) (hpos : 0 < count) :
    l.startRep count len = some (l.inRep count len) := by
  have hguard := hok.guard
  unfold Lsu.follows at hguard
  simp only [startRep, bodyOps, hguard, hpos.ne', Bool.false_eq_true, if_false]
  rfl

/-- REP of count 0 outside a LOOPR loop passes over its body (R321). -/
theorem Lsu.startRep_zero {len : Nat} {l : Lsu} (hok : l.repOk 0 len) (hloop : l.curLoop = none) :
    l.startRep 0 len = some (l.pastRep len) := by
  have hguard := hok.guard
  unfold Lsu.follows at hguard
  simp only [startRep, bodyOps, hguard, Bool.false_eq_true, if_false, if_true]
  refine congrArg some ((stepLoop_of_none _ ?_).trans ?_)
  · exact (curLoop_setLc _ _).trans (curLoop_done [] hloop)
  · rw [pc_setLc, pastRep]

/-- The guard of LOOPR lets a body pass that R294 allows. -/
theorem Lsu.loopGuard {count len : Nat} {l : Lsu} (hcount : count ≤ 2 ^ 24)
    (hbody : ∀ o ∈ l.follows len, isBranch o = false ∧ isLong o = false) :
    (decide (2 ^ 24 < count) || (l.follows len).any fun o => isBranch o || isLong o) = false := by
  rw [Bool.or_eq_false_iff, decide_eq_false_iff_not, List.any_eq_false]
  refine ⟨Nat.not_lt.2 hcount, fun o ho => ?_⟩
  obtain ⟨hbranch, hlong⟩ := hbody o ho
  simp [hbranch, hlong]

/-- LOOPR of a body that R294 allows begins it, or with a count of 0 passes over it (R322). -/
theorem Lsu.startLoop_ok {count len : Nat} {l : Lsu} (hcount : count ≤ 2 ^ 24)
    (hbody : ∀ o ∈ l.follows len, isBranch o = false ∧ isLong o = false) :
    l.startLoop count len = some (if count = 0 then { l.done [] with pc := ((l.pc + 8) % 2 ^ 18 + 8 * len) % 2 ^ 18 }
      else { l.done [] with pc := (l.pc + 8) % 2 ^ 18 }.setLoop (some ⟨(l.pc + 8) % 2 ^ 18, len, count⟩)) := by
  have hguard := loopGuard hcount hbody
  unfold Lsu.follows at hguard
  simp only [startLoop, bodyOps, hguard, Bool.false_eq_true, if_false, apply_ite some]

/-! ### Branches -/

/-- The conditions of BC are the six of the list, in the order of their codes (R321). -/
theorem condMet_of_lt {c : Nat} (hc : c < 6) (x : Int) : condMet c x = some (nth
    [decide (x = 0), decide (x ≠ 0), decide (x < 0), decide (0 ≤ x), decide (0 < x), decide (x ≤ 0)] c false) := by
  interval_cases c <;> rfl

/-- BP is taken on any bit of pA, and with K[32] on none (R321). -/
theorem taken_iff (p : BitVec 16) (none : Bool) : (decide (p ≠ 0) != none) = true ↔ (none = true ↔ p = 0) := by
  by_cases hp : p = 0 <;> cases none <;> simp [hp]

/-- An address to go to is cut to local memory. -/
theorem Lsu.goTo_mod (a lat : Nat) (rs : List Retire) (l : Lsu) : l.goTo (a % 2 ^ 18) lat rs = l.goTo a lat rs := by
  rw [goTo, goTo, Nat.mod_mod]

end Sys2Proof.Machine

namespace Sys2Proof

open Sys2Proof.Machine

/-- Settles O2: each instruction takes the branch that the clause's premises select. LC counts the repetitions left (log entry 181), the body
is checked at the REP (log entry 180), and RETI drops EPC's low bits and ends B1's loops (log entry 184). -/
theorem controlInstructions : Obligations.ControlInstructions := by
  unfold Obligations.ControlInstructions
  intro n w s l
  refine ⟨?nop, ?halt, ?reti, ?waiti, ?rep, ?repa, ?loopr, ?br, ?bc, ?bp, ?call, ?jr⟩
  case nop => exact fun h => issueRegs_unitIs (h.ready rfl) rfl
  case halt => 
    intro h
    change answers (haltTakes n.toNat (issueUnit 0x01 (formG 0 0 0 0xFFFF) n w _ s)) = _
    rw [issueUnit_ready (h.ready rfl) rfl]
  case reti => exact fun h hbank => issueUnit_unitIs (h.ready rfl) (if_pos hbank)
  case waiti =>
    intro h hbank
    exact issueUnit_unitIs (h.ready rfl) (if_neg (ne_true_of_eq_false hbank))
  case rep | repa =>
    intro h hok
    constructor
    · exact fun hpos => issueUnit_unitIs (h.ready rfl) (Lsu.startRep_pos hok hpos)
    · intro hzero hloop
      rw [hzero] at hok
      exact issueUnit_unitIs (h.ready rfl) ((congrArg (l.startRep · _) hzero).trans (Lsu.startRep_zero hok hloop))
  case loopr =>
    intro h hmode hcount hbody
    have hstart := Lsu.startLoop_ok hcount hbody
    constructor
    · exact fun hpos => issueUnit_unitIs (h.ready rfl) ((if_pos hmode).trans (hstart.trans (congrArg some (if_neg hpos.ne'))))
    · exact fun hzero => issueUnit_unitIs (h.ready rfl) ((if_pos hmode).trans (hstart.trans (congrArg some (if_pos hzero))))
  case br | call => exact fun h => issueUnit_unitIs (h.ready rfl) rfl
  case bc => exact fun h hcond => issueUnit_unitIs (h.ready rfl) (congrArg (Option.map _) (condMet_of_lt hcond _))
  case bp =>
    intro h
    refine issueUnit_unitIs (h.ready rfl) (congrArg some ?_)
    simp only [taken_iff]
    rfl
  case jr =>
    intro h halign
    refine issueUnit_unitIs (h.ready rfl) ((if_pos ?_).trans (congrArg some (Lsu.goTo_mod _ _ _ _)))
    exact (Nat.mod_mod_of_dvd _ (by decide)).trans halign

end Sys2Proof
end

section
/-!
SUPPORT. What the memory instructions and the register moves do; O3 and O4.
-/

namespace Sys2Proof.Machine

/-! ### Address updates -/

/-- The updated address in the terms of R292: the immediate as a signed word, and the m register where the word names one. -/
theorem Lsu.updated_eq (w : BitVec 56) (l : Lsu) : l.updated w = addrUpdate (l.ar (wA w)) (BitVec.ofNat 32 (wImm w)).toInt
    (if bit w.toNat 34 then nth l.cur.m (bits w.toNat 35 3) 0 else 0) := by
  rw [updated, sext_wImm]

/-- A memory instruction whose address update is legal leaves the update and its results in flight. -/
theorem Lsu.memDone_of_updated {w : BitVec 56} {l : Lsu} {b : BitVec 32} (rs : List Retire) (h : l.updated w = some b) :
    l.memDone w rs = some (l.done (l.out 1 (.a (wA w) b) :: rs)) := by
  rw [memDone, h]
  rfl

/-- Local memory is as it was after an instruction has issued. -/
theorem Lsu.mem_done (rs : List Retire) (l : Lsu) : (l.done rs).mem = l.mem := eq_of_outer (fun _ => rfl) (outer_done rs l)

theorem Lsu.line_congr {l l' : Lsu} (a : Nat) (h : l'.mem = l.mem) : l'.line a = l.line a := by
  unfold line bytes byte
  rw [h]

/-- VST writes its enabled bytes into the line as it was at issue. -/
theorem Lsu.storeLine_done (a : Nat) (m : BitVec 16) (v : BitVec 128) (rs : List Retire) (l : Lsu) :
    (l.done rs).storeLine a m v = (l.done rs).poke (a / 16 * 16) (leBytes 16 (mergeBytes m (l.line a) v).toNat) := by
  rw [storeLine, line_congr a (mem_done rs l)]

/-! ### Register moves -/

/-- A control register as the active bank's MFC reads it (R288, R289, R331). -/
theorem Lsu.readCtl_of_lt {c : Nat} (hc : c < 6) (maint : Bool) (l : Lsu) : l.cur.readCtl l.inB1 l.inB1 maint c =
    nth [l.cur.readSr l.inB1 maint, l.cur.ctl, l.cur.lc.setWidth 32, BitVec.ofNat 32 l.cur.prg.toNat,
      BitVec.ofNat 32 (l.cur.prg.toNat / 2 ^ 32), if l.inB1 then l.b1.epc else 0] c 0 := by
  have hepc : (if l.inB1 then l.cur.epc else 0) = if l.inB1 then l.b1.epc else 0 := by
    unfold cur bank
    split <;> simp [*]
  rcases (by omega : c < 5 ∨ c = 5) with hc | rfl
  · interval_cases c <;> rfl
  · exact hepc

theorem specialOk_of {k : Nat} (h : k < 5 ∨ 8 ≤ k) : specialOk k = true := by
  simp only [specialOk, Bool.not_eq_true', Bool.and_eq_false_iff, decide_eq_false_iff_not]
  omega

end Sys2Proof.Machine

namespace Sys2Proof

open Sys2Proof.Machine

/-- Settles O3: the updated address retires after 1 cycle, beside the access of the instruction's row. -/
theorem memoryInstructions : Obligations.MemoryInstructions := by
  unfold Obligations.MemoryInstructions
  intro n w s l a b haddr upd
  have hdone : ∀ rs, l.memDone w rs = some (l.done (upd :: rs)) := fun rs => Lsu.memDone_of_updated rs ((l.updated_eq w).trans haddr)
  refine ⟨?vld, ?vst, ?ldw, ?stw, ?aupd⟩
  case vld | ldw => exact fun h => issueUnit_unitIs (h.ready rfl) (hdone _)
  case aupd => exact fun h => issueUnit_unitIs (h.ready rfl) (hdone [])
  case vst =>
    intro h
    refine issueUnit_unitIs (h.ready rfl) ((congrArg (Option.map _) (hdone [])).trans ?_)
    exact congrArg some (Lsu.storeLine_done _ _ _ _ _)
  case stw => exact fun h => issueUnit_unitIs (h.ready rfl) (congrArg (Option.map _) (hdone []))

/-- Settles O4: each move takes the branch that the clause's premises select. -/
theorem registerMoves : Obligations.RegisterMoves := by
  unfold Obligations.RegisterMoves
  intro n w s l c k cls
  refine ⟨?mfc, ?mtc, ?mfs, ?mts, ?mfb, ?mtb⟩
  case mfc =>
    intro h hc
    exact issueUnit_unitIs (h.ready rfl)
      ((if_pos hc).trans (congrArg (fun x => some (l.done [l.out 1 (.a (wD w) x)])) (Lsu.readCtl_of_lt hc _ l)))
  case mtc => exact fun h hc => issueRegs_unitIs (h.ready rfl) (if_pos hc)
  case mfs | mts => exact fun h hk => issueUnit_unitIs (h.ready rfl) (if_pos (specialOk_of hk))
  case mfb | mtb =>
    intro h hbank h0 h1
    refine issueUnit_unitIs (h.ready rfl) (if_pos ?_)
    rw [Bool.and_eq_true, Bool.and_eq_true]
    exact ⟨⟨hbank, h0⟩, h1⟩

end Sys2Proof
end

section
/-!
SUPPORT. What DMAQ, TRIGP, TUNE and EMIT do; O8.
-/

namespace Sys2Proof.Machine

/-! ### Queues of a unit after issue -/

section Done

variable (rs : List Retire) (l : Lsu)

theorem Lsu.dma_done : (l.done rs).dma = l.dma := eq_of_outer (fun _ => rfl) (outer_done rs l)

theorem Lsu.dmaPosted_done : (l.done rs).dmaPosted = l.dmaPosted := eq_of_outer (fun _ => rfl) (outer_done rs l)

theorem Lsu.emits_done : (l.done rs).emits = l.emits := eq_of_outer (fun _ => rfl) (outer_done rs l)

theorem Lsu.outqFull_done : (l.done rs).outqFull = l.outqFull := eq_of_outer (fun _ => rfl) (outer_done rs l)

end Done

/-! ### Requests -/

/-- Two changes of one unit are one change. -/
theorem modLsu_modLsu (n : Nat) (f g : Lsu → Lsu) (s : State) : modLsu n g (modLsu n f s) = modLsu n (fun l => g (f l)) s := by
  have h : modNth (modNth s.spu.lsus n f) n g = modNth s.spu.lsus n fun l => g (f l) := List.modify_modify_eq f g n s.spu.lsus
  simp only [modLsu, modSpu, h]

section Post

variable {opc : Nat} {f : Form} {n : BitVec 4} {w : BitVec 56} {post : Lsu → State → Option State} {s : State}
  (hready : (getLsu n.toNat s).mayIssue = true ∧ (getLsu n.toNat s).waiting = false ∧ f.ok w = true ∧ (getLsu n.toNat s).inBody opc = true)
include hready

/-- A request that qualifies is made (R305). -/
theorem issuePost_made {t : State} (hpost : post (getLsu n.toNat s) s = some t) :
    issuePost opc f n w post s = modLsu n.toNat (fun l => l.done []) t := by
  rw [issuePost, issue_ready hready, hpost]
  rfl

/-- A request that does not qualify is counted (R305). -/
theorem issuePost_rejected (hpost : post (getLsu n.toNat s) s = none) :
    issuePost opc f n w post s = modLsu n.toNat (fun l => { l with rejected := satInc l.rejected }.done []) s := by
  rw [issuePost, issue_ready hready, hpost]
  exact modLsu_modLsu _ _ _ _

end Post

/-- EMIT takes a length that is a multiple of 16 from 16 to 65,536 (R306). -/
theorem emitLength_ok {len : Nat} (halign : len % 16 = 0) (hmin : 16 ≤ len) (hmax : len ≤ 65536) :
    (decide (len % 16 = 0) && decide (16 ≤ len) && decide (len ≤ 65536)) = true := by
  rw [decide_eq_true halign, decide_eq_true hmin, decide_eq_true hmax]
  rfl

end Sys2Proof.Machine

namespace Sys2Proof

open Sys2Proof.Machine

/-- Settles O8: each instruction takes the branch that the clause's premises select. DMAQ ignores the address bits below a line (log entry
197), and EMIT to a ring that the context does not have counts in REJECTED (log entry 198). -/
theorem actionInstructions : Obligations.ActionInstructions := by
  unfold Obligations.ActionInstructions
  intro n w s l q len known
  refine ⟨?dmaq, ?dmaqFull, ?trigp, ?trigpRejected, ?tune, ?tuneRejected, ?emit, ?emitFull, ?emitUnknown⟩
  case dmaq =>
    intro h hroom
    refine issueUnit_unitIs (h.ready rfl) ?_
    simp only [q, l] at hroom
    simp only [hroom, decide_true, if_true, Lsu.dma_done, Lsu.dmaPosted_done]
    rfl
  case dmaqFull =>
    intro h hfull
    refine issueUnit_unitIs (h.ready rfl) ?_
    simp only [q, l, ← Nat.not_lt] at hfull
    simp only [hfull, decide_false, if_false, Bool.false_eq_true]
    rfl
  case trigp | tune => exact fun h t hpost => congrArg answers (issuePost_made (h.ready rfl) hpost)
  case trigpRejected | tuneRejected => exact fun h hpost => congrArg answers (issuePost_rejected (h.ready rfl) hpost)
  case emit =>
    intro h halign hmin hmax hknown hroom
    refine issueUnit_unitIs (h.ready rfl) ((if_pos (emitLength_ok halign hmin hmax)).trans ?_)
    simp only [known, l] at hknown hroom
    simp only [hknown, hroom, decide_true, Bool.and_self, Bool.not_true, Bool.false_eq_true, if_true, if_false,
      Lsu.emits_done, Lsu.outqFull_done, BitVec.ofNat_toNat]
    rfl
  case emitFull =>
    intro h halign hmin hmax hknown hfull
    refine issueUnit_unitIs (h.ready rfl) ((if_pos (emitLength_ok halign hmin hmax)).trans ?_)
    simp only [known, l, ← Nat.not_lt] at hknown hfull
    simp only [hknown, hfull, decide_false, Bool.and_false, Bool.not_true, Bool.false_eq_true, if_false]
    rfl
  case emitUnknown =>
    intro h halign hmin hmax hknown
    refine issueUnit_unitIs (h.ready rfl) ((if_pos (emitLength_ok halign hmin hmax)).trans ?_)
    simp only [known, l] at hknown
    simp only [hknown, Bool.false_and, Bool.not_false, Bool.false_eq_true, if_true, if_false]
    rfl

end Sys2Proof
end

section
/-!
SUPPORT. Every SPU instruction issues by the row that the spec's tables give it; O12.
-/

namespace Sys2Proof.Machine

/-- Every instruction issues by its row of R320-R344; what follows is the block's settling, and for HALT (opcode 1) the end that it asks for. -/
theorem exec_of_spuRow {i : Instr} {n : BitVec 4} {w : BitVec 56} {opc : Nat} {f : Form} (h : spuRow i = some (n, w, opc, f)) :
    ∃ go, ∀ s, (opc ≠ 0x01 → exec i s = answers (issue opc f n w go s))
      ∧ (opc = 0x01 → exec i s = answers (haltTakes n.toNat (issue opc f n w go s))) := by
  cases i <;> simp only [spuRow, reduceCtorEq, Option.some.injEq, Prod.mk.injEq] at h <;> obtain ⟨rfl, rfl, rfl, rfl⟩ := h
  case halt => exact ⟨_, fun s => ⟨fun hopc => absurd rfl hopc, fun _ => rfl⟩⟩
  all_goals exact ⟨_, fun s => ⟨fun _ => rfl, fun hopc => absurd hopc (by decide)⟩⟩

end Sys2Proof.Machine

namespace Sys2Proof

open Sys2Proof.Machine

/-- Settles O12: an instruction that issues by its row does nothing but end with FAULT where the word breaks the row, or where the body that runs
forbids the opcode, as it is met there (log entry 180). -/
theorem illegalInstructions : Obligations.IllegalInstructions := by
  unfold Obligations.IllegalInstructions
  intro i n w opc f s hrow hissue hwait hbad t
  obtain ⟨go, hexec⟩ := exec_of_spuRow hrow
  obtain ⟨hother, hhalt⟩ := hexec s
  have hend : issue opc f n w go s = t := issue_illegal hissue hwait hbad
  rw [hend] at hother hhalt
  exact ⟨hother, hhalt⟩

end Sys2Proof
end

section
/-!
SUPPORT. What SPU_LOAD, SPU_LAUNCH, SPU_SIGNAL and SPU_STOP do as they begin, branch by branch; O21.
-/

namespace Sys2Proof.Machine

section KernelForms

variable {c sid : Nat} {D : Desc} {b t : State}

/-- SPU_LOAD of a sound image for a handle that no kernel runs, where the DRAM holds it, keeps the image in the handle (R308). -/
theorem beginSpuLoad_keeps {o : Block} {base : Nat} (hread : D.block 0 (D.f 0x14 4) = some o)
    (hsound : layoutCheck true (firstReserved (blkByte o) 0 64 (imageFds (D.f 0x14 4) o)) (imageFds (D.f 0x14 4) o) = none)
    (hidle : handleRuns c (D.f 0x10 1) b = false)
    (htakes : allocate (.kernel c (D.f 0x10 1)) (D.f 0x14 4) (freeAllocs (fun k => decide (k = .kernel c (D.f 0x10 1))) b) = some (base, t)) :
    beginSpuLoad c sid D b = completeDesc c sid .success 0 0 (modCtx c (fun x => { x with
      kernels := (x.kernels.filter fun k => decide (k.handle ≠ D.f 0x10 1)) ++ [⟨D.f 0x10 1, o⟩] }) t) := by
  simp only [beginSpuLoad, hread, hsound, hidle, htakes, Bool.false_eq_true, if_false, failDesc]

/-- A value that no selected queue is full for joins every one of them (R310). -/
theorem beginSpuSignal_joins {k : Kernel} (hown : ownKernel c (D.f 0x14 4) b = some k)
    (hroom : ∀ n ∈ selected k.id (D.f 0x12 2) b, (getLsu n b).sigq.length < 16) :
    beginSpuSignal c sid D b = completeDesc c sid .success 0 0
      ((selected k.id (D.f 0x12 2) b).foldl (fun s n => modLsu n (Lsu.pushSignal (D.f 0x18 4)) s) b) := by
  have hfull : ((selected k.id (D.f 0x12 2) b).any fun n => decide (16 ≤ (getLsu n b).sigq.length)) = false :=
    List.any_eq_false.2 fun n hn => by simpa using hroom n hn
  simp only [beginSpuSignal, hown, hfull, Bool.false_eq_true, if_false, failDesc]

/-- A value that one selected queue is full for joins none (R310). -/
theorem beginSpuSignal_full {k : Kernel} {n : Nat} (hown : ownKernel c (D.f 0x14 4) b = some k) (hn : n ∈ selected k.id (D.f 0x12 2) b)
    (hfull : 16 ≤ (getLsu n b).sigq.length) : beginSpuSignal c sid D b = completeDesc c sid .resourceBusy 0 14 b := by
  have hany : ((selected k.id (D.f 0x12 2) b).any fun n => decide (16 ≤ (getLsu n b).sigq.length)) = true :=
    List.any_eq_true.2 ⟨n, hn, decide_eq_true hfull⟩
  simp only [beginSpuSignal, hown, hany, if_true, busy]

/-- Selected instances are asked to end with reason 2, and the descriptor waits for their ends (R310, R311). -/
theorem beginSpuStop_asks {k : Kernel} (hown : ownKernel c (D.f 0x14 4) b = some k) (hsome : selected k.id (D.f 0x12 2) b ≠ []) :
    let l := selected k.id (D.f 0x12 2) b
    beginSpuStop c sid D b = modKernel k.id (fun x => { x with stops := x.stops ++ [(c, sid, l.map fun n => (getLsu n b).inst)] })
      (l.foldl (fun s n => modLsu n (Lsu.askEnd 2) s) b) := by
  have hempty : (selected k.id (D.f 0x12 2) b).isEmpty = false := List.isEmpty_eq_false_iff.2 hsome
  simp only [beginSpuStop, hown, hempty, Bool.false_eq_true, if_false]

/-- The kernel of a launch block, before it is known where its scratch lies (R309, R417). -/
def launchKernel (c : Nat) (o : Block) (img : KernelImage) (s : State) : Kernel :=
  { id := s.spu.nextKernel, ctx := c, handle := blkFld o 0 1, instances := blkFld o 1 1, plan := blkFld o 8 4, windows := []
    scratchKb := blkFld o 0x0C 4, scratchInS := false, emitRing := blkFld o 4 1, emitMb := blkFld o 0x14 4, dmaMb := blkFld o 0x10 4
    maintOnly := bit (blkFld img.bytes 6 2) 0, irqEntry := blkFld img.bytes 0x10 4 % 2 ^ 18, stops := [] }

/-- The taps of a launch block, open where their plan takes words (R299). -/
def launchTaps (o : Block) (s : State) : List Tap :=
  ((List.range (blkFld o 2 1)).map (tapEntry o)).map fun t => { t with isOpen := (getPlan t.plan s).any (·.takes s) }

/-- SPU_LAUNCH of a sound block whose handle, plans and rings exist, in a mode that serves it, starts its instances where they fit (R309). -/
theorem beginSpuLaunch_starts {o : Block} {img : KernelImage} {ws : List SpuWindow} (hread : D.block 0 464 = some o)
    (hsound : blockCheck o (launchFds c o b) = none)
    (himg : ((getCtx c b).bind fun x => x.kernels.find? fun k => decide (k.handle = blkFld o 0 1)) = some img)
    (hplan : blkFld o 8 4 ≠ 0 → (ownPlan c (blkFld o 8 4) b).isSome = true) (hring : blkFld o 4 1 ≠ 0 → hasRing c (blkFld o 4 1) b = true)
    (htaps : ∀ t ∈ (List.range (blkFld o 2 1)).map (tapEntry o), (ownPlan c t.plan b).isSome = true)
    (hmaint : bit (blkFld img.bytes 6 2) 0 = true → effMode b = 12) (hadmin : effMode b = 12 → c = 0)
    (hwindows : launchWindows c o (ownPlan c (blkFld o 8 4) b) b 1 (blkFld o 3 1) = some ws)
    (hfits : launch (launchKernel c o img b) img.bytes o ws (launchTaps o b) b = .ok t) :
    beginSpuLaunch c sid D b = completeDesc c sid .success b.spu.nextKernel (blkFld o 1 1) t := by
  have hplans : (decide (blkFld o 8 4 ≠ 0) && (ownPlan c (blkFld o 8 4) b).isNone
      || ((List.range (blkFld o 2 1)).map (tapEntry o)).any fun t => (ownPlan c t.plan b).isNone) = false := by
    rw [Bool.or_eq_false_iff, List.any_eq_false]
    exact ⟨by simpa using hplan, fun t ht => by simpa [Option.isSome_iff_ne_none] using htaps t ht⟩
  have hrings : (decide (blkFld o 4 1 ≠ 0) && !hasRing c (blkFld o 4 1) b) = false := by
    simpa using hring
  have hmode : (bit (blkFld img.bytes 6 2) 0 && decide (effMode b ≠ 12) || decide (effMode b = 12) && decide (c ≠ 0)) = false := by
    by_cases h : effMode b = 12
    · simp [h, hadmin h]
    · simp [h, mt hmaint h]
  simp only [beginSpuLaunch, hread, hsound, himg, hplans, hrings, hmode, hwindows, Bool.false_eq_true, if_false]
  unfold launchKernel launchTaps at hfits
  rw [hfits]

end KernelForms

end Sys2Proof.Machine
end

namespace Sys2Proof

open Sys2Proof.Machine

/-- Settles O21: each form is begun by its lemma, in the branch that the clause's premises select. A mask's bits of instances that have ended
are ignored (log entry 84). -/
theorem kernelDescriptors : Obligations.KernelDescriptors := by
  unfold Obligations.KernelDescriptors
  intro d r s b t c sid D
  refine ⟨?load, ?launch, ?signal, ?signalFull, ?stop⟩
  case load =>
    intro o base h hread hsound hidle htakes
    obtain rfl := Option.some.inj h.descOf_eq
    exact h.exec_eq.trans (congrArg ran (beginSpuLoad_keeps hread hsound hidle htakes))
  case launch =>
    intro o img ws h hread hsound himg hplan hring taps maint htaps hmaint hadmin hwindows hfits
    obtain rfl := Option.some.inj h.descOf_eq
    exact h.exec_eq.trans (congrArg ran
      (beginSpuLaunch_starts hread hsound himg hplan hring htaps hmaint hadmin hwindows hfits))
  case signal =>
    intro k h hown hroom
    obtain rfl := Option.some.inj h.descOf_eq
    exact h.exec_eq.trans (congrArg ran (beginSpuSignal_joins hown hroom))
  case signalFull =>
    intro k n h hown hn hfull
    obtain rfl := Option.some.inj h.descOf_eq
    exact h.exec_eq.trans (congrArg ran (beginSpuSignal_full hown hn hfull))
  case stop =>
    intro k h hown hsome l
    obtain rfl := Option.some.inj h.descOf_eq
    exact h.exec_eq.trans (congrArg ran (beginSpuStop_asks hown hsome))

end Sys2Proof

section
/-!
SUPPORT. The units at reset; O58.
-/

namespace Sys2Proof.Machine

/-- Every unit is as `Lsu.reset` leaves it: idle, with no kernel (R311). -/
theorem getLsu_reset {n : Nat} (h : n < 16) : getLsu n State.reset = Lsu.reset n := by
  have hget : ((List.range 16).map Lsu.reset)[n]? = some (Lsu.reset n) := by simp [h]
  exact (List.getD_eq_getElem?_getD (l := (List.range 16).map Lsu.reset)).trans (congrArg (Option.getD · _) hget)

end Sys2Proof.Machine

namespace Sys2Proof

open Sys2Proof.Machine

/-- Settles O58: the reset values of each part, in the state right after always-on power (log entry 1), whose capture memory nothing has
written (log entry 24). -/
theorem resetState : Obligations.ResetState := by
  unfold Obligations.ResetState
  intro s
  have hunits : ∀ n < 16, (getLsu n s).state = 0 ∧ (getLsu n s).kernel = 0 := fun n hn => by
    rw [show getLsu n s = Lsu.reset n from getLsu_reset hn]
    exact ⟨rfl, rfl⟩
  exact ⟨rfl, rfl, rfl, rfl, rfl, rfl, rfl, rfl, rfl, rfl, rfl, rfl, rfl, rfl, rfl, hunits, rfl, rfl, rfl, rfl, rfl, rfl⟩

end Sys2Proof
end

section
/-!
SUPPORT. What the operations that settling uses leave of the SPU cluster: those of this section leave it as it is.
-/

namespace Sys2Proof.Machine

@[simp] theorem foldl_spu {α : Type} {g : State → α → State} (hg : ∀ s x, (g s x).spu = s.spu) (l : List α) (s : State) :
    (l.foldl g s).spu = s.spu := foldl_invariant hg l s

@[simp] theorem ite_spu (c : Prop) [Decidable c] (s t : State) : (if c then s else t).spu = if c then s.spu else t.spu := apply_ite State.spu c s t

/-! ### The Host island -/

@[simp] theorem emit_spu (o : Output) (s : State) : (emit o s).spu = s.spu := by rfl

@[simp] theorem freshValue_spu (w : Nat) (s : State) : (freshValue w s).2.spu = s.spu := by rfl

@[simp] theorem journal_spu (kind : Nat) (body : List Fld) (bytes : Nat) (s : State) : (journal kind body bytes s).spu = s.spu := by simp [journal]

@[simp] theorem modFn_spu (f : Nat) (g : FnRegs → FnRegs) (s : State) : (modFn f g s).spu = s.spu := by rfl

@[simp] theorem modCtx_spu (c : Nat) (f : Ctx → Ctx) (s : State) : (modCtx c f s).spu = s.spu := by rfl

@[simp] theorem modRing_spu (c r : Nat) (f : DataRing → DataRing) (s : State) : (modRing c r f s).spu = s.spu := by rfl

@[simp] theorem signalVector_spu (f v : Nat) (s : State) : (signalVector f v s).spu = s.spu := by
  unfold signalVector
  repeat' split
  all_goals simp

@[simp] theorem signalRing_spu (due : Bool → Bool → Nat → Nat → Nat → Bool) (c : Nat) (sel : RingSel) (s : State) :
    (signalRing due c sel s).spu = s.spu := by
  unfold signalRing
  dsimp only
  repeat' split
  all_goals simp

@[simp] theorem signalIfDue_spu (c : Nat) (sel : RingSel) (s : State) : (signalIfDue c sel s).spu = s.spu := by simp [signalIfDue]

@[simp] theorem writeCpl_spu (c : Nat) (e : Cpl) (s : State) : (writeCpl c e s).spu = s.spu := by
  unfold writeCpl
  split <;> simp

@[simp] theorem postCpl_spu (c : Nat) (e : Cpl) (s : State) : (postCpl c e s).spu = s.spu := by
  unfold postCpl
  repeat' split
  all_goals simp

@[simp] theorem writeEvt_spu (c : Nat) (e : Evt) (s : State) : (writeEvt c e s).spu = s.spu := by
  unfold writeEvt
  split <;> simp

@[simp] theorem sendEvent_spu (c code subject detail detail2 detail3 : Nat) (s : State) :
    (sendEvent c code subject detail detail2 detail3 s).spu = s.spu := by
  unfold sendEvent
  repeat' split
  all_goals simp

@[simp] theorem sendAdmin_spu (code subject detail detail2 detail3 : Nat) (s : State) :
    (sendAdmin code subject detail detail2 detail3 s).spu = s.spu := by
  simp [sendAdmin]

@[simp] theorem sendAll_spu (code subject detail detail2 detail3 : Nat) (s : State) :
    (sendAll code subject detail detail2 detail3 s).spu = s.spu := by
  simp [sendAll]

@[simp] theorem completeDesc_spu (c sid : Nat) (st : Status) (result0 result1 : Nat) (s : State) :
    (completeDesc c sid st result0 result1 s).spu = s.spu := by
  unfold completeDesc
  split <;> simp

@[simp] theorem completeBy_spu (o : Option (Nat × Nat)) (st : Status) (result0 result1 : Nat) (s : State) :
    (completeBy o st result0 result1 s).spu = s.spu := by
  unfold completeBy
  split <;> simp

/-! ### Data records -/

@[simp] theorem modStream_spu (i : Nat) (f : Stream → Stream) (s : State) : (modStream i f s).spu = s.spu := by rfl

@[simp] theorem writeToRing_spu (p : Nat × Nat) (rec : Rec) (s : State) : (writeToRing p rec s).spu = s.spu := by
  unfold writeToRing
  dsimp only
  repeat' split
  all_goals simp

@[simp] theorem modBinding_spu (slot : Nat) (f : Binding → Binding) (s : State) : (modBinding slot f s).spu = s.spu := by rfl

@[simp] theorem closeExtent_spu (slot : Nat) (s : State) : (closeExtent slot s).spu = s.spu := by
  unfold closeExtent
  repeat' split
  all_goals simp

@[simp] theorem setRotation_spu (c set id : Nat) (s : State) : (setRotation c set id s).spu = s.spu := by rfl

@[simp] theorem addToExtent_spu (b : Binding) (r : Rec) (span : Nat × Nat) (s : State) : (addToExtent b r span s).spu = s.spu := by simp [addToExtent]

@[simp] theorem writeToDisk_spu (c set : Nat) (r : Rec) (span : Nat × Nat) (s : State) : (writeToDisk c set r span s).spu = s.spu := by
  unfold writeToDisk
  dsimp only
  repeat' split
  all_goals simp

@[simp] theorem writeAt_spu (pl : Place) (i : Nat) (w : WaitRec) (s : State) : (writeAt pl i w s).spu = s.spu := by
  unfold writeAt
  repeat' split
  all_goals simp

theorem tryWrite_spu {i : Nat} {w : WaitRec} {s t : State} (h : tryWrite i w s = some t) : t.spu = s.spu := by
  unfold tryWrite at h
  split at h
  · cases h
  · obtain ⟨pl, -, rfl⟩ := Option.map_eq_some_iff.1 h
    exact writeAt_spu _ _ _ _

@[simp] theorem countGap_spu (i : Nat) (s : State) : (countGap i s).spu = s.spu := by rfl

@[simp] theorem takeSeq_spu (i : Nat) (s : State) : (takeSeq i s).spu = s.spu := by rfl

@[simp] theorem putWaiting_spu (i : Nat) (w : WaitRec) (s : State) : (putWaiting i w s).spu = s.spu := by
  unfold putWaiting
  split
  · rfl
  · split
    · split
      next h => exact tryWrite_spu h
      next => simp
    · simp

@[simp] theorem formGap_spu (i first last dropped reason lostBytes spanStart spanEnd : Nat) (s : State) :
    (formGap i first last dropped reason lostBytes spanStart spanEnd s).spu = s.spu := by
  unfold formGap
  split <;> simp

@[simp] theorem nameDrops_spu (i : Nat) (s : State) : (nameDrops i s).spu = s.spu := by
  unfold nameDrops
  split <;> simp

@[simp] theorem formSeal_spu (i reason : Nat) (owner : Option (Nat × Nat)) (s0 : State) : (formSeal i reason owner s0).spu = s0.spu := by
  unfold formSeal
  dsimp only
  repeat' split
  all_goals simp

@[simp] theorem sealIfDue_spu (i : Nat) (s : State) : (sealIfDue i s).spu = s.spu := by
  unfold sealIfDue
  repeat' split
  all_goals simp

@[simp] theorem countRingDrop_spu (st : Stream) (s : State) : (countRingDrop st s).spu = s.spu := by
  unfold countRingDrop
  split <;> rfl

@[simp] theorem dropRec_spu (st : Stream) (n : NewRec) (s : State) : (dropRec st n s).spu = s.spu := by
  unfold dropRec
  dsimp only
  repeat' split
  all_goals simp

@[simp] theorem formRealtime_spu (i : Nat) (n : NewRec) (s : State) : (formRealtime i n s).1.spu = s.spu := by
  unfold formRealtime
  split
  · rfl
  · dsimp only
    split
    · simp
    · split
      · rfl
      · split
        · split
          next h => simp [tryWrite_spu h]
          next => simp
        · simp

@[simp] theorem formWaiting_spu (i : Nat) (n : NewRec) (owner : Option (Nat × Nat)) (s0 : State) : (formWaiting i n owner s0).spu = s0.spu := by
  unfold formWaiting
  dsimp only
  repeat' split
  all_goals simp

@[simp] theorem recordOn_spu (c r : Nat) (n : NewRec) (s : State) : (recordOn c r n s).1.spu = s.spu := by
  unfold recordOn
  split <;> simp

/-! ### The time base -/

@[simp] theorem tick_spu (s : State) : (tick s).spu = s.spu := by
  unfold tick
  split
  · exact modTim_spu _ s
  · rfl

@[simp] theorem emitAnchor_spu (a : Anchor) (s : State) : (emitAnchor a s).spu = s.spu := by simp [emitAnchor]

/-! ### TDC channels -/

@[simp] theorem modTdc_spu (c : Nat) (f : TdcCh → TdcCh) (s : State) : (modTdc c f s).spu = s.spu := by rfl

@[simp] theorem tdcRecord_spu (ch : Nat) (n : NewRec) (s : State) : (tdcRecord ch n s).1.spu = s.spu := by
  unfold tdcRecord
  dsimp only
  repeat' split
  all_goals simp

@[simp] theorem closeStamps_spu (ch : Nat) (s : State) : (closeStamps ch s).spu = s.spu := by
  unfold closeStamps
  dsimp only
  repeat' split
  all_goals simp

@[simp] theorem deliverStamp_spu (ch : Nat) (p : Stamp) (s0 : State) : (deliverStamp ch p s0).spu = s0.spu := by
  unfold deliverStamp
  dsimp only
  repeat' split
  all_goals simp

@[simp] theorem takeStamps_spu (ch k : Nat) (s : State) : (takeStamps ch k s).spu = s.spu := by
  induction k generalizing s with
  | zero => rfl
  | succ k ih =>
    unfold takeStamps
    split
    · rfl
    · simp [ih]

@[simp] theorem flushStamps_spu (ch : Nat) (s : State) : (flushStamps ch s).spu = s.spu := by
  unfold flushStamps
  dsimp only
  split
  · simp
  · split <;> simp

@[simp] theorem tdcMarker_spu (ch reason : Nat) (s : State) : (tdcMarker ch reason s).spu = s.spu := by simp [tdcMarker]

@[simp] theorem modGates_spu (f : Gate → Gate) (s : State) : (modGates f s).spu = s.spu := by rfl

@[simp] theorem calibrate_spu (ch reason switchTick rawOne rawTwo temp : Nat) (alt : Option (Nat × Nat)) (s0 : State) :
    (calibrate ch reason switchTick rawOne rawTwo temp alt s0).spu = s0.spu := by
  unfold calibrate
  dsimp only
  repeat' split
  all_goals simp

@[simp] theorem applySet_spu (v : Nat) (seconds : Nat) (edge : Bool) (s : State) : (applySet v seconds edge s).spu = s.spu := by
  unfold applySet
  dsimp only
  refine (foldl_spu (fun s ch => ?_) _ _).trans ?_
  · split <;> simp
  · rw [modGates_spu, sendAll_spu, emitAnchor_spu, modTim_spu, modTim_spu]
    exact foldl_spu (fun s ch => by simp) _ _

/-! ### Converter pairs -/

@[simp] theorem modPair_spu (n : Nat) (f : Pair → Pair) (s : State) : (modPair n f s).spu = s.spu := by rfl

/-! ### Skim -/

@[simp] theorem modSkim_spu (n : Nat) (f : Skim → Skim) (s : State) : (modSkim n f s).spu = s.spu := by rfl

@[simp] theorem routePair_spu (n : Nat) (route : BitVec 3) (step : BitVec 4) (s : State) : (routePair n route step s).spu = s.spu := by
  simp [routePair]

/-! ### Zoom channels -/

@[simp] theorem modFront_spu (u : Nat) (f : Front → Front) (s : State) : (modFront u f s).spu = s.spu := by rfl

@[simp] theorem modSlot_spu (n : Nat) (f : Slot → Slot) (s : State) : (modSlot n f s).spu = s.spu := by rfl

/-! ### Plan objects -/

@[simp] theorem modPlan_spu (i : Nat) (f : Plan → Plan) (s : State) : (modPlan i f s).spu = s.spu := by rfl

/-! ### Spectra and their records -/

@[simp] theorem modX_spu (plan idx : Nat) (f : XStream → XStream) (s : State) : (modX plan idx f s).spu = s.spu := by rfl

@[simp] theorem modEng_spu (e : Nat) (f : XEng → XEng) (s : State) : (modEng e f s).spu = s.spu := by rfl

@[simp] theorem specRecords_spu (det ring : Nat) (sp : Spectrum) (first count : Nat) (s : State) :
    (specRecords det ring sp first count s).spu = s.spu := by
  simp [specRecords]

@[simp] theorem recordSpectrum_spu (sp : Spectrum) (s : State) : (recordSpectrum sp s).spu = s.spu := by simp [recordSpectrum]

/-! ### Capture rings -/

@[simp] theorem modCap_spu (r : Nat) (f : CapRing → CapRing) (s : State) : (modCap r f s).spu = s.spu := by rfl

@[simp] theorem modCapture_spu (plan slot num : Nat) (f : Capture → Capture) (s : State) : (modCapture plan slot num f s).spu = s.spu := by rfl

@[simp] theorem modCapSlot_spu (plan slot : Nat) (f : CapSlot → CapSlot) (s : State) : (modCapSlot plan slot f s).spu = s.spu := by rfl

@[simp] theorem spillOut_spu (c : Capture) (g : Seg) (last : Bool) (s : State) : (spillOut c g last s).spu = s.spu := by
  unfold spillOut
  dsimp only
  repeat' split
  all_goals simp

@[simp] theorem captureFire_spu (plan unit trig : Nat) (forced stop : Bool) (place : Nat) (ev : TEvent) (s : State) :
    (captureFire plan unit trig forced stop place ev s).1.spu = s.spu := by
  unfold captureFire
  split
  · rfl
  · dsimp only
    split
    · simp only [apply_ite Prod.fst, ite_spu, modSkim_spu, modCap_spu, modCapSlot_spu, modTrg_spu, ite_self]
    · rfl

@[simp] theorem lowerFence_spu (c : Capture) (at_ : Option Nat) (s : State) : (lowerFence c at_ s).spu = s.spu := by simp [lowerFence]

@[simp] theorem closeSegment_spu (c : Capture) (g : Seg) (s : State) : (closeSegment c g s).spu = s.spu := by
  unfold closeSegment
  dsimp only
  repeat' split
  all_goals simp

@[simp] theorem completeCapture_spu (c : Capture) (s : State) : (completeCapture c s).spu = s.spu := by simp [completeCapture]

@[simp] theorem endCapture_spu (c : Capture) (s : State) : (endCapture c s).spu = s.spu := by
  unfold endCapture
  dsimp only
  repeat' split
  all_goals simp

@[simp] theorem closeDue_spu (plan slot : Nat) (s : State) : (closeDue plan slot s).spu = s.spu := by
  unfold closeDue
  dsimp only
  repeat' split
  all_goals simp

@[simp] theorem rearmDue_spu (plan slot : Nat) (s : State) : (rearmDue plan slot s).spu = s.spu := by
  unfold rearmDue
  repeat' split
  all_goals simp

@[simp] theorem freeRings_spu (s : State) : (freeRings s).spu = s.spu := by simp [freeRings]

@[simp] theorem dropCapture_spu (c : Capture) (s : State) : (dropCapture c s).spu = s.spu := by simp [dropCapture]

/-! ### The flight recorder -/

@[simp] theorem freezeRecorder_spu (cause : Nat) (s : State) : (freezeRecorder cause s).spu = s.spu := by simp [freezeRecorder]

@[simp] theorem unfreezeRecorder_spu (s : State) : (unfreezeRecorder s).spu = s.spu := by simp [unfreezeRecorder]

/-! ### Capture memory -/

@[simp] theorem modChan_spu (n : Nat) (f : Chan → Chan) (s : State) : (modChan n f s).spu = s.spu := by rfl

@[simp] theorem dramLog_spu (kind consumer : Nat) (addr : Option Nat) (channel symbol count : Nat) (s : State) :
    (dramLog kind consumer addr channel symbol count s).spu = s.spu := by simp [dramLog]

@[simp] theorem dramUncorrectable_spu (consumer : Nat) (owner : Option Nat) (addr bytes : Nat) (s : State) :
    (dramUncorrectable consumer owner addr bytes s).spu = s.spu := by simp [dramUncorrectable]

@[simp] theorem dramWrite_spu (a : Nat) (bs : List Byte) (poisoned : Bool) (s : State) : (dramWrite a bs poisoned s).spu = s.spu := by
  simp [dramWrite]

theorem allocate_spu {kind : AllocKind} {bytes base : Nat} {s t : State} (h : allocate kind bytes s = some (base, t)) : t.spu = s.spu := by
  obtain ⟨_, -, hb⟩ := Option.map_eq_some_iff.1 h
  obtain ⟨-, rfl⟩ := Prod.mk.injEq .. ▸ hb
  rfl

theorem allocateAll_spu {l : List (AllocKind × Nat)} {s t : State} (h : allocateAll l s = some t) : t.spu = s.spu := by
  induction l generalizing s with
  | nil => exact congrArg State.spu (Option.some.inj h).symm
  | cons x l ih =>
    unfold allocateAll at h
    split at h
    · cases h
    next hx => exact (ih h).trans (allocate_spu hx)

@[simp] theorem freeAllocs_spu (p : AllocKind → Bool) (s : State) : (freeAllocs p s).spu = s.spu := by rfl

@[simp] theorem openWindow_spu (base bytes : Nat) (s : State) : (openWindow base bytes s).spu = s.spu := by rfl

@[simp] theorem closeWindow_spu (base : Nat) (s : State) : (closeWindow base s).spu = s.spu := by rfl

/-! ### Density surfaces -/

@[simp] theorem modSurf_spu (n : Nat) (f : Surf → Surf) (s : State) : (modSurf n f s).spu = s.spu := by rfl

@[simp] theorem modDen_spu (n : Nat) (f : DenRegs → DenRegs) (s : State) : (modDen n f s).spu = s.spu := by rfl

@[simp] theorem closeRaw_spu (n engine : Nat) (ax : Axis) (part last : Bool) (s : State) : (closeRaw n engine ax part last s).spu = s.spu := by
  unfold closeRaw
  dsimp only
  repeat' split
  all_goals simp

@[simp] theorem beginFrame_spu (n : Nat) (s : State) : (beginFrame n s).spu = s.spu := by
  unfold beginFrame
  dsimp only
  repeat' split
  all_goals simp

@[simp] theorem endFrame_spu (n : Nat) (s : State) : (endFrame n s).spu = s.spu := by
  unfold endFrame
  repeat' split
  all_goals simp

@[simp] theorem sweepColumn_spu (n engine : Nat) (ax : Axis) (part : Bool) (s : State) : (sweepColumn n engine ax part s).spu = s.spu := by
  unfold sweepColumn
  dsimp only
  repeat' split
  all_goals simp

@[simp] theorem sweepDue_spu (n engine k : Nat) (ax : Axis) (fuel : Nat) (s : State) : (sweepDue n engine k ax fuel s).spu = s.spu := by
  induction fuel generalizing s with
  | zero => rfl
  | succ fuel ih =>
    unfold sweepDue
    repeat' split
    all_goals simp [ih]

@[simp] theorem densityHit_spu (n : Nat) (sp : Spectrum) (s : State) : (densityHit n sp s).spu = s.spu := by
  unfold densityHit
  split
  · rfl
  · dsimp only
    split <;> simp

@[simp] theorem densitySpectrum_spu (sp : Spectrum) (s : State) : (densitySpectrum sp s).spu = s.spu := by simp [densitySpectrum]

@[simp] theorem newSurf_spu (plan n base : Nat) (b : SubBlk) (lut : Option Block) (s : State) : (newSurf plan n base b lut s).spu = s.spu := by rfl

@[simp] theorem stopSurf_spu (n : Nat) (s : State) : (stopSurf n s).spu = s.spu := by
  unfold stopSurf
  repeat' split
  all_goals simp

@[simp] theorem stopSurfs_spu (plan : Nat) (s : State) : (stopSurfs plan s).spu = s.spu := by simp [stopSurfs]

@[simp] theorem releaseSurfs_spu (plan : Nat) (s : State) : (releaseSurfs plan s).spu = s.spu := by
  refine foldl_spu (fun s n => ?_) _ _
  dsimp only
  repeat' split
  all_goals simp

/-! ### Panel scan-out -/

@[simp] theorem modOut_spu (o : Nat) (f : DOut → DOut) (s : State) : (modOut o f s).spu = s.spu := by rfl

@[simp] theorem modLayer_spu (o l : Nat) (f : Layer → Layer) (s : State) : (modLayer o l f s).spu = s.spu := by rfl

@[simp] theorem sendRelease_spu (o layer flip reason : Nat) (s : State) : (sendRelease o layer flip reason s).spu = s.spu := by simp [sendRelease]

@[simp] theorem supersedeFlips_spu (o reason : Nat) (s : State) : (supersedeFlips o reason s).spu = s.spu := by
  refine (foldl_spu (fun s l => ?_) _ _).trans ?_
  · split <;> simp
  · simp

@[simp] theorem dropShown_spu (plan surface buf : Nat) (s : State) : (dropShown plan surface buf s).spu = s.spu := by
  unfold dropShown
  repeat' split
  all_goals simp

@[simp] theorem stopLayer_spu (o l : Nat) (s : State) : (stopLayer o l s).spu = s.spu := by
  unfold stopLayer
  dsimp only
  repeat' split
  all_goals simp

@[simp] theorem disableOutput_spu (o : Nat) (s : State) : (disableOutput o s).spu = s.spu := by simp [disableOutput]

@[simp] theorem dropPlanLayers_spu (plan : Nat) (s : State) : (dropPlanLayers plan s).spu = s.spu := by simp [dropPlanLayers]

/-! ### Trigger units -/

@[simp] theorem modUnit_spu (n : Nat) (f : TUnit → TUnit) (s : State) : (modUnit n f s).spu = s.spu := by rfl

@[simp] theorem retagPair_spu (n index : Nat) (s : State) : (retagPair n index s).spu = s.spu := by simp [retagPair]

theorem foldl_fst_spu {α β : Type} {g : State × β → α → State × β} (hg : ∀ r x, (g r x).1.spu = r.1.spu) (l : List α) (r : State × β) :
    (l.foldl g r).1.spu = r.1.spu := foldl_invariant (g := fun r => r.1.spu) hg l r

@[simp] theorem markTrig_spu (plan place back : Nat) (s : State) : (markTrig plan place back s).1.spu = s.spu := by
  unfold markTrig
  dsimp only
  split
  all_goals
    rw [apply_ite Prod.fst]
    split
    · refine (foldl_spu (fun s n => ?_) _ _).trans (foldl_fst_spu (fun r n => ?_) _ _)
      all_goals
        repeat' split
        all_goals simp
    · refine foldl_fst_spu (fun r n => ?_) _ _
      repeat' split
      all_goals simp

@[simp] theorem trigoutFire_spu (n place : Nat) (s : State) : (trigoutFire n place s).1.spu = s.spu := by
  unfold trigoutFire
  dsimp only
  repeat' split
  all_goals simp

@[simp] theorem flushMissed_spu (n k : Nat) (s : State) : (flushMissed n k s).spu = s.spu := by
  induction k generalizing s with
  | zero => rfl
  | succ k ih =>
    unfold flushMissed
    split
    · simp [ih]
    · rfl

@[simp] theorem armUnit_spu (n : Nat) (s : State) : (armUnit n s).spu = s.spu := by rfl

@[simp] theorem modMask_spu (c h : Nat) (f : Mask → Mask) (s : State) : (modMask c h f s).spu = s.spu := by rfl

@[simp] theorem settleMask_spu (c h : Nat) (s : State) : (settleMask c h s).spu = s.spu := by
  unfold settleMask
  dsimp only
  repeat' split
  all_goals simp

@[simp] theorem switchMask_spu (n : Nat) (stageB : Bool) (c h : Nat) (sp : Spectrum) (s : State) : (switchMask n stageB c h sp s).spu = s.spu := by
  unfold switchMask
  repeat' split
  all_goals simp

/-! ### Integration and cross-spectra -/

@[simp] theorem engShort_spu (e : Nat) (s : State) : (engShort e s).spu = s.spu := by rfl

@[simp] theorem engDrained_spu (e : Nat) (s : State) : (engDrained e s).spu = s.spu := by rfl

@[simp] theorem engDrop_spu (e : Nat) (s : State) : (engDrop e s).spu = s.spu := by rfl

@[simp] theorem modInteg_spu (x : XStream) (f : Integ → Integ) (s : State) : (modInteg x f s).spu = s.spu := by rfl

@[simp] theorem modCross_spu (plan : Nat) (f : CrossSt → CrossSt) (s : State) : (modCross plan f s).spu = s.spu := by rfl

@[simp] theorem modCrossPair_spu (plan pair : Nat) (f : CrossPair → CrossPair) (s : State) : (modCrossPair plan pair f s).spu = s.spu := by rfl

/-! ### Transform streams -/

@[simp] theorem answerSwitch_spu (x : XStream) (s : State) : (answerSwitch x s).spu = s.spu := by
  unfold answerSwitch
  split <;> simp

@[simp] theorem settleTable_spu (c handle sid : Nat) (coef : List Nat) (s : State) : (settleTable c handle sid coef s).spu = s.spu := by
  simp [settleTable]

@[simp] theorem dropSwitches_spu (plan : Nat) (st : Status) (s : State) : (dropSwitches plan st s).spu = s.spu := by
  refine foldl_spu (fun s x => ?_) _ _
  dsimp only
  repeat' split
  all_goals simp

@[simp] theorem removeStreams_spu (plan : Nat) (s : State) : (removeStreams plan s).spu = s.spu := by rfl

/-! ### Admission -/

@[simp] theorem clearShare_spu (n : Nat) (s : State) : (clearShare n s).spu = s.spu := by simp [clearShare]

theorem createRings_spu {plan : Nat} {l : List (Nat × Nat)} {s t : State} (h : createRings plan l s = .ok t) : t.spu = s.spu := by
  induction l generalizing s with
  | nil => exact congrArg State.spu (Except.ok.inj h).symm
  | cons x l ih =>
    unfold createRings at h
    dsimp only at h
    split at h
    · split at h
      · exact absurd h (by simp)
      · split at h
        · exact absurd h (by simp)
        next hx => exact (ih h).trans ((clearShare_spu _ _).trans ((modTrg_spu _ _).trans (allocate_spu hx)))
    · exact absurd h (by simp)

/-! ### Sample exports and disk sets -/

@[simp] theorem modExport_spu (slot : Nat) (f : Export → Export) (s : State) : (modExport slot f s).spu = s.spu := by rfl

@[simp] theorem closeExpRecord_spu (slot source : Nat) (s : State) : (closeExpRecord slot source s).spu = s.spu := by
  unfold closeExpRecord
  repeat' split
  all_goals simp

@[simp] theorem closeExpRecords_spu (slot : Nat) (s : State) : (closeExpRecords slot s).spu = s.spu := by
  unfold closeExpRecords
  split <;> simp

@[simp] theorem pauseExports_spu (plan : Nat) (s : State) : (pauseExports plan s).spu = s.spu := by simp [pauseExports]

@[simp] theorem beginClose_spu (slot reason : Nat) (asker : Option (Nat × Nat)) (s : State) : (beginClose slot reason asker s).spu = s.spu := by
  unfold beginClose
  split <;> simp

@[simp] theorem removeExport_spu (e : Export) (s : State) : (removeExport e s).spu = s.spu := by simp [removeExport]

@[simp] theorem finishClose_spu (e : Export) (c : Closing) (s : State) : (finishClose e c s).spu = s.spu := by
  unfold finishClose
  split <;> simp

@[simp] theorem sendFlushes_spu (e : Export) (s : State) : (sendFlushes e s).spu = s.spu := by simp [sendFlushes]

@[simp] theorem stepClose_spu (slot : Nat) (s : State) : (stepClose slot s).spu = s.spu := by
  unfold stepClose
  dsimp only
  repeat' split
  all_goals simp

@[simp] theorem stepCloses_spu (s : State) : (stepCloses s).spu = s.spu := by simp [stepCloses]

@[simp] theorem removeBinding_spu (b : Binding) (s : State) : (removeBinding b s).spu = s.spu := by rfl

@[simp] theorem stepUnbind_spu (slot : Nat) (s : State) : (stepUnbind slot s).spu = s.spu := by
  unfold stepUnbind
  repeat' split
  all_goals simp

/-! ### The life of a plan -/

@[simp] theorem applyRoute_spu (n route step : Nat) (s : State) : (applyRoute n route step s).spu = s.spu := by simp [applyRoute]

@[simp] theorem routePlan_spu (p : Plan) (s : State) : (routePlan p s).spu = s.spu := by simp [routePlan]

@[simp] theorem routeDefaults_spu (s : State) : (routeDefaults s).spu = s.spu := by simp [routeDefaults]

@[simp] theorem assignFront_spu (p : Plan) (first : SubBlk) (s : State) : (assignFront p first s).spu = s.spu := by
  unfold assignFront
  dsimp only
  split
  · rfl
  · refine (foldl_spu (fun s z => ?_) _ _).trans (by simp)
    split <;> simp

@[simp] theorem assignUnit_spu (p : Plan) (b : SubBlk) (s : State) : (assignUnit p b s).spu = s.spu := by
  unfold assignUnit
  split <;> rfl

@[simp] theorem assignSurfs_spu (p : Plan) (nos : List Nat) (s : State) : (assignSurfs p nos s).spu = s.spu := by simp [assignSurfs]

@[simp] theorem assignCapSlots_spu (p : Plan) (s : State) : (assignCapSlots p s).spu = s.spu := by simp [assignCapSlots]

theorem reserve_spu {p : Plan} {s t : State} (h : reserve p s = .ok t) : t.spu = s.spu := by
  unfold reserve at h
  split at h
  · exact absurd h (by simp)
  · split at h
    · exact absurd h (by simp)
    · split at h
      · exact absurd h (by simp)
      next hr =>
        dsimp only at h
        split at h
        · exact absurd h (by simp)
        next ha =>
          rw [← Except.ok.inj h]
          simp [allocateAll_spu ha, createRings_spu hr]

@[simp] theorem retune_spu (p : Plan) (s : State) : (retune p s).spu = s.spu := by simp [retune]

@[simp] theorem setWriters_spu (index : Nat) (s : State) : (setWriters index s).spu = s.spu := by simp [setWriters]

@[simp] theorem disarmPlan_spu (plan : Nat) (s : State) : (disarmPlan plan s).spu = s.spu := by simp [disarmPlan]

@[simp] theorem releasePlan_spu (plan : Nat) (s : State) : (releasePlan plan s).spu = s.spu := by simp [releasePlan]

@[simp] theorem dropWaiting_spu (plan : Nat) (st : Status) (result1 : Nat) (s : State) : (dropWaiting plan st result1 s).spu = s.spu := by
  unfold dropWaiting
  split <;> simp

@[simp] theorem setDeviceTime_spu (v seconds : Nat) (edge : Bool) (s : State) : (setDeviceTime v seconds edge s).spu = s.spu := by
  simp [setDeviceTime]

/-! ### PLAN_CREATE and PLAN_START -/

@[simp] theorem failDesc_spu (c sid : Nat) (st : Status) (s : State) : (failDesc c sid st s).spu = s.spu := by simp [failDesc]

@[simp] theorem busy_spu (c sid code : Nat) (s : State) : (busy c sid code s).spu = s.spu := by simp [busy]

@[simp] theorem beginPlanCreate_spu (c sid : Nat) (d : Desc) (s : State) : (beginPlanCreate c sid d s).spu = s.spu := by
  unfold beginPlanCreate
  dsimp only
  repeat' split
  all_goals simp

@[simp] theorem startFeed_spu (start : Nat) (s : State) : (startFeed start s).spu = s.spu := by
  unfold startFeed
  repeat' split
  all_goals simp

@[simp] theorem beginPlanStart_spu (c sid : Nat) (d : Desc) (s : State) : (beginPlanStart c sid d s).spu = s.spu := by
  unfold beginPlanStart
  dsimp only
  repeat' split
  all_goals simp
  next h _ => exact reserve_spu h

/-! ### Mode changes -/

@[simp] theorem startChange_spu (mode : Nat) (asker : Option (Nat × Nat)) (s : State) : (startChange mode asker s).spu = s.spu := by rfl

@[simp] theorem beginModeSet_spu (c sid : Nat) (d : Desc) (s : State) : (beginModeSet c sid d s).spu = s.spu := by simp [beginModeSet]

/-! ### Contexts and their rings -/

@[simp] theorem admitCtx_spu (f : Nat) (r : AttachReq) (s : State) : (admitCtx f r s).2.spu = s.spu := by
  unfold admitCtx
  dsimp only
  repeat' split
  all_goals simp

@[simp] theorem countRefusal_spu (s : State) : (countRefusal s).spu = s.spu := by rfl

@[simp] theorem reportAttach_spu (f state ctx reason : Nat) (s : State) : (reportAttach f state ctx reason s).spu = s.spu := by rfl

@[simp] theorem decideAttach_spu (f : Nat) (s : State) : (decideAttach f s).spu = s.spu := by
  unfold decideAttach
  repeat' split
  all_goals simp

@[simp] theorem decideHeld_spu (s : State) : (decideHeld s).spu = s.spu := by simp [decideHeld]

@[simp] theorem beginContextCreate_spu (c sid : Nat) (d : Desc) (s : State) : (beginContextCreate c sid d s).spu = s.spu := by
  unfold beginContextCreate
  repeat' split
  all_goals simp

@[simp] theorem beginRingCreate_spu (c sid : Nat) (d : Desc) (s : State) : (beginRingCreate c sid d s).spu = s.spu := by simp [beginRingCreate]

@[simp] theorem onWritten_spu (c sid r0 r1 : Nat) (s : State) : (onWritten c sid r0 r1 s).spu = s.spu := by rfl

@[simp] theorem leaveGroup_spu (c r : Nat) (s : State) : (leaveGroup c r s).spu = s.spu := by
  unfold leaveGroup
  split <;> rfl

@[simp] theorem freeRing_spu (c r : Nat) (s : State) : (freeRing c r s).spu = s.spu := by simp [freeRing]

@[simp] theorem beginRingDestroy_spu (c sid : Nat) (d : Desc) (s : State) : (beginRingDestroy c sid d s).spu = s.spu := by
  unfold beginRingDestroy
  dsimp only
  repeat' split
  all_goals simp

@[simp] theorem beginAttestBind_spu (c sid : Nat) (d : Desc) (s : State) : (beginAttestBind c sid d s).spu = s.spu := by
  unfold beginAttestBind
  dsimp only
  repeat' split
  all_goals simp

/-! ### SPU_LOAD -/

@[simp] theorem beginSpuLoad_spu (c sid : Nat) (d : Desc) (s : State) : (beginSpuLoad c sid d s).spu = s.spu := by
  unfold beginSpuLoad
  dsimp only
  repeat' split
  all_goals simp
  next h => exact (allocate_spu h).trans (freeAllocs_spu _ _)

/-! ### Window tables, masks and reads of captures -/

@[simp] theorem switchTable_spu (h : Nat) (coef : List Nat) (asker : Nat × Nat) (x : XStream) (s : State) :
    (switchTable h coef asker x s).spu = s.spu := by
  rfl

@[simp] theorem beginWindowTable_spu (c sid : Nat) (d : Desc) (s : State) : (beginWindowTable c sid d s).spu = s.spu := by
  unfold beginWindowTable
  dsimp only
  repeat' split
  all_goals simp
  next h => exact (allocate_spu h).trans (freeAllocs_spu _ _)
  next h => exact allocate_spu h

@[simp] theorem beginWindowDrop_spu (c sid : Nat) (d : Desc) (s : State) : (beginWindowDrop c sid d s).spu = s.spu := by simp [beginWindowDrop]

@[simp] theorem supersedeSwitch_spu (x : XStream) (s : State) : (supersedeSwitch x s).spu = s.spu := by
  unfold supersedeSwitch
  repeat' split
  all_goals simp

@[simp] theorem askSwitch_spu (x : XStream) (cfg : XCfg) (asker : Nat × Nat) (s : State) : (askSwitch x cfg asker s).spu = s.spu := by rfl

@[simp] theorem beginReconfigure_spu (c sid : Nat) (d : Desc) (s : State) : (beginReconfigure c sid d s).spu = s.spu := by
  unfold beginReconfigure
  dsimp only
  repeat' split
  all_goals simp

@[simp] theorem dropMask_spu (c h : Nat) (s : State) : (dropMask c h s).spu = s.spu := by rfl

@[simp] theorem beginMaskLoad_spu (c sid : Nat) (d : Desc) (s : State) : (beginMaskLoad c sid d s).spu = s.spu := by
  unfold beginMaskLoad
  dsimp only
  repeat' split
  all_goals simp
  next h => exact (allocate_spu h).trans (dropMask_spu _ _ _)
  next h => exact allocate_spu h

@[simp] theorem beginMaskDrop_spu (c sid : Nat) (d : Desc) (s : State) : (beginMaskDrop c sid d s).spu = s.spu := by simp [beginMaskDrop]

@[simp] theorem armAgain_spu (n : Nat) (s : State) : (armAgain n s).spu = s.spu := by simp [armAgain]

theorem beginArming_spu (c sid : Nat) (d : Desc) {f : Nat → State → State} (hf : ∀ n s, (f n s).spu = s.spu) (s : State) :
    (beginArming c sid d f s).spu = s.spu := by
  unfold beginArming
  dsimp only
  repeat' split
  all_goals simp [hf]

@[simp] theorem disarmUnit_spu (n : Nat) (s : State) : (disarmUnit n s).spu = s.spu := by rfl

@[simp] theorem writeRead_spu (c sid ring : Nat) (l : List (Nat × Nat × List Fld × Nat × Nat)) (s : State) :
    (writeRead c sid ring l s).spu = s.spu := by
  unfold writeRead
  split <;> simp

@[simp] theorem reportPoison_spu (c : Nat) (r : CapRing) (first count : Nat) (s : State) : (reportPoison c r first count s).spu = s.spu := by
  simp [reportPoison]

@[simp] theorem beginCaptureSegments_spu (c sid : Nat) (d : Desc) (s : State) : (beginCaptureSegments c sid d s).spu = s.spu := by
  unfold beginCaptureSegments
  dsimp only
  repeat' split
  all_goals simp

@[simp] theorem beginCaptureWords_spu (c sid : Nat) (d : Desc) (s : State) : (beginCaptureWords c sid d s).spu = s.spu := by
  unfold beginCaptureWords
  dsimp only
  repeat' split
  all_goals simp

@[simp] theorem beginCaptureRelease_spu (c sid : Nat) (d : Desc) (s : State) : (beginCaptureRelease c sid d s).spu = s.spu := by
  unfold beginCaptureRelease
  dsimp only
  repeat' split
  all_goals simp

/-! ### DISPLAY_CONFIG and DISPLAY_FLIP -/

theorem displayArea_spu {o size base : Nat} {s t : State} (h : displayArea o size s = some (base, t)) : t.spu = s.spu := by
  unfold displayArea at h
  dsimp only at h
  split at h
  · cases h
    rfl
  · obtain ⟨⟨a, u⟩, ha, hb⟩ := Option.map_eq_some_iff.1 h
    cases hb
    simp [allocate_spu ha]

@[simp] theorem beginDisplayOutput_spu (c sid : Nat) (d : Desc) (s : State) : (beginDisplayOutput c sid d s).spu = s.spu := by
  unfold beginDisplayOutput
  dsimp only
  repeat' split
  all_goals simp
  next h _ => exact displayArea_spu h

@[simp] theorem beginDisplayLayer_spu (c sid : Nat) (d : Desc) (s : State) : (beginDisplayLayer c sid d s).spu = s.spu := by
  unfold beginDisplayLayer
  dsimp only
  repeat' split
  all_goals simp

@[simp] theorem beginLutLoad_spu (c sid : Nat) (d : Desc) (s : State) : (beginLutLoad c sid d s).spu = s.spu := by
  unfold beginLutLoad
  repeat' split
  all_goals simp

@[simp] theorem beginPanelCmd_spu (c sid : Nat) (d : Desc) (s : State) : (beginPanelCmd c sid d s).spu = s.spu := by
  unfold beginPanelCmd
  dsimp only
  repeat' split
  all_goals simp

@[simp] theorem beginLayerOff_spu (c sid : Nat) (d : Desc) (s : State) : (beginLayerOff c sid d s).spu = s.spu := by
  unfold beginLayerOff
  split <;> simp

@[simp] theorem beginOutputOff_spu (c sid : Nat) (d : Desc) (s : State) : (beginOutputOff c sid d s).spu = s.spu := by
  unfold beginOutputOff
  split <;> simp

@[simp] theorem supersedeMask_spu (o mask : Nat) (s : State) : (supersedeMask o mask s).spu = s.spu := by
  refine foldl_spu (fun s f => ?_) _ _
  refine (completeBy_spu _ _ _ _ _).trans ((foldl_spu (fun s l => ?_) _ _).trans (by simp))
  split <;> simp

@[simp] theorem beginFlip_spu (c sid : Nat) (d : Desc) (s : State) : (beginFlip c sid d s).spu = s.spu := by
  unfold beginFlip
  dsimp only
  repeat' split
  all_goals simp

/-! ### STREAM_OPEN and DISK_BIND -/

@[simp] theorem beginStreamOpen_spu (c sid : Nat) (disk : Bool) (d : Desc) (s : State) : (beginStreamOpen c sid disk d s).spu = s.spu := by
  unfold beginStreamOpen
  dsimp only
  repeat' split
  all_goals simp

@[simp] theorem beginStreamClose_spu (c sid : Nat) (d : Desc) (s : State) : (beginStreamClose c sid d s).spu = s.spu := by
  unfold beginStreamClose
  repeat' split
  all_goals simp

@[simp] theorem beginDiskBind_spu (c sid : Nat) (d : Desc) (s : State) : (beginDiskBind c sid d s).spu = s.spu := by
  unfold beginDiskBind
  dsimp only
  repeat' split
  all_goals simp

@[simp] theorem beginDiskUnbind_spu (c sid : Nat) (d : Desc) (s : State) : (beginDiskUnbind c sid d s).spu = s.spu := by
  unfold beginDiskUnbind
  repeat' split
  all_goals simp

/-! ### TDC, calibration, time, power and test descriptors -/

@[simp] theorem beginTdcEnable_spu (c sid : Nat) (d : Desc) (s : State) : (beginTdcEnable c sid d s).spu = s.spu := by simp [beginTdcEnable]

@[simp] theorem releaseTdc_spu (ch : Nat) (s : State) : (releaseTdc ch s).spu = s.spu := by simp [releaseTdc]

@[simp] theorem beginTdcRelease_spu (c sid : Nat) (d : Desc) (s : State) : (beginTdcRelease c sid d s).spu = s.spu := by simp [beginTdcRelease]

@[simp] theorem armCals_spu (c ring tick : Nat) (l : List Nat) (reads : List HostRead) (s : State) : (armCals c ring tick l reads s).spu = s.spu := by
  induction l generalizing reads s with
  | nil => rfl
  | cons ch l ih => simp [armCals, ih]

@[simp] theorem beginTdcGate_spu (c sid : Nat) (interval : Bool) (d : Desc) (s : State) : (beginTdcGate c sid interval d s).spu = s.spu := by
  unfold beginTdcGate
  dsimp only
  repeat' split
  all_goals simp

@[simp] theorem onCalPairs_spu (d : Desc) (f : Nat → Skim → Skim) (s : State) : (onCalPairs d f s).spu = s.spu := by simp [onCalPairs]

@[simp] theorem beginCalSetMode_spu (c sid : Nat) (d : Desc) (s : State) : (beginCalSetMode c sid d s).spu = s.spu := by simp [beginCalSetMode]

@[simp] theorem beginCalManualLoad_spu (c sid : Nat) (d : Desc) (s : State) : (beginCalManualLoad c sid d s).spu = s.spu := by
  unfold beginCalManualLoad
  repeat' split
  all_goals simp

@[simp] theorem beginCalFence_spu (c sid : Nat) (d : Desc) (s : State) : (beginCalFence c sid d s).spu = s.spu := by simp [beginCalFence]

@[simp] theorem beginCalRampLength_spu (c sid : Nat) (d : Desc) (s : State) : (beginCalRampLength c sid d s).spu = s.spu := by
  simp [beginCalRampLength]

@[simp] theorem beginTableReset_spu (c sid : Nat) (d : Desc) (s : State) : (beginTableReset c sid d s).spu = s.spu := by simp [beginTableReset]

@[simp] theorem startForeground_spu (n : Nat) (s : State) : (startForeground n s).spu = s.spu := by simp [startForeground]

@[simp] theorem beginRunForeground_spu (c sid : Nat) (d : Desc) (s : State) : (beginRunForeground c sid d s).spu = s.spu := by
  simp [beginRunForeground]

@[simp] theorem supersedeSet_spu (s : State) : (supersedeSet s).spu = s.spu := by
  unfold supersedeSet
  split <;> simp

@[simp] theorem beginSetTimePps_spu (c sid : Nat) (d : Desc) (s : State) : (beginSetTimePps c sid d s).spu = s.spu := by simp [beginSetTimePps]

@[simp] theorem beginSetTimeImmediate_spu (c sid : Nat) (d : Desc) (s : State) : (beginSetTimeImmediate c sid d s).spu = s.spu := by
  simp [beginSetTimeImmediate]

@[simp] theorem beginHintCap_spu (c sid : Nat) (d : Desc) (s : State) : (beginHintCap c sid d s).spu = s.spu := by simp [beginHintCap]

@[simp] theorem beginHintNextEvent_spu (c sid : Nat) (d : Desc) (s : State) : (beginHintNextEvent c sid d s).spu = s.spu := by
  simp [beginHintNextEvent]

@[simp] theorem beginHintUncap_spu (c sid : Nat) (s : State) : (beginHintUncap c sid s).spu = s.spu := by simp [beginHintUncap]

@[simp] theorem completeTest_spu (c sid : Nat) (s : State) : (completeTest c sid s).spu = s.spu := by simp [completeTest]

@[simp] theorem beginSelftest_spu (c sid : Nat) (d : Desc) (s : State) : (beginSelftest c sid d s).spu = s.spu := by simp [beginSelftest]

/-! ### FLIGHT_READ and REPLAY_LOAD -/

@[simp] theorem consolidatePair_spu (n : Nat) (s : State) : (consolidatePair n s).spu = s.spu := by
  unfold consolidatePair
  split
  · rfl
  · exact (modFr_spu _ _).trans (foldl_spu (fun s a => dramUncorrectable_spu _ _ _ _ s) _ _)

@[simp] theorem consolidate_spu (s : State) : (consolidate s).spu = s.spu := by simp [consolidate]

@[simp] theorem beginFlightRead_spu (c sid : Nat) (d : Desc) (s : State) : (beginFlightRead c sid d s).spu = s.spu := by
  unfold beginFlightRead
  repeat' split
  all_goals simp

@[simp] theorem loadBundle_spu (c sid : Nat) (b : Bundle) (s : State) : (loadBundle c sid b s).spu = s.spu := by
  unfold loadBundle
  dsimp only
  repeat' split
  all_goals simp
  next h _ => exact (allocate_spu h).trans (freeAllocs_spu _ _)
  next h _ => exact (allocate_spu h).trans (freeAllocs_spu _ _)

@[simp] theorem beginReplayHost_spu (c sid : Nat) (d : Desc) (s : State) : (beginReplayHost c sid d s).spu = s.spu := by
  unfold beginReplayHost
  dsimp only
  repeat' split
  all_goals simp

@[simp] theorem beginReplayFlight_spu (c sid : Nat) (s : State) : (beginReplayFlight c sid s).spu = s.spu := by simp [beginReplayFlight]

@[simp] theorem beginReplayUnload_spu (c sid : Nat) (s : State) : (beginReplayUnload c sid s).spu = s.spu := by
  unfold beginReplayUnload
  repeat' split
  all_goals simp

/-! ### Teardown -/

@[simp] theorem endDescriptors_spu (c : Nat) (self : Option Nat) (s : State) : (endDescriptors c self s).spu = s.spu := by
  unfold endDescriptors
  repeat' split
  all_goals simp

@[simp] theorem dropSetTime_spu (c : Nat) (s : State) : (dropSetTime c s).spu = s.spu := by simp [dropSetTime]

@[simp] theorem dropOutputs_spu (c : Nat) (s : State) : (dropOutputs c s).spu = s.spu := by simp [dropOutputs]

@[simp] theorem dropExports_spu (c : Nat) (s : State) : (dropExports c s).spu = s.spu := by simp [dropExports]

@[simp] theorem dropTiming_spu (c : Nat) (s : State) : (dropTiming c s).spu = s.spu := by simp [dropTiming]

@[simp] theorem freeAllRings_spu (c : Nat) (s : State) : (freeAllRings c s).spu = s.spu := by simp [freeAllRings]

/-! ### Power states -/

@[simp] theorem startPairs_spu (next : Nat) (s : State) : (startPairs next s).spu = s.spu := by rfl

@[simp] theorem startExit_spu (serves : Option Nat) (s : State) : (startExit serves s).spu = s.spu := by simp [startExit]

@[simp] theorem powerStep_spu (s : State) : (powerStep s).spu = s.spu := by simp [powerStep]

/-! ### Lanes and ports -/

@[simp] theorem modPort_spu (p : Nat) (f : Port → Port) (s : State) : (modPort p f s).spu = s.spu := by rfl

@[simp] theorem modLane_spu (l : Nat) (f : Lane → Lane) (s : State) : (modLane l f s).spu = s.spu := by rfl

@[simp] theorem modLanes_spu (ls : List Nat) (f : Nat → Lane → Lane) (s : State) : (modLanes ls f s).spu = s.spu := by simp [modLanes]

@[simp] theorem modScan_spu (f : EyeScan → EyeScan) (s : State) : (modScan f s).spu = s.spu := by rfl

@[simp] theorem endScan_spu (fin : Nat) (s : State) : (endScan fin s).spu = s.spu := by simp [endScan]

@[simp] theorem endScanOn_spu (lanes : List Nat) (fin : Nat) (s : State) : (endScanOn lanes fin s).spu = s.spu := by simp [endScanOn]

@[simp] theorem stopChecker_spu (l : Nat) (s : State) : (stopChecker l s).spu = s.spu := by simp [stopChecker]

@[simp] theorem endSessions_spu (p : Nat) (s : State) : (endSessions p s).spu = s.spu := by rfl

@[simp] theorem leaveTest_spu (p : Nat) (s : State) : (leaveTest p s).spu = s.spu := by simp [leaveTest]

@[simp] theorem beginLaneTestExit_spu (c sid : Nat) (d : Desc) (s : State) : (beginLaneTestExit c sid d s).spu = s.spu := by simp [beginLaneTestExit]

/-! ### Descriptors from posting to completion -/

@[simp] theorem beginFence_spu (c sid : Nat) (d : Desc) (s : State) : (beginFence c sid d s).spu = s.spu := by simp [beginFence]

@[simp] theorem fetchCtx_spu (c k : Nat) (s : State) : (fetchCtx c k s).spu = s.spu := by
  induction k generalizing s with
  | zero => rfl
  | succ k ih =>
    unfold fetchCtx
    dsimp only
    repeat' split
    all_goals simp [ih]

@[simp] theorem fetchAll_spu (s : State) : (fetchAll s).spu = s.spu := by
  unfold fetchAll
  exact foldl_spu (fun s x => fetchCtx_spu _ _ s) _ _

@[simp] theorem finishAcc_spu (c : Nat) (a : Acc) (s : State) : (finishAcc c a s).spu = s.spu := by
  unfold finishAcc
  repeat' split
  all_goals simp

@[simp] theorem finishAll_spu (s : State) : (finishAll s).spu = s.spu := by
  refine foldl_spu (fun s x => foldl_spu (fun s a => ?_) _ _) _ _
  split <;> simp

end Sys2Proof.Machine
end

section
/-!
SUPPORT. The operations that settling uses and that change the SPU cluster: each but the start and the end of an SPU's run leaves the local
memory and the clock of every unit.
-/

namespace Sys2Proof.Machine

/-- What settling keeps of a unit whose clock counts: its local memory and its clock. -/
def Lsu.memClk (l : Lsu) : List Host.Cell × Nat := (l.mem, l.clk)

/-- The memories and clocks of the units. -/
def Spu.memClks (x : Spu) : List (List Host.Cell × Nat) := x.lsus.map Lsu.memClk

theorem Spu.memClks_map {f : Lsu → Lsu} (hf : ∀ l, (f l).memClk = l.memClk) (x : Spu) : Spu.memClks { x with lsus := x.lsus.map f } = x.memClks := by
  simp [Spu.memClks, hf]

theorem modLsu_memClks (n : Nat) {f : Lsu → Lsu} (hf : ∀ l, (f l).memClk = l.memClk) (s : State) :
    (modLsu n f s).spu.memClks = s.spu.memClks := by
  refine List.ext_getElem? fun i => ?_
  simp only [modLsu, modSpu, Spu.memClks, modNth, List.getElem?_map, List.getElem?_modify]
  rcases s.spu.lsus[i]? with _ | l
  · rfl
  · by_cases h : n = i <;> simp [h, hf]

@[simp] theorem ite_memClks (c : Prop) [Decidable c] (x y : Spu) : (if c then x else y).memClks = if c then x.memClks else y.memClks :=
  apply_ite Spu.memClks c x y

@[simp] theorem foldl_memClks {α : Type} {g : State → α → State} (hg : ∀ s x, (g s x).spu.memClks = s.spu.memClks) (l : List α) (s : State) :
    (l.foldl g s).spu.memClks = s.spu.memClks := foldl_invariant (g := fun s => s.spu.memClks) hg l s

theorem Lsu.memClk_offer (plan kind source detail : Nat) (mk : Nat → Nat → Nat × List Fld) (l : Lsu) :
    (l.offer plan kind source detail mk).memClk = l.memClk := by
  refine foldl_invariant (g := Lsu.memClk) (fun l x => ?_) _ _
  dsimp only
  repeat' split
  all_goals rfl

theorem Lsu.memClk_tapState (plan : Nat) (up : Bool) (l : Lsu) : (l.tapState plan up).memClk = l.memClk := by
  unfold Lsu.tapState
  split <;> rfl

/-! ### Taps, traces, triggers and dumps -/

@[simp] theorem offerTap_memClks (plan kind source detail : Nat) (mk : Nat → Nat → Nat × List Fld) (s : State) :
    (offerTap plan kind source detail mk s).spu.memClks = s.spu.memClks := by
  refine Spu.memClks_map (fun l => ?_) s.spu
  split
  · exact Lsu.memClk_offer _ _ _ _ _ l
  · rfl

@[simp] theorem tapsOf_memClks (plan : Nat) (up : Bool) (s : State) : (tapsOf plan up s).spu.memClks = s.spu.memClks := by
  refine Spu.memClks_map (fun l => ?_) s.spu
  split
  · rfl
  · exact Lsu.memClk_tapState _ _ l

@[simp] theorem tapSpectrum_memClks (sp : Spectrum) (s : State) : (tapSpectrum sp s).spu.memClks = s.spu.memClks := by simp [tapSpectrum]

@[simp] theorem closeTrace_memClks (sp : Spectrum) (n : Nat) (r : Reducer) (t : Trace) (extra : Nat) (s : State) :
    (closeTrace sp n r t extra s).spu.memClks = s.spu.memClks := by simp [closeTrace]

@[simp] theorem traceSpectrum_memClks (sp : Spectrum) (n : Nat) (s : State) : (traceSpectrum sp n s).spu.memClks = s.spu.memClks := by
  unfold traceSpectrum
  dsimp only
  repeat' split
  all_goals simp

@[simp] theorem traceAll_memClks (sp : Spectrum) (s : State) : (traceAll sp s).spu.memClks = s.spu.memClks := by simp [traceAll]

@[simp] theorem closeTraces_memClks (sp : Spectrum) (s : State) : (closeTraces sp s).spu.memClks = s.spu.memClks := by
  unfold closeTraces
  refine foldl_memClks (fun s n => ?_) _ _
  dsimp only
  repeat' split
  all_goals simp

@[simp] theorem deliver_memClks (n : Nat) (ev : TEvent) (tagged : Bool) (s0 : State) : (deliver n ev tagged s0).spu.memClks = s0.spu.memClks := by
  unfold deliver
  split
  · rfl
  · extract_lets b u number forced stop s1 sc cf s2 tr cap reason got flags fields s3 s4 s5
    have hsc : sc.spu = s0.spu := by
      unfold sc
      split
      · rfl
      · simp [s1]
    have hs3 : s3.spu = s0.spu := by simp [s3, tr, s2, cf, hsc]
    have hs4 : s4.spu.memClks = s0.spu.memClks := by
      rw [← hs3]
      exact offerTap_memClks _ _ _ _ _ _
    repeat' split
    all_goals simp [s5, hs4]

@[simp] theorem fire_memClks (n : Nat) (ev : TEvent) (s : State) : (fire n ev s).spu.memClks = s.spu.memClks := by
  unfold fire
  dsimp only
  repeat' split
  all_goals simp

@[simp] theorem onEvent_memClks (n : Nat) (ev : TEvent) (s : State) : (onEvent n ev s).spu.memClks = s.spu.memClks := by simp [onEvent]

@[simp] theorem offerEvent_memClks (n : Nat) (ev : TEvent) (s : State) : (offerEvent n ev s).spu.memClks = s.spu.memClks := by simp [offerEvent]

@[simp] theorem testSpectrum_memClks (n : Nat) (stageB : Bool) (sp : Spectrum) (s0 : State) :
    (testSpectrum n stageB sp s0).spu.memClks = s0.spu.memClks := by
  simp [testSpectrum]

@[simp] theorem trigSpectrum_memClks (sp : Spectrum) (s : State) : (trigSpectrum sp s).spu.memClks = s.spu.memClks := by simp [trigSpectrum]

@[simp] theorem trigSk_memClks (plan idx subint flagged start : Nat) (s : State) :
    (trigSk plan idx subint flagged start s).spu.memClks = s.spu.memClks := by
  simp [trigSk]

@[simp] theorem presentSk_memClks (x : XStream) (b : SubBlk) (subint start : Nat) (flags : List Bool) (span : Nat × Nat) (s : State) :
    (presentSk x b subint start flags span s).spu.memClks = s.spu.memClks := by simp [presentSk]

@[simp] theorem queueDump_memClks (h : DumpHead) (lab : Spectrum) (order engine ring tap first count : Nat) (bins : Nat → Nat → Nat → List Fld)
    (span : Nat × Nat) (s : State) :
    (queueDump h lab order engine ring tap first count bins span s).spu.memClks = s.spu.memClks := by simp [queueDump]

@[simp] theorem dumpStream_memClks (x : XStream) (b : SubBlk) (g : Integ) (extra subs : Nat) (s : State) :
    (dumpStream x b g extra subs s).spu.memClks = s.spu.memClks := by simp [dumpStream]

@[simp] theorem endInterval_memClks (x0 : XStream) (b : SubBlk) (s : State) : (endInterval x0 b s).spu.memClks = s.spu.memClks := by
  unfold endInterval
  repeat' split
  all_goals simp

@[simp] theorem integSpectrum_memClks (x : XStream) (k index : Nat) (sp : Option Spectrum) (s : State) :
    (integSpectrum x k index sp s).spu.memClks = s.spu.memClks := by
  unfold integSpectrum
  repeat' split
  all_goals simp

@[simp] theorem closeInteg_memClks (x : XStream) (extra : Nat) (s : State) : (closeInteg x extra s).spu.memClks = s.spu.memClks := by
  unfold closeInteg
  dsimp only
  repeat' split
  all_goals simp

@[simp] theorem dumpPair_memClks (x : XStream) (b : SubBlk) (ring : Nat) (g : CrossPair) (extra : Nat) (s : State) :
    (dumpPair x b ring g extra s).spu.memClks = s.spu.memClks := by simp [dumpPair]

@[simp] theorem pairSpectrum_memClks (plan pair : Nat) (a b : CrossIn) (ref : Nat) (s : State) :
    (pairSpectrum plan pair a b ref s).spu.memClks = s.spu.memClks := by
  unfold pairSpectrum
  extract_lets e unpair set
  split
  case h_2 => rfl
  split
  case h_2 => rfl
  split
  · rfl
  · extract_lets rel g mask s1 ring d
    have hset : ∀ g s, (set g s).spu = s.spu := fun _ _ => rfl
    have hs1 : s1.spu = s.spu := by
      unfold s1
      repeat' split
      all_goals rfl
    repeat' split
    all_goals simp [hset, hs1]

@[simp] theorem crossSpectrum_memClks (x : XStream) (c : CrossIn) (ref : Nat) (s : State) :
    (crossSpectrum x c ref s).spu.memClks = s.spu.memClks := by
  unfold crossSpectrum
  split
  · dsimp only
    split
    · rfl
    · rw [modCross_spu]
      refine foldl_memClks (fun s p => ?_) _ _
      repeat' split
      all_goals simp
  · rfl

@[simp] theorem closeCross_memClks (plan extra : Nat) (s : State) : (closeCross plan extra s).spu.memClks = s.spu.memClks := by
  unfold closeCross
  split
  · refine foldl_memClks (fun s g => ?_) _ _
    repeat' split
    all_goals simp
  · rfl

@[simp] theorem consume_memClks (x : XStream) (sp : Spectrum) (s : State) : (consume x sp s).spu.memClks = s.spu.memClks := by simp [consume]

@[simp] theorem formFrame_memClks (plan idx : Nat) (s : State) : (formFrame plan idx s).spu.memClks = s.spu.memClks := by
  unfold formFrame
  repeat' split
  all_goals simp

@[simp] theorem formFrames_memClks (plan idx fuel : Nat) (s : State) : (formFrames plan idx fuel s).spu.memClks = s.spu.memClks := by
  induction fuel generalizing s with
  | zero => rfl
  | succ fuel ih =>
    unfold formFrames
    repeat' split
    all_goals simp [ih]

@[simp] theorem formAll_memClks (plan idx : Nat) (s : State) : (formAll plan idx s).spu.memClks = s.spu.memClks := by
  unfold formAll
  split <;> simp

@[simp] theorem finishStreams_memClks (plan : Nat) (s : State) : (finishStreams plan s).spu.memClks = s.spu.memClks := by
  unfold finishStreams
  refine (foldl_memClks (fun s i => ?_) _ _).trans (by simp)
  split <;> simp

/-! ### The end of a plan -/

@[simp] theorem haltPlan_memClks (plan : Nat) (s : State) : (haltPlan plan s).spu.memClks = s.spu.memClks := by simp [haltPlan]

@[simp] theorem stopPlan_memClks (plan : Nat) (stopper : Option (Nat × Nat)) (s : State) : (stopPlan plan stopper s).spu.memClks = s.spu.memClks := by
  simp [stopPlan]

@[simp] theorem destroyPlan_memClks (plan : Nat) (say : Bool) (s : State) : (destroyPlan plan say s).spu.memClks = s.spu.memClks := by
  unfold destroyPlan
  repeat' split
  all_goals simp

/-! ### Kernels -/

@[simp] theorem modKernel_memClks (k : Nat) (f : Kernel → Kernel) (s : State) : (modKernel k f s).spu.memClks = s.spu.memClks := by rfl

@[simp] theorem answerStops_memClks (k inst : Nat) (s : State) : (answerStops k inst s).spu.memClks = s.spu.memClks := by
  unfold answerStops
  split <;> simp

@[simp] theorem releaseKernel_memClks (k : Nat) (s : State) : (releaseKernel k s).spu.memClks = s.spu.memClks := by
  unfold releaseKernel
  split
  · dsimp only
    rw [freeAllocs_spu]
    rfl
  · rfl

@[simp] theorem beginSpuSignal_memClks (c sid : Nat) (d : Desc) (s : State) : (beginSpuSignal c sid d s).spu.memClks = s.spu.memClks := by
  unfold beginSpuSignal
  split
  · simp
  · dsimp only
    split
    · simp
    · rw [failDesc_spu]
      exact foldl_memClks (fun s n => modLsu_memClks n (f := Lsu.pushSignal _) (fun l => rfl) s) _ _

@[simp] theorem beginSpuStop_memClks (c sid : Nat) (d : Desc) (s : State) : (beginSpuStop c sid d s).spu.memClks = s.spu.memClks := by
  unfold beginSpuStop
  split
  · simp
  · dsimp only
    split
    · simp
    · rw [modKernel_memClks]
      exact foldl_memClks (fun s n => modLsu_memClks n (f := Lsu.askEnd 2) (fun l => rfl) s) _ _

@[simp] theorem beginClearRetirement_memClks (c sid : Nat) (s : State) : (beginClearRetirement c sid s).spu.memClks = s.spu.memClks := by
  unfold beginClearRetirement
  split
  · simp
  · rw [completeDesc_spu, emit_spu]
    rfl

@[simp] theorem beginPlanStop_memClks (c sid : Nat) (d : Desc) (s : State) : (beginPlanStop c sid d s).spu.memClks = s.spu.memClks := by
  unfold beginPlanStop
  repeat' split
  all_goals simp

@[simp] theorem beginPlanDestroy_memClks (c sid : Nat) (d : Desc) (s : State) : (beginPlanDestroy c sid d s).spu.memClks = s.spu.memClks := by
  unfold beginPlanDestroy
  split <;> simp

/-! ### Units that a settling block starts or ends -/

/-- A unit of a later state holds the memory and the clock that it held, or its clock has not counted: its run is new, or has ended. -/
def UnitKept (n : Nat) (σ τ : State) : Prop := (getLsu n τ).clk = 0 ∨ (getLsu n τ).memClk = (getLsu n σ).memClk

section UnitKept

variable {n : Nat} {σ τ υ : State}

theorem memClk_getLsu (n : Nat) (s : State) : (getLsu n s).memClk = nth s.spu.memClks n ([], 0) := by
  simp only [getLsu, nth, Spu.memClks, List.getD_eq_getElem?_getD, List.getElem?_map]
  rcases s.spu.lsus[n]? with _ | l <;> rfl

theorem UnitKept.refl (n : Nat) (σ : State) : UnitKept n σ σ := .inr rfl

theorem UnitKept.trans (h : UnitKept n σ τ) (k : UnitKept n τ υ) : UnitKept n σ υ := by
  rcases k with k | k
  · exact .inl k
  · rcases h with h | h
    · exact .inl ((congrArg Prod.snd k).trans h)
    · exact .inr (k.trans h)

/-- What leaves the memories and the clocks alone keeps every unit. -/
theorem UnitKept.next (h : UnitKept n σ τ) (hp : υ.spu.memClks = τ.spu.memClks) : UnitKept n σ υ :=
  h.trans (.inr (by rw [memClk_getLsu, memClk_getLsu, hp]))

theorem UnitKept.of_memClks (hp : υ.spu.memClks = τ.spu.memClks) (h : UnitKept n σ τ) : UnitKept n σ υ := h.next hp

theorem UnitKept.ite {c : Prop} [Decidable c] (h : UnitKept n σ τ) (k : UnitKept n σ υ) : UnitKept n σ (if c then τ else υ) := by
  split <;> assumption

theorem UnitKept.foldl {α : Type} {g : State → α → State} (l : List α) (h : UnitKept n σ τ)
    (hg : ∀ u x, UnitKept n σ u → UnitKept n σ (g u x)) : UnitKept n σ (l.foldl g τ) := by
  induction l generalizing τ with
  | nil => exact h
  | cons x l ih => exact ih (hg _ _ h)

/-- A unit whose clock is set to 0 is new. -/
theorem modLsu_unitKept (h : UnitKept n σ τ) (m : Nat) {f : Lsu → Lsu} (hf : ∀ l, (f l).clk = 0) : UnitKept n σ (modLsu m f τ) := by
  refine h.trans ?_
  by_cases hnm : n = m
  · subst hnm
    by_cases hlen : n < τ.spu.lsus.length
    · exact .inl (by rw [getLsu_modLsu_same hlen, hf])
    · have hnone : (modLsu n f τ).spu.lsus[n]? = none := by simpa [modLsu, modSpu, modNth] using hlen
      exact .inl (by rw [getLsu, nth, List.getD_eq_getElem?_getD, hnone]; rfl)
  · exact .inr (by rw [getLsu_modLsu_ne hnm])

theorem launch_unitKept (h : UnitKept n σ τ) {k : Kernel} {img o : Block} {ranges : List SpuWindow} {taps : List Tap}
    (hl : launch k img o ranges taps τ = .ok υ) : UnitKept n σ υ := by
  unfold launch at hl
  dsimp only at hl
  split at hl
  · exact absurd hl (by simp)
  · split at hl
    · exact absurd hl (by simp)
    · split at hl
      · exact absurd hl (by simp)
      · split at hl
        · exact absurd hl (by simp)
        · split at hl
          · exact absurd hl (by simp)
          next ha =>
            rw [← Except.ok.inj hl]
            exact UnitKept.of_memClks (congrArg Spu.memClks (allocateAll_spu ha) : _)
              (UnitKept.foldl _ (h.next rfl) fun u x hu => modLsu_unitKept hu _ fun l => rfl)

theorem beginSpuLaunch_unitKept (h : UnitKept n σ τ) (c sid : Nat) (d : Desc) : UnitKept n σ (beginSpuLaunch c sid d τ) := by
  unfold beginSpuLaunch
  dsimp only
  repeat' split
  case h_2 hl => exact (launch_unitKept h hl).next (by simp)
  all_goals exact h.next (by simp)

theorem endInstance_unitKept (h : UnitKept n σ τ) (m reason exit fault : Nat) : UnitKept n σ (endInstance m reason exit fault τ) := by
  unfold endInstance
  dsimp only
  split
  · exact h
  · exact UnitKept.of_memClks
      ((releaseKernel_memClks _ _).trans ((answerStops_memClks _ _ _).trans (congrArg Spu.memClks (sendEvent_spu _ _ _ _ _ _ _))))
      (modLsu_unitKept h m fun l => rfl)

theorem dropKernels_unitKept (h : UnitKept n σ τ) (c : Nat) : UnitKept n σ (dropKernels c τ) :=
  UnitKept.foldl _ h fun _ m hu => endInstance_unitKept hu m 5 0 0

theorem dropSources_unitKept (h : UnitKept n σ τ) (c : Nat) : UnitKept n σ (dropSources c τ) :=
  UnitKept.of_memClks (congrArg Spu.memClks ((dropExports_spu _ _).trans (dropTiming_spu _ _)))
    (dropKernels_unitKept (h.next (foldl_memClks (fun s p => destroyPlan_memClks p false s) _ _)) c)

theorem startTeardown_unitKept (h : UnitKept n σ τ) (c cause : Nat) (destroyer : Option (Nat × Nat)) :
    UnitKept n σ (startTeardown c cause destroyer τ) := by
  unfold startTeardown
  split
  · exact h
  · split
    · exact h
    · refine UnitKept.ite (UnitKept.of_memClks (congrArg Spu.memClks (foldl_spu (fun s i => formSeal_spu i 5 none s) _ _))
        (dropSources_unitKept (h.next ?_) c)) (dropSources_unitKept (h.next ?_) c)
      all_goals simp

theorem beginContextDestroy_unitKept (h : UnitKept n σ τ) (c sid : Nat) (d : Desc) : UnitKept n σ (beginContextDestroy c sid d τ) := by
  unfold beginContextDestroy
  dsimp only
  repeat' split
  · exact startTeardown_unitKept h _ _ _
  all_goals exact h.next (by simp)

theorem tearPort_unitKept (h : UnitKept n σ τ) (port cause : Nat) : UnitKept n σ (tearPort port cause τ) :=
  UnitKept.foldl _ h fun _ c hu => startTeardown_unitKept hu c cause none

theorem linkDown_unitKept (h : UnitKept n σ τ) (p cause : Nat) : UnitKept n σ (linkDown p cause τ) :=
  tearPort_unitKept (h.next (by simp)) p cause

theorem beginLaneTestEnter_unitKept (h : UnitKept n σ τ) (c sid : Nat) (d : Desc) : UnitKept n σ (beginLaneTestEnter c sid d τ) := by
  unfold beginLaneTestEnter
  dsimp only
  split
  · exact h.next (by simp)
  · split
    · exact h.next (by simp)
    · refine UnitKept.of_memClks (congrArg Spu.memClks ((completeDesc_spu _ _ _ _ _ _).trans ((modPort_spu _ _ _).trans (modLanes_spu _ _ _))))
        (UnitKept.ite (h.next ?_) (linkDown_unitKept h _ _))
      simp

theorem beginOp_unitKept (h : UnitKept n σ τ) (c sid : Nat) (d : Desc) : UnitKept n σ (beginOp c sid d τ) := by
  unfold beginOp
  cases d.op
  case contextDestroy => exact beginContextDestroy_unitKept h c sid d
  case spuLaunch => exact beginSpuLaunch_unitKept h c sid d
  case laneTestEnter => exact beginLaneTestEnter_unitKept h c sid d
  case triggerArm => exact h.next (congrArg Spu.memClks (beginArming_spu c sid d armAgain_spu τ))
  case triggerDisarm => exact h.next (congrArg Spu.memClks (beginArming_spu c sid d disarmUnit_spu τ))
  all_goals exact h.next (by simp)

theorem beginDesc_unitKept (h : UnitKept n σ τ) (c : Nat) (a : Acc) : UnitKept n σ (beginDesc c a τ) := by
  unfold beginDesc
  dsimp only
  split
  · exact beginOp_unitKept (h.next (by simp)) c _ _
  · exact h.next (by simp)

theorem beginReady_unitKept (h : UnitKept n σ τ) : UnitKept n σ (beginReady τ) := by
  refine UnitKept.foldl _ h fun u x hu => UnitKept.foldl _ hu fun v a hv => ?_
  repeat' split
  · exact beginDesc_unitKept hv _ _
  all_goals exact hv

theorem settleRound_unitKept (h : UnitKept n σ τ) : UnitKept n σ (settleRound τ) := by
  have hbegun : UnitKept n σ (beginReady (fetchAll (powerStep τ))) := beginReady_unitKept (h.next (by simp))
  exact hbegun.next (by simp [settleRound])

theorem settleN_unitKept (k : Nat) (h : UnitKept n σ τ) : UnitKept n σ (settleN k τ) := by
  induction k generalizing τ with
  | zero => exact h
  | succ k ih => exact ih (settleRound_unitKept h)

/-- What follows a command keeps every unit, starts it anew, or ends its run. -/
theorem settle_unitKept (n : Nat) (s : State) : UnitKept n s (settle s) := settleN_unitKept _ (UnitKept.refl n s)

/-- Where a unit's clock counts after settling, the unit came into the settling with the memory that it has. -/
theorem mem_of_settle {n : Nat} {s : State} (h : (getLsu n (settle s)).clk ≠ 0) : (getLsu n (settle s)).mem = (getLsu n s).mem := by
  rcases settle_unitKept n s with k | k
  · exact absurd k h
  · exact congrArg Prod.fst k

end UnitKept

end Sys2Proof.Machine
end

section
/-!
SUPPORT. A unit whose local memory lists an address twice; the refutation of O14.
-/

namespace Sys2Proof.Machine

/-- A unit that runs, and whose local memory is not in canonical form: it lists the byte at address 0 twice. -/
def twiceListed : State := modLsu 0 (fun l => { l with kernel := 1, state := 1, mem := [(0, 1), (0, 2)] }) State.reset

/-- The block as STW of 0 to address 0 leaves it, before it settles. -/
def twiceStored : State := modLsu 0 (fun l => (l.done [l.out 1 (.a 0 0)]).poke 0 [0, 0, 0, 0]) twiceListed

theorem stw_issues_twiceListed : Issues (.stw 0 0) twiceListed := ⟨_, rfl, by decide, by decide, by decide, by decide⟩

theorem exec_stw_twiceListed : exec (.stw 0 0) twiceListed = answers twiceStored := by rfl

/-- The store of 0 has removed the first entry of the byte at address 0, and the byte reads as the second. -/
theorem byte_twiceStored : (getLsu 0 twiceStored).byte 0 = 2 := by decide

theorem clk_settle_twiceStored : (getLsu 0 (settle twiceStored)).clk = 1 := by decide +kernel

/-- Whatever block settles as this one does has its unit's memory. -/
theorem mem_of_settle_twiceStored {t : State} (h : settle t = settle twiceStored) : (getLsu 0 t).mem = (getLsu 0 twiceStored).mem := by
  have hclk : (getLsu 0 (settle twiceStored)).clk ≠ 0 := by rw [clk_settle_twiceStored]; decide
  have hclk' : (getLsu 0 (settle t)).clk ≠ 0 := by rw [h]; exact hclk
  calc (getLsu 0 t).mem = (getLsu 0 (settle t)).mem := (mem_of_settle hclk').symm
    _ = (getLsu 0 (settle twiceStored)).mem := by rw [h]
    _ = (getLsu 0 twiceStored).mem := mem_of_settle hclk

end Sys2Proof.Machine

namespace Sys2Proof

open Sys2Proof.Machine

/-- Refutes O14: no premise says that the unit's local memory is in canonical form. Where it lists the byte at address 0 twice, STW of 0 to
address 0 leaves that byte 2, in every state that settles as the answer does. -/
theorem not_storesWriteTheirBytesOnly : ¬ Obligations.StoresWriteTheirBytesOnly := by
  unfold Obligations.StoresWriteTheirBytesOnly
  intro h
  obtain ⟨t, hexec, hword, -⟩ := (h 0 0 twiceListed 0 (by decide) (by decide)).2 stw_issues_twiceListed
  have hsettle : settle t = settle twiceStored := Host.Outcome.next.inj (hexec.symm.trans exec_stw_twiceListed)
  have hstored : (getLsu 0 t).byte 0 = 0 := hword 0 (by decide)
  have hkept : (getLsu 0 t).byte 0 = 2 := by
    rw [Lsu.byte, mem_of_settle_twiceStored hsettle]
    exact byte_twiceStored
  exact absurd (hstored.symm.trans hkept) (by decide)

end Sys2Proof
end

section
/-!
SUPPORT. What the shared forms of the vector instructions leave in flight as they issue; O5, O6 and O7.
-/

namespace Sys2Proof.Machine

section VectorForms

variable {opc : Nat} {n : BitVec 4} {w : BitVec 56} {s : State}

/-- A shift by a count below the lane's width has a value in every component (R326). -/
theorem vecShift_lanes {sat : Bool} {go : Lsu → Nat → Int × Nat} {g : Lsu → Nat → Int × Nat}
    (h : (getLsu n.toNat s).mayIssue = true ∧ (getLsu n.toNat s).waiting = false
      ∧ (formV 32 32 0 0 shBits [0, 1, 2, 3, 4] sat).ok w = true ∧ (getLsu n.toNat s).inBody opc = true)
    (hk : wK5 w < compW (wT w)) (hg : ∀ i, go (getLsu n.toNat s) i = g (getLsu n.toNat s) i) :
    Host.Outcome.next (settle (vecShift opc sat n w go s)) = lanes n w 1 g s :=
  vecOp_lanes h fun i => (if_pos hk).trans (congrArg some (hg i))

/-- A bitwise instruction leaves its vector in flight, for the bytes that its predicate enables (R326). -/
theorem vecBits_inFlight {f : Form} {go : Lsu → BitVec 128}
    (h : (getLsu n.toNat s).mayIssue = true ∧ (getLsu n.toNat s).waiting = false ∧ f.ok w = true ∧ (getLsu n.toNat s).inBody opc = true) :
    Host.Outcome.next (settle (vecBits opc f n w go s)) =
      inFlight n (fun l => [l.out 1 (.v (l.vNum (wD w)) (l.mask (wT w) w) (go l))]) s :=
  issueRegs_inFlight h rfl

/-- An accumulating instruction leaves the products of its enabled lanes in flight for 3 cycles (R329, R330). -/
theorem accOp_inFlight {types : List Nat} {op : AccOp} {conj : Bool}
    (h : (getLsu n.toNat s).mayIssue = true ∧ (getLsu n.toNat s).waiting = false
      ∧ (formV 4 32 32 0 0 types true).ok w = true ∧ (getLsu n.toNat s).inBody opc = true) :
    Host.Outcome.next (settle (accOp opc types op conj n w s)) = inFlight n (fun l =>
      [l.out 3 (.acc (wD w) op (wSat w) ((List.range 8).map fun L => if l.laneOn w L then l.laneProd w conj L else none))]) s :=
  issueRegs_inFlight h rfl

end VectorForms

/-- A component of a complex product by the parts of its operands; a conjugated product negates the imaginary part of the second (R329). -/
theorem Lsu.cprod_eq (w : BitVec 56) (conj : Bool) (i : Nat) (l : Lsu) :
    l.cprod w conj i =
      let a := (l.aI w (i / 2 * 2), l.aI w (i / 2 * 2 + 1))
      let b := (l.bI w (i / 2 * 2), if conj then -(l.bI w (i / 2 * 2 + 1)) else l.bI w (i / 2 * 2 + 1))
      if i % 2 = 0 then a.1 * b.1 - a.2 * b.2 else a.1 * b.2 + a.2 * b.1 := by
  cases conj <;> rfl

end Sys2Proof.Machine

namespace Sys2Proof

open Sys2Proof.Machine

/-- Settles O5: each component has the value and the flags of its row. Flags retire with the result (log entry 185), binary32 VNEG, VABS, VMIN
and VMAX take 3 cycles (log entry 192), VNARROW's count is 0 to 31 (log entry 194), and VCVT to i32 sets no FINX (log entry 195). -/
theorem vectorArithmetic : Obligations.VectorArithmetic := by
  unfold Obligations.VectorArithmetic
  intro n w s t k f lat
  refine ⟨?vadd, ?vsub, ?vneg, ?vabs, ?vmin, ?vmax, ?vconj, ?vnarrow, ?vwiden, ?vcvt, fun hk => ⟨?vshl, ?vshr, ?vasr, ?vlsr⟩⟩
  case vadd | vsub | vneg | vabs | vconj => exact fun h => vecOp_lanes (h.ready rfl) fun i => by rw [fitLane_fitC]
  case vmin | vmax | vwiden => exact fun h => vecOp_lanes (h.ready rfl) fun i => rfl
  case vnarrow => exact fun h => vecOp_lanes (h.ready rfl) fun i => congrArg some (fitLane_fitC w 1 _)
  case vcvt =>
    intro h hdirection
    refine vecOp_lanes (h.ready rfl) fun i => ?_
    obtain htoFloat | htoInt : bits w.toNat 26 2 = 0 ∨ bits w.toNat 26 2 = 1 := by omega
    · rw [htoFloat]; rfl
    · rw [htoInt]; rfl
  case vshl => exact fun h => vecShift_lanes (h.ready rfl) hk fun i => fitLane_fitC w t _
  case vshr | vasr | vlsr => exact fun h => vecShift_lanes (h.ready rfl) hk fun i => rfl

/-- Settles O6: each instruction's result is that of its row. VSPLAT of c16 puts aA[15:0] in both components (log entry 193), and VCMP's FINV
retires with its predicate (log entry 185). -/
theorem vectorBitsAndMoves : Obligations.VectorBitsAndMoves := by
  unfold Obligations.VectorBitsAndMoves
  intro n w s t cw k put
  refine ⟨?vand, ?vor, ?vxor, ?vnot, ?vmov, ?vsplat, ?vperm, ?vext, ?vins, ?vcmp⟩
  case vand | vor | vxor | vnot | vmov | vsplat | vperm => exact fun h => vecBits_inFlight (h.ready rfl)
  case vext | vins =>
    intro h hlane
    exact issueRegs_inFlight (h.ready rfl) (if_pos hlane)
  case vcmp =>
    intro h hcondition
    exact issueRegs_inFlight (h.ready rfl) (if_pos hcondition)

/-- Settles O7: each component of a multiply has the value and the flags of its row, the flags retiring with the result (log entry 185); an
accumulator's products are in flight until they retire. -/
theorem multiplyAndAccumulate : Obligations.MultiplyAndAccumulate := by
  unfold Obligations.MultiplyAndAccumulate
  intro n w s t f acc
  refine ⟨?vmul, ?vmulq, ?vcmulq, ?vfma, ?vmac, ?vmsu, ?vmpy, ?vcmacj, ?accx, ?acclr⟩
  case vmul => exact fun h => vecOp_lanes (h.ready rfl) fun i => by rw [fitLane_fitC]
  case vmulq => exact fun h => vecOp_lanes (h.ready rfl) fun i => congrArg some (fitLane_fitC w t _)
  case vcmulq => exact fun h => vecOp_lanes (h.ready rfl) fun i => by rw [fitLane_fitC, Lsu.cprod_eq]; rfl
  case vfma => exact fun h => vecOp_lanes (h.ready rfl) fun i => rfl
  case vmac | vmsu | vmpy | vcmacj => exact fun h => accOp_inFlight (h.ready rfl)
  case accx =>
    intro h hshift
    exact vecOp_lanes (h.ready rfl) fun i => (if_pos hshift).trans (congrArg some (fitLane_fitC w t _))
  case acclr => exact fun h => issueRegs_inFlight (h.ready rfl) rfl

end Sys2Proof
end

section
/-!
SUPPORT. What the descriptors of power hints, the recorder, replay and tests do as they begin, for the forms that check more than their
layout; O26.
-/

namespace Sys2Proof.Machine

section RecorderAndTestForms

variable {c sid : Nat} {D : Desc} {b : State}

/-- UNCAP of context 0 lifts the cap to DORMANT (R526). -/
theorem beginHintUncap_ctx0 : beginHintUncap 0 sid b = completeDesc 0 sid .success 0 0 (modPwr (fun p => { p with cap := 6 }) b) :=
  rfl

/-- FLIGHT_READ into a ring of the context's own forms one bundle of the frozen, consolidated history, whose records wait for credit; the
descriptor completes once they are written (R545). -/
theorem beginFlightRead_forms {k : Nat} (hring : ringStream c (D.f 0x10 1) b = some k) :
    beginFlightRead c sid D b =
      let t := consolidate (if b.fr.frozen then b else freezeRecorder 1 b)
      let parts := bundleParts (excerpt (D.f 0x20 16) (some (D.f 0x30 4 * 2 ^ 64 / 1000000)) t) t
      let u := parts.zipIdx.foldl (fun s p => formWaiting k (partRec (bundleId t) p.2 p.1) (some (c, sid)) s) t
      onWritten c sid parts.length parts.length (if bit (D.f 0x11 1) 0 then unfreezeRecorder u else u) := by
  simp only [beginFlightRead, hring, Nat.reducePow]

/-- REPLAY_LOAD of host memory whose parts are in order loads them where the digest and the signature hold (R546, R548). -/
theorem beginReplayHost_inOrder {o : Block} {l : List Block} (hread : D.block 0 (D.f 0x20 8) = some o)
    (hsplit : splitRecords (D.f 0x20 8 / 64 + 1) o = some l) (hparts : partsOk l = true) :
    beginReplayHost c sid D b =
      if endOk l then loadBundle c sid (readBundle l (D.f 0x20 8)) b else completeDesc c sid .bundleInvalid 0 0 b := by
  simp only [beginReplayHost, hread, hsplit, hparts, Bool.true_and, failDesc]

/-- UNLOAD of a bundle that no replay uses frees its memory; the recorder unfreezes with a FLIGHT bundle (R544, R548). -/
theorem beginReplayUnload_frees {x : Bundle} (hloaded : b.fr.loaded = some x) (hidle : replaying b = false) :
    beginReplayUnload c sid b =
      let t := modFr (fun f => { f with loaded := none, ended := false }) (freeAllocs (fun k => decide (k = .bundle)) b)
      completeDesc c sid .success 0 0 (if x.flight then unfreezeRecorder t else t) := by
  simp only [beginReplayUnload, hloaded, hidle, Bool.false_eq_true, if_false]

/-- SELFTEST in MAINTENANCE answers a free value where its part of TEST is free, and RESOURCE_BUSY where it is not (R578). -/
theorem beginSelftest_maintenance (hmode : effMode b = 12) :
    beginSelftest c sid D b =
      if roomFor ⟨(Config.selftestMb (D.f 0x11 1) (D.f 0x18 8) (D.f 0x20 8)).toNat * mb, 0, 0, 0, 0⟩ b then
        completeDesc c sid .success (freshValue 64 b).1.toNat 0 (freshValue 64 b).2
      else completeDesc c sid .resourceBusy 0 1 b := by
  simp only [beginSelftest, hmode, if_true, completeTest, busy]

/-- CLEAR_RETIREMENT in MAINTENANCE clears the record in the NOR (R358). -/
theorem beginClearRetirement_maintenance (hmode : effMode b = 12) :
    beginClearRetirement c sid b = completeDesc c sid .success 0 0
      (emit (.nor "retirement record cleared" []) { b with spu := { b.spu with record := 0 } }) :=
  if_neg (not_not.2 hmode)

/-- LANE_TEST takes a port that is not in TEST and does not carry context 0 out of its link and into TEST, at a rate that it advertises
(R482). -/
theorem beginLaneTestEnter_enters {p w : Nat} (hport : p = D.f 0x11 1 - 1) (hwidth : w = (getPort p b).width.toNat)
    (hrate : D.f 0x20 8 ≤ advertised p w b) (hctx0 : ∀ x, getCtx 0 b = some x → fnPort x.fn ≠ p) (htest : (getPort p b).test = false) :
    beginLaneTestEnter c sid D b =
      let t := linkDown p 4 b
      completeDesc c sid .success 0 0 (modPort p (fun x => { x with
        test := true, state := 11, linkUp := false, rate := BitVec.ofNat 3 (D.f 0x20 8), width := BitVec.ofNat 5 w })
        (modLanes (rangeFrom (16 * p) w) (fun l x => { x.account (nowTick t) with
          active := true, cdrLock := true, elecIdle := false, frozen := false, rate := BitVec.ofNat 3 (D.f 0x20 8)
          entry := eqEntry l (D.f 0x20 8) t }) t)) := by
  subst hport hwidth
  have hadvertised := Nat.not_lt.2 hrate
  have hother : ((getCtx 0 b).any fun x => decide (fnPort x.fn = D.f 0x11 1 - 1)) = false := by
    rw [Option.any_eq_false]
    exact fun x hx => decide_eq_false (hctx0 x hx)
  simp only [beginLaneTestEnter, hadvertised, hother, htest, Bool.false_eq_true, if_false]

end RecorderAndTestForms

end Sys2Proof.Machine

namespace Sys2Proof

open Sys2Proof.Machine

/-- Settles O26: a form that checks no more than its layout is its definition, and each other is begun by its lemma, in the branch that the
clause's premises select. What SELFTEST and DRAM_TEST find is a free value (log entry 99), FLIGHT_READ clips its span to the history held (log
entry 101) and unfreezes once the records are formed (log entry 102), and a load replaces the bundle there (log entry 103). -/
theorem powerRecorderAndTestDescriptors : Obligations.PowerRecorderAndTestDescriptors := by
  unfold Obligations.PowerRecorderAndTestDescriptors
  intro d r s b c sid D
  refine ⟨?cap, ?nextEvent, ?uncap, ?flightRead, ?loadHost, ?loadFlight, ?unload, ?selftest, ?clearRetirement, ?laneTestEnter,
    ?laneTestExit, ?dramTest⟩
  case cap | nextEvent | laneTestExit | dramTest =>
    intro h
    obtain rfl := Option.some.inj h.descOf_eq
    exact h.exec_eq
  case uncap =>
    rintro h rfl
    obtain rfl := Option.some.inj h.descOf_eq
    exact h.exec_eq.trans (congrArg ran beginHintUncap_ctx0)
  case flightRead =>
    intro k h hring
    obtain rfl := Option.some.inj h.descOf_eq
    exact h.exec_eq.trans (congrArg ran (beginFlightRead_forms hring))
  case loadHost =>
    intro o l h hread hsplit hparts
    obtain rfl := Option.some.inj h.descOf_eq
    exact h.exec_eq.trans ((congrArg ran (beginReplayHost_inOrder hread hsplit hparts)).trans (apply_ite ran _ _ _))
  case loadFlight =>
    intro h
    obtain rfl := Option.some.inj h.descOf_eq
    exact h.exec_eq.trans (apply_ite ran _ _ _)
  case unload =>
    intro x h hloaded hidle
    obtain rfl := Option.some.inj h.descOf_eq
    exact h.exec_eq.trans (congrArg ran (beginReplayUnload_frees hloaded hidle))
  case selftest =>
    intro h hmode
    obtain rfl := Option.some.inj h.descOf_eq
    exact h.exec_eq.trans ((congrArg ran (beginSelftest_maintenance hmode)).trans (apply_ite ran _ _ _))
  case clearRetirement =>
    intro h hmode
    obtain rfl := Option.some.inj h.descOf_eq
    exact h.exec_eq.trans (congrArg ran (beginClearRetirement_maintenance hmode))
  case laneTestEnter =>
    intro h p w hrate hctx0 htest
    obtain rfl := Option.some.inj h.descOf_eq
    exact h.exec_eq.trans (congrArg ran (beginLaneTestEnter_enters rfl rfl hrate hctx0 htest))

end Sys2Proof
end

section
/-!
SUPPORT. What a step does with its queue, and that every command answers; O56, O57.
-/

namespace Sys2Proof.Machine

/-- A step with a command at the front runs it on the block with the queue's rest. -/
theorem step_of_pending_cons {c : Instr} {rest : List Instr} {s : State} (h : s.pending = c :: rest) :
    step s = exec c { s with pending := rest } := by
  simp only [step, h]

/-- A step on an empty queue lets one coarse tick pass (log entry 2). -/
theorem step_of_pending_nil {s : State} (h : s.pending = []) : step s = .next (idleTick s) := by
  simp only [step, h]

end Sys2Proof.Machine

namespace Sys2Proof

open Sys2Proof.Machine

/-- Settles O56: one lemma for a queue with a command at its front, one for the empty queue. -/
theorem stepsRunTheFrontCommand : Obligations.StepsRunTheFrontCommand := by
  unfold Obligations.StepsRunTheFrontCommand
  exact ⟨fun _ _ _ h => step_of_pending_cons h, fun _ _ => step_of_pending_cons rfl, fun _ h => step_of_pending_nil h⟩

/-- Settles O57: `exec_keeps` gives the answer of each command, the one whose precondition is not met among them (log entry 6). -/
theorem commandsCompleteAndLeaveTheQueue : Obligations.CommandsCompleteAndLeaveTheQueue := by
  unfold Obligations.CommandsCompleteAndLeaveTheQueue
  intro c s
  obtain ⟨t, hexec, hqueue, -⟩ := exec_keeps c s
  exact ⟨t, hexec, hqueue⟩

end Sys2Proof
end

section
/-!
SUPPORT. Completions and events on their rings: what is written, held or dropped; a descriptor that fails its acceptance; O15, O16, O31.
-/

namespace Sys2Proof.Machine

/-! ### Signalling and what it leaves of a context -/

/-- The context found by a number has that number. -/
theorem num_of_getCtx {c : Nat} {s : State} {x : Ctx} (h : getCtx c s = some x) : x.num = c :=
  of_decide_eq_true (List.find?_some (p := fun y : Ctx => decide (y.num = c)) h)

/-- A context after it was changed and kept its number. -/
theorem getCtx_modCtx_same {c : Nat} {f : Ctx → Ctx} {s : State} {x : Ctx} (hf : ∀ y : Ctx, (f y).num = y.num) (h : getCtx c s = some x) :
    getCtx c (modCtx c f s) = some (f x) := by
  rw [getCtx_modCtx hf, h, Option.map_some, if_pos (num_of_getCtx h)]

@[simp] theorem getCtx_journal (c k b n) (s : State) : getCtx c (journal k b n s) = getCtx c s := by
  simp only [getCtx, journal_host]

/-- Signalling a vector leaves the contexts as they are. -/
@[simp] theorem signalVector_ctxs (f v : Nat) (s : State) : (signalVector f v s).host.ctxs = s.host.ctxs := by
  unfold signalVector
  split
  · rfl
  · split <;> rfl

/-- Signalling a vector takes nothing back that the device has sent. -/
theorem mem_out_signalVector {f v : Nat} {s : State} {o : Output} (h : o ∈ s.out) : o ∈ (signalVector f v s).out := by
  unfold signalVector
  split
  · exact h
  · split
    · exact List.mem_cons_of_mem _ h
    · exact h

/-- Signalling the completion ring changes no more of a context than its ring's arming and count. -/
theorem getCtx_signalIfDue_cpl {c : Nat} {s : State} {x : Ctx} (h : getCtx c s = some x) :
    getCtx c (signalIfDue c .cpl s) = some x ∨ getCtx c (signalIfDue c .cpl s) = some { x with cpl := x.cpl.disarm } := by
  simp only [signalIfDue, signalRing, h]
  split
  · refine .inr ?_
    rw [getCtx, signalVector_ctxs]
    exact getCtx_modCtx_same (fun _ => rfl) h
  · exact .inl h

/-- Signalling a ring takes nothing back that the device has sent. -/
theorem mem_out_signalIfDue_cpl {c : Nat} {s : State} {o : Output} (h : o ∈ s.out) : o ∈ (signalIfDue c .cpl s).out := by
  unfold signalIfDue signalRing
  split
  · exact h
  · dsimp only
    split
    · exact mem_out_signalVector h
    · exact h

/-! ### Completions (R380, R383, R393) -/

section Completions

variable {c sid : Nat} {e : Cpl} {s : State} {x : Ctx}

/-- A completion is written at once while none is held and its ring has room (R383). -/
theorem postCpl_written (h : getCtx c s = some x) (hheld : x.held = []) (hroom : x.cpl.hasRoom = true) :
    postCpl c e s = writeCpl c e s := by
  simp only [postCpl, h, hheld, hroom, List.isEmpty_nil, Bool.and_self, if_true]

/-- A completion joins those held, or is the first of them where its ring is full (R383). -/
theorem postCpl_held (h : getCtx c s = some x) (hfull : x.held ≠ [] ∨ x.cpl.hasRoom = false) :
    postCpl c e s = modCtx c (fun x => { x with held := x.held ++ [e] }) s := by
  have hwaits : (x.held.isEmpty && x.cpl.hasRoom) = false := by
    rcases hfull with hheld | hroom
    · rw [List.isEmpty_eq_false_iff.2 hheld, Bool.false_and]
    · rw [hroom, Bool.and_false]
  simp only [postCpl, h, hwaits, Bool.false_eq_true, if_false]

/-- A completion that is written moves the ring's tail on, inverts PHASE at the wrap, and is sent (R380, R393). -/
theorem writeCpl_advances (h : getCtx c s = some x) :
    (∃ y, getCtx c (writeCpl c e s) = some y ∧ y.cpl.tail = x.cpl.advance.tail ∧ y.cpl.phase = x.cpl.advance.phase)
      ∧ .completion c x.cpl.tail x.cpl.phase e ∈ (writeCpl c e s).out := by
  simp only [writeCpl, h]
  have hsent : getCtx c (emit (.completion c x.cpl.tail x.cpl.phase e)
      (journal 2 (⟨0x10, 2, c⟩ :: cplFields 0x18 e x.cpl.phase) 40 s)) = some x := (getCtx_journal ..).trans h
  have hmoved := getCtx_modCtx_same (f := fun x => { x with cpl := x.cpl.advance }) (fun _ => rfl) hsent
  refine ⟨?_, mem_out_signalIfDue_cpl (List.mem_cons_self ..)⟩
  rcases getCtx_signalIfDue_cpl hmoved with hsig | hsig
  · exact ⟨_, hsig, rfl, rfl⟩
  · exact ⟨_, hsig, rfl, rfl⟩

/-- A descriptor that completes is outstanding no more, and its entry is posted (R393). -/
theorem completeDesc_posts {a : Acc} (h : getCtx c s = some x) (hacc : x.acc.find? (·.sid = sid) = some a) (st : Status) (r0 r1 : Nat) :
    completeDesc c sid st r0 r1 s =
      postCpl c ⟨a.desc.sub.tag, a.index, st.code, x.cmdHead, opcodeOf a.desc.op, r0 % 2 ^ 64, r1 % 2 ^ 32⟩
        (modCtx c (fun x => { x with acc := x.acc.filter (·.sid ≠ sid) }) s) := by
  have hfind : findAcc c sid s = some a := by rw [findAcc, h, Option.bind_some, hacc]
  simp only [completeDesc, h, hfind]

end Completions

/-! ### Events (R384, R396) -/

section Events

variable {c code subject d d2 d3 : Nat} {s : State} {x : Ctx}

/-- An event is written while its ring has room and no dropped one is unreported (R384, R396). -/
theorem sendEvent_written (h : getCtx c s = some x) (hroom : x.evt.hasRoom = true) (hsent : x.lostUnsent = 0) :
    sendEvent c code subject d d2 d3 s =
      writeEvt c ⟨BitVec.ofNat 64 (timeMid (now s)), code, subject % 2 ^ 32, d % 2 ^ 64, d2 % 2 ^ 32, d3 % 2 ^ 16⟩ s := by
  simp only [sendEvent, h, hroom, hsent, decide_true, Bool.and_self, if_true]

/-- Every other event is dropped and counted (R384). -/
theorem sendEvent_dropped (h : getCtx c s = some x) (hfull : x.evt.hasRoom = false ∨ x.lostUnsent ≠ 0) :
    sendEvent c code subject d d2 d3 s =
      modCtx c (fun x => { x with eventsLost := satInc x.eventsLost, lostUnsent := x.lostUnsent + 1 }) s := by
  have hdrops : (x.evt.hasRoom && decide (x.lostUnsent = 0)) = false := by
    rcases hfull with hroom | hlost
    · rw [hroom, Bool.false_and]
    · rw [decide_eq_false hlost, Bool.and_false]
  simp only [sendEvent, h, hdrops, Bool.false_eq_true, if_false]

/-- One EVENTS_LOST event gives the number dropped once there is room (R384). -/
theorem reportLostEvents_reports (h : getCtx c s = some x) (hroom : x.evt.hasRoom = true) (hlost : x.lostUnsent ≠ 0) :
    reportLostEvents c s = writeEvt c ⟨BitVec.ofNat 64 (timeMid (now s)), 0x0052, 0, x.lostUnsent, 0, 0⟩
      (modCtx c (fun x => { x with lostUnsent := 0 }) s) := by
  simp only [reportLostEvents, h, hroom, decide_eq_true hlost, Bool.and_self, if_true]

end Events

/-- A write of an event-head doorbell in range frees its entries, arms the ring and reports what was dropped (R384, R391). -/
theorem dbEvt_inRange {f p w : Nat} {s : State} {x : Ctx} (hpage : pageCtx f p s = some x) (hlive : x.state = .live)
    (hhead : headOk x.evt.log2 x.evt.head x.evt.tail w = true) :
    dbEvt f p w s = reportLostEvents x.num (signalIfDue x.num .evt
      (modCtx x.num (fun c => { c with evt := { c.evt with head := w, armed := true } }) s)) := by
  simp only [dbEvt, hpage, hlive, hhead, decide_true, Bool.and_self, if_true]

/-! ### A descriptor that fails its acceptance -/

/-- No descriptor is outstanding in any context. -/
def NoneOutstanding (s : State) : Prop := ∀ y ∈ s.host.ctxs, y.acc = []

section Outstanding

variable {c : Nat} {s : State}

theorem NoneOutstanding.congr {t : State} (h : NoneOutstanding s) (he : t.host.ctxs = s.host.ctxs) : NoneOutstanding t := by
  rw [NoneOutstanding, he]
  exact h

/-- A change of a context that gives it no descriptor. -/
theorem NoneOutstanding.modCtx {f : Ctx → Ctx} (h : NoneOutstanding s) (hf : ∀ y : Ctx, y.acc = [] → (f y).acc = []) :
    NoneOutstanding (modCtx c f s) := by
  intro y hy
  rw [modCtx_ctxs] at hy
  obtain ⟨z, hz, rfl⟩ := List.mem_map.1 hy
  split
  · exact hf z (h z hz)
  · exact h z hz

theorem NoneOutstanding.signalIfDue_cpl (h : NoneOutstanding s) : NoneOutstanding (signalIfDue c .cpl s) := by
  unfold signalIfDue signalRing
  split
  · exact h
  · dsimp only
    split
    · refine NoneOutstanding.congr ?_ (signalVector_ctxs ..)
      exact NoneOutstanding.modCtx h fun _ hy => hy
    · exact h

theorem NoneOutstanding.postCpl {e : Cpl} (h : NoneOutstanding s) : NoneOutstanding (postCpl c e s) := by
  unfold Machine.postCpl
  split
  · exact h
  · split
    · unfold writeCpl
      split
      · exact h
      · exact NoneOutstanding.signalIfDue_cpl (NoneOutstanding.modCtx (h.congr (congrArg HostSt.ctxs (journal_host ..))) fun _ hy => hy)
    · exact h.modCtx (fun _ hy => hy)

/-- Where nothing is outstanding nothing begins. -/
theorem NoneOutstanding.beginReady_eq (h : NoneOutstanding s) : beginReady s = s :=
  foldl_eq_self _ _ _ fun y hy => by rw [h y hy]; rfl

end Outstanding

section Acceptance

variable {i : Instr} {s : State} {D : Desc} {x : Ctx} {begun : Bool} (st : Status) (r0 r1 : Nat)

/-- The context that took its one descriptor, as it stands then. -/
theorem getCtx_takenOn (h : Fetched D x s) : getCtx D.sub.ctx.toNat (takenOn begun D x s) = some { x with
    posted := [], cmdHead := (x.cmdHead + 1) % 2 ^ x.cmdLog2, nextSid := x.nextSid + 1
    acc := [{ sid := x.nextSid, index := x.cmdHead, desc := D, begun := begun, marks := [], onWritten := none }] } := by
  obtain ⟨hone, -⟩ := h
  have htaken := filter_mapIf_ctx (f := fun y => { y with
    posted := [], cmdHead := (x.cmdHead + 1) % 2 ^ x.cmdLog2, nextSid := x.nextSid + 1
    acc := [{ sid := x.nextSid, index := x.cmdHead, desc := D, begun := begun, marks := [], onWritten := none }] }) (fun _ => rfl) hone
  rw [← takenOn_ctxs] at htaken
  exact getCtx_of_filter htaken

/-- Once the one descriptor that was taken completes, none is outstanding. -/
theorem noneOutstanding_completeDesc (h : Fetched D x s) :
    NoneOutstanding (completeDesc D.sub.ctx.toNat x.nextSid st r0 r1 (takenOn begun D x s)) := by
  rw [completeDesc_posts (getCtx_takenOn h) (List.find?_cons_of_pos (decide_eq_true rfl))]
  obtain ⟨-, -, -, -, hidle, -⟩ := h
  refine NoneOutstanding.postCpl fun z hz => ?_
  rw [modCtx_ctxs, takenOn_ctxs] at hz
  simp only [mapIf, List.map_map, List.mem_map] at hz
  obtain ⟨w, hw, rfl⟩ := hz
  by_cases hnum : w.num = D.sub.ctx.toNat
  · simp [hnum]
  · simp [hnum, (hidle w hw).2]

/-- A descriptor that fails a check of its acceptance completes with that status and has no other effect (R405). -/
theorem exec_of_acceptCheck_fails {st : Status} {r1 : Nat} (hdesc : descOf i = some D) (hfetched : Fetched D x s)
    (hfails : acceptCheck D x s = some (st, r1)) : exec i s = ends D.sub.ctx.toNat x.nextSid st 0 r1 (takenOn false D x s) := by
  rw [exec_of_descOf hdesc, submitDesc_eq hfetched, fetchAll_postedOn hfetched, hfails]
  dsimp only
  rw [(noneOutstanding_completeDesc st 0 r1 hfetched).beginReady_eq, ends, ran]

/-- An undefined opcode fails its acceptance with BAD_OPCODE (R405). -/
theorem acceptCheck_badOpcode {o : BitVec 8} {d : Sub} (hundefined : selectorOf o.toNat = none) :
    acceptCheck ⟨.bad o, d, []⟩ x s = some (.badOpcode, 0) := by
  simp only [acceptCheck, badCheck, hundefined, Option.some_or]

end Acceptance

end Sys2Proof.Machine

namespace Sys2Proof

open Sys2Proof.Machine

/-- Settles O15: what begins has its form's effect, and what fails its acceptance, as an undefined opcode does, completes and no more. -/
theorem descriptorsBeginOrFail : Obligations.DescriptorsBeginOrFail := by
  unfold Obligations.DescriptorsBeginOrFail
  refine ⟨?begins, ?fails, ?undefined⟩
  case begins =>
    intro i s b c sid D h
    exact h.exec_eq
  case fails =>
    intro i s D x st r1 hdesc hfetched hfails
    exact exec_of_acceptCheck_fails hdesc hfetched hfails
  case undefined =>
    intro s d o x hundefined hfetched
    have hdesc : descOf (.badOpcode d o) = some ⟨.bad o, d, []⟩ := rfl
    have hends := exec_of_acceptCheck_fails hdesc hfetched (acceptCheck_badOpcode hundefined)
    exact hends

/-- Settles O16: the entry is posted, and is written or held by the room of its ring. -/
theorem completionsArePosted : Obligations.CompletionsArePosted := by
  unfold Obligations.CompletionsArePosted
  intro c sid st r0 r1 s x a hone hacc e s1
  have hctx := getCtx_of_filter hone
  have hafter : getCtx c s1 = some { x with acc := x.acc.filter (·.sid ≠ sid) } := getCtx_modCtx_same (fun _ => rfl) hctx
  refine ⟨?written, ?held⟩
  case written =>
    intro hheld hroom
    obtain ⟨hmoved, hout⟩ := writeCpl_advances (e := e) hafter
    obtain ⟨y, hy, htail, hphase⟩ := hmoved
    refine ⟨?_, y, hy, htail, hphase, hout⟩
    rw [completeDesc_posts hctx hacc]
    exact postCpl_written hafter hheld hroom
  case held =>
    intro hfull
    exact (completeDesc_posts hctx hacc st r0 r1).trans (postCpl_held hafter hfull)

/-- Settles O31: an event is written or dropped by the room of its ring and by what is unreported, and a doorbell that makes room reports. -/
theorem droppedEventsAreReported : Obligations.DroppedEventsAreReported := by
  unfold Obligations.DroppedEventsAreReported
  intro c code subject d d2 d3 s x hctx
  refine ⟨?written, ?dropped, ?reported, ?doorbell⟩
  case written => exact sendEvent_written hctx
  case dropped =>
    intro hfull
    have hdrop := sendEvent_dropped (code := code) (subject := subject) (d := d) (d2 := d2) (d3 := d3) hctx hfull
    exact ⟨hdrop, (congrArg State.out hdrop).trans rfl⟩
  case reported => exact reportLostEvents_reports hctx
  case doorbell =>
    intro fn page v hpage hlive hhead
    exact congrArg answers (dbEvt_inRange hpage hlive hhead)

end Sys2Proof
end

section
/-!
SUPPORT. What the forms of contexts, fences, rings and sessions do as they begin, branch by branch; O17.
-/

namespace Sys2Proof.Machine

section ContextForms

variable {c sid : Nat} {D : Desc} {b : State}

/-- CONTEXT_CREATE whose request passes its checks admits the context (R376). -/
theorem beginContextCreate_admits {x : Ctx} (hctx : getCtx c b = some x) (hcheck : attachCheck x.fn (createRequest D) b = none) :
    beginContextCreate c sid D b =
      completeDesc c sid .success (admitCtx x.fn (createRequest D) b).1 0 (admitCtx x.fn (createRequest D) b).2 := by
  simp only [beginContextCreate, hctx, hcheck]

/-- CONTEXT_DESTROY by context 0, or by a context of the same function, begins the teardown (R377). -/
theorem beginContextDestroy_tears {x y : Ctx} (hctx : getCtx c b = some x) (hnamed : getCtx (D.f 0x10 2) b = some y)
    (hlive : y.state = .live) (hmay : c = 0 ∨ y.fn = x.fn) :
    beginContextDestroy c sid D b = startTeardown (D.f 0x10 2) 1 (some (c, sid)) b := by
  have hallowed : (decide (y.state = .live) && (decide (c = 0) || decide (y.fn = x.fn))) = true := by
    simpa [hlive] using hmay
  simp only [beginContextDestroy, hctx, hnamed, if_pos hallowed]

/-- RING_CREATE of a new ring that joins no group gives it a stream of its own (R385, R402). -/
theorem beginRingCreate_ownStream (hnew : hasRing c (D.f 0x18 1) b = false) (hjoin : D.f 0x24 4 = 0) :
    beginRingCreate c sid D b = completeDesc c sid .success b.host.nextStream 0 (modHost (fun h => { h with
      streams := h.streams ++ [newStream h.nextStream c [(c, D.f 0x18 1)] 0], nextStream := h.nextStream + 1 })
      (modCtx c (fun x => { x with rings := x.rings ++ [newDataRing D b.host.nextStream] }) b)) := by
  simp only [beginRingCreate, hnew, hjoin, ne_eq, not_true_eq_false, decide_false, Bool.false_and, Bool.false_eq_true, if_false, if_true]
  rfl

/-- RING_DESTROY of a ring that no source is bound to sends the SEAL to that ring (R386, R431). -/
theorem beginRingDestroy_seals {k : Nat} (hstream : ringStream c (D.f 0x10 1) b = some k) (hfree : ringBound c (D.f 0x10 1) b = false) :
    beginRingDestroy c sid D b =
      let t := nameDrops k (modStream k (fun st => { st with turn := st.rings.findIdx fun p => decide (p = (c, D.f 0x10 1)) }) b)
      onWritten c sid (((getStream k t).map (·.seq)).getD 0) 0 (formSeal k 4 (some (c, sid)) t) := by
  simp only [beginRingDestroy, hstream, hfree, Bool.false_eq_true, if_false]

/-- ATTEST_BIND binds a stream that has formed no record to a finished session (R499). -/
theorem beginAttestBind_binds {k : Nat} {x : Session} {st : Stream} (hstream : ringStream c (D.f 0x10 1) b = some k)
    (hdebug : b.trust.debug = false) (hsession : b.trust.sessions.find? (fun x => decide (x.id = D.f 0x14 4) && x.finished) = some x)
    (hst : getStream k b = some st) (hseq : st.seq = 0) (hunbound : st.bound = none) :
    beginAttestBind c sid D b = completeDesc c sid .success 0 0
      (modStream k (fun st => { st with bound := some (D.f 0x14 4, x.secret) }) b) := by
  simp only [beginAttestBind, hstream, hsession, hst, hdebug, hseq, hunbound, Option.isSome_none, Bool.and_false, Bool.false_eq_true,
    if_false, ne_eq, not_true_eq_false, failDesc]

end ContextForms

end Sys2Proof.Machine

namespace Sys2Proof

open Sys2Proof.Machine

/-- Settles O17: a form without a check of its own is its definition, and each other is begun by its lemma, in the branch that the clause's
premises select. -/
theorem contextAndRingDescriptors : Obligations.ContextAndRingDescriptors := by
  unfold Obligations.ContextAndRingDescriptors
  intro d s b c sid D
  refine ⟨?noop, ?fence, ?timeWait, ?contextCreate, ?contextDestroy, ?ringCreate, ?ringDestroy, ?attestBind⟩
  case noop | timeWait =>
    intro h
    obtain rfl := Option.some.inj h.descOf_eq
    exact h.exec_eq
  case fence =>
    intro h
    obtain rfl := Option.some.inj h.descOf_eq
    exact h.exec_eq.trans (apply_ite ran _ _ _)
  case contextCreate =>
    intro x h hctx hcheck
    obtain rfl := Option.some.inj h.descOf_eq
    exact h.exec_eq.trans (congrArg ran (beginContextCreate_admits hctx hcheck))
  case contextDestroy =>
    intro x y h hctx hnamed hlive hmay
    obtain rfl := Option.some.inj h.descOf_eq
    exact h.exec_eq.trans (congrArg ran (beginContextDestroy_tears hctx hnamed hlive hmay))
  case ringCreate =>
    intro h hnew hjoin
    obtain rfl := Option.some.inj h.descOf_eq
    exact h.exec_eq.trans (congrArg ran (beginRingCreate_ownStream hnew hjoin))
  case ringDestroy =>
    intro k h hstream hfree
    obtain rfl := Option.some.inj h.descOf_eq
    exact h.exec_eq.trans (congrArg ran (beginRingDestroy_seals hstream hfree))
  case attestBind =>
    intro k x st h hstream hdebug hsession hst hseq hunbound
    obtain rfl := Option.some.inj h.descOf_eq
    exact h.exec_eq.trans (congrArg ran (beginAttestBind_binds hstream hdebug hsession hst hseq hunbound))

end Sys2Proof
end

section
/-!
SUPPORT. ATTACH and DETACH as HST_ATT_CTL takes them, and the end of a teardown; O29.
-/

namespace Sys2Proof.Machine

section AttachBlock

variable {f : Nat} {s : State}

/-- Every function may write a word of its own block of BAR0 (R369), at an 8-byte boundary and outside the spanning fields. -/
theorem writeAccess_ownWord {off : Nat} (v : Nat) (hlo : 0x18 ≤ off) (hhi : off < 0x90) (halign : off % 8 = 0) (hwide : wideReg f off s = none) :
    writeAccess f 0 off 4 v s = write0 f off (v % 2 ^ 32) s := by
  have hbad : accessBad off 4 = false := accessBad_eq_false (.inl rfl) (by omega)
  have hforbid : vfForbidden f 0 off = false := by simp [vfForbidden, hlo, hhi]
  have hbelow : ¬ 0x2000 ≤ off := by omega
  simp only [writeAccess, hbad, hforbid, hbelow, halign, decide_false, Bool.and_false, Bool.or_self, Bool.false_eq_true, if_false, if_true]
  rw [writeUnit_word _ hwide, bits_low_word]

/-- A write of HST_ATT_CTL: the context number, then ATTACH before DETACH (R374; log entry 216). -/
theorem writeAccess_attCtl (v : BitVec 32) : writeAccess f 0 0x78 4 v.toNat s =
    let t := modFn f (fun r => { r with ctlContext := v.extractLsb' 16 10 }) s
    let u := if v.getLsbD 0 then attach f t else t
    if v.getLsbD 1 then detach f u else u := by
  rw [writeAccess_ownWord v.toNat (by decide) (by decide) rfl rfl, Nat.mod_eq_of_lt v.isLt]
  simp only [write0, writeAttach, bits_toNat, bit_toNat, BitVec.ofNat_toNat, BitVec.setWidth_eq]

/-- A decision on an ATTACH that no earlier one holds up, outside DORMANT (R374, R522). -/
theorem attach_decides {r : FnRegs} (hfn : getFn f s = some r) (hheld : r.attHeld = false) : attach f s = decideAttach f s := by
  simp only [attach, hfn, hheld, Bool.false_eq_true, if_false]

/-- A request that passes its checks is admitted, where no mode change holds it up (R375). -/
theorem decideAttach_admits {r : FnRegs} (hfn : getFn f s = some r) (hpwr : s.pwr.state ≠ 6) (hcheck : attachCheck f r.request s = none)
    (hchange : s.mode.change = none) :
    decideAttach f s = reportAttach f 2 (admitCtx f r.request s).1 0 (admitCtx f r.request s).2 := by
  simp only [decideAttach, hfn, hpwr, hcheck, hchange, Option.isSome_none, Bool.false_eq_true, if_false]

/-- A request that fails a check is refused with its status (R375). -/
theorem decideAttach_refuses {r : FnRegs} (hfn : getFn f s = some r) (hpwr : s.pwr.state ≠ 6) {st : Status} {r1 : Nat}
    (hcheck : attachCheck f r.request s = some (st, r1)) :
    decideAttach f s = reportAttach f 3 0 st.code (modHost (fun h => { h with refusals := satInc h.refusals }) s) := by
  simp only [decideAttach, hfn, hpwr, hcheck, if_false, countRefusal]

/-- DETACH of a live context of the function begins its teardown, and leaves a held ATTACH held (R374, R377). -/
theorem detach_tears {r : FnRegs} {x : Ctx} (hfn : getFn f s = some r) (hctx : getCtx r.ctlContext.toNat s = some x) (hown : x.fn = f)
    (hlive : x.state = .live) :
    detach f s = startTeardown r.ctlContext.toNat 2 none
      (modFn f (fun q => { q with attHeld := r.attHeld }) (reportAttach f 0 r.ctlContext.toNat 0 s)) := by
  simp only [detach, hfn, hctx, hown, hlive, decide_true, Bool.and_self, if_true]

end AttachBlock

/-- The teardown of a context other than 0 ends: its objects and its number are free, context 0 is told, and the CONTEXT_DESTROY of another
context that named it completes (R378). -/
theorem finishTeardown_frees {c : Nat} {s : State} {x : Ctx} (hctx : getCtx c s = some x) (htearing : x.state = .tearingDown)
    (hother : x.destroyer.map (·.1) ≠ some c) (hc : c ≠ 0) :
    finishTeardown c s = completeBy x.destroyer .success 0 0 (sendAdmin 0x0051 c x.cause 0 0
      (modHost (fun h => { h with ctxs := h.ctxs.filter fun y => decide (y.num ≠ c) }) (freeAllRings c (dropHoldings c s)))) := by
  simp only [finishTeardown, hctx, htearing, ne_eq, not_true_eq_false, hother, hc, if_false]

end Sys2Proof.Machine

namespace Sys2Proof

open Sys2Proof.Machine

/-- Settles O29: a write of HST_ATT_CTL attaches and then detaches (log entry 216); the decisions and the end of a teardown go by their lemmas,
and the other causes are their definitions: a function-level reset keeps the function's other registers (log entry 144). -/
theorem contextEvents : Obligations.ContextEvents := by
  unfold Obligations.ContextEvents
  refine ⟨?attach, ?detach, ?decision, ?detached, ?fetchError, ?functionReset, ?busMaster, ?vfEnable, ?ended⟩
  case attach =>
    intro fn v s f t
    have hattach : (v ||| 1).getLsbD 0 = true := by simp
    have hdetach : (v ||| 1).getLsbD 1 = v.getLsbD 1 := by simp
    have hnumber : (v ||| 1).extractLsb' 16 10 = v.extractLsb' 16 10 := by simp [BitVec.extractLsb'_or]
    have hwrite := writeAccess_attCtl (f := f) (s := s) (v ||| 1)
    rw [hattach, hdetach, hnumber] at hwrite
    exact congrArg answers hwrite
  case detach =>
    intro fn v s hnone
    have hattach : (v ||| 2).getLsbD 0 = false := by simpa using hnone
    have hdetach : (v ||| 2).getLsbD 1 = true := by simp
    have hnumber : (v ||| 2).extractLsb' 16 10 = v.extractLsb' 16 10 := by simp [BitVec.extractLsb'_or]
    have hwrite := writeAccess_attCtl (f := fn.toNat) (s := s) (v ||| 2)
    rw [hattach, hdetach, hnumber] at hwrite
    exact congrArg answers hwrite
  case decision =>
    intro f s r hfn hheld hpwr
    rw [attach_decides hfn hheld]
    exact ⟨decideAttach_admits hfn hpwr, fun st r1 => decideAttach_refuses hfn hpwr⟩
  case detached =>
    intro f s r x hfn hctx hown hlive
    exact detach_tears hfn hctx hown hlive
  case fetchError => exact fun _ _ => rfl
  case functionReset => exact fun _ _ => rfl
  case busMaster => exact fun _ _ => rfl
  case vfEnable => exact fun _ _ => rfl
  case ended =>
    intro ctx s x hctx htearing hother hne t
    have hc : ctx.toNat ≠ 0 := fun h => hne (BitVec.eq_of_toNat_eq h)
    exact congrArg answers (finishTeardown_frees hctx htearing hother hc)

end Sys2Proof
end

section
/-!
SUPPORT. Doorbells, moderation timers and vectors, branch by branch; O30.
-/

namespace Sys2Proof.Machine

section Doorbells

variable {f p w : Nat} {s : State} {x : Ctx}

/-- A doorbell of a page without a context is counted for the function (R390). -/
theorem dbCmd_noContext (hpage : pageCtx f p s = none) : dbCmd f p w s = modFn f (fun r => { r with dbErrors := satInc r.dbErrors }) s := by
  simp only [dbCmd, badDoorbell, hpage]

/-- A command tail that does not move back makes descriptors up to it fetchable (R382). -/
theorem dbCmd_moves (hpage : pageCtx f p s = some x) (hlive : x.state = .live) (hw : w < 2 ^ x.cmdLog2)
    (hforward : ringDist x.cmdLog2 x.cmdHead x.cmdTail ≤ ringDist x.cmdLog2 x.cmdHead w) :
    dbCmd f p w s = modCtx x.num (fun x => { x with cmdTail := w }) s := by
  simp only [dbCmd, hpage, hlive, hw, hforward, decide_true, Bool.and_self, if_true]

/-- A doorbell that is ignored is counted for its context and function, and raises DOORBELL_INVALID once (R390). -/
theorem badDoorbell_first (off : Nat) (hpage : pageCtx f p s = some x) (hraised : x.dbRaised = false) :
    badDoorbell f p off w s = sendEvent x.num 0x0053 0 (p * 4096 + off) w 0 (modFn x.fn (fun r => { r with dbErrors := satInc r.dbErrors })
      (modCtx x.num (fun c => { c with dbErrors := satInc c.dbErrors, dbRaised := true }) s)) := by
  simp only [badDoorbell, hpage, hraised, Bool.false_eq_true, if_false]

/-- A command tail out of range is ignored (R382, R390). -/
theorem dbCmd_outOfRange (hpage : pageCtx f p s = some x) (hw : 2 ^ x.cmdLog2 ≤ w) : dbCmd f p w s = badDoorbell f p 0 w s := by
  simp only [dbCmd, hpage, not_lt.2 hw, decide_false, Bool.and_false, Bool.false_and, Bool.false_eq_true, if_false]

/-- A completion head in range frees its entries and arms the ring, and held completions are written (R383, R391). -/
theorem dbCpl_inRange (hpage : pageCtx f p s = some x) (hlive : x.state = .live)
    (hhead : headOk x.cpl.log2 x.cpl.head x.cpl.tail w = true) :
    dbCpl f p w s = drainHeld x.num x.held.length (signalIfDue x.num .cpl
      (modCtx x.num (fun c => { c with cpl := { c.cpl with head := w, armed := true } }) s)) := by
  simp only [dbCpl, hpage, hlive, hhead, decide_true, Bool.and_self, if_true]

/-- A data head in range frees its blocks and arms the ring, and waiting records of its stream are written (R387, R388). -/
theorem dbData_inRange {r : Nat} {y : DataRing} (hpage : pageCtx f p s = some x) (hring : x.ring r = some y) (hlive : x.state = .live)
    (hhead : headOk y.log2 y.head y.w w = true) :
    dbData f p r w s = creditStream y.streamId (signalIfDue x.num (.data r)
      (modRing x.num r (fun y => { y with head := w, armed := true }) s)) := by
  simp only [dbData, hpage, hring, hlive, hhead, decide_true, Bool.and_self, if_true]

end Doorbells

section Signals

variable {c f v : Nat} {s : State}

/-- An armed completion ring whose counted entry has waited its time signals (R391). -/
theorem signalTimer_cpl {x : Ctx} (hctx : getCtx c s = some x) (harmed : x.cpl.armed = true) (hen : x.cpl.vecEn = true) (hcount : 0 < x.cpl.count) :
    signalTimer c .cpl s = signalVector x.fn x.cpl.vec (modCtx c (fun x => { x with cpl := x.cpl.disarm }) s) := by
  simp only [signalTimer, signalRing, hctx, harmed, hen, hcount, decide_true, Bool.and_self, if_true]

/-- So does an armed event ring (R391). -/
theorem signalTimer_evt {x : Ctx} (hctx : getCtx c s = some x) (harmed : x.evt.armed = true) (hen : x.evt.vecEn = true) (hcount : 0 < x.evt.count) :
    signalTimer c .evt s = signalVector x.fn x.evt.vec (modCtx c (fun x => { x with evt := x.evt.disarm }) s) := by
  simp only [signalTimer, signalRing, hctx, harmed, hen, hcount, decide_true, Bool.and_self, if_true]

/-- A vector of the function's table is unmasked, and the message that its PBA bit holds is sent (R391). -/
theorem setMask_unmasks {g : FnRegs} (hfn : getFn f s = some g) (hv : v < fnVectors f) :
    setMask f v false s =
      let t := modFn f (fun r => { r with unmasked := insertVec v r.unmasked, pba := r.pba.filter fun x => decide (x ≠ v) }) s
      if g.pba.contains v then emit (.msix f v) t else t := by
  simp only [setMask, hfn, not_le.2 hv, Bool.false_eq_true, if_false]

end Signals

/-- The heartbeat is written at the next multiple of 800,000 ticks (R392). -/
theorem heartbeatWrite_running {s : State} (hrun : s.tim.running = true) :
    heartbeatWrite s = heartbeat s.hedge.safe (advanceToTick ((nowTick s / 800000 + 1) * 800000) s) :=
  if_pos hrun

end Sys2Proof.Machine

namespace Sys2Proof

open Sys2Proof.Machine

/-- Settles O30: each event takes the branch that the clause's premises select. -/
theorem doorbellsAndInterrupts : Obligations.DoorbellsAndInterrupts := by
  unfold Obligations.DoorbellsAndInterrupts
  intro fn page v r s f p w
  refine ⟨?noContext, ?cmd, ?cmdOutOfRange, ?cpl, ?evt, ?data, ?cplTimer, ?evtTimer, ?unmask, ?heartbeat⟩
  case noContext =>
    intro hpage
    exact congrArg answers (dbCmd_noContext hpage)
  case cmd =>
    intro x hpage hlive hw hforward
    exact congrArg answers (dbCmd_moves hpage hlive hw hforward)
  case cmdOutOfRange =>
    intro x hpage hw hraised
    have hignored := (dbCmd_outOfRange hpage hw).trans (badDoorbell_first 0 hpage hraised)
    rw [Nat.add_zero] at hignored
    exact congrArg answers hignored
  case cpl =>
    intro x hpage hlive hhead
    exact congrArg answers (dbCpl_inRange hpage hlive hhead)
  case evt =>
    intro x hpage hlive hhead
    exact congrArg answers (dbEvt_inRange hpage hlive hhead)
  case data =>
    intro x y hpage hring hlive hhead
    exact congrArg answers (dbData_inRange hpage hring hlive hhead)
  case cplTimer =>
    intro x ctx hctx harmed hen hcount
    exact congrArg answers (signalTimer_cpl hctx harmed hen hcount)
  case evtTimer =>
    intro x ctx hctx harmed hen hcount
    exact congrArg answers (signalTimer_evt hctx harmed hen hcount)
  case unmask =>
    intro g vec hfn hvec t
    exact congrArg Host.Outcome.next (setMask_unmasks hfn hvec)
  case heartbeat =>
    intro hrun
    exact congrArg answers (heartbeatWrite_running hrun)

end Sys2Proof
end

section
/-!
SUPPORT. What a write of capture memory leaves of its bytes; O37.
-/

namespace Sys2Proof.Machine

section MemoryWrites

variable {s : State}

@[simp] theorem journal_dram (kind : Nat) (body : List Fld) (bytes : Nat) (s : State) : (journal kind body bytes s).dram = s.dram := by
  unfold journal
  split
  · rfl
  · dsimp only
    split <;> rfl

/-- The log leaves the bytes of capture memory as they are (R453). -/
theorem dramLog_mem (kind consumer : Nat) (addr : Option Nat) (channel symbol count : Nat) (s : State) :
    (dramLog kind consumer addr channel symbol count s).dram.mem = s.dram.mem := by
  simp only [dramLog, journal_dram, modDram_dram]

/-- Poison leaves the bytes of capture memory as they are (R452). -/
theorem addPoison_mem (d : Dram) (c : Nat) : (d.addPoison c).mem = d.mem := rfl

/-- A write of capture memory stores its bytes, whatever it does to poison and to the log (R451, R452). -/
theorem dramWrite_mem (a : Nat) (l : List Byte) (poisoned : Bool) (s : State) :
    (dramWrite a l poisoned s).dram.mem = Memory.writeList a l s.dram.mem := by
  unfold dramWrite
  dsimp only
  rw [foldl_invariant (g := fun t : State => t.dram.mem) fun t c => dramLog_mem ..]
  simp only [modDram_dram]
  rw [foldl_invariant (g := Dram.mem) addPoison_mem]

end MemoryWrites

end Sys2Proof.Machine

namespace Sys2Proof

open Sys2Proof.Machine

/-- Settles O37: the write stores its bytes and touches no other part of memory, and `Memory.writeList` keeps the canonical form. -/
theorem windowWritesStoreTheirBytesOnly : Obligations.WindowWritesStoreTheirBytesOnly := by
  unfold Obligations.WindowWritesStoreTheirBytesOnly
  intro port a n l poisoned s hwf hwin hmem
  refine ⟨_, congrArg answers (bar4Write_memory poisoned hwin hmem), ?_, fun x => ?_⟩
  · rw [dramWrite_mem]
    exact Memory.wf_writeList a.toNat l hwf
  · rw [dramWrite_mem]
    exact Memory.read_writeList a.toNat x l hwf

end Sys2Proof
end

section
/-!
SUPPORT. What the forms of exports and disks do as they begin, branch by branch; O22.
-/

namespace Sys2Proof.Machine

section ExportForms

variable {c sid n : Nat} {D : Desc} {b : State} {p : Plan}

/-- An export that is checked against a mode's limits where its plan holds resources fits them (R427). -/
theorem export_fits {t : State} {mode : Nat} (hmode : checkMode t = mode)
    (hfits : p.reserved = true → exportFits (reservedPlans t) t = true ∧ (regionsOf (reservedPlans t) t).within mode = true) :
    (p.reserved && !exportFits (reservedPlans t) t) = false ∧ (p.reserved && !(regionsOf (reservedPlans t) t).within (checkMode t)) = false := by
  cases hres : p.reserved with
  | false => exact ⟨rfl, rfl⟩
  | true =>
    obtain ⟨hrate, hroom⟩ := hfits hres
    rw [hrate, hmode, hroom]
    exact ⟨rfl, rfl⟩

/-- STREAM_OPEN on a ring begins an export in the lowest free slot, on the ring's stream (R424). -/
theorem beginStreamOpen_ring {k : Nat} (hplan : ownPlan c (D.f 0x10 4) b = some p) (hstream : ringStream c (D.f 0x15 1) b = some k)
    (hring : hasRing c (D.f 0x15 1) b = true) (hsources : sourcesBad p D = none) (hmode : checkMode b = 6) (hlive : replaying b = false)
    (hfree : sourceTaken D b = false) (hslot : (List.range 8).find? (fun n => (getExport n b).isNone) = some n) :
    let e := exportOf c n b.disk.nextExport k false (p.takes b) D
    let t := modDisk (fun x => { x with exports := x.exports ++ [e], nextExport := x.nextExport + 1 }) b
    (p.reserved = true → exportFits (reservedPlans t) t = true ∧ (regionsOf (reservedPlans t) t).within 6 = true) →
    beginStreamOpen c sid false D b = completeDesc c sid .success e.id 0 t := by
  intro e t hfits
  obtain ⟨hrate, hroom⟩ := export_fits (t := t) hmode hfits
  have hchecked : (decide (checkMode b ≠ 6) || replaying b) = false := by simp [hmode, hlive]
  simp only [beginStreamOpen, hplan, hstream, hring, hsources, hchecked, hfree, hslot, Bool.not_false, Bool.not_true, Bool.and_false,
    Bool.false_and, Bool.false_eq_true, if_false, Option.getD_some]
  rw [if_neg (Bool.eq_false_iff.1 hrate), if_neg (Bool.eq_false_iff.1 hroom)]

/-- STREAM_OPEN on a disk set with an active member begins an export in the lowest free slot, on a stream of its own (R424). -/
theorem beginStreamOpen_disk (hplan : ownPlan c (D.f 0x10 4) b = some p) (hsources : sourcesBad p D = none) (hmode : checkMode b = 7)
    (hlive : replaying b = false) (hfree : sourceTaken D b = false)
    (hmember : ∃ m ∈ b.disk.bindings, m.ctx = c ∧ m.set = D.f 0x15 1 ∧ m.state = .active)
    (hslot : (List.range 8).find? (fun n => (getExport n b).isNone) = some n) :
    let e := exportOf c n b.disk.nextExport b.host.nextStream true (p.takes b) D
    let t := modHost (fun h => { h with streams := h.streams ++ [newStream h.nextStream c [] (D.f 0x15 1)], nextStream := h.nextStream + 1 })
      (modDisk (fun x => { x with exports := x.exports ++ [e], nextExport := x.nextExport + 1 }) b)
    (p.reserved = true → exportFits (reservedPlans t) t = true ∧ (regionsOf (reservedPlans t) t).within 7 = true) →
    beginStreamOpen c sid true D b = completeDesc c sid .success e.id 0 t := by
  intro e t hfits
  obtain ⟨hrate, hroom⟩ := export_fits (t := t) hmode hfits
  have hchecked : (decide (checkMode b ≠ 7) || replaying b) = false := by simp [hmode, hlive]
  have hactive : (b.disk.bindings.any fun m => decide (m.ctx = c) && decide (m.set = D.f 0x15 1) && decide (m.state = .active)) = true := by
    simpa [and_assoc] using hmember
  simp only [beginStreamOpen, hplan, hsources, hchecked, hactive, hfree, hslot, Bool.not_true, Bool.and_false,
    Bool.false_and, Bool.false_eq_true, if_false, if_true]
  exact (if_neg (Bool.eq_false_iff.1 hrate)).trans (if_neg (Bool.eq_false_iff.1 hroom))

/-- STREAM_CLOSE of an export of the plan that is not closing begins its close (R426). -/
theorem beginStreamClose_closes {e : Export} (hplan : ownPlan c (D.f 0x10 4) b = some p)
    (hexport : b.disk.exports.find? (fun e => decide (e.id = D.f 0x14 4) && decide (e.plan = p.id) && e.closing.isNone) = some e) :
    beginStreamClose c sid D b = beginClose e.slot 2 (some (c, sid)) b := by
  simp only [beginStreamClose, hplan, hexport]

end ExportForms

section DiskForms

variable {c sid : Nat} {D : Desc} {b : State}

/-- The binding that a DISK_BIND makes (R432): its member waits for the drive's control page. -/
def newBinding (c slot base : Nat) (D : Desc) (b : State) : Binding :=
  { slot := slot, id := b.disk.nextBinding, ctx := c, set := D.f 0x10 1, queuePairs := D.f 0x11 1, queueLog2 := D.f 0x12 1
    lbaLog2 := D.f 0x13 1, nsid := D.f 0x14 4, controller := D.f 0x18 8, firstLba := D.f 0x20 8, lbaCount := D.f 0x28 8
    port := ctxPort c b, window := base, windowBytes := windowSize (D.f 0x11 1) (D.f 0x12 1), state := .awaiting, maxTransferKb := 0
    actStatus := 0, qids := [], nextLba := D.f 0x20 8, extent := [], outstanding := [], nextCid := 0, failures := 0, cmdErrors := 0
    retries := 0, timeouts := 0, recordsLost := 0, unbinder := none }

/-- The first DISK_BIND, of queues that the drive and S have room for, opens the member's staging window (R432, R433; log entry 91). -/
theorem beginDiskBind_binds {cap : Block} {base n : Nat} (hread : D.block 0 8 = some cap) (hmode : checkMode b = 7)
    (hqueue : 2 ^ D.f 0x12 1 ≤ blkFld cap 0 2 + 1) (hfirst : b.disk.bindings = []) (hpairs : D.f 0x11 1 ≤ 32)
    (hroom : roomFor { Regions.zero with s := roundUp (windowSize (D.f 0x11 1) (D.f 0x12 1)) granule } b = true)
    (hplace : stagingPlace (windowSize (D.f 0x11 1) (D.f 0x12 1)) b = some base)
    (hslot : (List.range 32).find? (fun k => (getBinding k b).isNone) = some n) :
    beginDiskBind c sid D b = completeDesc c sid .success base b.disk.nextBinding
      (openWindow base (windowSize (D.f 0x11 1) (D.f 0x12 1)) (modDisk (fun x => { x with
        bindings := x.bindings ++ [newBinding c n base D b], nextBinding := x.nextBinding + 1 }) b)) := by
  have hsum : ¬ 32 < sumBy (·.queuePairs) b.disk.bindings + D.f 0x11 1 := by
    rw [hfirst]
    simpa [sumBy] using hpairs
  have hothers : ((b.disk.bindings.filter fun m => decide (m.ctx = c) && decide (m.set = D.f 0x10 1)).any
      fun m => decide (m.lbaLog2 ≠ D.f 0x13 1)) = false := by
    rw [hfirst]
    rfl
  simp only [beginDiskBind, hread, hmode, not_lt.2 hqueue, hothers, hsum, hroom, hplace, hslot, ne_eq, not_true_eq_false, decide_false,
    Bool.not_true, Bool.false_eq_true, if_false, newBinding]

/-- DISK_UNBIND of a member that nothing unbinds closes its open extent where it is active, and waits for its commands (R437). -/
theorem beginDiskUnbind_asks {m : Binding} (hbinding : b.disk.bindings.find? (fun m => decide (m.id = D.f 0x10 4) && decide (m.ctx = c)) = some m)
    (hunasked : m.unbinder = none) :
    beginDiskUnbind c sid D b = modBinding m.slot (fun m => { m with state := .unbinding, unbinder := some (c, sid) })
      (if m.state = .active then closeExtent m.slot b else b) := by
  simp only [beginDiskUnbind, hbinding, hunasked, Option.isSome_none, Bool.false_eq_true, if_false]

end DiskForms

end Sys2Proof.Machine

namespace Sys2Proof

open Sys2Proof.Machine

/-- Settles O22: each form is begun by its lemma, in the branch that the clause's premises select. -/
theorem exportAndDiskDescriptors : Obligations.ExportAndDiskDescriptors := by
  unfold Obligations.ExportAndDiskDescriptors
  intro d r s b c sid D
  refine ⟨?openRing, ?openDisk, ?close, ?bind, ?unbind⟩
  case openRing =>
    intro p n k h hplan hstream hring hsources hmode hlive hfree hslot e t hfits
    obtain rfl := Option.some.inj h.descOf_eq
    exact h.exec_eq.trans (congrArg ran (beginStreamOpen_ring hplan hstream hring hsources hmode hlive hfree hslot hfits))
  case openDisk =>
    intro p n h hplan hsources hmode hlive hfree hmember hslot e t hfits
    obtain rfl := Option.some.inj h.descOf_eq
    exact h.exec_eq.trans (congrArg ran (beginStreamOpen_disk hplan hsources hmode hlive hfree hmember hslot hfits))
  case close =>
    intro p e h hplan hexport
    obtain rfl := Option.some.inj h.descOf_eq
    exact h.exec_eq.trans (congrArg ran (beginStreamClose_closes hplan hexport))
  case bind =>
    intro cap base n h hread hmode hqueue hfirst hpairs hroom hplace hslot
    obtain rfl := Option.some.inj h.descOf_eq
    exact ⟨newBinding c n base _ b, rfl, rfl, rfl, rfl, rfl, rfl, rfl, rfl, rfl, rfl, rfl,
      h.exec_eq.trans (congrArg ran (beginDiskBind_binds hread hmode hqueue hfirst hpairs hroom hplace hslot))⟩
  case unbind =>
    intro m h hbinding hunasked
    obtain rfl := Option.some.inj h.descOf_eq
    exact h.exec_eq.trans (congrArg ran (beginDiskUnbind_asks hbinding hunasked))

end Sys2Proof
end

section
/-!
SUPPORT. Two members in one slot, of which only the first closes its range; the refutation of O48.
-/

namespace Sys2Proof.Machine

/-- An active member of slot 0 whose range holds `lbas` LBAs, with one record of 8 LBAs in its open extent. -/
def openMember (lbas : Nat) : Binding where
  slot := 0
  id := 1
  ctx := 1
  set := 1
  queuePairs := 1
  queueLog2 := 4
  lbaLog2 := 9
  nsid := 1
  controller := 7
  firstLba := 0
  lbaCount := lbas
  port := 0
  window := 0x1000000
  windowBytes := 0x400000
  state := .active
  maxTransferKb := 128
  actStatus := 0
  qids := [1]
  nextLba := 0
  extent := [⟨2, 0, 0, 8, 4096, 0, 0⟩]
  outstanding := []
  nextCid := 0
  failures := 0
  cmdErrors := 0
  retries := 0
  timeouts := 0
  recordsLost := 0
  unbinder := none

/-- A block with two members in slot 0: the extent of the first ends its range, that of the second does not. -/
def slotTwice : State := { State.reset with disk := { State.reset.disk with bindings := [openMember 8, openMember 16] } }

/-- The next LBA of each member. -/
def nextLbas (r : Host.Outcome State Fault Refusal) : List Nat :=
  match r with
  | .next s => s.disk.bindings.map (·.nextLba)
  | _ => []

/-- `slotTwice` as O48's clause on an extent that fits (R435) says that its timeout leaves it: each member wraps where its own range ends. -/
def slotTwiceClaimed : State :=
  let cmds := cutCmds 0 0 8 (openMember 8).maxLbas 512 (assignLbas 0 (openMember 8).extent) 8
  cmds.foldl (fun s c => emit (.nvme 0 c.lba c.lbas false) s) (modBinding 0 (fun b => { b with
    extent := [], outstanding := b.outstanding ++ cmds, nextCid := b.nextCid + cmds.length
    nextLba := if 0 + 8 = b.firstLba + b.lbaCount then b.firstLba else 0 + 8 }) slotTwice)

/-- The model wraps both members where the range of the first ends. -/
theorem nextLbas_extentTimeout : nextLbas (exec (.extentTimeout 0) slotTwice) = [0, 0] := by decide +kernel

/-- O48's clause leaves the second member at LBA 8, in the middle of its range. -/
theorem nextLbas_claimed : nextLbas (answers slotTwiceClaimed) = [0, 8] := by decide +kernel

end Sys2Proof.Machine

namespace Sys2Proof

open Sys2Proof.Machine

/-- Refutes O48: no premise says that a slot has one binding. The model compares the extent's end (R435) with the range of the binding that it
finds, where the clause compares it with the range of each binding of the slot; with two members in slot 0 whose ranges end at LBA 8 and at
LBA 16, an extent that ends at LBA 8 leaves the second member at LBA 0, and the clause says LBA 8. -/
theorem not_diskEvents : ¬ Obligations.DiskEvents := by
  unfold Obligations.DiskEvents
  intro h
  obtain ⟨-, -, -, -, hextent, -⟩ := h 0 slotTwice (openMember 8) rfl
  have hclaim : exec (.extentTimeout 0) slotTwice = answers slotTwiceClaimed :=
    hextent 8 0 _ _ (by decide) (by decide) (by decide) (by decide) rfl rfl
  have hlbas : [0, 0] = [0, 8] := by rw [← nextLbas_extentTimeout, hclaim, nextLbas_claimed]
  exact absurd hlbas (by decide)

end Sys2Proof
end

section
/-!
SUPPORT. The replay feed's next word and its end; O55.
-/

namespace Sys2Proof.Machine

section Feed

variable {s : State}

/-- A feed that has no word left stands still (log entry 6). -/
theorem replayWord_none (hnone : nextReplay s = none) : replayWord s = s := by
  simp only [replayWord, hnone, ite_self]

/-- The feed's next word, where no hole stands before it, is formed with REPLAY and taken by the plans (R549). -/
theorem replayWord_next {n : Nat} {w : HWord} (hreplay : replaying s = true) (hfeeds : s.fr.feeding = true) (hopen : s.fr.ended = false)
    (hnext : nextReplay s = some (n, w)) (hwhole : w.index = nth s.fr.pos n 0) :
    replayWord s =
      let v := w.setTag tagReplay
      let t := trigStage n v (modFr (fun r => { r with pos := r.pos.set n (w.index + 8) })
        (beginDue n w.index (feedJournal (w.index + 8) s)))
      takeWord n t.2 t.1 := by
  have hhole : decide (w.index ≠ nth s.fr.pos n 0) = false := decide_eq_false (not_not_intro hwhole)
  simp only [replayWord, hreplay, hfeeds, hopen, hnext, hhole, Bool.not_true, Bool.or_self, Bool.false_eq_true, if_false]
  rfl

/-- The feed ends once no word is left: running plans stop, and context 0 and their owners hear of it (R549; log entry 127). -/
theorem replayEnd_ends {b : Bundle} (hreplay : replaying s = true) (hfeeds : s.fr.feeding = true) (hopen : s.fr.ended = false)
    (hloaded : s.fr.loaded = some b) (hnone : nextReplay s = none) :
    replayEnd s =
      let run := s.plans.filter fun p => decide (p.phase = .running)
      ((0 :: run.map (·.ctx)).eraseDups).foldl (fun s c => sendEvent c 0x0133 (b.id % 2 ^ 32) (nth b.fin 0 0) 0 0 s)
        (modFr (fun r => { r with feeding := false, ended := true }) (run.foldl (fun s p => stopPlan p.id none s) s)) := by
  simp only [replayEnd, hreplay, hfeeds, hopen, hloaded, hnone, Option.isSome_none, Bool.not_true, Bool.or_self, Bool.false_eq_true, if_false]

end Feed

end Sys2Proof.Machine

namespace Sys2Proof

open Sys2Proof.Machine

/-- Settles O55: the feed forms its next word, ends, or stands still where no word is left (log entry 6). -/
theorem replayEvents : Obligations.ReplayEvents := by
  unfold Obligations.ReplayEvents
  intro s hreplay hfeeds hopen
  refine ⟨?word, ?ended, ?none⟩
  case word =>
    intro n w hnext hwhole v t
    exact congrArg answers (replayWord_next hreplay hfeeds hopen hnext hwhole)
  case ended =>
    intro b hloaded hnone run
    exact congrArg answers (replayEnd_ends hreplay hfeeds hopen hloaded hnone)
  case none =>
    intro hnone
    exact congrArg answers (replayWord_none hnone)

end Sys2Proof
end

section
/-!
SUPPORT. The eye scan and the pattern checkers, branch by branch; O45.
-/

namespace Sys2Proof.Machine

section LaneTests

variable {l : Nat} {s : State}

/-- The passing of time changes no port and no lane. -/
@[simp] theorem advanceToTick_link (t : Nat) (s : State) : (advanceToTick t s).link = s.link := by
  unfold advanceToTick advance
  split
  · exact modTim_link _ s
  · rfl

/-- A scan on a lane that receives ends with the bits of its dwell and the errors among them (R480). -/
theorem scanDone_ends (errors : Nat) (hrun : s.link.scan.state = 1) (hreceives : (getLane s.link.scan.runLane.toNat s).elecIdle = false) :
    scanDone errors s = modScan (fun x => { x with
      state := 2, bits := BitVec.ofNat 48 (2 ^ s.link.scan.runDwell.toNat)
      errors := BitVec.ofNat 48 (min errors (2 ^ s.link.scan.runDwell.toNat)) }) s := by
  simp only [scanDone, hrun, hreceives, ne_eq, not_true_eq_false, decide_false, Bool.or_self, Bool.false_eq_true, if_false]

/-- No scan runs, so none ends (log entry 6). -/
theorem scanDone_idle (errors : Nat) (hidle : s.link.scan.state ≠ 1) : scanDone errors s = s := by
  simp only [scanDone, hidle, ne_eq, not_false_eq_true, decide_true, Bool.true_or, if_true]

/-- A scan that has run for 60 s ends with fewer bits than its dwell (R481; log entry 113). -/
theorem scanTimeout_ends (compared errors : Nat) (hrun : s.link.scan.state = 1) :
    scanTimeout compared errors s = modScan (fun x => { x with
      state := 3, fin := 3, bits := BitVec.ofNat 48 (min compared (2 ^ s.link.scan.runDwell.toNat - 1))
      errors := BitVec.ofNat 48 (min errors (min compared (2 ^ s.link.scan.runDwell.toNat - 1))) })
      (advanceToTick (s.link.scan.startTick + 48000000000) s) := by
  simp only [scanTimeout, hrun, ne_eq, not_true_eq_false, if_false, advanceToTick_link, tickRate, Nat.reduceMul]

/-- No scan runs, so none times out (log entry 6). -/
theorem scanTimeout_idle (compared errors : Nat) (hidle : s.link.scan.state ≠ 1) : scanTimeout compared errors s = s := by
  simp only [scanTimeout, if_pos hidle]

/-- An enabled checker of a lane in test that is out of lock locks (R483). -/
theorem checkerLock_locks (htest : testLane l s = true) (hen : (getLane l s).chkEn = true) (hpattern : (getLane l s).pattern ≠ 0)
    (hopen : (getLane l s).locked = false) :
    checkerLock l s = modLane l (fun x => { x with locked := true, lockTick := nowTick s }) s := by
  simp only [checkerLock, htest, hen, hpattern, hopen, ne_eq, not_false_eq_true, decide_true, Bool.not_false, Bool.and_self, if_true]

/-- A checker of a lane that is not in test stays as it is (R485; log entry 6). -/
theorem checkerLock_closed (htest : testLane l s = false) : checkerLock l s = s := by
  simp only [checkerLock, htest, Bool.false_and, Bool.false_eq_true, if_false]

/-- A checker that loses its lock takes the lane rate times the ticks since its lock as bits, and the errors told (R484; log entry 111). -/
theorem checkerLost_counts (errors : Nat) (htest : testLane l s = true) (hlock : (getLane l s).locked = true) :
    checkerLost l errors s = modLane l (fun x => { x.unlock (nowTick s) errors with prbsRelocks := satInc x.prbsRelocks }) s := by
  simp only [checkerLost, htest, hlock, Bool.and_self, if_true]

end LaneTests

end Sys2Proof.Machine

namespace Sys2Proof

open Sys2Proof.Machine

/-- Settles O45: a scan ends or times out as its state says (log entries 6 and 113), and a checker changes its own lane alone (log entry 111). -/
theorem laneTestEvents : Obligations.LaneTestEvents := by
  unfold Obligations.LaneTestEvents
  intro lane s l
  refine ⟨?done, ?timeout, ?noScan, ?locks, ?loses, ?closed⟩
  case done =>
    intro e hrun hreceives
    exact congrArg Host.Outcome.next (scanDone_ends e.toNat hrun hreceives)
  case timeout =>
    intro b e hrun n
    exact congrArg Host.Outcome.next (scanTimeout_ends b.toNat e.toNat hrun)
  case noScan =>
    intro b e hidle
    exact ⟨congrArg Host.Outcome.next (scanDone_idle e.toNat hidle), congrArg Host.Outcome.next (scanTimeout_idle b.toNat e.toNat hidle)⟩
  case locks =>
    intro htest hen hpattern hopen
    exact congrArg Host.Outcome.next (checkerLock_locks htest hen hpattern hopen)
  case loses =>
    intro e htest hlock hl
    refine ⟨_, congrArg Host.Outcome.next (checkerLost_counts e.toNat htest hlock), ?_, fun k hk => getLane_modLane_ne hk⟩
    rw [getLane_modLane_same hl, Lane.unlock, if_pos hlock]
  case closed =>
    intro htest
    exact congrArg Host.Outcome.next (checkerLock_closed htest)

end Sys2Proof
end

section
/-!
SUPPORT. A port's link as it trains, idles, wakes, is margined and loses its clock, branch by branch; O44.
-/

namespace Sys2Proof.Machine

section Links

variable {p l : Nat} {s : State}

/-- A change of a port depends only on what it does to the port as it stands. -/
theorem modPort_congr {f g : Port → Port} (h : f (getPort p s) = g (getPort p s)) : modPort p f s = modPort p g s := by
  unfold modPort modLink
  dsimp only
  rw [modNth_congr Port.reset h]

/-- A link in L0 or with its clock in use goes down as the clock stops (R472). -/
theorem portClockLoss_down (hup : (getPort p s).linkUp = true) (hclock : (getPort p s).state ≠ 6 ∨ (getPort p s).l1Sub ≠ 2) :
    portClockLoss p s = linkDown p 4 (modPort p (fun x => { x with refOk := false }) s) := by
  have hused : (decide ((getPort p s).state = 6) && decide ((getPort p s).l1Sub = 2)) = false := by
    rw [Bool.and_eq_false_iff, decide_eq_false_iff_not, decide_eq_false_iff_not]
    exact hclock
  simp only [portClockLoss, hup, hused, Bool.not_false, Bool.and_self, if_true]

/-- A port without a link only notes that its clock has stopped (R472). -/
theorem portClockLoss_noLink (hdown : (getPort p s).linkUp = false) :
    portClockLoss p s = modPort p (fun x => { x with refOk := false }) s := by
  simp only [portClockLoss, hdown, Bool.false_and, Bool.false_eq_true, if_false]

/-- A link that is down trains to an advertised rate and a width of 4, 8 or 16 lanes (R475, R476, R531). -/
theorem trainLink_trains {rate width : Nat} (recoveries : Nat) (lanes : List LaneTraining) (hp : p < 2) (hstage : 3 ≤ s.host.stage.toNat)
    (htest : (getPort p s).test = false) (hperst : (getPort p s).perst = false) (hclock : (getPort p s).refOk = true)
    (hdown : (getPort p s).linkUp = false) (hrate : rate ≠ 0) (hwidth : width ∈ [4, 8, 16]) (hadvertised : rate ≤ advertised p width s) :
    trainLink p rate width recoveries lanes s = setMaxRate p (modPort p (fun x => { x with
      linkUp := true, rate := BitVec.ofNat 3 rate, width := BitVec.ofNat 5 width, state := 3, txL0s := false, rxL0s := false
      l1Sub := 0, recoveries := satAdd x.recoveries recoveries })
      (modLanes (rangeFrom (16 * p) width) (fun l => Lane.train (eqEntry l rate s) rate (nth lanes (l % 16) ⟨0, false, false⟩)) s)) := by
  have hwidths : [4, 8, 16].contains width = true := List.contains_iff_mem.2 hwidth
  simp only [trainLink, not_le.2 hp, not_lt.2 hstage, htest, hperst, hclock, hdown, hrate, hwidths, not_lt.2 hadvertised,
    decide_false, Bool.not_true, Bool.or_self, Bool.false_and, Bool.false_eq_true, if_false]

/-- A link in L0 whose idle time is set sends nothing more (R477). -/
theorem enterL0s_idles (hup : (getPort p s).linkUp = true) (hstate : (getPort p s).state = 3) (hidle : (getPort p s).l0sIdle ≠ 0) :
    enterL0s p s = modPort p (fun x => { x with state := 5, txL0s := true }) s := by
  simp only [enterL0s, hup, hstate, hidle, true_or, ne_eq, not_false_eq_true, decide_true, Bool.and_self, if_true]

/-- A link in L0 whose host sends nothing more idles its receivers (R477). -/
theorem followL0s_idles (hup : (getPort p s).linkUp = true) (hstate : (getPort p s).state = 3) :
    followL0s p s = modLanes (rangeFrom (16 * p) (getPort p s).width.toNat) (fun _ => Lane.idle)
      (modPort p (fun x => { x with state := 5, rxL0s := true }) s) := by
  simp only [followL0s, hup, hstate, true_or, decide_true, Bool.and_self, if_true]

/-- A link in L0 that no plan reserves enters L1 (R478). -/
theorem enterL1_idles (sub : Nat) (hup : (getPort p s).linkUp = true) (hstate : (getPort p s).state = 3) (hidle : (getPort p s).l1Idle ≠ 0)
    (hfree : portReserved p s = false) :
    enterL1 p sub s = modLanes (rangeFrom (16 * p) (getPort p s).width.toNat) (fun _ => Lane.idle)
      (modPort p (fun x => { x with
        state := 6, l1Sub := BitVec.ofNat 2 (min sub 2), txL0s := false, rxL0s := false, l1Entries := satInc x.l1Entries }) s) := by
  simp only [enterL1, hup, hstate, hidle, hfree, true_or, ne_eq, not_false_eq_true, decide_true, Bool.not_false, Bool.and_self, if_true]

/-- A link that a plan reserves stays out of L1 (R478). -/
theorem enterL1_reserved (sub : Nat) (hreserved : portReserved p s = true) : enterL1 p sub s = s := by
  simp only [enterL1, hreserved, Bool.not_true, Bool.and_false, Bool.false_eq_true, if_false]

/-- A lane of a link in L1 that hears its host wakes, and so does the link (R478; log entry 114). -/
theorem leaveIdle_wakes (hactive : (getLane l s).active = true) (hidle : (getLane l s).elecIdle = true) (hstate : (getPort (l / 16) s).state = 6) :
    leaveIdle l s = modPort (l / 16) (fun x => { x with state := 3, l1Sub := 0, recoveries := satInc x.recoveries })
      (modLane l (fun x => { x with cdrLock := true, elecIdle := false, frozen := false, relocks := satInc x.relocks }) s) := by
  simp only [leaveIdle, hactive, hidle, Bool.not_true, Bool.or_self, Bool.false_eq_true, if_false]
  exact modPort_congr (if_pos hstate)

/-- An active lane at 16 GT/s or more stops being margined (R496). -/
theorem marginLane_stops (hactive : (getLane l s).active = true) (hrate : 4 ≤ (getLane l s).rate.toNat) :
    marginLane l false s = emit (.margining (l / 16) (l % 16) [⟨0, 1, 32⟩, ⟨1, 1, 60⟩, ⟨2, 1, 16⟩])
      (modLane l (fun x => { x with margined := false }) s) := by
  simp only [marginLane, hactive, not_lt.2 hrate, Bool.not_true, decide_false, Bool.or_self, Bool.false_eq_true, if_false]

/-- An active lane at 16 GT/s or more that no eye scan uses is margined (R479, R496). -/
theorem marginLane_starts (hactive : (getLane l s).active = true) (hrate : 4 ≤ (getLane l s).rate.toNat)
    (hscan : s.link.scan.runLane.toNat ≠ l) :
    marginLane l true s = emit (.margining (l / 16) (l % 16) [⟨0, 1, 32⟩, ⟨1, 1, 60⟩, ⟨2, 1, 16⟩])
      (modLane l (fun x => { x with margined := true }) s) := by
  have hkept : endScanOn [l] 2 s = s := by
    simp only [endScanOn, List.contains_cons, List.contains_nil, Bool.or_false, beq_iff_eq, hscan, if_false]
  simp only [marginLane, hactive, not_lt.2 hrate, hkept, Bool.not_true, decide_false, Bool.or_self, Bool.false_eq_true, if_false, if_true]

end Links

end Sys2Proof.Machine

namespace Sys2Proof

open Sys2Proof.Machine

/-- Settles O44: each event takes the branch that the clause's premises select (log entries 114 and 115). -/
theorem linkEvents : Obligations.LinkEvents := by
  unfold Obligations.LinkEvents
  intro port lane s p l x
  refine ⟨?down, ?reset, ?resetEnds, ?clockLoss, ?clockLossNoLink, ?clockBack, ?trains, ?l0s, ?rxL0s, ?l1, ?reserved, ?wakes, ?unmargined,
    ?margined⟩
  case down =>
    intro hup
    exact ⟨congrArg answers (if_pos hup), congrArg answers (if_pos hup)⟩
  case reset => rfl
  case resetEnds => rfl
  case clockLoss =>
    intro hup hclock
    exact congrArg answers (portClockLoss_down hup hclock)
  case clockLossNoLink =>
    intro hdown
    exact congrArg answers (portClockLoss_noLink hdown)
  case clockBack => rfl
  case trains =>
    intro rate width n lanes hstage htest hperst hclock hdown hrate hwidth hadvertised
    have htrains := trainLink_trains n lanes port.isLt hstage htest hperst hclock hdown hrate hwidth hadvertised
    rw [BitVec.ofNat_toNat, BitVec.ofNat_toNat, BitVec.setWidth_eq, BitVec.setWidth_eq] at htrains
    exact congrArg answers htrains
  case l0s =>
    intro hup hstate hidle
    exact congrArg Host.Outcome.next (enterL0s_idles hup hstate hidle)
  case rxL0s =>
    intro hup hstate
    exact congrArg Host.Outcome.next (followL0s_idles hup hstate)
  case l1 =>
    intro sub hup hstate hidle hfree
    exact congrArg Host.Outcome.next (enterL1_idles sub.toNat hup hstate hidle hfree)
  case reserved =>
    intro _ hreserved sub
    exact congrArg Host.Outcome.next (enterL1_reserved sub.toNat hreserved)
  case wakes =>
    intro hactive hidle hstate _
    exact congrArg Host.Outcome.next (leaveIdle_wakes hactive hidle hstate)
  case unmargined =>
    intro hactive hrate
    exact congrArg Host.Outcome.next (marginLane_stops hactive hrate)
  case margined =>
    intro hactive hrate hscan
    have hlane : s.link.scan.runLane.toNat ≠ lane.toNat := fun h => hscan (BitVec.eq_of_toNat_eq h)
    exact congrArg Host.Outcome.next (marginLane_starts hactive hrate hlane)

end Sys2Proof
end

section
/-!
SUPPORT. Entries to and exits from the power states, branch by branch; O41.
-/

namespace Sys2Proof.Machine

section PowerStates

variable {s : State}

/-- An entry to a deeper state completes; from state 3 on the pairs stop, from state 5 on what a deep state needs is done first (R516-R520). -/
theorem entryDone_enters (hdeeper : s.pwr.state.toNat < s.pwr.target.toNat) (hsteady : s.pwr.exiting = none) :
    entryDone s = modPwr (fun p => { p with entries := p.entries + 1 }) (setPowerState s.pwr.target.toNat
      (if 3 ≤ s.pwr.target.toNat then stopPairs (if 5 ≤ s.pwr.target.toNat then enterDeep s else s)
        else if 5 ≤ s.pwr.target.toNat then enterDeep s else s)) := by
  simp only [entryDone, hsteady, not_le.2 hdeeper, Option.isSome_none, decide_false, Bool.or_self, Bool.false_eq_true, if_false]

/-- An exit starts its latency and its guard before the next known event (R521). -/
theorem exitStart_leads {t : Nat} (hevent : nextEvent s = some t) (hidle : s.pwr.state ≠ 1) (hsteady : s.pwr.exiting = none) :
    exitStart s = startExit (some t)
      (advanceToTime (t - (pwrExit s.pwr.state.toNat + pwrGuard s.pwr.state.toNat) * 2 ^ 64 / 10 ^ 9) s) := by
  have hstate : s.pwr.state.toNat ≠ 1 := fun h => hidle (BitVec.eq_of_toNat_eq h)
  simp only [exitStart, hevent, hstate, hsteady, Option.isSome_none, decide_false, Bool.or_self, Bool.false_eq_true, if_false]

/-- The block as a completed exit leaves it, before it tells of a late one. -/
def exitLeaves (s : State) : State :=
  modPwr (fun p => { p with exiting := none }) (setPowerState 1 (if 5 ≤ s.pwr.state.toNat then loseRings s else s))

/-- An exit that serves no event completes (R466, R522). -/
theorem exitDone_unserved {e : PwrExit} (hexit : s.pwr.exiting = some e) (hready : pairsReady s = true) (hserves : e.serves = none) :
    exitDone s = exitLeaves s := by
  simp only [exitDone, hexit, hready, hserves, Bool.not_true, Bool.false_eq_true, if_false]
  rfl

/-- An exit that completes after its event is counted and reported (R525). -/
theorem exitDone_served {e : PwrExit} {t : Nat} (hexit : s.pwr.exiting = some e) (hready : pairsReady s = true) (hserves : e.serves = some t) :
    exitDone s =
      if t < now (exitLeaves s) then sendAdmin 0x0134 s.pwr.state.toNat ((now (exitLeaves s) - t) * 10 ^ 6 / 2 ^ 64) 0 0
        (modPwr (fun p => { p with late := satInc p.late }) (exitLeaves s))
      else exitLeaves s := by
  simp only [exitDone, hexit, hready, hserves, Bool.not_true, Bool.false_eq_true, if_false]
  rfl

/-- An exit from a state above 5 has its rings to come back to (R529). -/
theorem exitLeaves_shallow (hshallow : s.pwr.state.toNat < 5) :
    exitLeaves s = modPwr (fun p => { p with exiting := none }) (setPowerState 1 s) := by
  rw [exitLeaves, if_neg (not_le.2 hshallow)]

/-- An exit from state 5 or below finds its rings lost (R529). -/
theorem exitLeaves_deep (hdeep : 5 ≤ s.pwr.state.toNat) :
    exitLeaves s = modPwr (fun p => { p with exiting := none }) (setPowerState 1 (loseRings s)) := by
  rw [exitLeaves, if_pos hdeep]

end PowerStates

end Sys2Proof.Machine

namespace Sys2Proof

open Sys2Proof.Machine

/-- Settles O41: an entry by the depth of its target, an exit by the depth that it leaves and the event that it serves. -/
theorem powerStateEvents : Obligations.PowerStateEvents := by
  unfold Obligations.PowerStateEvents
  intro s
  refine ⟨?shallow, ?stops, ?deep, ?starts, ?unserved, ?served, ?ringsLost⟩
  case shallow =>
    intro hdeeper hsteady hthree
    have henters := entryDone_enters hdeeper hsteady
    rw [if_neg (not_le.2 hthree), if_neg (show ¬ 5 ≤ s.pwr.target.toNat by omega)] at henters
    exact congrArg answers henters
  case stops =>
    intro hdeeper hsteady hthree hfive
    have henters := entryDone_enters hdeeper hsteady
    rw [if_pos hthree, if_neg (not_le.2 hfive)] at henters
    exact congrArg answers henters
  case deep =>
    intro hdeeper hsteady hfive
    have henters := entryDone_enters hdeeper hsteady
    rw [if_pos (show 3 ≤ s.pwr.target.toNat by omega), if_pos hfive] at henters
    exact congrArg answers henters
  case starts =>
    intro t hevent hidle hsteady lead
    exact congrArg answers (exitStart_leads hevent hidle hsteady)
  case unserved =>
    intro e hexit hready hserves hshallow
    exact congrArg answers ((exitDone_unserved hexit hready hserves).trans (exitLeaves_shallow hshallow))
  case served =>
    intro e t hexit hready hserves hshallow u
    have hserved := exitDone_served hexit hready hserves
    rw [exitLeaves_shallow hshallow] at hserved
    exact congrArg answers hserved
  case ringsLost =>
    intro e hexit hready hserves hdeep
    exact congrArg answers ((exitDone_unserved hexit hready hserves).trans (exitLeaves_deep hdeep))

end Sys2Proof
end

section
/-!
SUPPORT. What Hedge answers a request with, branch by branch; O40.
-/

namespace Sys2Proof.Machine

section HedgeRequest

variable {fn code arg : Nat} {s : State} {r : FnRegs}

/-- What a function reads of its request: state and reason, and one answer more (R512). -/
def showAnswer (fn st reason : Nat) : State → State :=
  modFn fn fun r => { r with hedgeState := BitVec.ofNat 2 st, hedgeReason := BitVec.ofNat 4 reason, hedgeSeq := r.hedgeSeq + 1 }

/-- A request of codes 1 to 4 is refused with a reason or granted (R511). -/
theorem hedgeRequest_answers (hfn : getFn fn s = some r) (hlow : code ≠ 0) (hhigh : code ≤ 4) :
    hedgeRequest fn code arg s =
      match requestRefusal fn code arg s with
      | some why => showAnswer fn 3 why s
      | none => granted code arg (showAnswer fn 2 0 s) := by
  simp only [hedgeRequest, hfn, hlow, not_lt.2 hhigh, Option.isNone_some, decide_false, Bool.or_self, Bool.false_eq_true, if_false]
  rfl

/-- A refused request shows its reason alone (R512). -/
theorem hedgeRequest_refused {why : Nat} (hfn : getFn fn s = some r) (hlow : code ≠ 0) (hhigh : code ≤ 4)
    (hwhy : requestRefusal fn code arg s = some why) : hedgeRequest fn code arg s = showAnswer fn 3 why s := by
  rw [hedgeRequest_answers hfn hlow hhigh, hwhy]

/-- A granted request is shown and takes effect (R511). -/
theorem hedgeRequest_granted (hfn : getFn fn s = some r) (hlow : code ≠ 0) (hhigh : code ≤ 4)
    (hnone : requestRefusal fn code arg s = none) : hedgeRequest fn code arg s = granted code arg (showAnswer fn 2 0 s) := by
  rw [hedgeRequest_answers hfn hlow hhigh, hnone]

/-- A function that the mailbox does not allow is refused with reason 1 (R511). -/
theorem requestRefusal_notAllowed (hallow : requestAllowed fn code s = false) : requestRefusal fn code arg s = some 1 := by
  simp only [requestRefusal, hallow, Bool.not_false, if_true]

/-- ATTEN needs an input to attenuate (R511). -/
theorem requestRefusal_attenNone (hallow : requestAllowed fn 1 s = true) : requestRefusal fn 1 0 s = some 3 := by
  simp [requestRefusal, hallow]

/-- ATTEN with an input is granted (R511). -/
theorem requestRefusal_atten (hallow : requestAllowed fn 1 s = true) (harg : arg ≠ 0) : requestRefusal fn 1 arg s = none := by
  simp [requestRefusal, hallow, harg]

/-- FAULT_CLEAR is granted once no rail is out of its window (R511). -/
theorem requestRefusal_faultClear (hallow : requestAllowed fn 2 s = true) (hrails : s.hedge.railsOut = []) :
    requestRefusal fn 2 0 s = none := by
  simp [requestRefusal, hallow, hrails]

/-- FAULT_CLEAR is refused with reason 2 while a rail is out of its window (R511). -/
theorem requestRefusal_railsOut (hallow : requestAllowed fn 2 s = true) (hrails : s.hedge.railsOut ≠ []) :
    requestRefusal fn 2 0 s = some 2 := by
  simp [requestRefusal, hallow, hrails]

/-- MP_RESET is granted while the MP runs (R511). -/
theorem requestRefusal_mpReset (hallow : requestAllowed fn 3 s = true) (hup : s.pwr.mpUp = true) : requestRefusal fn 3 0 s = none := by
  simp [requestRefusal, hallow, hup]

/-- WARM_RESTART is granted once the block has started (R511). -/
theorem requestRefusal_warmRestart (hallow : requestAllowed fn 4 s = true) (hstage : s.host.stage = 7) :
    requestRefusal fn 4 0 s = none := by
  simp [requestRefusal, hallow, hstage]

/-- WARM_RESTART is refused with reason 4 while Primer runs (log entry 167). -/
theorem requestRefusal_starting (hallow : requestAllowed fn 4 s = true) (hstage : s.host.stage ≠ 7) :
    requestRefusal fn 4 0 s = some 4 := by
  simpa [requestRefusal, hallow] using hstage

end HedgeRequest

end Sys2Proof.Machine

namespace Sys2Proof

open Sys2Proof.Machine

/-- Settles O40: each request by the refusal that it meets, and by what it names where it meets none (log entries 167 and 168). -/
theorem hedgeRequests : Obligations.HedgeRequests := by
  unfold Obligations.HedgeRequests
  intro fn arg s r hfn shown
  refine ⟨?atten, ?notAllowed, ?noInput, ?faultClear, ?railsOut, ?mpReset, ?restart, ?starting⟩
  case atten =>
    intro hallow harg
    have hcode : arg.toNat ≠ 0 := fun h => harg (BitVec.eq_of_toNat_eq h)
    have hgranted := hedgeRequest_granted hfn (by decide) (by decide) (requestRefusal_atten hallow hcode)
    have hinputs : bit arg.toNat = fun k => arg.getLsbD k := funext fun k => bit_toNat arg k
    rw [granted, hinputs] at hgranted
    exact congrArg Host.Outcome.next hgranted
  case notAllowed =>
    intro hallow
    exact congrArg Host.Outcome.next (hedgeRequest_refused hfn (by decide) (by decide) (requestRefusal_notAllowed hallow))
  case noInput =>
    rintro hallow rfl
    exact congrArg Host.Outcome.next (hedgeRequest_refused hfn (by decide) (by decide) (requestRefusal_attenNone hallow))
  case faultClear =>
    rintro hallow rfl hrails
    exact congrArg Host.Outcome.next (hedgeRequest_granted hfn (by decide) (by decide) (requestRefusal_faultClear hallow hrails))
  case railsOut =>
    rintro hallow rfl hrails
    exact congrArg Host.Outcome.next (hedgeRequest_refused hfn (by decide) (by decide) (requestRefusal_railsOut hallow hrails))
  case mpReset =>
    rintro hallow rfl hup
    exact congrArg Host.Outcome.next (hedgeRequest_granted hfn (by decide) (by decide) (requestRefusal_mpReset hallow hup))
  case restart =>
    rintro hallow rfl hstage
    exact congrArg Host.Outcome.next (hedgeRequest_granted hfn (by decide) (by decide) (requestRefusal_warmRestart hallow hstage))
  case starting =>
    rintro hallow rfl hstage
    exact congrArg Host.Outcome.next (hedgeRequest_refused hfn (by decide) (by decide) (requestRefusal_starting hallow hstage))

end Sys2Proof
end

section
/-!
SUPPORT. The SPDM responder: what reaches it, and what each request that does is answered with; O46 and O47.
-/

namespace Sys2Proof.Machine

section Responder

variable {p n id : Nat} {s : State} {f : State → State}

/-- A request over a link that is up reaches the responder. -/
theorem spdmReach_up (hup : (getPort p s).linkUp = true) : spdmReach p f s = f s := if_pos hup

/-- A request that the negotiation has reached is answered (R494). -/
theorem spdmAfter_reached (hup : (getPort p s).linkUp = true) (hstage : n ≤ negoStage p s) : spdmAfter p n f s = f s :=
  (spdmReach_up hup).trans (if_neg (not_lt.2 hstage))

/-- A request that the negotiation has not reached is answered with an error (log entry 170). -/
theorem spdmAfter_unreached (hup : (getPort p s).linkUp = true) (hstage : negoStage p s < n) :
    spdmAfter p n f s = emit (.spdm p 0x7F [⟨0, 1, 0x04⟩]) s :=
  (spdmReach_up hup).trans (if_pos hstage)

/-- A request that needs keys gives the same error before the negotiation has ended (log entry 170). -/
theorem spdmKeyed_unreached (hup : (getPort p s).linkUp = true) (hstage : negoStage p s < 3) :
    spdmKeyed p f s = emit (.spdm p 0x7F [⟨0, 1, 0x04⟩]) s := by
  rw [spdmKeyed, spdmAfter_unreached hup hstage]

/-- Debug unlocked, the responder has no keys to answer with (R491). -/
theorem spdmKeyed_debug (hup : (getPort p s).linkUp = true) (hstage : 3 ≤ negoStage p s) (hdebug : s.trust.debug = true) :
    spdmKeyed p f s = emit (.spdm p 0x7F [⟨0, 1, 0x07⟩]) s := by
  rw [spdmKeyed, spdmAfter_reached hup hstage, hdebug, Bool.true_or, if_pos rfl]
  rfl

/-- With its keys, the responder answers a request that needs them (R491). -/
theorem spdmKeyed_keys (hup : (getPort p s).linkUp = true) (hstage : 3 ≤ negoStage p s) (hdebug : s.trust.debug = false)
    (hkeys : s.trust.keysValid = true) : spdmKeyed p f s = f s := by
  rw [spdmKeyed, spdmAfter_reached hup hstage, hdebug, hkeys, Bool.not_true, Bool.or_self, if_neg Bool.false_ne_true]

/-- A portion of the certificate chain; an offset past its end gives an error (R490; log entry 170). -/
theorem getCertificate_portion (off len : Nat) (hup : (getPort p s).linkUp = true) (hstage : 3 ≤ negoStage p s)
    (hdebug : s.trust.debug = false) (hkeys : s.trust.keysValid = true) :
    getCertificate p 0 off len s =
      let chain := Config.certChain s.trust.certs
      let part := (chain.drop off).take len
      emit (if chain.length ≤ off ∧ off ≠ 0 then .spdm p 0x7F [⟨0, 1, 0x01⟩] else
        .spdm p 0x02 [⟨0, 1, 0⟩, ⟨1, 2, part.length⟩, ⟨3, 2, chain.length - (off + part.length)⟩, ⟨5, part.length, leNat part⟩]) s := by
  rw [getCertificate, spdmKeyed_keys hup hstage hdebug hkeys]
  by_cases hpast : (Config.certChain s.trust.certs).length ≤ off ∧ off ≠ 0
  · simp only [hpast, ne_eq, not_true_eq_false, not_false_eq_true, and_self, decide_false, decide_true, Bool.and_self, Bool.or_true, if_true]
    rfl
  · have hinside : (decide ((Config.certChain s.trust.certs).length ≤ off) && decide (off ≠ 0)) = false := by
      rw [← Bool.decide_and, decide_eq_false hpast]
    simp only [hpast, hinside, ne_eq, not_true_eq_false, decide_false, Bool.or_self, Bool.false_eq_true, if_false]
    rfl

/-- The measurements of an index that has some, signed (R495; log entry 129). -/
theorem getMeasurements_signed {op : Nat} (request : List Byte) (hup : (getPort p s).linkUp = true) (hstage : 3 ≤ negoStage p s)
    (hdebug : s.trust.debug = false) (hkeys : s.trust.keysValid = true)
    (hsome : (measurements s).filter (fun m => decide (m.1 = op)) ≠ []) (hop : op ≠ 0xFF) :
    getMeasurements p op true request s =
      let blocks := (((measurements s).filter fun m => decide (m.1 = op)).map fun m => Config.measForm m.1 m.2).flatten
      emit (.spdm p 0x60 [⟨0, 1, 7⟩, ⟨1, 3, blocks.length⟩, ⟨4, blocks.length, leNat blocks⟩
        , ⟨4 + blocks.length, 96, spdmSign 0x60 request s⟩]) s := by
  rw [getMeasurements, spdmAfter_reached hup hstage]
  simp only [hdebug, hkeys, if_neg hop, List.isEmpty_eq_false_iff.2 hsome, Bool.not_true, Bool.or_self, Bool.and_false, Bool.false_and,
    Bool.false_eq_true, if_false, if_true]
  rfl

/-- A new session of a port that has fewer than four, with an identifier that no session has (R494). -/
theorem keyExchange_opens (request : List Byte) (hup : (getPort p s).linkUp = true) (hstage : 3 ≤ negoStage p s)
    (hdebug : s.trust.debug = false) (hkeys : s.trust.keysValid = true)
    (hroom : (s.trust.sessions.filter fun x => decide (x.port = p)).length < 4) (hid : id ≠ 0) (hnew : ∀ x ∈ s.trust.sessions, x.id ≠ id) :
    keyExchange p id request s =
      emit (.spdm p 0x64 [⟨0, 2, id / 65536⟩, ⟨2, 96, spdmSign 0x64 request s⟩]) (modTrust (fun t => { t with sessions := t.sessions ++
        [{ port := p, id := id, secret := BitVec.ofNat 384 (Config.spdmValue 1 (request ++ leBytes 4 id)).toNat, finished := false, keyGen := 0 }] }) s) := by
  have hunused : (s.trust.sessions.any fun x => decide (x.id = id)) = false :=
    List.any_eq_false.2 fun x hx => by simpa using hnew x hx
  rw [keyExchange, spdmKeyed_keys hup hstage hdebug hkeys]
  simp only [not_le.2 hroom, hid, hunused, decide_false, Bool.or_self, Bool.false_eq_true, if_false]
  rfl

end Responder

section Sessions

variable {p id : Nat} {s : State} {x : Session}

/-- A request on a session that the port has is answered for that session (R494). -/
theorem onSession_found {f : Session → State → State} (hup : (getPort p s).linkUp = true) (hstage : 3 ≤ negoStage p s)
    (hfind : findSession p id s = some x) : onSession p id f s = f x s := by
  rw [onSession, spdmAfter_reached hup hstage, hfind]

/-- A session that FINISH has completed answers (R494). -/
theorem onFinished_finished {f : State → State} (hup : (getPort p s).linkUp = true) (hstage : 3 ≤ negoStage p s)
    (hfind : findSession p id s = some x) (hfinished : x.finished = true) : onFinished p id f s = f s :=
  (onSession_found hup hstage hfind).trans (if_pos hfinished)

/-- A session that FINISH has not completed answers with an error (log entry 170). -/
theorem onFinished_unfinished {f : State → State} (hup : (getPort p s).linkUp = true) (hstage : 3 ≤ negoStage p s)
    (hfind : findSession p id s = some x) (hopen : x.finished = false) :
    onFinished p id f s = emit (.spdm p 0x7F [⟨0, 1, 0x04⟩]) s :=
  (onSession_found hup hstage hfind).trans (if_neg (ne_true_of_eq_false hopen))

/-- FINISH completes its session, or ends it where the proof is wrong (log entry 171). -/
theorem finishSession_open (valid : Bool) (hup : (getPort p s).linkUp = true) (hstage : 3 ≤ negoStage p s)
    (hfind : findSession p id s = some x) (hopen : x.finished = false) :
    finishSession p id valid s =
      if valid then emit (.spdm p 0x65 []) (modSession p id (fun x => { x with finished := true }) s)
      else emit (.spdm p 0x7F [⟨0, 1, 0x06⟩]) (endSession p id s) :=
  (onSession_found hup hstage hfind).trans (if_neg (ne_true_of_eq_false hopen))

/-- KEY_UPDATE's operations 1 and 2 give the session new keys (R494). -/
theorem keyUpdate_renews {op : Nat} (hup : (getPort p s).linkUp = true) (hstage : 3 ≤ negoStage p s)
    (hfind : findSession p id s = some x) (hfinished : x.finished = true) (hop : op = 1 ∨ op = 2) :
    keyUpdate p id op s = emit (.spdm p 0x69 [⟨0, 1, op⟩]) (modSession p id (fun x => { x with keyGen := x.keyGen + 1 }) s) := by
  rw [keyUpdate, onFinished_finished hup hstage hfind hfinished]
  rcases hop with rfl | rfl <;> rfl

/-- IDE_KM programs the key of a stream of the port (R496). -/
theorem ideKm_programs {stream : Nat} (hup : (getPort p s).linkUp = true) (hstage : 3 ≤ negoStage p s)
    (hfind : findSession p id s = some x) (hfinished : x.finished = true) (hstream : stream ≤ 4) :
    ideKm p id stream 1 s =
      emit (.spdm p 0x7E [⟨0, 1, 1⟩, ⟨1, 1, stream⟩]) (modIde p stream (fun x => { x with keySet := true }) s) := by
  rw [ideKm, onFinished_finished hup hstage hfind hfinished]
  simp only [not_lt.2 hstream, decide_false, OfNat.one_ne_ofNat, one_ne_zero, Nat.not_ofNat_lt_one, Bool.false_and, Bool.or_self,
    Bool.false_eq_true, if_false]
  rfl

/-- A stream without a key does not become secure (R496). -/
theorem ideKm_unkeyed {stream : Nat} (hup : (getPort p s).linkUp = true) (hstage : 3 ≤ negoStage p s)
    (hfind : findSession p id s = some x) (hfinished : x.finished = true)
    (hunkeyed : ∀ y ∈ s.trust.ide, y.port = p → y.id = stream → y.keySet = false) :
    ideKm p id stream 2 s = emit (.spdm p 0x7F [⟨0, 1, 0x01⟩]) s := by
  have hnone : (s.trust.ide.any fun y => decide (y.port = p) && decide (y.id = stream) && y.keySet) = false := by
    rw [List.any_eq_false]
    intro y hy hkeyed
    simp only [Bool.and_eq_true, decide_eq_true_eq] at hkeyed
    obtain ⟨⟨hport, hid⟩, hset⟩ := hkeyed
    exact absurd hset (ne_true_of_eq_false (hunkeyed y hy hport hid))
  rw [ideKm, onFinished_finished hup hstage hfind hfinished]
  simp only [hnone, decide_true, Bool.not_false, Bool.and_self, Bool.or_true, if_true]
  rfl

end Sessions

section Ide

variable {p stream : Nat} {s : State}

/-- No secure stream of that name, so no TLP of it fails (log entry 6). -/
theorem ideFails_none (hnone : ∀ x ∈ s.trust.ide, x.port = p → x.id = stream → x.secure = false) : ideFails p stream s = s := by
  have hany : (s.trust.ide.any fun x => decide (x.port = p) && decide (x.id = stream) && x.secure) = false := by
    rw [List.any_eq_false]
    intro x hx hsecure
    simp only [Bool.and_eq_true, decide_eq_true_eq] at hsecure
    obtain ⟨⟨hport, hid⟩, hset⟩ := hsecure
    exact absurd hset (ne_true_of_eq_false (hnone x hx hport hid))
  rw [ideFails, hany, if_neg Bool.false_ne_true]

/-- A secure stream whose TLP fails is counted and secure no more (R496). -/
theorem ideFails_insecure {x : IdeStream} (hx : x ∈ s.trust.ide) (hport : x.port = p) (hid : x.id = stream) (hsecure : x.secure = true)
    (hctx : getCtx 0 s = none) :
    ideFails p stream s = modIde p stream (fun x => { x with secure := false }) (modTrust (fun t => { t with ideFails := satInc t.ideFails }) s) := by
  have hany : (s.trust.ide.any fun x => decide (x.port = p) && decide (x.id = stream) && x.secure) = true :=
    List.any_eq_true.2 ⟨x, hx, by simp [hport, hid, hsecure]⟩
  have hkept : getCtx 0 (modIde p stream (fun x => { x with secure := false }) (modTrust (fun t => { t with ideFails := satInc t.ideFails }) s)) = none :=
    hctx
  simp only [ideFails, hany, hkept, if_true]

end Ide

section Token

variable {s : State}

/-- The block with a new nonce for debug tokens. -/
def renewNonce (s : State) : State := modTrust (fun t => { t with dbgNonce := Config.freeValue 128 s.fresh }) { s with fresh := s.fresh + 1 }

/-- A token through JTAG unlocks debug where it is for this device and this nonce and verifies; otherwise the nonce is renewed (R491). -/
theorem debugToken_jtag (devId : BitVec 384) (nonce : BitVec 128) (sig : List Byte) (hstage : 3 ≤ s.host.stage.toNat) :
    debugToken none devId nonce sig s =
      if decide (devId = s.trust.devId) && decide (nonce = s.trust.dbgNonce) && Config.debugVerify devId nonce sig then
        warmRestart (modTrust (fun t => { t with keysValid := false, udsBlocked := true, sessions := [], ide := [] }) s)
      else renewNonce s := by
  simp only [debugToken, not_lt.2 hstage, Bool.not_true, decide_false, Bool.or_self, Bool.false_eq_true, if_false]
  rfl

/-- Before stage 3 a token changes nothing (log entry 6). -/
theorem debugToken_early (port : Option Nat) (devId : BitVec 384) (nonce : BitVec 128) (sig : List Byte) (hstage : s.host.stage.toNat < 3) :
    debugToken port devId nonce sig s = s := by
  simp only [debugToken, hstage, decide_true, Bool.or_true, if_true]

end Token

end Sys2Proof.Machine

namespace Sys2Proof

open Sys2Proof.Machine

/-- Settles O46: each request by how far the negotiation has come and by the keys that it needs (log entries 129 and 170). -/
theorem attestationRequests : Obligations.AttestationRequests := by
  unfold Obligations.AttestationRequests
  intro port s p hup
  refine ⟨?version, ?capabilities, ?algorithms, ?unreached, ?debug, ?keyed⟩
  case version => exact congrArg Host.Outcome.next (spdmReach_up hup)
  case capabilities =>
    intro hstage
    exact congrArg Host.Outcome.next (spdmAfter_reached hup hstage)
  case algorithms =>
    intro hstage
    exact ⟨congrArg Host.Outcome.next (spdmAfter_reached hup hstage), congrArg Host.Outcome.next (spdmAfter_reached hup hstage)⟩
  case unreached =>
    intro hzero
    have hbefore {n : Nat} (hn : 0 < n) : negoStage p s < n := hzero ▸ hn
    exact ⟨congrArg Host.Outcome.next (spdmAfter_unreached hup (hbefore (Nat.succ_pos 0))),
      congrArg Host.Outcome.next (spdmAfter_unreached hup (hbefore (Nat.succ_pos 1))),
      congrArg Host.Outcome.next (spdmKeyed_unreached hup (hbefore (Nat.succ_pos 2)))⟩
  case debug =>
    intro hstage hdebug
    exact congrArg Host.Outcome.next (spdmKeyed_debug hup hstage hdebug)
  case keyed =>
    intro hstage hdebug hkeys chain
    refine ⟨?digests, ?certificate, ?challenge, ?measurements, ?exchange⟩
    case digests => exact congrArg Host.Outcome.next (spdmKeyed_keys hup hstage hdebug hkeys)
    case certificate =>
      intro off len
      have hzero : off ≠ 0 ↔ off.toNat ≠ 0 := not_congr ⟨fun h => congrArg BitVec.toNat h, fun h => BitVec.eq_of_toNat_eq h⟩
      simp only [hzero]
      exact congrArg Host.Outcome.next (getCertificate_portion off.toNat len.toNat hup hstage hdebug hkeys)
    case challenge =>
      intro r
      exact congrArg Host.Outcome.next (spdmKeyed_keys hup hstage hdebug hkeys)
    case measurements =>
      intro op r hsome hop blocks
      have hall : op.toNat ≠ 0xFF := fun h => hop (BitVec.eq_of_toNat_eq h)
      exact congrArg Host.Outcome.next (getMeasurements_signed r hup hstage hdebug hkeys hsome hall)
    case exchange =>
      intro id r hroom hid hnew
      exact ⟨_, congrArg Host.Outcome.next (keyExchange_opens r hup hstage hdebug hkeys hroom hid hnew)⟩

/-- Settles O47: a session by its state, a stream by its key and its security, a token by what it names (log entries 6, 170 and 171). -/
theorem sessionsAndTrustEvents : Obligations.SessionsAndTrustEvents := by
  unfold Obligations.SessionsAndTrustEvents
  refine ⟨?session, ?insecure, ?fails, ?token, ?otherNonce, ?early⟩
  case session =>
    intro port id x s p hup hstage hfind
    refine ⟨?finishes, ?refused, ?beats, ?unfinished, ?renews, ?ends, ?programs, ?unkeyed⟩
    case finishes =>
      intro hopen
      exact congrArg Host.Outcome.next (finishSession_open true hup hstage hfind hopen)
    case refused =>
      intro hopen
      exact congrArg Host.Outcome.next (finishSession_open false hup hstage hfind hopen)
    case beats =>
      intro hfinished
      exact congrArg Host.Outcome.next (onFinished_finished hup hstage hfind hfinished)
    case unfinished =>
      intro hopen
      exact congrArg Host.Outcome.next (onFinished_unfinished hup hstage hfind hopen)
    case renews =>
      intro op hfinished hop
      have hcode : op.toNat = 1 ∨ op.toNat = 2 := hop.imp (congrArg BitVec.toNat) (congrArg BitVec.toNat)
      exact congrArg Host.Outcome.next (keyUpdate_renews hup hstage hfind hfinished hcode)
    case ends =>
      intro hfinished
      exact congrArg Host.Outcome.next (onFinished_finished hup hstage hfind hfinished)
    case programs =>
      intro stream hfinished hstream
      exact congrArg Host.Outcome.next (ideKm_programs hup hstage hfind hfinished hstream)
    case unkeyed =>
      intro stream hfinished _ hunkeyed
      exact congrArg Host.Outcome.next (ideKm_unkeyed hup hstage hfind hfinished hunkeyed)
  case insecure =>
    intro port stream s hnone
    exact congrArg Host.Outcome.next (ideFails_none hnone)
  case fails =>
    intro port stream s x hx hport hid hsecure hctx
    exact congrArg Host.Outcome.next (ideFails_insecure hx hport hid hsecure hctx)
  case token =>
    intro s sig hstage
    have htoken := debugToken_jtag s.trust.devId s.trust.dbgNonce sig hstage
    rw [decide_eq_true rfl, decide_eq_true rfl, Bool.and_self, Bool.true_and] at htoken
    exact ⟨_, congrArg Host.Outcome.next htoken⟩
  case otherNonce =>
    intro s dev nonce sig hstage hnonce
    have htoken := debugToken_jtag dev nonce sig hstage
    rw [decide_eq_false hnonce, Bool.and_false, Bool.false_and, if_neg Bool.false_ne_true] at htoken
    exact ⟨_, congrArg Host.Outcome.next htoken⟩
  case early =>
    intro port s dev nonce sig hstage
    exact congrArg Host.Outcome.next (debugToken_early _ dev nonce sig hstage)

end Sys2Proof
end

section
/-!
SUPPORT. What a reset of the Main domain leaves of Hedge, of the device's part and of the SPUs' record; O39 and O43.
-/

namespace Sys2Proof.Machine

/-! ### What telling of a freeze leaves as it was -/

/-- What a reset of the Main domain leaves alone, and no event changes: Hedge, and the device's part. -/
def hedgePart (s : State) : Hedge × BitVec 16 := (s.hedge, s.host.part)

theorem hedgePart_journal (kind : Nat) (body : List Fld) (bytes : Nat) (s : State) : hedgePart (journal kind body bytes s) = hedgePart s := by
  unfold journal
  dsimp only
  repeat' split
  all_goals rfl

theorem hedgePart_signalVector (f v : Nat) (s : State) : hedgePart (signalVector f v s) = hedgePart s := by
  unfold signalVector
  repeat' split
  all_goals rfl

theorem hedgePart_signalRing (due : Bool → Bool → Nat → Nat → Nat → Bool) (c : Nat) (sel : RingSel) (s : State) :
    hedgePart (signalRing due c sel s) = hedgePart s := by
  have hsignal (x : Ctx) (v : Nat) (f : State → State) (hf : hedgePart (f s) = hedgePart s) (p : Bool) :
      hedgePart (if p then signalVector x.fn v (f s) else s) = hedgePart s := by
    split
    · exact (hedgePart_signalVector _ _ _).trans hf
    · rfl
  unfold signalRing
  split
  case h_1 => rfl
  case h_2 x _ =>
    cases sel with
    | cpl => exact hsignal x _ (modCtx c fun x => { x with cpl := x.cpl.disarm }) rfl _
    | evt => exact hsignal x _ (modCtx c fun x => { x with evt := x.evt.disarm }) rfl _
    | data k =>
      dsimp only
      split
      · rfl
      · exact hsignal x _ (modRing c k DataRing.disarm) rfl _

theorem hedgePart_writeEvt (c : Nat) (e : Evt) (s : State) : hedgePart (writeEvt c e s) = hedgePart s := by
  unfold writeEvt
  split
  · rfl
  · exact hedgePart_signalRing signalsNow c .evt _

theorem hedgePart_sendEvent (c code subject detail detail2 detail3 : Nat) (s : State) :
    hedgePart (sendEvent c code subject detail detail2 detail3 s) = hedgePart s := by
  unfold sendEvent
  split
  · rfl
  · split
    · exact hedgePart_writeEvt c _ s
    · rfl

/-- Telling several contexts of one thing leaves Hedge and the part as they were. -/
theorem hedgePart_sendEvents (cs : List Nat) (code subject detail detail2 detail3 : Nat) (s : State) :
    hedgePart (cs.foldl (fun s c => sendEvent c code subject detail detail2 detail3 s) s) = hedgePart s :=
  foldl_invariant (g := hedgePart) (fun s c => hedgePart_sendEvent c code subject detail detail2 detail3 s) cs s

theorem hedgePart_freezeRecorder (cause : Nat) (s : State) : hedgePart (freezeRecorder cause s) = hedgePart s := by
  unfold freezeRecorder
  split
  · rfl
  · exact hedgePart_sendEvent 0 0x0132 cause _ 0 0 _

theorem hedgePart_modFr (f : Recorder → Recorder) (s : State) : hedgePart (modFr f s) = hedgePart s := rfl

theorem hedgePart_modDram (f : Dram → Dram) (s : State) : hedgePart (modDram f s) = hedgePart s := rfl

theorem hedgePart_dramLog (kind consumer : Nat) (addr : Option Nat) (channel symbol count : Nat) (s : State) :
    hedgePart (dramLog kind consumer addr channel symbol count s) = hedgePart s := by
  unfold dramLog
  rw [hedgePart_journal, hedgePart_modDram]

theorem hedgePart_dramUncorrectable (consumer : Nat) (owner : Option Nat) (addr bytes : Nat) (s : State) :
    hedgePart (dramUncorrectable consumer owner addr bytes s) = hedgePart s := by
  unfold dramUncorrectable
  dsimp only
  rw [hedgePart_freezeRecorder, hedgePart_sendEvents, hedgePart_dramLog]
  rfl

theorem hedgePart_consolidatePair (n : Nat) (s : State) : hedgePart (consolidatePair n s) = hedgePart s := by
  unfold consolidatePair
  split
  · rfl
  · exact (hedgePart_modFr _ _).trans (foldl_invariant (fun s a => hedgePart_dramUncorrectable 11 none (a * 128) 128 s) _ s)

theorem hedgePart_consolidate (s : State) : hedgePart (consolidate s) = hedgePart s := by
  unfold consolidate
  split
  · rfl
  · exact (hedgePart_modFr _ _).trans (foldl_invariant (fun s n => hedgePart_consolidatePair n s) _ s)

theorem hedgePart_trigoutFall (tick : Nat) (s : State) : hedgePart (trigoutFall tick s) = hedgePart s := by
  unfold trigoutFall
  split <;> rfl

theorem hedgePart_ppsOutLow (tick : Nat) (s : State) : hedgePart (ppsOutLow tick s) = hedgePart s := by
  unfold ppsOutLow
  split <;> rfl

/-! ### The Main domain before and after its reset -/

/-- The block whose Main domain is about to be reset: its pins are low, and before an orderly reset its recorder is frozen (R533). -/
def haltMain (orderly : Bool) (cause : Nat) (s : State) : State :=
  let t := ppsOutLow (nowTick s) (trigoutFall (nowTick s) s)
  if orderly && decide (5 < t.host.stage.toNat) then consolidate (freezeRecorder cause t) else t

/-- Before an orderly reset availability and ageing are written to the NOR (R533, R541). -/
def storeMain (orderly : Bool) (s : State) : State := if orderly && decide (s.host.stage ≠ 0) then saveAvail s else s

theorem hedgePart_haltMain (orderly : Bool) (cause : Nat) (s : State) : hedgePart (haltMain orderly cause s) = hedgePart s := by
  have hpins : hedgePart (ppsOutLow (nowTick s) (trigoutFall (nowTick s) s)) = hedgePart s :=
    (hedgePart_ppsOutLow _ _).trans (hedgePart_trigoutFall _ s)
  unfold haltMain
  dsimp only
  split
  · exact (hedgePart_consolidate _).trans ((hedgePart_freezeRecorder cause _).trans hpins)
  · exact hpins

theorem haltMain_spu (orderly : Bool) (cause : Nat) (s : State) : (haltMain orderly cause s).spu = s.spu := by
  have hpins : (ppsOutLow (nowTick s) (trigoutFall (nowTick s) s)).spu = s.spu := by
    unfold ppsOutLow trigoutFall
    repeat' split
    all_goals rfl
  unfold haltMain
  dsimp only
  split
  · rw [consolidate_spu, freezeRecorder_spu, hpins]
  · exact hpins

/-- What a start after a reset needs, and what outlives the reset (R530, R533). -/
structure ResetKeeps (s t : State) : Prop where
  mayStart : mayStart t = mayStart s
  cold : t.hedge.cold = s.hedge.cold
  thermalTrips : t.hedge.thermalTrips = s.hedge.thermalTrips
  part : t.host.part = s.host.part
  record : t.spu.record = s.spu.record

theorem ResetKeeps.of_hedgePart {s t : State} (h : hedgePart t = hedgePart s) (hspu : t.spu = s.spu) : ResetKeeps s t := by
  obtain ⟨hhedge, hpart⟩ := Prod.mk.inj h
  constructor
  · unfold Machine.mayStart
    rw [hhedge]
  · rw [hhedge]
  · rw [hhedge]
  · exact hpart
  · rw [hspu]

theorem ResetKeeps.storeMain {s t : State} (orderly : Bool) (h : ResetKeeps s t) : ResetKeeps s (storeMain orderly t) := by
  unfold Machine.storeMain
  split
  · exact ⟨h.mayStart, h.cold, h.thermalTrips, h.part, h.record⟩
  · exact h

/-- A reset of the Main domain leaves alone what the next start needs, the part and the SPUs' record (R533; log entry 235). -/
theorem resetMain_keeps (orderly : Bool) (cause : Nat) (keepTime : Bool) (s : State) : ResetKeeps s (resetMain orderly cause keepTime s) := by
  have h : ResetKeeps s (storeMain orderly (haltMain orderly cause s)) :=
    (ResetKeeps.of_hedgePart (hedgePart_haltMain orderly cause s) (haltMain_spu orderly cause s)).storeMain orderly
  exact ⟨h.mayStart, h.cold, h.thermalTrips, h.part, h.record⟩

/-! ### Starts -/

/-- Where everything that T0 needs is there and no Primer runs, Primer begins (R530). -/
theorem tryStart_starts {s : State} (hmay : mayStart s = true) (hstage : s.host.stage = 0) : tryStart s = startPrimer s := by
  rw [tryStart, hmay, hstage, decide_eq_true rfl, Bool.and_self, if_pos rfl]

/-- A warm restart resets a Main domain that runs, and Primer begins (R533). -/
theorem warmRestart_starts {s : State} (hmay : mayStart s = true) (hstage : s.host.stage ≠ 0) :
    warmRestart s = startPrimer (resetMain true 8 true s) := by
  rw [warmRestart, if_neg hstage, tryStart_starts ((resetMain_keeps true 8 true s).mayStart.trans hmay) rfl]

end Sys2Proof.Machine
end

section
/-!
SUPPORT. Starts, resets and JTAG, branch by branch; O43.
-/

namespace Sys2Proof.Machine

variable {s : State}

/-- A cold start begins Primer at stage 1 where the rails are within their windows and RESET_N is released (R530). -/
theorem coldStart_stage (released rails : Bool) (s : State) :
    (coldStart released rails s).host.stage = if released && rails then 1 else 0 := by
  cases released <;> cases rails <;> rfl

/-- What a cold start leaves does not depend on whether Primer begins. -/
theorem coldStart_keeps (released rails : Bool) (s : State) :
    (coldStart released rails s).hedge.aoOk = true ∧ (coldStart released rails s).hedge.resetN = released
      ∧ (coldStart released rails s).hedge.mainOk = rails ∧ (coldStart released rails s).host.ctxs = []
      ∧ (coldStart released rails s).plans = [] ∧ (coldStart released rails s).spu.record = s.spu.record := by
  unfold coldStart tryStart
  split
  all_goals exact ⟨rfl, rfl, rfl, rfl, rfl, rfl⟩

/-- Primer answers configuration requests from stage 2 on, with a retry before stage 5 (R531). -/
theorem configurationRequest_answered (port : BitVec 1) (hruns : s.hedge.stopped = false) (hstage : 2 ≤ s.host.stage.toNat) :
    execConfigurationRequest port s = .next (emit (.config port.toNat (decide (s.host.stage.toNat < 5))) s) := by
  simp only [execConfigurationRequest, hruns, not_lt.2 hstage, decide_false, Bool.or_self, Bool.false_eq_true, if_false]

/-- EXTEST with RESET_N released acts as BYPASS (R535; log entry 172). -/
theorem loadJtag_extest (hreleased : s.hedge.resetN = true) : loadJtag .extest s = modHedge (fun h => { h with jtag := .bypass }) s := by
  simp only [loadJtag, hreleased, decide_true, Bool.and_self, if_true, reduceCtorEq, if_false]

/-- An instruction other than EXTEST is loaded; IDCODE shows the device's code (R535). -/
theorem loadJtag_other {j : JtagInstr} (hextest : j ≠ .extest) :
    loadJtag j s = if j = .idcode then emit (.idcode (idcode s)) (modHedge (fun h => { h with jtag := j }) s) else
      modHedge (fun h => { h with jtag := j }) s := by
  simp only [loadJtag, hextest, decide_false, Bool.false_and, Bool.false_eq_true, if_false]

/-- A running MP takes the measured shifts of the sixteen sites and adds the hours (R568). -/
theorem measureAgeing_adds {shifts : List (BitVec 16)} (hours : Nat) (hup : s.pwr.mpUp = true) (hsites : shifts.length = 16) :
    measureAgeing shifts hours s = modHedge (fun h => { h with shifts := shifts, eqHours := h.eqHours + BitVec.ofNat 32 hours }) s := by
  simp only [measureAgeing, hup, hsites, ne_eq, not_true_eq_false, decide_false, Bool.not_true, Bool.or_self, Bool.false_eq_true, if_false]

end Sys2Proof.Machine

namespace Sys2Proof

open Sys2Proof.Machine

/-- Settles O43: each start by what it needs, each reset by what it keeps (log entries 6, 172, 174 and 235). -/
theorem startsAndResets : Obligations.StartsAndResets := by
  unfold Obligations.StartsAndResets
  intro s released rails j port
  refine ⟨?cold, ?release, ?hold, ?rails, ?lost, ?early, ?warm, ?spus, ?display, ?host, ?config, ?extest, ?jtag, ?idcode, ?saved, ?ageing⟩
  case cold => exact ⟨coldStart released rails s, rfl, coldStart_stage released rails s, coldStart_keeps released rails s⟩
  case release => rfl
  case hold =>
    intro hreleased hstage
    exact congrArg Host.Outcome.next
      ((if_pos hreleased).trans (congrArg (modHedge fun h => { h with resetN := false }) (if_neg hstage)))
  case rails =>
    intro hmay hstage
    have hstarts : tryStart (modHedge (fun h => { h with mainOk := true }) s) = startPrimer (modHedge (fun h => { h with mainOk := true }) s) :=
      tryStart_starts hmay hstage
    exact ⟨_, congrArg Host.Outcome.next hstarts, rfl, rfl, rfl⟩
  case lost => exact ⟨powerLost s, rfl, rfl, rfl, rfl, rfl, rfl, rfl, rfl, rfl⟩
  case early =>
    intro hstage
    exact congrArg Host.Outcome.next (if_pos hstage)
  case warm =>
    intro hmay hstage
    have hkeeps := resetMain_keeps true 8 true s
    refine ⟨_, congrArg Host.Outcome.next (warmRestart_starts hmay hstage), rfl, rfl, ?_, rfl, hkeeps.part, hkeeps.record⟩
    rw [← hkeeps.cold]
    rfl
  case spus => rfl
  case display => rfl
  case host => rfl
  case config =>
    intro hruns hstage
    exact configurationRequest_answered port hruns hstage
  case extest =>
    rintro hreleased rfl
    exact congrArg Host.Outcome.next (loadJtag_extest hreleased)
  case jtag =>
    intro hextest hidcode
    exact congrArg Host.Outcome.next ((loadJtag_other hextest).trans (if_neg hidcode))
  case idcode =>
    rintro rfl
    exact congrArg Host.Outcome.next (loadJtag_other (by decide))
  case saved => exact ⟨saveAvail s, rfl, rfl, rfl, rfl⟩
  case ageing =>
    intro shifts hours hup hsites
    exact congrArg Host.Outcome.next (measureAgeing_adds hours hup hsites)

end Sys2Proof
end

section
/-!
SUPPORT. Hedge's guards of inputs, heat, rails and the MP, branch by branch; O39.
-/

namespace Sys2Proof.Machine

section Guards

variable {s : State}

/-- The passing of time changes no power management. -/
@[simp] theorem advanceToTick_pwr (t : Nat) (s : State) : (advanceToTick t s).pwr = s.pwr := by
  unfold advanceToTick advance
  split
  · exact modTim_pwr _ s
  · rfl

/-! ### Inputs (R505) -/

/-- A trip engages its input's attenuator while always-on power is there (R505). -/
theorem rfTrip_engages (i : Nat) (hpower : s.hedge.aoOk = true) : rfTrip i true s = engage i 1 s := by
  simp only [rfTrip, hpower, Bool.true_or, Bool.and_self, if_true]

/-- A magnitude below the trip level leaves an input that is not engaged as it is (R505). -/
theorem rfTrip_below {i : Nat} (hfree : bit s.hedge.protect.toNat i = false) : rfTrip i false s = s := by
  simp only [rfTrip, hfree, Bool.or_self, Bool.and_false, Bool.false_eq_true, if_false]

/-- At the end of its hold time an input's attenuator releases, and its pairs settle (R100, R505). -/
theorem rfRelease_releases {i : Nat} (hengaged : bit s.hedge.protect.toNat i = true) :
    rfRelease i s =
      let t := modHedge (fun h => { h with protect := h.protect &&& ~~~(BitVec.ofNat 4 (2 ^ i)) }) (advanceToTick (nth s.hedge.holds i 0) s)
      (pairsOfInput i t).foldl (fun s n => modPair n (Pair.settle 256) s) t := by
  simp only [rfRelease, hengaged, Bool.not_true, Bool.false_eq_true, if_false]

/-! ### Heat (R506, R538) -/

section Sensor

variable {sensor : Nat} {temp : Int}

/-- A reading at or above throttle_c sets THROTTLE, is reported, and takes a step at once (R506, R538). -/
theorem throttleSet_sets (hcool : s.hedge.throttle = false) (hhot : 64 * (s.hedge.throttleC.toNat : Int) ≤ temp) :
    throttleSet sensor temp s =
      let t := modHedge (fun h => { h with throttle := true }) (sense sensor temp s)
      ladderDown (sendAdmin 0x0121 sensor (wrapInt 64 (tj t)) 1 0 t) := by
  have hcool' : (sense sensor temp s).hedge.throttle = false := hcool
  have hhot' : ¬ temp < 64 * ((sense sensor temp s).hedge.throttleC.toNat : Int) := not_lt.2 hhot
  simp only [throttleSet, hcool', hhot', decide_false, Bool.or_self, Bool.false_eq_true, if_false]

/-- While THROTTLE is set a reading is only taken (R506). -/
theorem throttleSet_set (hset : s.hedge.throttle = true) : throttleSet sensor temp s = sense sensor temp s := by
  have hset' : (sense sensor temp s).hedge.throttle = true := hset
  simp only [throttleSet, hset', Bool.true_or, if_true]

/-- THROTTLE clears 3 degrees below throttle_c, and the time until an undo counts from there (R506; log entry 164). -/
theorem throttleClear_clears (hset : s.hedge.throttle = true)
    (hcool : tj (sense sensor temp s) < 64 * (s.hedge.throttleC.toNat : Int) - 192) :
    throttleClear sensor temp s =
      let hot := sense sensor temp s
      let t := modHedge (fun h => { h with throttle := false }) { hot with pwr := { hot.pwr with stepTick := nowTick hot } }
      sendAdmin 0x0121 sensor (wrapInt 64 (tj t)) 2 0 t := by
  have hset' : (sense sensor temp s).hedge.throttle = true := hset
  have hcool' : tj (sense sensor temp s) < 64 * ((sense sensor temp s).hedge.throttleC.toNat : Int) - 192 := hcool
  simp only [throttleClear, hset', hcool', decide_true, Bool.and_self, if_true]

/-- The block that a trip resets: the reading is taken, and the time of one Primer counts (R540). -/
def tripping (sensor : Nat) (temp : Int) (s : State) : State :=
  let t := sense sensor temp s
  let nor := availImage (countLost 1100 { t with pwr := Pwr.restored t.pwr.norAvail }).pwr
  { t with pwr := { t.pwr with norAvail := BitVec.ofNat 64 nor } }

/-- A reading at or above trip_c resets the Main domain at once and holds it in reset (R506). -/
theorem thermalTrip_trips (hcold : s.hedge.tripped = false) (hhot : 64 * (s.hedge.tripC.toNat : Int) ≤ temp) :
    thermalTrip sensor temp s = modHedge (fun h => { h with tripped := true, thermalTrips := h.thermalTrips + 1 })
      (resetMain false 0 false (tripping sensor temp s)) := by
  have hcold' : (sense sensor temp s).hedge.tripped = false := hcold
  have hhot' : ¬ temp < 64 * ((sense sensor temp s).hedge.tripC.toNat : Int) := not_lt.2 hhot
  simp only [thermalTrip, hcold', hhot', decide_false, Bool.or_self, Bool.false_eq_true, if_false]
  rfl

end Sensor

/-- 2 s after the last step THROTTLE takes a further one (R538). -/
theorem thermalStep_steps (hset : s.hedge.throttle = true) (hup : s.pwr.mpUp = true) (hleft : s.pwr.step.toNat < 6) :
    thermalStep s = ladderTo (s.pwr.step.toNat + 1) false (advanceToTick (s.pwr.stepTick + 1600000000) s) := by
  simp only [thermalStep, hset, ladderDown, advanceToTick_pwr, hup, hleft, decide_true, Bool.and_self, if_true, tickRate, Nat.reduceMul]

/-- 10 s after the last step, with THROTTLE clear, a step is undone (R538; log entry 164). -/
theorem thermalUndo_undoes (hclear : s.hedge.throttle = false) (hup : s.pwr.mpUp = true) (hstep : s.pwr.step ≠ 0) :
    thermalUndo s = ladderTo (s.pwr.step.toNat - 1) true (advanceToTick (s.pwr.stepTick + 8000000000) s) := by
  simp only [thermalUndo, hclear, hup, hstep, decide_false, Bool.not_true, Bool.or_self, Bool.false_eq_true, if_false, tickRate, Nat.reduceMul]

/-! ### Rails and the MP (R507, R509) -/

/-- The first rail out of its window resets the Main domain (R507; log entry 162). -/
theorem supplyFault_resets (rail reading : Nat) (hin : s.hedge.railsOut = []) (hstage : s.host.stage ≠ 0) :
    supplyFault rail reading s = resetMain true 6 false (modHedge (fun h => { h with
      railsOut := [16 + rail], supplyLatch := true, supplyResets := h.supplyResets + 1, countRestart := true
      waiting := h.waiting ++ [(0x0126, 16 + rail, reading, 0)] }) s) := by
  simp only [supplyFault, hin, hstage, List.isEmpty_nil, Bool.not_true, Bool.false_eq_true, if_false]

/-- Primer may begin again once every rail has been within its window (R507). -/
theorem supplyRecovered_starts (hout : s.hedge.railsOut ≠ []) :
    supplyRecovered s = tryStart (modHedge (fun h => { h with railsOut := [] }) s) := by
  simp only [supplyRecovered, List.isEmpty_eq_false_iff.2 hout, Bool.false_eq_true, if_false]

/-- A first or second missed kick within 10 s resets the MP alone (R509). -/
theorem watchdogMiss_resets (hup : s.pwr.mpUp = true) (hfew : (recentResets s).length < 2) :
    watchdogMiss s = sendAdmin 0x0123 0 ((recentResets s).length + 1) 0 0 (freezeRecorder 5 (modHedge (fun h => { h with
      wdogResets := h.wdogResets + 1, wdogTicks := recentResets s ++ [nowTick s] }) { s with pwr := { s.pwr with mpUp := false } })) := by
  have htwo : ¬ 3 ≤ (recentResets s).length + 1 := by omega
  simp only [watchdogMiss, resetMp, hup, List.length_append, List.length_singleton, htwo, if_true, if_false]

/-- The MP runs again from its image once Primer is past stage 2 (R509). -/
theorem mpRestarted_runs (hstage : 2 < s.host.stage.toNat) : mpRestarted s = { s with pwr := { s.pwr with mpUp := true } } := by
  rw [mpRestarted, decide_eq_true hstage, if_pos rfl]

end Guards

end Sys2Proof.Machine

namespace Sys2Proof

open Sys2Proof.Machine

/-- Settles O39: each guard by what it reads and by the state that it finds (log entries 162, 163 and 164). -/
theorem hedgeGuards : Obligations.HedgeGuards := by
  unfold Obligations.HedgeGuards
  intro s i sensor temp rail reading hot
  refine ⟨?engages, ?below, ?releases, ?throttles, ?throttled, ?clears, ?steps, ?undoes, ?trips, ?supply, ?recovers, ?watchdog, ?restarts⟩
  case engages =>
    intro hpower
    exact congrArg Host.Outcome.next (rfTrip_engages i.toNat hpower)
  case below =>
    intro hfree
    exact congrArg Host.Outcome.next (rfTrip_below ((bit_toNat _ _).trans hfree))
  case releases =>
    intro hengaged t
    exact congrArg answers (rfRelease_releases ((bit_toNat _ _).trans hengaged))
  case throttles =>
    intro hcool hhot t
    exact congrArg answers (throttleSet_sets hcool hhot)
  case throttled =>
    intro hset
    exact congrArg answers (throttleSet_set hset)
  case clears =>
    intro hset hcool t
    exact congrArg answers (throttleClear_clears hset hcool)
  case steps =>
    intro hset hup hleft
    exact congrArg answers (thermalStep_steps hset hup hleft)
  case undoes =>
    intro hclear hup hstep
    exact congrArg answers (thermalUndo_undoes hclear hup hstep)
  case trips =>
    intro hcold hhot
    refine ⟨_, congrArg Host.Outcome.next (thermalTrip_trips hcold hhot), rfl, ?_, rfl, rfl, rfl, Bool.and_false _⟩
    exact congrArg (· + 1) (resetMain_keeps false 0 false (tripping sensor.toNat temp.toInt s)).thermalTrips
  case supply =>
    intro hin hstage
    exact congrArg Host.Outcome.next (supplyFault_resets rail.toNat reading.toNat hin hstage)
  case recovers =>
    intro hout
    exact congrArg Host.Outcome.next (supplyRecovered_starts hout)
  case watchdog =>
    intro hup hfew
    exact congrArg Host.Outcome.next (watchdogMiss_resets hup hfew)
  case restarts =>
    intro _ hstage
    exact congrArg answers (mpRestarted_runs hstage)

end Sys2Proof
end
